-- ==== Sys2Proof/Word.lean ====
section
/-! DEFINITION. The words of the machine (spec/00, R3; spec/07, R168, R172). -/
namespace Sys2Proof

/-- A byte of memory. -/
abbrev Byte := BitVec 8

/-- A 32-bit register or instruction word. -/
abbrev Word := BitVec 32

/-- A 64-bit pair, lane mask, PC or system register. -/
abbrev DWord := BitVec 64

/-- A 7-bit register field: values 0 to 95 name v0 to v95, values 96 to 127 name s0 to s31 (R172). -/
abbrev Reg := BitVec 7

/-- A finite map from numbers, as plain data: keys strictly rising, no entry equal to the default. -/
abbrev Sparse (α : Type) := List (Nat × α)

end Sys2Proof
end

