-- ==== Sys2Proof/Syntax.lean ====
section
/-! DEFINITION. The instructions and events of the UL-20A, one constructor per row of the table of steps:
319 encoded words (spec/07, R168 to R190) and 81 events without an encoding (spec/95).
Operands are the fields of the word, each at its own width; a 7-bit register field is a `Reg` (R172).
An event names, in plain numbers, the object it happens to (a unit, a core, a launch, a VD ...). -/
namespace Sys2Proof

/-- A step of the part. The docstring of a constructor cites the rule of spec/ that gives its effect. -/
inductive Instr where
  /-- ADD (R193). -/
  | add (d : Reg) (a : Reg) (b : Reg)
  /-- SUB (R193). -/
  | sub (d : Reg) (a : Reg) (b : Reg)
  /-- MIN.S (R193). -/
  | minS (d : Reg) (a : Reg) (b : Reg)
  /-- MIN.N (R193). -/
  | minN (d : Reg) (a : Reg) (b : Reg)
  /-- MAX.S (R193). -/
  | maxS (d : Reg) (a : Reg) (b : Reg)
  /-- MAX.N (R193). -/
  | maxN (d : Reg) (a : Reg) (b : Reg)
  /-- AND (R193). -/
  | and (d : Reg) (a : Reg) (b : Reg)
  /-- OR (R193). -/
  | or (d : Reg) (a : Reg) (b : Reg)
  /-- XOR (R193). -/
  | xor (d : Reg) (a : Reg) (b : Reg)
  /-- ANDN (R193). -/
  | andn (d : Reg) (a : Reg) (b : Reg)
  /-- SHL (R193). -/
  | shl (d : Reg) (a : Reg) (b : Reg)
  /-- SHR (R193). -/
  | shr (d : Reg) (a : Reg) (b : Reg)
  /-- SAR (R193). -/
  | sar (d : Reg) (a : Reg) (b : Reg)
  /-- ROTL (R193). -/
  | rotl (d : Reg) (a : Reg) (b : Reg)
  /-- ADDS (R193). -/
  | adds (d : Reg) (a : Reg) (b : Reg)
  /-- SUBS (R193). -/
  | subs (d : Reg) (a : Reg) (b : Reg)
  /-- ABSD (R193). -/
  | absd (d : Reg) (a : Reg) (b : Reg)
  /-- ADD.W (R193). -/
  | addW (d : Reg) (a : Reg) (b : Reg)
  /-- SUB.W (R193). -/
  | subW (d : Reg) (a : Reg) (b : Reg)
  /-- SHL.W (R193). -/
  | shlW (d : Reg) (a : Reg) (b : Reg)
  /-- SHR.W (R193). -/
  | shrW (d : Reg) (a : Reg) (b : Reg)
  /-- MOV (R193). -/
  | mov (d : Reg) (a : Reg)
  /-- MUL (R195). -/
  | mul (d : Reg) (a : Reg) (b : Reg)
  /-- MULH.S (R195). -/
  | mulhS (d : Reg) (a : Reg) (b : Reg)
  /-- MULH.N (R195). -/
  | mulhN (d : Reg) (a : Reg) (b : Reg)
  /-- MUL.W (R195). -/
  | mulW (d : Reg) (a : Reg) (b : Reg)
  /-- MAD (R195). -/
  | mad (d : Reg) (a : Reg) (b : Reg)
  /-- DIV.S (R195). -/
  | divS (d : Reg) (a : Reg) (b : Reg)
  /-- DIV.N (R195). -/
  | divN (d : Reg) (a : Reg) (b : Reg)
  /-- REM.S (R195). -/
  | remS (d : Reg) (a : Reg) (b : Reg)
  /-- REM.N (R195). -/
  | remN (d : Reg) (a : Reg) (b : Reg)
  /-- EQ (R196). -/
  | eq (p : BitVec 3) (a : Reg) (b : Reg)
  /-- NE (R196). -/
  | ne (p : BitVec 3) (a : Reg) (b : Reg)
  /-- LT.S (R196). -/
  | ltS (p : BitVec 3) (a : Reg) (b : Reg)
  /-- LE.S (R196). -/
  | leS (p : BitVec 3) (a : Reg) (b : Reg)
  /-- LT.N (R196). -/
  | ltN (p : BitVec 3) (a : Reg) (b : Reg)
  /-- LE.N (R196). -/
  | leN (p : BitVec 3) (a : Reg) (b : Reg)
  /-- TST (R196). -/
  | tst (p : BitVec 3) (a : Reg) (b : Reg)
  /-- TSTZ (R196). -/
  | tstz (p : BitVec 3) (a : Reg) (b : Reg)
  /-- POPC (R197). -/
  | popc (d : Reg) (a : Reg)
  /-- CLZ (R197). -/
  | clz (d : Reg) (a : Reg)
  /-- CTZ (R197). -/
  | ctz (d : Reg) (a : Reg)
  /-- BREV (R197). -/
  | brev (d : Reg) (a : Reg)
  /-- BFE.S (R197). -/
  | bfeS (d : Reg) (a : Reg) (b : Reg)
  /-- BFE.N (R197). -/
  | bfeN (d : Reg) (a : Reg) (b : Reg)
  /-- BFI (R197). -/
  | bfi (d : Reg) (a : Reg) (b : Reg)
  /-- PERMB (R197). -/
  | permb (d : Reg) (a : Reg) (b : Reg)
  /-- SEL (R198). -/
  | sel (k : BitVec 3) (d : Reg) (a : Reg) (b : Reg)
  /-- PAND (R198). -/
  | pand (d : BitVec 3) (a : BitVec 3) (b : BitVec 3)
  /-- POR (R198). -/
  | por (d : BitVec 3) (a : BitVec 3) (b : BitVec 3)
  /-- PXOR (R198). -/
  | pxor (d : BitVec 3) (a : BitVec 3) (b : BitVec 3)
  /-- PANDN (R198). -/
  | pandn (d : BitVec 3) (a : BitVec 3) (b : BitVec 3)
  /-- P2S (R198). -/
  | p2s (d : Reg) (a : BitVec 3)
  /-- S2P (R198). -/
  | s2p (d : BitVec 3) (a : Reg)
  /-- DMAC2.SS (R199). -/
  | dmac2Ss (d : Reg) (a : Reg) (b : Reg)
  /-- DMAC2 (R199). -/
  | dmac2 (d : Reg) (a : Reg) (b : Reg)
  /-- ADD2.S (R199). -/
  | add2S (d : Reg) (a : Reg) (b : Reg)
  /-- SUB2.S (R199). -/
  | sub2S (d : Reg) (a : Reg) (b : Reg)
  /-- MUL2.Q15 (R199). -/
  | mul2Q15 (d : Reg) (a : Reg) (b : Reg)
  /-- SHRR (R199). -/
  | shrr (d : Reg) (a : Reg) (b : Reg)
  /-- PACK2.S (R199). -/
  | pack2S (d : Reg) (a : Reg) (b : Reg)
  /-- UNPK2 (R199). -/
  | unpk2 (d : Reg) (a : Reg)
  /-- ADDI (R194). -/
  | addi (d : Reg) (a : Reg) (imm : BitVec 9)
  /-- ANDI (R194). -/
  | andi (d : Reg) (a : Reg) (imm : BitVec 9)
  /-- ORI (R194). -/
  | ori (d : Reg) (a : Reg) (imm : BitVec 9)
  /-- XORI (R194). -/
  | xori (d : Reg) (a : Reg) (imm : BitVec 9)
  /-- SHLI (R194). -/
  | shli (d : Reg) (a : Reg) (imm : BitVec 9)
  /-- SHRI (R194). -/
  | shri (d : Reg) (a : Reg) (imm : BitVec 9)
  /-- SARI (R194). -/
  | sari (d : Reg) (a : Reg) (imm : BitVec 9)
  /-- MOVI (R194). -/
  | movi (d : Reg) (imm : BitVec 9)
  /-- FADD (R220). -/
  | fadd (rm : BitVec 3) (d : Reg) (a : Reg) (b : Reg)
  /-- FSUB (R220). -/
  | fsub (rm : BitVec 3) (d : Reg) (a : Reg) (b : Reg)
  /-- FMUL (R220). -/
  | fmul (rm : BitVec 3) (d : Reg) (a : Reg) (b : Reg)
  /-- FDIV (R220). -/
  | fdiv (rm : BitVec 3) (d : Reg) (a : Reg) (b : Reg)
  /-- FMA (R221). -/
  | fma (rm : BitVec 3) (d : Reg) (a : Reg) (b : Reg)
  /-- FMS (R221). -/
  | fms (rm : BitVec 3) (d : Reg) (a : Reg) (b : Reg)
  /-- FNMA (R221). -/
  | fnma (rm : BitVec 3) (d : Reg) (a : Reg) (b : Reg)
  /-- HADD2 (R222). -/
  | hadd2 (rm : BitVec 3) (d : Reg) (a : Reg) (b : Reg)
  /-- HMUL2 (R222). -/
  | hmul2 (rm : BitVec 3) (d : Reg) (a : Reg) (b : Reg)
  /-- HFMA2 (R222). -/
  | hfma2 (rm : BitVec 3) (d : Reg) (a : Reg) (b : Reg)
  /-- BADD2 (R222). -/
  | badd2 (rm : BitVec 3) (d : Reg) (a : Reg) (b : Reg)
  /-- BMUL2 (R222). -/
  | bmul2 (rm : BitVec 3) (d : Reg) (a : Reg) (b : Reg)
  /-- BFMA2 (R222). -/
  | bfma2 (rm : BitVec 3) (d : Reg) (a : Reg) (b : Reg)
  /-- FMIN (R223). -/
  | fmin (d : Reg) (a : Reg) (b : Reg)
  /-- FMAX (R223). -/
  | fmax (d : Reg) (a : Reg) (b : Reg)
  /-- FMIN.NAN (R223). -/
  | fminNan (d : Reg) (a : Reg) (b : Reg)
  /-- FMAX.NAN (R223). -/
  | fmaxNan (d : Reg) (a : Reg) (b : Reg)
  /-- FABS (R224). -/
  | fabs (d : Reg) (a : Reg)
  /-- FNEG (R224). -/
  | fneg (d : Reg) (a : Reg)
  /-- FCLASS (R224). -/
  | fclass (d : Reg) (a : Reg)
  /-- FCMP.EQ (R225). -/
  | fcmpEq (p : BitVec 3) (a : Reg) (b : Reg)
  /-- FCMP.NE (R225). -/
  | fcmpNe (p : BitVec 3) (a : Reg) (b : Reg)
  /-- FCMP.LT (R225). -/
  | fcmpLt (p : BitVec 3) (a : Reg) (b : Reg)
  /-- FCMP.LE (R225). -/
  | fcmpLe (p : BitVec 3) (a : Reg) (b : Reg)
  /-- FCMP.UN (R225). -/
  | fcmpUn (p : BitVec 3) (a : Reg) (b : Reg)
  /-- HMIN2 (R223). -/
  | hmin2 (d : Reg) (a : Reg) (b : Reg)
  /-- HMAX2 (R223). -/
  | hmax2 (d : Reg) (a : Reg) (b : Reg)
  /-- BMIN2 (R223). -/
  | bmin2 (d : Reg) (a : Reg) (b : Reg)
  /-- BMAX2 (R223). -/
  | bmax2 (d : Reg) (a : Reg) (b : Reg)
  /-- RCP (R227). -/
  | rcp (d : Reg) (a : Reg)
  /-- RSQ (R227). -/
  | rsq (d : Reg) (a : Reg)
  /-- SQRT (R227). -/
  | sqrt (d : Reg) (a : Reg)
  /-- EXP2 (R227). -/
  | exp2 (d : Reg) (a : Reg)
  /-- LOG2 (R227). -/
  | log2 (d : Reg) (a : Reg)
  /-- SINPI (R227). -/
  | sinpi (d : Reg) (a : Reg)
  /-- COSPI (R227). -/
  | cospi (d : Reg) (a : Reg)
  /-- TANH (R227). -/
  | tanh (d : Reg) (a : Reg)
  /-- SIGM (R227). -/
  | sigm (d : Reg) (a : Reg)
  /-- CVT (R229). -/
  | cvt (rm : BitVec 3) (d : Reg) (a : Reg) (s : BitVec 3) (t : BitVec 4)
  /-- CVT.PK (R230). -/
  | cvtPk (rm : BitVec 3) (d : Reg) (a : Reg) (s : BitVec 3) (t : BitVec 4)
  /-- CVT.SAT (R229). -/
  | cvtSat (rm : BitVec 3) (d : Reg) (a : Reg) (s : BitVec 3) (t : BitVec 4)
  /-- CVT.XI (R231). -/
  | cvtXi (rm : BitVec 3) (d : Reg) (a : Reg) (s : BitVec 3) (t : BitVec 4)
  /-- CVTQ (R114). -/
  | cvtq (d : Reg) (a : Reg) (b : Reg)
  /-- MXSCALE (R234). -/
  | mxscale (d : Reg) (a : Reg) (b : Reg)
  /-- MXPACK (R235). -/
  | mxpack (d : Reg) (a : Reg) (b : Reg)
  /-- SLIDEUP (R237). -/
  | slideup (d : Reg) (a : Reg) (b : Reg)
  /-- SLIDEDN (R237). -/
  | slidedn (d : Reg) (a : Reg) (b : Reg)
  /-- SHUF (R237). -/
  | shuf (d : Reg) (a : Reg) (b : Reg)
  /-- XSHUF (R237). -/
  | xshuf (d : Reg) (a : Reg) (b : Reg)
  /-- BCAST (R237). -/
  | bcast (d : Reg) (a : Reg) (b : Reg)
  /-- ROT (R237). -/
  | rot (d : Reg) (a : Reg) (b : Reg)
  /-- VTOS (R237). -/
  | vtos (d : Reg) (a : Reg) (b : Reg)
  /-- FIRST (R237). -/
  | first (d : Reg) (a : Reg)
  /-- RADD (R238). -/
  | radd (d : Reg) (a : Reg)
  /-- RMIN.S (R238). -/
  | rminS (d : Reg) (a : Reg)
  /-- RMAX.S (R238). -/
  | rmaxS (d : Reg) (a : Reg)
  /-- FRADD (R116). -/
  | fradd (d : Reg) (a : Reg)
  /-- FRMAX (R116). -/
  | frmax (d : Reg) (a : Reg)
  /-- BALLOT (R238). -/
  | ballot (d : Reg) (a : BitVec 3)
  /-- ANY (R238). -/
  | anyOf (d : BitVec 3) (a : BitVec 3)
  /-- ALL (R238). -/
  | allOf (d : BitVec 3) (a : BitVec 3)
  /-- PSCAN.EX (R238). -/
  | pscanEx (d : Reg) (a : Reg)
  /-- PSCAN.IN (R238). -/
  | pscanIn (d : Reg) (a : Reg)
  /-- MATCH (R238). -/
  | matchEq (d : Reg) (a : Reg)
  /-- DADD (R175). -/
  | dadd (rm : BitVec 3) (d : Reg) (a : Reg) (b : Reg)
  /-- DSUB (R175). -/
  | dsub (rm : BitVec 3) (d : Reg) (a : Reg) (b : Reg)
  /-- DMUL (R175). -/
  | dmul (rm : BitVec 3) (d : Reg) (a : Reg) (b : Reg)
  /-- DDIV (R175). -/
  | ddiv (rm : BitVec 3) (d : Reg) (a : Reg) (b : Reg)
  /-- DFMA (R175). -/
  | dfma (rm : BitVec 3) (d : Reg) (a : Reg) (b : Reg)
  /-- DFMS (R175). -/
  | dfms (rm : BitVec 3) (d : Reg) (a : Reg) (b : Reg)
  /-- DFNMA (R175). -/
  | dfnma (rm : BitVec 3) (d : Reg) (a : Reg) (b : Reg)
  /-- CHAIN (R243). -/
  | chain (fn : BitVec 3) (d : Reg) (a : Reg) (q : BitVec 4)
  /-- LD.B (R248). -/
  | ldB (d : Reg) (o : Reg) (q : BitVec 4) (imm : BitVec 5)
  /-- LD.SB (R248). -/
  | ldSb (d : Reg) (o : Reg) (q : BitVec 4) (imm : BitVec 5)
  /-- LD.H (R248). -/
  | ldH (d : Reg) (o : Reg) (q : BitVec 4) (imm : BitVec 5)
  /-- LD.SH (R248). -/
  | ldSh (d : Reg) (o : Reg) (q : BitVec 4) (imm : BitVec 5)
  /-- LD.W (R248). -/
  | ldW (d : Reg) (o : Reg) (q : BitVec 4) (imm : BitVec 5)
  /-- LD.D (R248). -/
  | ldD (d : Reg) (o : Reg) (q : BitVec 4) (imm : BitVec 5)
  /-- LD.Q (R248). -/
  | ldQ (d : Reg) (o : Reg) (q : BitVec 4) (imm : BitVec 5)
  /-- ST.B (R248). -/
  | stB (d : Reg) (o : Reg) (q : BitVec 4) (imm : BitVec 5)
  /-- ST.H (R248). -/
  | stH (d : Reg) (o : Reg) (q : BitVec 4) (imm : BitVec 5)
  /-- ST.W (R248). -/
  | stW (d : Reg) (o : Reg) (q : BitVec 4) (imm : BitVec 5)
  /-- ST.D (R248). -/
  | stD (d : Reg) (o : Reg) (q : BitVec 4) (imm : BitVec 5)
  /-- ST.Q (R248). -/
  | stQ (d : Reg) (o : Reg) (q : BitVec 4) (imm : BitVec 5)
  /-- LDS.W (R250). -/
  | ldsW (d : Reg) (a : Reg) (imm : BitVec 9)
  /-- LDS.D (R250). -/
  | ldsD (d : Reg) (a : Reg) (imm : BitVec 9)
  /-- LDS.Q (R250). -/
  | ldsQ (d : Reg) (a : Reg) (imm : BitVec 9)
  /-- LDS.H (R250). -/
  | ldsH (d : Reg) (a : Reg) (imm : BitVec 9)
  /-- STS.W (R250). -/
  | stsW (d : Reg) (a : Reg) (imm : BitVec 9)
  /-- STS.D (R250). -/
  | stsD (d : Reg) (a : Reg) (imm : BitVec 9)
  /-- STS.Q (R250). -/
  | stsQ (d : Reg) (a : Reg) (imm : BitVec 9)
  /-- STS.H (R250). -/
  | stsH (d : Reg) (a : Reg) (imm : BitVec 9)
  /-- LDC (R252). -/
  | ldc (d : Reg) (o : Reg) (q : BitVec 4) (imm : BitVec 5)
  /-- STC (R253). -/
  | stc (d : Reg) (o : Reg) (q : BitVec 4) (imm : BitVec 5)
  /-- LDC.L (R252). -/
  | ldcL (d : Reg) (o : Reg) (imm : BitVec 5)
  /-- STC.L (R253). -/
  | stcL (d : Reg) (o : Reg) (imm : BitVec 5)
  /-- AADD (R256). -/
  | aadd (d : Reg) (a : Reg) (o : BitVec 3) (q : BitVec 4)
  /-- AMIN.S (R256). -/
  | aminS (d : Reg) (a : Reg) (o : BitVec 3) (q : BitVec 4)
  /-- AMAX.S (R256). -/
  | amaxS (d : Reg) (a : Reg) (o : BitVec 3) (q : BitVec 4)
  /-- AMIN.N (R256). -/
  | aminN (d : Reg) (a : Reg) (o : BitVec 3) (q : BitVec 4)
  /-- AMAX.N (R256). -/
  | amaxN (d : Reg) (a : Reg) (o : BitVec 3) (q : BitVec 4)
  /-- AAND (R256). -/
  | aand (d : Reg) (a : Reg) (o : BitVec 3) (q : BitVec 4)
  /-- AOR (R256). -/
  | aor (d : Reg) (a : Reg) (o : BitVec 3) (q : BitVec 4)
  /-- AXOR (R256). -/
  | axor (d : Reg) (a : Reg) (o : BitVec 3) (q : BitVec 4)
  /-- AXCHG (R256). -/
  | axchg (d : Reg) (a : Reg) (o : BitVec 3) (q : BitVec 4)
  /-- ACAS (R256). -/
  | acas (d : Reg) (a : Reg) (o : BitVec 3) (q : BitVec 4)
  /-- AFADD (R110). -/
  | afadd (d : Reg) (a : Reg) (o : BitVec 3) (q : BitVec 4)
  /-- ABFADD2 (R110). -/
  | abfadd2 (d : Reg) (a : Reg) (o : BitVec 3) (q : BitVec 4)
  /-- AXCHG.W (R256). -/
  | axchgW (d : Reg) (a : Reg) (o : BitVec 3) (q : BitVec 4)
  /-- ACAS.W (R256). -/
  | acasW (d : Reg) (a : Reg) (o : BitVec 3) (q : BitVec 4)
  /-- RDADD (R129). -/
  | rdadd (d : Reg) (a : Reg) (o : BitVec 3) (q : BitVec 4)
  /-- RDMIN (R129). -/
  | rdmin (d : Reg) (a : Reg) (o : BitVec 3) (q : BitVec 4)
  /-- RDMAX (R129). -/
  | rdmax (d : Reg) (a : Reg) (o : BitVec 3) (q : BitVec 4)
  /-- RDFADD (R110). -/
  | rdfadd (d : Reg) (a : Reg) (o : BitVec 3) (q : BitVec 4)
  /-- RDBFADD2 (R110). -/
  | rdbfadd2 (d : Reg) (a : Reg) (o : BitVec 3) (q : BitVec 4)
  /-- RDINC (R129). -/
  | rdinc (a : Reg) (o : BitVec 3) (q : BitVec 4)
  /-- TBEG (R258). -/
  | tbeg
  /-- TEND (R259). -/
  | tend (d : Reg)
  /-- TABT (R260). -/
  | tabt
  /-- TTEST (R260). -/
  | ttest (d : Reg)
  /-- FENCE (R152). -/
  | fence (o : BitVec 3) (s : BitVec 2)
  /-- BAR.G (R45). -/
  | barG
  /-- BAR.L (R46). -/
  | barL
  /-- BAR.L.YIELD (R49). -/
  | barLYield
  /-- WAITPH (R263). -/
  | waitph (a : Reg) (p : BitVec 1)
  /-- TLWAIT (R264). -/
  | tlwait (a : Reg) (q : BitVec 4)
  /-- TLWAIT.W (R264). -/
  | tlwaitW (a : Reg) (q : BitVec 4)
  /-- WAITA (R265). -/
  | waita (a : Reg) (b : Reg)
  /-- WAITA (R265). -/
  | waitaGlobal (q : BitVec 4) (a : Reg) (b : Reg)
  /-- MFENCE (R266). -/
  | mfence (d : Reg)
  /-- MWAIT (R266). -/
  | mwait (a : Reg)
  /-- LEARLY (R52). -/
  | learly
  /-- LWAITP (R53). -/
  | lwaitp
  /-- YIELD (R267). -/
  | yield
  /-- TLREAD (R267). -/
  | tlread (d : Reg) (q : BitVec 4)
  /-- COPY (R271). -/
  | copy (d : Reg) (a : Reg) (q : BitVec 4)
  /-- COPYG (R271). -/
  | copyg (d : Reg) (a : Reg) (q : BitVec 4)
  /-- COPYS (R271). -/
  | copys (d : Reg) (a : Reg) (q : BitVec 4)
  /-- TILEST (R273). -/
  | tilest (d : Reg) (a : Reg) (q : BitVec 4)
  /-- TILELD (R273). -/
  | tileld (d : Reg) (a : Reg) (q : BitVec 4)
  /-- REGROUP (R275). -/
  | regroup (d : Reg) (a : Reg) (q : BitVec 4)
  /-- LOFTLD (R277). -/
  | loftld (d : Reg) (a : Reg) (q : BitVec 4)
  /-- LOFTEV (R277). -/
  | loftev (d : Reg) (a : Reg) (q : BitVec 4)
  /-- COLL (R279). -/
  | coll (d : Reg) (a : Reg) (q : BitVec 4)
  /-- MMA (R302). -/
  | mma (c : BitVec 5) (a : BitVec 5) (b : Reg) (z : BitVec 1)
  /-- MMA.Z (R302). -/
  | mmaZ (c : BitVec 5) (a : BitVec 5) (b : Reg) (z : BitVec 1)
  /-- MMA.T (R302). -/
  | mmaT (c : BitVec 5) (a : BitVec 5) (b : Reg) (z : BitVec 1)
  /-- MMAS (R302). -/
  | mmas (c : BitVec 5) (a : BitVec 5) (b : Reg) (z : BitVec 1)
  /-- MMAX (R302). -/
  | mmax (c : BitVec 5) (a : BitVec 5) (b : Reg) (z : BitVec 1)
  /-- CRES (R287). -/
  | cres (c : BitVec 5) (a : Reg)
  /-- CREL (R287). -/
  | crel (c : BitVec 5)
  /-- CLD (R288). -/
  | cld (d : Reg) (a : Reg) (q : BitVec 4)
  /-- CST (R288). -/
  | cst (d : Reg) (a : Reg) (q : BitVec 4)
  /-- CZERO (R289). -/
  | czero (c : BitVec 5)
  /-- MROW (R290). -/
  | mrow (a : Reg)
  /-- MCOL (R290). -/
  | mcol (a : Reg)
  /-- DRAIN (R311). -/
  | drain (d : Reg) (a : Reg) (q : BitVec 4)
  /-- SIEVE.RD (R313). -/
  | sieveRd (d : Reg) (a : Reg)
  /-- SIEVE.CLR (R313). -/
  | sieveClr
  /-- SIEVE.CFG (R313). -/
  | sieveCfg (a : Reg) (q : BitVec 4)
  /-- LHSET (R294). -/
  | lhset (a : Reg) (b : Reg)
  /-- LHSET.REL (R294). -/
  | lhsetRel (a : Reg)
  /-- LHGET (R294). -/
  | lhget (a : Reg) (b : Reg)
  /-- LHPIN (R294). -/
  | lhpin (a : Reg)
  /-- LHUNPIN (R294). -/
  | lhunpin (a : Reg)
  /-- TDESC (R331). -/
  | tdesc (d : Reg) (q : BitVec 4)
  /-- TDESC.REL (R331). -/
  | tdescRel (d : Reg) (q : BitVec 4)
  /-- RECIPE (R332). -/
  | recipe (d : Reg) (a : BitVec 4) (q : BitVec 4)
  /-- TPIN (R333). -/
  | tpin (d : Reg) (q : BitVec 4)
  /-- TUNPIN (R333). -/
  | tunpin (d : Reg) (q : BitVec 4)
  /-- TPROBE (R333). -/
  | tprobe (d : Reg) (q : BitVec 4)
  /-- TDROP (R333). -/
  | tdrop (d : Reg) (q : BitVec 4)
  /-- REGROWN (R334). -/
  | regrown
  /-- CSETB (R65). -/
  | csetb (d : BitVec 4) (a : Reg) (q : BitVec 4)
  /-- CSETBX (R65). -/
  | csetbx (d : BitVec 4) (a : Reg) (q : BitVec 4)
  /-- CANDP (R207). -/
  | candp (d : BitVec 4) (a : Reg) (q : BitVec 4)
  /-- CINC (R207). -/
  | cinc (d : BitVec 4) (a : Reg) (q : BitVec 4)
  /-- CSETA (R207). -/
  | cseta (d : BitVec 4) (a : Reg) (q : BitVec 4)
  /-- CGETB (R207). -/
  | cgetb (d : Reg) (q : BitVec 4)
  /-- CGETB.CUR (R207). -/
  | cgetbCur (d : Reg) (q : BitVec 4)
  /-- CGETL (R207). -/
  | cgetl (d : Reg) (q : BitVec 4)
  /-- CGETP (R207). -/
  | cgetp (d : Reg) (q : BitVec 4)
  /-- CGETO (R207). -/
  | cgeto (d : Reg) (q : BitVec 4)
  /-- CGETT (R207). -/
  | cgett (d : Reg) (q : BitVec 4)
  /-- CMOV (R208). -/
  | cmov (d : BitVec 4) (q : BitVec 4)
  /-- CMOV (R208). -/
  | cmovToLanes (d : Reg) (q : BitVec 4)
  /-- CMOV (R208). -/
  | cmovFromLane (d : BitVec 4) (a : Reg)
  /-- CCLR (R207). -/
  | cclr (d : BitVec 4)
  /-- CTSTSUB (R207). -/
  | ctstsub (d : Reg) (a : BitVec 4) (q : BitVec 4)
  /-- CSEAL (R73). -/
  | cseal (d : BitVec 4) (a : BitVec 4) (q : BitVec 4)
  /-- CUNSEAL (R73). -/
  | cunseal (d : BitVec 4) (a : BitVec 4) (q : BitVec 4)
  /-- CSEALE (R75). -/
  | cseale (d : BitVec 4) (q : BitVec 4)
  /-- CINVOKE (R75). -/
  | cinvoke (d : BitVec 4) (q : BitVec 4)
  /-- SEND (R77). -/
  | send (d : Reg) (a : Reg) (q : BitVec 4)
  /-- RECV (R77). -/
  | recv (d : Reg) (q : BitVec 4)
  /-- CALL (R79). -/
  | callMsg (d : Reg) (a : Reg) (q : BitVec 4)
  /-- REPLY (R79). -/
  | reply (d : Reg) (a : Reg) (q : BitVec 4)
  /-- NBSEND (R80). -/
  | nbsend (d : Reg) (a : Reg) (q : BitVec 4)
  /-- SIGNAL (R80). -/
  | signal (q : BitVec 4)
  /-- WAITN (R80). -/
  | waitn (d : Reg) (q : BitVec 4)
  /-- SPAWN (R214). -/
  | spawn (d : Reg) (q : BitVec 4)
  /-- JOIN (R215). -/
  | join (a : Reg) (q : BitVec 4)
  /-- SVC (R83). -/
  | svc (d : Reg) (a : Reg)
  /-- REVOKE (R429). -/
  | revoke (d : Reg) (q : BitVec 4)
  /-- BRA (R200). -/
  | bra (o : BitVec 20)
  /-- BRP (R42). -/
  | brp (p : BitVec 3) (o : BitVec 20)
  /-- BRN (R42). -/
  | brn (p : BitVec 3) (o : BitVec 20)
  /-- BRALL (R200). -/
  | brall (o : BitVec 20)
  /-- BRANY (R200). -/
  | brany (o : BitVec 20)
  /-- BRNONE (R200). -/
  | brnone (o : BitVec 20)
  /-- CALL (R200). -/
  | branchCall (o : BitVec 20)
  /-- REC (R202). -/
  | recMark (imm : BitVec 9)
  /-- PATH (R202). -/
  | path (a : Reg) (imm : BitVec 9)
  /-- PYIELD (R202). -/
  | pyield
  /-- RET (R203). -/
  | ret (a : Reg)
  /-- JMPR (R203). -/
  | jmpr (a : Reg)
  /-- CALLR (R203). -/
  | callr (d : Reg) (a : Reg)
  /-- SRD (R204). -/
  | srd (d : Reg) (b : Reg)
  /-- SWR (R204). -/
  | swr (a : Reg) (b : Reg)
  /-- XRET.RETRY (R184). -/
  | xretRetry
  /-- XRET.SKIP (R184). -/
  | xretSkip
  /-- NOP (R204). -/
  | nop
  /-- EXIT (R205). -/
  | exit
  /-- BRK (R180). -/
  | brk (b : Reg)
  /-- CLOCK (R206). -/
  | clock (d : Reg)
  /-- ROLE (R57). -/
  | role (r : BitVec 2)
  /-- SYSRD (R352). -/
  | sysrd (d : Reg) (a : Reg)
  /-- SYSWR (R353). -/
  | syswr (d : Reg) (a : Reg) (b : Reg)
  /-- TLBINV (R423). -/
  | tlbinv (a : Reg) (b : Reg)
  /-- TLBINVA (R423). -/
  | tlbinva (b : Reg)
  /-- TLBINVA.ALL (R423). -/
  | tlbinvaAll
  /-- PTWSYNC (R423). -/
  | ptwsync
  /-- ERET (R450). -/
  | eret (d : Reg) (a : Reg) (q : BitVec 4)
  /-- HALTCTX (R448). -/
  | haltctx (d : Reg) (q : BitVec 4)
  /-- HALTCTX.SAVE (R448). -/
  | haltctxSave (d : Reg) (q : BitVec 4)
  /-- RESUMECTX (R448). -/
  | resumectx (d : Reg) (a : Reg) (q : BitVec 4)
  /-- STOPRD (R447). -/
  | stoprd (d : BitVec 4) (q : BitVec 4)
  /-- QDRAIN (R445). -/
  | qdrain (d : Reg) (q : BitVec 4)
  /-- OBJNEW (R356). -/
  | objnew (d : BitVec 4) (a : Reg) (q : BitVec 4)
  /-- PLOAD (R391). -/
  | pload (d : Reg) (a : Reg) (q : BitVec 4)
  /-- PSWAP (R392). -/
  | pswap (d : Reg) (a : Reg)
  /-- PSTAT (R392). -/
  | pstat (d : Reg) (a : Reg) (b : Reg)
  /-- IMM (R178). -/
  | imm (h : BitVec 23)
  /-- GUARD (R179). -/
  | guard (p : BitVec 3) (n : BitVec 1)
  /-- SCHED (R178). -/
  | sched (s : BitVec 4) (y : BitVec 1) (r : BitVec 3)
  /-- RMODE (R103). -/
  | rmode (rm : BitVec 3) (t : BitVec 2)
  /-- CHAINOP (R179). -/
  | chainop (a : BitVec 11) (b : BitVec 11)
  /-- OFFHI (R171). -/
  | offhi (h : BitVec 23)
  /-- MATX (R299). -/
  | matx (k : BitVec 10) (start : BitVec 7) (strm : BitVec 2)
  /-- UNIT_STOP (R436). -/
  | unitStop (u : Nat)
  /-- FAULT_DECISION (R387). -/
  | faultDecision (part : Nat)
  /-- DISPATCH_DECISION (R384). -/
  | dispatchDecision (part : Nat)
  /-- PRESSURE_DECISION (R384). -/
  | pressureDecision (part : Nat)
  /-- STEP_BUDGET_OVERRUN (R390). -/
  | stepBudgetOverrun (part : Nat)
  /-- KILL (R443). -/
  | kill (ctx : Nat)
  /-- RESUME (R443). -/
  | resume (ctx : Nat)
  /-- NOTIFY (R443). -/
  | notify (ctx : Nat)
  /-- WATCHDOG_HANG (R396). -/
  | watchdogHang (ctx : Nat) (die : Nat)
  /-- WATCHDOG_DEADLOCK (R397). -/
  | watchdogDeadlock (ctx : Nat)
  /-- ECC_NO_CONSUMER (R23). -/
  | eccNoConsumer (ctx : Nat)
  /-- FORCED_SAVE (R394). -/
  | forcedSave (u : Nat)
  /-- RECONVERGENCE_HALT (R394). -/
  | reconvergenceHalt (u : Nat)
  /-- CORE_HANDOVER (R393). -/
  | coreHandover (core : Nat)
  /-- QUARANTINE_LANDING (R445). -/
  | quarantineLanding (core : Nat)
  /-- CONTEXT_RESTORE (R446). -/
  | contextRestore (ctx : Nat) (row0 : Nat) (col0 : Nat)
  /-- LAUNCH_READY (R376). -/
  | launchReady (lid : Nat)
  /-- GANG_DISPATCH (R380). -/
  | gangDispatch (lid : Nat)
  /-- PHASE_START (R48). -/
  | phaseStart (lid : Nat)
  /-- LAUNCH_COMPLETION (R162). -/
  | launchCompletion (lid : Nat)
  /-- FURROW_LAUNCH_PACKET (R375). -/
  | furrowLaunchPacket
  /-- ARRIVAL_UPDATE (R137). -/
  | arrivalUpdate (cmd : Nat)
  /-- ENGINE_COMMAND_COMPLETE (R134). -/
  | engineCommandComplete (cmd : Nat)
  /-- FUSED_SET_CLOSE (R305). -/
  | fusedSetClose (set : Nat)
  /-- PASS (R306). -/
  | pass (core : Nat)
  /-- CRIB_RESULT_WRITE (R306). -/
  | cribResultWrite (core : Nat)
  /-- BATCH_END (R308). -/
  | batchEnd (u : Nat)
  /-- REGROW_SERVE (R324). -/
  | regrowServe (tile : Nat)
  /-- REGROW_LAUNCH_COMPLETE (R326). -/
  | regrowLaunchComplete (tile : Nat)
  /-- BUCKET_REFILL (R399). -/
  | bucketRefill (kind : Nat) (inst : Nat)
  /-- ARBITRATION_ROUND (R400). -/
  | arbitrationRound (kind : Nat) (inst : Nat)
  /-- EPOCH_BEGIN (R431). -/
  | epochBegin (vd : Nat)
  /-- EPOCH_COMPLETE (R431). -/
  | epochComplete (vd : Nat)
  /-- MARK_RELEASE (R433). -/
  | markRelease (vd : Nat)
  /-- GLEANER_REQUEST_COMPLETE (R434). -/
  | gleanerRequestComplete (vd : Nat)
  /-- AGEING_SWAP (R44). -/
  | ageingSwap (u : Nat)
  /-- KERNEL_REENTRY (R450). -/
  | kernelReentry (n : Nat)
  /-- POLICY_SLOT_SWAP (R392). -/
  | policySlotSwap (part : Nat)
  /-- FRAME_RECEIVE (R453). -/
  | frameReceive
  /-- LINK_DOWN (R457). -/
  | linkDown (link : Nat)
  /-- PEER_TIMEOUT (R457). -/
  | peerTimeout (peer : Nat)
  /-- KEY_REPLACE (R457). -/
  | keyReplace (link : Nat)
  /-- HOST_SLOT_REQUEST (R467). -/
  | hostSlotRequest
  /-- INTERRUPT_SOURCE_FIRE (R80). -/
  | interruptSourceFire (source : Nat)
  /-- PARTDEF (R456). -/
  | partdef
  /-- VDCREATE (R456). -/
  | vdcreate
  /-- CLAIM (R456). -/
  | claim
  /-- MEASURE (R461). -/
  | measure
  /-- EXTEND (R456). -/
  | extend
  /-- VFRESET (R465). -/
  | vfreset
  /-- FUNCTION_LEVEL_RESET (R465). -/
  | functionLevelReset (vd : Nat)
  /-- EXPORT (R462). -/
  | exportVd
  /-- IMPORT (R463). -/
  | importVd
  /-- RELEASE_REQUEST (R463). -/
  | releaseRequest (vd : Nat) (dest : Nat)
  /-- CONFIRM (R463). -/
  | confirm (vd : Nat)
  /-- ERASE (R462). -/
  | erase
  /-- ABANDON (R463). -/
  | abandon
  /-- ADMIT (R472). -/
  | admitVd
  /-- PAGE_SET (R426). -/
  | pageSet
  /-- PAGE_CLEAR (R426). -/
  | pageClear
  /-- GLREQ_WRITE (R434). -/
  | glreqWrite (vd : Nat) (value : Nat)
  /-- BCFG_WRITE (R407). -/
  | bcfgWrite (die : Nat) (kind : Nat) (vd : Nat) (value : Nat)
  /-- SVCLEND_WRITE (R410). -/
  | svclendWrite (die : Nat) (value : Nat)
  /-- ROW_RETIRE (R477). -/
  | rowRetire (die : Nat) (channel : Nat) (row : Nat)
  /-- CHANNEL_RETIRE (R477). -/
  | channelRetire (die : Nat) (channel : Nat)
  /-- DIESTATE_OFFLINE (R476). -/
  | diestateOffline (die : Nat)
  /-- DIESTATE_ONLINE (R476). -/
  | diestateOnline (die : Nat)
  /-- DIE_TEST_COMPLETE (R476). -/
  | dieTestComplete (die : Nat)
  /-- ALARM_CLEAR (R480). -/
  | alarmClear (die : Nat) (bits : Nat)
  /-- ALARM_RAISE (R480). -/
  | alarmRaise (die : Nat) (bits : Nat)
  /-- FWCTL_GO (R475). -/
  | fwctlGo
  /-- FW_SWAP (R475). -/
  | fwSwap
  /-- WEAR_RECOMPUTE (R479). -/
  | wearRecompute (die : Nat)
  /-- LOFT_ROW_REMAP (R478). -/
  | loftRowRemap (core : Nat)
  /-- POWER_ON (R473). -/
  | powerOn
  /-- POWER_LOSS (R480). -/
  | powerLoss
  /-- ILLEGAL_ENCODING (R169). -/
  | illegalEncoding (word : BitVec 32)
  /-- INSTRUCTION_FETCH_FAULT (R75). -/
  | instructionFetchFault
  /-- ENGINE_FAULT (R132). -/
  | engineFault (cmd : Nat)
  /-- MODULE_LEAVES_DOMAIN (R472). -/
  | moduleLeavesDomain (module : Nat)
  /-- ALARM_CONDITION_GONE (R480). -/
  | alarmConditionGone (die : Nat) (bits : Nat)
  deriving DecidableEq, Repr

end Sys2Proof
end

