-- ==== Sys2Proof/WellFormed.lean ====
section
/-! DEFINITION. The checks on an instruction's own fields that need no state: which values a field may hold (R172),
which register kinds may meet (R173), and what each entry adds. A word whose instruction fails a check is an illegal
encoding (R169). The checks that need the kernel's `.vregs` (R36), the gang's reservations (R283), the level (R175)
or the pending hints (R176 to R179) are made when the word issues (Machine/Ops.lean). -/
namespace Sys2Proof

/-- The field names a v register (R172). -/
def Reg.isV (r : Reg) : Bool := decide (r.toNat < 96)

/-- The field names an s register (R172); the value 127 of an offset field, which names no register, counts as one. -/
def Reg.isS (r : Reg) : Bool := decide (96 ≤ r.toNat)

/-- The register's index in its own namespace. -/
def Reg.idx (r : Reg) : Nat := if r.toNat < 96 then r.toNat else r.toNat - 96

/-- A pair is named by its even register (R172). -/
def Reg.even (r : Reg) : Bool := r.toNat % 2 == 0

/-- A quad, or a run of four, is named by a multiple of 4 (R172, R247). -/
def Reg.mul4 (r : Reg) : Bool := r.toNat % 4 == 0

/-- An s destination admits no v source (R173); one source. -/
def Reg.dst1 (d a : Reg) : Bool := d.isV || a.isS

/-- An s destination admits no v source (R173); two sources. -/
def Reg.dst2 (d a b : Reg) : Bool := d.isV || (a.isS && b.isS)

/-- p7 as a destination is illegal (R172). -/
def predDst (p : BitVec 3) : Bool := p != 7#3

/-- The rm field of an arithmetic instruction: 0b110 and 0b111 are illegal (R103). -/
def rmArith (m : BitVec 3) : Bool := decide (m.toNat < 6)

/-- The rm field of a conversion: 0b111 is illegal (R103). -/
def rmCvt (m : BitVec 3) : Bool := m != 7#3

/-- The width in bits of a conversion type (R228). -/
def cvtWidth (t : Nat) : Nat :=
  match t with
  | 0 | 6 | 7 => 32
  | 1 | 2 | 8 | 9 => 16
  | 3 | 4 | 10 | 11 => 8
  | _ => 4

/-- The width in bits of a CVT.XI source type (R231). -/
def xiWidth (t : Nat) : Nat :=
  match t with
  | 0 | 1 => 16
  | 2 | 3 => 8
  | _ => 4

/-- Elements, source registers and destination registers of a packed conversion (R230). -/
def pkShape (ws wd : Nat) : Nat × Nat × Nat :=
  let n := 32 / min ws wd
  (n, n * ws / 32, n * wd / 32)

/-- A run of `k` registers starts at a multiple of `k` and stays in its namespace (R230). -/
def Reg.run (r : Reg) (k : Nat) : Bool :=
  r.idx % k == 0 && decide (r.idx + k ≤ if r.isV then 96 else 32)

/-- The operands of a packed conversion (R230). -/
def pkOk (ws wd : Nat) (d a : Reg) : Bool :=
  Reg.dst1 d a && a.run (pkShape ws wd).2.1 && d.run (pkShape ws wd).2.2

/-- The order code of an atomic (R148). -/
def orderOk (o : BitVec 3) : Bool := decide (o.toNat ≤ 4)

/-- The order code of a non-returning reduction: 1 and 3 are illegal as well (R148). -/
def orderRed (o : BitVec 3) : Bool := o == 0#3 || o == 2#3 || o == 4#3

/-- A capability holder of major 0x1B: a v quad, or q0 to q15 as 96 to 111, which needs an s or absent offset (R251). -/
def capHolder (d o : Reg) : Bool :=
  (d.isV && d.mul4) || (d.isS && decide (d.toNat < 112) && o.isS)

/-- The special registers that SRD may read into `d` (R185): listed, and not per lane into an s register. -/
def srdOk (d n : Reg) : Bool :=
  (decide (n.toNat ≤ 12) || (decide (16 ≤ n.toNat) && decide (n.toNat ≤ 30)))
    && (d.isV || (n != 0#7 && n != 12#7))

/-- A stream-unit operation that is one (R242): OPC 1 to 14, SEL 0 to 5, a unary operation with SEL 0, bits 2:0 zero. -/
def chainOpOk (o : BitVec 11) : Bool :=
  let opc := (o.extractLsb' 6 5).toNat
  let sel := (o.extractLsb' 3 3).toNat
  o.extractLsb' 0 3 == 0#3 && decide (1 ≤ opc) && decide (opc ≤ 14) && decide (sel ≤ 5)
    && (decide (opc ≤ 5) || sel == 0)

/-- The static operand checks of an instruction; `true` for an event. -/
def Instr.wellFormed : Instr → Bool
  | .add d a b | .sub d a b | .minS d a b | .minN d a b | .maxS d a b | .maxN d a b | .and d a b | .or d a b
  | .xor d a b | .andn d a b | .shl d a b | .shr d a b | .sar d a b | .rotl d a b | .adds d a b | .subs d a b
  | .absd d a b | .mul d a b | .mulhS d a b | .mulhN d a b | .mad d a b | .divS d a b | .divN d a b | .remS d a b
  | .remN d a b | .bfeS d a b | .bfeN d a b | .bfi d a b | .permb d a b | .dmac2Ss d a b | .dmac2 d a b
  | .add2S d a b | .sub2S d a b | .mul2Q15 d a b | .shrr d a b | .pack2S d a b
  | .fmin d a b | .fmax d a b | .fminNan d a b | .fmaxNan d a b | .hmin2 d a b | .hmax2 d a b | .bmin2 d a b
  | .bmax2 d a b | .mxpack d a b => Reg.dst2 d a b
  | .addW d a b | .subW d a b | .mulW d a b => Reg.dst2 d a b && d.even && a.even && b.even
  | .shlW d a b | .shrW d a b => Reg.dst2 d a b && d.even && a.even
  | .mov d a | .popc d a | .clz d a | .ctz d a | .brev d a | .fabs d a | .fneg d a | .fclass d a
  | .rcp d a | .rsq d a | .sqrt d a | .exp2 d a | .log2 d a | .sinpi d a | .cospi d a | .tanh d a | .sigm d a =>
      Reg.dst1 d a
  | .unpk2 d a => Reg.dst1 d a && d.even
  | .eq p _ _ | .ne p _ _ | .ltS p _ _ | .leS p _ _ | .ltN p _ _ | .leN p _ _ | .tst p _ _ | .tstz p _ _
  | .fcmpEq p _ _ | .fcmpNe p _ _ | .fcmpLt p _ _ | .fcmpLe p _ _ | .fcmpUn p _ _ => predDst p
  | .sel _ d _ _ => d.isV
  | .pand d _ _ | .por d _ _ | .pxor d _ _ | .pandn d _ _ | .anyOf d _ | .allOf d _ => predDst d
  | .p2s d _ | .ballot d _ => d.isS && d.even
  | .s2p d a => predDst d && a.isS && a.even
  | .addi d a _ | .andi d a _ | .ori d a _ | .xori d a _ | .shli d a _ | .shri d a _ | .sari d a _ => Reg.dst1 d a
  | .movi _ _ => true
  | .fadd m d a b | .fsub m d a b | .fmul m d a b | .fdiv m d a b | .fma m d a b | .fms m d a b | .fnma m d a b
  | .hadd2 m d a b | .hmul2 m d a b | .hfma2 m d a b | .badd2 m d a b | .bmul2 m d a b | .bfma2 m d a b =>
      rmArith m && Reg.dst2 d a b
  | .cvt m d a _ t | .cvtSat m d a _ t => rmCvt m && Reg.dst1 d a && decide (t.toNat ≤ 12)
  | .cvtPk m d a s t =>
      rmCvt m && decide (t.toNat ≤ 12) && pkOk (cvtWidth s.toNat) (cvtWidth t.toNat) d a
  | .cvtXi m d a s t =>
      rmCvt m && decide (t.toNat ≤ 12) && decide (s.toNat ≤ 4) && pkOk (xiWidth s.toNat) (cvtWidth t.toNat) d a
  | .cvtq d _ b => d.isV && b.isS && decide (b.toNat ≤ 125)
  | .mxscale d a b => d.isV && a.isV && b.isS
  | .slideup d _ b | .slidedn d _ b | .bcast d _ b | .rot d _ b => d.isV && b.isS
  | .shuf d _ _ | .xshuf d _ _ => d.isV
  | .vtos d _ b => d.isS && b.isS
  | .first _ _ | .radd _ _ | .rminS _ _ | .rmaxS _ _ | .fradd _ _ | .frmax _ _ => true
  | .pscanEx d a | .pscanIn d a => d.isV && a.isV
  | .matchEq d a => d.isV && d.even && a.isV
  | .dadd m d a b | .dsub m d a b | .dmul m d a b | .ddiv m d a b | .dfma m d a b | .dfms m d a b
  | .dfnma m d a b => rmArith m && Reg.dst2 d a b && d.even && a.even && b.even
  | .chain _ d a _ => d.isS && d.even && a.isS
  | .ldB d o _ _ | .ldSb d o _ _ | .ldH d o _ _ | .ldSh d o _ _ | .ldW d o _ _ => Reg.dst1 d o
  | .ldD d o _ _ => Reg.dst1 d o && d.even
  | .ldQ d o _ _ => Reg.dst1 d o && d.mul4
  | .stB _ _ _ _ | .stH _ _ _ _ | .stW _ _ _ _ => true
  | .stD d _ _ _ => d.even
  | .stQ d _ _ _ => d.mul4
  | .ldsW d a _ | .ldsH d a _ => Reg.dst1 d a
  | .ldsD d a _ => Reg.dst1 d a && d.even
  | .ldsQ d a _ => Reg.dst1 d a && d.mul4
  | .stsW _ _ _ | .stsH _ _ _ => true
  | .stsD d _ _ => d.even
  | .stsQ d _ _ => d.mul4
  | .ldc d o _ _ | .stc d o _ _ => capHolder d o
  | .ldcL d o _ | .stcL d o _ => capHolder d o
  | .aadd d a o _ | .aminS d a o _ | .amaxS d a o _ | .aminN d a o _ | .amaxN d a o _ | .aand d a o _ | .aor d a o _
  | .axor d a o _ | .axchg d a o _ | .afadd d a o _ | .abfadd2 d a o _ => orderOk o && Reg.dst1 d a
  | .acas d a o _ | .axchgW d a o _ => orderOk o && Reg.dst1 d a && d.even
  | .acasW d a o _ => orderOk o && Reg.dst1 d a && d.mul4
  | .rdadd _ _ o _ | .rdmin _ _ o _ | .rdmax _ _ o _ | .rdfadd _ _ o _ | .rdbfadd2 _ _ o _ | .rdinc _ o _ => orderRed o
  | .tend d | .ttest d => d.isV
  | .fence o _ => decide (1 ≤ o.toNat) && decide (o.toNat ≤ 4)
  | .waitph a _ | .tlwait a _ | .mwait a | .sieveCfg a _ | .lhsetRel a | .lhpin a | .lhunpin a => a.isS
  | .tlwaitW a _ | .mrow a | .join a _ => a.isS && a.even
  | .waita _ _ | .waitaGlobal _ _ _ => true
  | .mfence d => d.isS
  | .tlread d _ | .revoke d _ | .cgetb d _ | .cgetbCur d _ | .cgetl d _ | .clock d => d.isS && d.even
  | .copy d a _ | .copyg d a _ | .copys d a _ | .tilest d a _ | .tileld d a _ | .regroup d a _ | .loftld d a _
  | .loftev d a _ | .coll d a _ | .cld d a _ | .cst d a _ | .drain d a _ | .send d a _ | .callMsg d a _ | .reply d a _
  | .nbsend d a _ | .resumectx d a _ | .pload d a _ | .pswap d a => d.isS && a.isS
  | .mma _ _ b _ | .mmaZ _ _ b _ | .mmaT _ _ b _ | .mmas _ _ b _ => b.isS
  | .mmax _ _ b _ => b.isV
  | .cres _ a => a.isS && a.mul4
  | .mcol a => a.isS && a.mul4
  | .sieveRd d a => Reg.dst1 d a
  | .lhset a b | .lhget a b => a.isS && b.isS
  | .tdesc d _ | .tdescRel d _ | .recipe d _ _ | .tpin d _ | .tunpin d _ | .tprobe d _ | .tdrop d _ | .cgetp d _
  | .cgeto d _ | .cgett d _ | .ctstsub d _ _ | .recv d _ | .waitn d _ | .spawn d _ | .haltctx d _ | .haltctxSave d _
  | .qdrain d _ => d.isS
  | .csetb _ a _ | .csetbx _ a _ | .cinc _ a _ | .cseta _ a _ | .objnew _ a _ => a.isS && a.even
  | .candp _ a _ => a.isS
  | .cmovToLanes d _ => d.isV && d.mul4
  | .cmovFromLane _ a => a.isV && a.mul4
  | .svc d a => d.isV && d.mul4 && a.isV && a.toNat % 8 == 0
  | .ret a | .jmpr a => a.even
  | .callr d a => Reg.dst1 d a && d.even && a.even
  | .srd d n => srdOk d n
  | .swr a n => a.isS && (n == 6#7 || n == 7#7 || n == 8#7)
  | .role r => decide (r.toNat ≤ 2)
  | .sysrd d a => d.isS && d.even && a.isS
  | .syswr d a b => d.isS && a.isS && b.isS && b.even
  | .tlbinv a b => a.isS && a.even && b.isS
  | .tlbinva b => b.isS
  | .eret d a _ => d.isS && a.isS && a.even
  | .pstat d a b => d.isS && d.even && a.isS && decide (b.toNat ≤ 4)
  | .rmode m t => m != 7#3 && t != 3#2
  | .chainop x y => chainOpOk x && (y == 0#11 || chainOpOk y)
  | .matx _ _ m => m != 3#2
  | .tbeg | .tabt | .barG | .barL | .barLYield | .learly | .lwaitp | .yield | .crel _ | .czero _ | .sieveClr
  | .regrown | .cmov _ _ | .cclr _ | .cseal _ _ _ | .cunseal _ _ _ | .cseale _ _ | .cinvoke _ _ | .signal _
  | .bra _ | .brp _ _ | .brn _ _ | .brall _ | .brany _ | .brnone _ | .branchCall _ | .recMark _ | .path _ _ | .pyield
  | .xretRetry | .xretSkip | .nop | .exit | .brk _ | .tlbinvaAll | .ptwsync | .stoprd _ _
  | .imm _ | .guard _ _ | .sched _ _ _ | .offhi _ => true
  | .unitStop _ | .faultDecision _ | .dispatchDecision _ | .pressureDecision _ | .stepBudgetOverrun _ | .kill _
  | .resume _ | .notify _ | .watchdogHang _ _ | .watchdogDeadlock _ | .eccNoConsumer _ | .forcedSave _
  | .reconvergenceHalt _ | .coreHandover _ | .quarantineLanding _ | .contextRestore _ _ _ | .launchReady _
  | .gangDispatch _ | .phaseStart _ | .launchCompletion _ | .furrowLaunchPacket | .arrivalUpdate _
  | .engineCommandComplete _ | .fusedSetClose _ | .pass _ | .cribResultWrite _ | .batchEnd _ | .regrowServe _
  | .regrowLaunchComplete _ | .bucketRefill _ _ | .arbitrationRound _ _ | .epochBegin _ | .epochComplete _
  | .markRelease _ | .gleanerRequestComplete _ | .ageingSwap _ | .kernelReentry _ | .policySlotSwap _ | .frameReceive
  | .linkDown _ | .peerTimeout _ | .keyReplace _ | .hostSlotRequest | .interruptSourceFire _ | .partdef | .vdcreate
  | .claim | .measure | .extend | .vfreset | .functionLevelReset _ | .exportVd | .importVd | .releaseRequest _ _
  | .confirm _ | .erase | .abandon | .admitVd | .pageSet | .pageClear | .glreqWrite _ _ | .bcfgWrite _ _ _ _
  | .svclendWrite _ _ | .rowRetire _ _ _ | .channelRetire _ _ | .diestateOffline _ | .diestateOnline _
  | .dieTestComplete _ | .alarmClear _ _ | .alarmRaise _ _ | .fwctlGo | .fwSwap | .wearRecompute _ | .loftRowRemap _
  | .powerOn | .powerLoss | .illegalEncoding _ | .instructionFetchFault | .engineFault _ | .moduleLeavesDomain _
  | .alarmConditionGone _ _ => true

end Sys2Proof
end

