-- ==== Sys2Proof/Decode.lean ====
section
/-! DEFINITION. Decoding a 32-bit word (spec/07, R168 to R190) and encoding an instruction. A word is refused
by name: its major is unassigned, its function code unlisted, a field that the instruction does not read is not 0
(R169), or an operand breaks R172, R173 or its entry (`Instr.wellFormed`). -/
namespace Sys2Proof

/-- Why a word is no instruction (R169). Each is an illegal encoding and takes the trap with cause ILLEGAL. -/
inductive DecodeError where
  /-- The major opcode is unassigned (R174). -/
  | unassignedMajor
  /-- The function, size, condition or kind is not listed (R174). -/
  | unlistedFunction
  /-- A field the instruction does not read is not 0, or holds a value its entry does not list (R169). -/
  | reservedField
  /-- An operand is illegal under R172, R173 or the entry. -/
  | illegalOperand
  /-- Fewer than four bytes were given (R168). -/
  | tooShort
  deriving DecidableEq, Repr

/-- Major 0x01 (R174): the function code, then the instruction. -/
def decodeIalu (w : Word) : Except DecodeError Instr :=
  match (w.extractLsb' 21 5).toNat with
  | 0 =>
      .ok (.add (w.extractLsb' 14 7) (w.extractLsb' 7 7) (w.extractLsb' 0 7))
  | 1 =>
      .ok (.sub (w.extractLsb' 14 7) (w.extractLsb' 7 7) (w.extractLsb' 0 7))
  | 2 =>
      .ok (.minS (w.extractLsb' 14 7) (w.extractLsb' 7 7) (w.extractLsb' 0 7))
  | 3 =>
      .ok (.minN (w.extractLsb' 14 7) (w.extractLsb' 7 7) (w.extractLsb' 0 7))
  | 4 =>
      .ok (.maxS (w.extractLsb' 14 7) (w.extractLsb' 7 7) (w.extractLsb' 0 7))
  | 5 =>
      .ok (.maxN (w.extractLsb' 14 7) (w.extractLsb' 7 7) (w.extractLsb' 0 7))
  | 6 =>
      .ok (.and (w.extractLsb' 14 7) (w.extractLsb' 7 7) (w.extractLsb' 0 7))
  | 7 =>
      .ok (.or (w.extractLsb' 14 7) (w.extractLsb' 7 7) (w.extractLsb' 0 7))
  | 8 =>
      .ok (.xor (w.extractLsb' 14 7) (w.extractLsb' 7 7) (w.extractLsb' 0 7))
  | 9 =>
      .ok (.andn (w.extractLsb' 14 7) (w.extractLsb' 7 7) (w.extractLsb' 0 7))
  | 10 =>
      .ok (.shl (w.extractLsb' 14 7) (w.extractLsb' 7 7) (w.extractLsb' 0 7))
  | 11 =>
      .ok (.shr (w.extractLsb' 14 7) (w.extractLsb' 7 7) (w.extractLsb' 0 7))
  | 12 =>
      .ok (.sar (w.extractLsb' 14 7) (w.extractLsb' 7 7) (w.extractLsb' 0 7))
  | 13 =>
      .ok (.rotl (w.extractLsb' 14 7) (w.extractLsb' 7 7) (w.extractLsb' 0 7))
  | 14 =>
      .ok (.adds (w.extractLsb' 14 7) (w.extractLsb' 7 7) (w.extractLsb' 0 7))
  | 15 =>
      .ok (.subs (w.extractLsb' 14 7) (w.extractLsb' 7 7) (w.extractLsb' 0 7))
  | 16 =>
      .ok (.absd (w.extractLsb' 14 7) (w.extractLsb' 7 7) (w.extractLsb' 0 7))
  | 17 =>
      .ok (.addW (w.extractLsb' 14 7) (w.extractLsb' 7 7) (w.extractLsb' 0 7))
  | 18 =>
      .ok (.subW (w.extractLsb' 14 7) (w.extractLsb' 7 7) (w.extractLsb' 0 7))
  | 19 =>
      .ok (.shlW (w.extractLsb' 14 7) (w.extractLsb' 7 7) (w.extractLsb' 0 7))
  | 20 =>
      .ok (.shrW (w.extractLsb' 14 7) (w.extractLsb' 7 7) (w.extractLsb' 0 7))
  | 21 =>
      if w.extractLsb' 0 7 = 0#7 then .ok (.mov (w.extractLsb' 14 7) (w.extractLsb' 7 7))
      else .error .reservedField
  | _ => .error .unlistedFunction

/-- Major 0x02 (R174): the function code, then the instruction. -/
def decodeImul (w : Word) : Except DecodeError Instr :=
  match (w.extractLsb' 21 5).toNat with
  | 0 =>
      .ok (.mul (w.extractLsb' 14 7) (w.extractLsb' 7 7) (w.extractLsb' 0 7))
  | 1 =>
      .ok (.mulhS (w.extractLsb' 14 7) (w.extractLsb' 7 7) (w.extractLsb' 0 7))
  | 2 =>
      .ok (.mulhN (w.extractLsb' 14 7) (w.extractLsb' 7 7) (w.extractLsb' 0 7))
  | 3 =>
      .ok (.mulW (w.extractLsb' 14 7) (w.extractLsb' 7 7) (w.extractLsb' 0 7))
  | 4 =>
      .ok (.mad (w.extractLsb' 14 7) (w.extractLsb' 7 7) (w.extractLsb' 0 7))
  | 5 =>
      .ok (.divS (w.extractLsb' 14 7) (w.extractLsb' 7 7) (w.extractLsb' 0 7))
  | 6 =>
      .ok (.divN (w.extractLsb' 14 7) (w.extractLsb' 7 7) (w.extractLsb' 0 7))
  | 7 =>
      .ok (.remS (w.extractLsb' 14 7) (w.extractLsb' 7 7) (w.extractLsb' 0 7))
  | 8 =>
      .ok (.remN (w.extractLsb' 14 7) (w.extractLsb' 7 7) (w.extractLsb' 0 7))
  | _ => .error .unlistedFunction

/-- Major 0x03 (R174): the function code, then the instruction. -/
def decodeIcmp (w : Word) : Except DecodeError Instr :=
  match (w.extractLsb' 21 5).toNat with
  | 0 =>
      if w.extractLsb' 17 4 = 0#4 then .ok (.eq (w.extractLsb' 14 3) (w.extractLsb' 7 7) (w.extractLsb' 0 7))
      else .error .reservedField
  | 1 =>
      if w.extractLsb' 17 4 = 0#4 then .ok (.ne (w.extractLsb' 14 3) (w.extractLsb' 7 7) (w.extractLsb' 0 7))
      else .error .reservedField
  | 2 =>
      if w.extractLsb' 17 4 = 0#4 then .ok (.ltS (w.extractLsb' 14 3) (w.extractLsb' 7 7) (w.extractLsb' 0 7))
      else .error .reservedField
  | 3 =>
      if w.extractLsb' 17 4 = 0#4 then .ok (.leS (w.extractLsb' 14 3) (w.extractLsb' 7 7) (w.extractLsb' 0 7))
      else .error .reservedField
  | 4 =>
      if w.extractLsb' 17 4 = 0#4 then .ok (.ltN (w.extractLsb' 14 3) (w.extractLsb' 7 7) (w.extractLsb' 0 7))
      else .error .reservedField
  | 5 =>
      if w.extractLsb' 17 4 = 0#4 then .ok (.leN (w.extractLsb' 14 3) (w.extractLsb' 7 7) (w.extractLsb' 0 7))
      else .error .reservedField
  | 6 =>
      if w.extractLsb' 17 4 = 0#4 then .ok (.tst (w.extractLsb' 14 3) (w.extractLsb' 7 7) (w.extractLsb' 0 7))
      else .error .reservedField
  | 7 =>
      if w.extractLsb' 17 4 = 0#4 then .ok (.tstz (w.extractLsb' 14 3) (w.extractLsb' 7 7) (w.extractLsb' 0 7))
      else .error .reservedField
  | _ => .error .unlistedFunction

/-- Major 0x04 (R174): the function code, then the instruction. -/
def decodeBits (w : Word) : Except DecodeError Instr :=
  match (w.extractLsb' 21 5).toNat with
  | 0 =>
      if w.extractLsb' 0 7 = 0#7 then .ok (.popc (w.extractLsb' 14 7) (w.extractLsb' 7 7))
      else .error .reservedField
  | 1 =>
      if w.extractLsb' 0 7 = 0#7 then .ok (.clz (w.extractLsb' 14 7) (w.extractLsb' 7 7))
      else .error .reservedField
  | 2 =>
      if w.extractLsb' 0 7 = 0#7 then .ok (.ctz (w.extractLsb' 14 7) (w.extractLsb' 7 7))
      else .error .reservedField
  | 3 =>
      if w.extractLsb' 0 7 = 0#7 then .ok (.brev (w.extractLsb' 14 7) (w.extractLsb' 7 7))
      else .error .reservedField
  | 4 =>
      .ok (.bfeS (w.extractLsb' 14 7) (w.extractLsb' 7 7) (w.extractLsb' 0 7))
  | 5 =>
      .ok (.bfeN (w.extractLsb' 14 7) (w.extractLsb' 7 7) (w.extractLsb' 0 7))
  | 6 =>
      .ok (.bfi (w.extractLsb' 14 7) (w.extractLsb' 7 7) (w.extractLsb' 0 7))
  | 7 =>
      .ok (.permb (w.extractLsb' 14 7) (w.extractLsb' 7 7) (w.extractLsb' 0 7))
  | _ => .error .unlistedFunction

/-- Major 0x05 (R174): the function code, then the instruction. -/
def decodePred (w : Word) : Except DecodeError Instr :=
  match (w.extractLsb' 21 5).toNat with
  | 0 | 1 | 2 | 3 | 4 | 5 | 6 | 7 =>
      .ok (.sel (w.extractLsb' 21 3) (w.extractLsb' 14 7) (w.extractLsb' 7 7) (w.extractLsb' 0 7))
  | 8 =>
      if w.extractLsb' 3 4 = 0#4 ∧ w.extractLsb' 10 4 = 0#4 ∧ w.extractLsb' 17 4 = 0#4 then .ok (.pand (w.extractLsb' 14 3) (w.extractLsb' 7 3) (w.extractLsb' 0 3))
      else .error .reservedField
  | 9 =>
      if w.extractLsb' 3 4 = 0#4 ∧ w.extractLsb' 10 4 = 0#4 ∧ w.extractLsb' 17 4 = 0#4 then .ok (.por (w.extractLsb' 14 3) (w.extractLsb' 7 3) (w.extractLsb' 0 3))
      else .error .reservedField
  | 10 =>
      if w.extractLsb' 3 4 = 0#4 ∧ w.extractLsb' 10 4 = 0#4 ∧ w.extractLsb' 17 4 = 0#4 then .ok (.pxor (w.extractLsb' 14 3) (w.extractLsb' 7 3) (w.extractLsb' 0 3))
      else .error .reservedField
  | 11 =>
      if w.extractLsb' 3 4 = 0#4 ∧ w.extractLsb' 10 4 = 0#4 ∧ w.extractLsb' 17 4 = 0#4 then .ok (.pandn (w.extractLsb' 14 3) (w.extractLsb' 7 3) (w.extractLsb' 0 3))
      else .error .reservedField
  | 12 =>
      if w.extractLsb' 0 7 = 0#7 ∧ w.extractLsb' 10 4 = 0#4 then .ok (.p2s (w.extractLsb' 14 7) (w.extractLsb' 7 3))
      else .error .reservedField
  | 13 =>
      if w.extractLsb' 0 7 = 0#7 ∧ w.extractLsb' 17 4 = 0#4 then .ok (.s2p (w.extractLsb' 14 3) (w.extractLsb' 7 7))
      else .error .reservedField
  | _ => .error .unlistedFunction

/-- Major 0x06 (R174): the function code, then the instruction. -/
def decodePk16 (w : Word) : Except DecodeError Instr :=
  match (w.extractLsb' 21 5).toNat with
  | 0 =>
      .ok (.dmac2Ss (w.extractLsb' 14 7) (w.extractLsb' 7 7) (w.extractLsb' 0 7))
  | 1 =>
      .ok (.dmac2 (w.extractLsb' 14 7) (w.extractLsb' 7 7) (w.extractLsb' 0 7))
  | 2 =>
      .ok (.add2S (w.extractLsb' 14 7) (w.extractLsb' 7 7) (w.extractLsb' 0 7))
  | 3 =>
      .ok (.sub2S (w.extractLsb' 14 7) (w.extractLsb' 7 7) (w.extractLsb' 0 7))
  | 4 =>
      .ok (.mul2Q15 (w.extractLsb' 14 7) (w.extractLsb' 7 7) (w.extractLsb' 0 7))
  | 5 =>
      .ok (.shrr (w.extractLsb' 14 7) (w.extractLsb' 7 7) (w.extractLsb' 0 7))
  | 6 =>
      .ok (.pack2S (w.extractLsb' 14 7) (w.extractLsb' 7 7) (w.extractLsb' 0 7))
  | 7 =>
      if w.extractLsb' 0 7 = 0#7 then .ok (.unpk2 (w.extractLsb' 14 7) (w.extractLsb' 7 7))
      else .error .reservedField
  | _ => .error .unlistedFunction

/-- Major 0x07 (R174): the function code, then the instruction. -/
def decodeIalui (w : Word) : Except DecodeError Instr :=
  match (w.extractLsb' 23 3).toNat with
  | 0 =>
      .ok (.addi (w.extractLsb' 16 7) (w.extractLsb' 9 7) (w.extractLsb' 0 9))
  | 1 =>
      .ok (.andi (w.extractLsb' 16 7) (w.extractLsb' 9 7) (w.extractLsb' 0 9))
  | 2 =>
      .ok (.ori (w.extractLsb' 16 7) (w.extractLsb' 9 7) (w.extractLsb' 0 9))
  | 3 =>
      .ok (.xori (w.extractLsb' 16 7) (w.extractLsb' 9 7) (w.extractLsb' 0 9))
  | 4 =>
      .ok (.shli (w.extractLsb' 16 7) (w.extractLsb' 9 7) (w.extractLsb' 0 9))
  | 5 =>
      .ok (.shri (w.extractLsb' 16 7) (w.extractLsb' 9 7) (w.extractLsb' 0 9))
  | 6 =>
      .ok (.sari (w.extractLsb' 16 7) (w.extractLsb' 9 7) (w.extractLsb' 0 9))
  | 7 =>
      if w.extractLsb' 9 7 = 0#7 then .ok (.movi (w.extractLsb' 16 7) (w.extractLsb' 0 9))
      else .error .reservedField
  | _ => .error .unlistedFunction

/-- Major 0x08 (R174): the function code, then the instruction. -/
def decodeFp32 (w : Word) : Except DecodeError Instr :=
  match (w.extractLsb' 24 2).toNat with
  | 0 =>
      .ok (.fadd (w.extractLsb' 21 3) (w.extractLsb' 14 7) (w.extractLsb' 7 7) (w.extractLsb' 0 7))
  | 1 =>
      .ok (.fsub (w.extractLsb' 21 3) (w.extractLsb' 14 7) (w.extractLsb' 7 7) (w.extractLsb' 0 7))
  | 2 =>
      .ok (.fmul (w.extractLsb' 21 3) (w.extractLsb' 14 7) (w.extractLsb' 7 7) (w.extractLsb' 0 7))
  | 3 =>
      .ok (.fdiv (w.extractLsb' 21 3) (w.extractLsb' 14 7) (w.extractLsb' 7 7) (w.extractLsb' 0 7))
  | _ => .error .unlistedFunction

/-- Major 0x09 (R174): the function code, then the instruction. -/
def decodeFma (w : Word) : Except DecodeError Instr :=
  match (w.extractLsb' 24 2).toNat with
  | 0 =>
      .ok (.fma (w.extractLsb' 21 3) (w.extractLsb' 14 7) (w.extractLsb' 7 7) (w.extractLsb' 0 7))
  | 1 =>
      .ok (.fms (w.extractLsb' 21 3) (w.extractLsb' 14 7) (w.extractLsb' 7 7) (w.extractLsb' 0 7))
  | 2 =>
      .ok (.fnma (w.extractLsb' 21 3) (w.extractLsb' 14 7) (w.extractLsb' 7 7) (w.extractLsb' 0 7))
  | _ => .error .unlistedFunction

/-- Major 0x0A (R174): the function code, then the instruction. -/
def decodeFp16 (w : Word) : Except DecodeError Instr :=
  match (w.extractLsb' 24 2).toNat with
  | 0 =>
      .ok (.hadd2 (w.extractLsb' 21 3) (w.extractLsb' 14 7) (w.extractLsb' 7 7) (w.extractLsb' 0 7))
  | 1 =>
      .ok (.hmul2 (w.extractLsb' 21 3) (w.extractLsb' 14 7) (w.extractLsb' 7 7) (w.extractLsb' 0 7))
  | 2 =>
      .ok (.hfma2 (w.extractLsb' 21 3) (w.extractLsb' 14 7) (w.extractLsb' 7 7) (w.extractLsb' 0 7))
  | _ => .error .unlistedFunction

/-- Major 0x0B (R174): the function code, then the instruction. -/
def decodeBf16 (w : Word) : Except DecodeError Instr :=
  match (w.extractLsb' 24 2).toNat with
  | 0 =>
      .ok (.badd2 (w.extractLsb' 21 3) (w.extractLsb' 14 7) (w.extractLsb' 7 7) (w.extractLsb' 0 7))
  | 1 =>
      .ok (.bmul2 (w.extractLsb' 21 3) (w.extractLsb' 14 7) (w.extractLsb' 7 7) (w.extractLsb' 0 7))
  | 2 =>
      .ok (.bfma2 (w.extractLsb' 21 3) (w.extractLsb' 14 7) (w.extractLsb' 7 7) (w.extractLsb' 0 7))
  | _ => .error .unlistedFunction

/-- Major 0x0C (R174): the function code, then the instruction. -/
def decodeFmisc (w : Word) : Except DecodeError Instr :=
  match (w.extractLsb' 21 5).toNat with
  | 0 =>
      .ok (.fmin (w.extractLsb' 14 7) (w.extractLsb' 7 7) (w.extractLsb' 0 7))
  | 1 =>
      .ok (.fmax (w.extractLsb' 14 7) (w.extractLsb' 7 7) (w.extractLsb' 0 7))
  | 2 =>
      .ok (.fminNan (w.extractLsb' 14 7) (w.extractLsb' 7 7) (w.extractLsb' 0 7))
  | 3 =>
      .ok (.fmaxNan (w.extractLsb' 14 7) (w.extractLsb' 7 7) (w.extractLsb' 0 7))
  | 4 =>
      if w.extractLsb' 0 7 = 0#7 then .ok (.fabs (w.extractLsb' 14 7) (w.extractLsb' 7 7))
      else .error .reservedField
  | 5 =>
      if w.extractLsb' 0 7 = 0#7 then .ok (.fneg (w.extractLsb' 14 7) (w.extractLsb' 7 7))
      else .error .reservedField
  | 6 =>
      if w.extractLsb' 0 7 = 0#7 then .ok (.fclass (w.extractLsb' 14 7) (w.extractLsb' 7 7))
      else .error .reservedField
  | 8 =>
      if w.extractLsb' 17 4 = 0#4 then .ok (.fcmpEq (w.extractLsb' 14 3) (w.extractLsb' 7 7) (w.extractLsb' 0 7))
      else .error .reservedField
  | 9 =>
      if w.extractLsb' 17 4 = 0#4 then .ok (.fcmpNe (w.extractLsb' 14 3) (w.extractLsb' 7 7) (w.extractLsb' 0 7))
      else .error .reservedField
  | 10 =>
      if w.extractLsb' 17 4 = 0#4 then .ok (.fcmpLt (w.extractLsb' 14 3) (w.extractLsb' 7 7) (w.extractLsb' 0 7))
      else .error .reservedField
  | 11 =>
      if w.extractLsb' 17 4 = 0#4 then .ok (.fcmpLe (w.extractLsb' 14 3) (w.extractLsb' 7 7) (w.extractLsb' 0 7))
      else .error .reservedField
  | 12 =>
      if w.extractLsb' 17 4 = 0#4 then .ok (.fcmpUn (w.extractLsb' 14 3) (w.extractLsb' 7 7) (w.extractLsb' 0 7))
      else .error .reservedField
  | 13 =>
      .ok (.hmin2 (w.extractLsb' 14 7) (w.extractLsb' 7 7) (w.extractLsb' 0 7))
  | 14 =>
      .ok (.hmax2 (w.extractLsb' 14 7) (w.extractLsb' 7 7) (w.extractLsb' 0 7))
  | 15 =>
      .ok (.bmin2 (w.extractLsb' 14 7) (w.extractLsb' 7 7) (w.extractLsb' 0 7))
  | 16 =>
      .ok (.bmax2 (w.extractLsb' 14 7) (w.extractLsb' 7 7) (w.extractLsb' 0 7))
  | _ => .error .unlistedFunction

/-- Major 0x0D (R174): the function code, then the instruction. -/
def decodeSfu (w : Word) : Except DecodeError Instr :=
  match (w.extractLsb' 21 5).toNat with
  | 0 =>
      if w.extractLsb' 0 7 = 0#7 then .ok (.rcp (w.extractLsb' 14 7) (w.extractLsb' 7 7))
      else .error .reservedField
  | 1 =>
      if w.extractLsb' 0 7 = 0#7 then .ok (.rsq (w.extractLsb' 14 7) (w.extractLsb' 7 7))
      else .error .reservedField
  | 2 =>
      if w.extractLsb' 0 7 = 0#7 then .ok (.sqrt (w.extractLsb' 14 7) (w.extractLsb' 7 7))
      else .error .reservedField
  | 3 =>
      if w.extractLsb' 0 7 = 0#7 then .ok (.exp2 (w.extractLsb' 14 7) (w.extractLsb' 7 7))
      else .error .reservedField
  | 4 =>
      if w.extractLsb' 0 7 = 0#7 then .ok (.log2 (w.extractLsb' 14 7) (w.extractLsb' 7 7))
      else .error .reservedField
  | 5 =>
      if w.extractLsb' 0 7 = 0#7 then .ok (.sinpi (w.extractLsb' 14 7) (w.extractLsb' 7 7))
      else .error .reservedField
  | 6 =>
      if w.extractLsb' 0 7 = 0#7 then .ok (.cospi (w.extractLsb' 14 7) (w.extractLsb' 7 7))
      else .error .reservedField
  | 7 =>
      if w.extractLsb' 0 7 = 0#7 then .ok (.tanh (w.extractLsb' 14 7) (w.extractLsb' 7 7))
      else .error .reservedField
  | 8 =>
      if w.extractLsb' 0 7 = 0#7 then .ok (.sigm (w.extractLsb' 14 7) (w.extractLsb' 7 7))
      else .error .reservedField
  | _ => .error .unlistedFunction

/-- Major 0x0E (R174): the function code, then the instruction. -/
def decodeCvt (w : Word) : Except DecodeError Instr :=
  match (w.extractLsb' 24 2).toNat with
  | 0 =>
      .ok (.cvt (w.extractLsb' 21 3) (w.extractLsb' 14 7) (w.extractLsb' 7 7) (w.extractLsb' 4 3) (w.extractLsb' 0 4))
  | 1 =>
      .ok (.cvtPk (w.extractLsb' 21 3) (w.extractLsb' 14 7) (w.extractLsb' 7 7) (w.extractLsb' 4 3) (w.extractLsb' 0 4))
  | 2 =>
      .ok (.cvtSat (w.extractLsb' 21 3) (w.extractLsb' 14 7) (w.extractLsb' 7 7) (w.extractLsb' 4 3) (w.extractLsb' 0 4))
  | 3 =>
      .ok (.cvtXi (w.extractLsb' 21 3) (w.extractLsb' 14 7) (w.extractLsb' 7 7) (w.extractLsb' 4 3) (w.extractLsb' 0 4))
  | _ => .error .unlistedFunction

/-- Major 0x0F (R174): the function code, then the instruction. -/
def decodeQuant (w : Word) : Except DecodeError Instr :=
  match (w.extractLsb' 21 5).toNat with
  | 0 =>
      .ok (.cvtq (w.extractLsb' 14 7) (w.extractLsb' 7 7) (w.extractLsb' 0 7))
  | 1 =>
      .ok (.mxscale (w.extractLsb' 14 7) (w.extractLsb' 7 7) (w.extractLsb' 0 7))
  | 2 =>
      .ok (.mxpack (w.extractLsb' 14 7) (w.extractLsb' 7 7) (w.extractLsb' 0 7))
  | _ => .error .unlistedFunction

/-- Major 0x10 (R174): the function code, then the instruction. -/
def decodeXlane (w : Word) : Except DecodeError Instr :=
  match (w.extractLsb' 21 5).toNat with
  | 0 =>
      .ok (.slideup (w.extractLsb' 14 7) (w.extractLsb' 7 7) (w.extractLsb' 0 7))
  | 1 =>
      .ok (.slidedn (w.extractLsb' 14 7) (w.extractLsb' 7 7) (w.extractLsb' 0 7))
  | 2 =>
      .ok (.shuf (w.extractLsb' 14 7) (w.extractLsb' 7 7) (w.extractLsb' 0 7))
  | 3 =>
      .ok (.xshuf (w.extractLsb' 14 7) (w.extractLsb' 7 7) (w.extractLsb' 0 7))
  | 4 =>
      .ok (.bcast (w.extractLsb' 14 7) (w.extractLsb' 7 7) (w.extractLsb' 0 7))
  | 5 =>
      .ok (.rot (w.extractLsb' 14 7) (w.extractLsb' 7 7) (w.extractLsb' 0 7))
  | 6 =>
      .ok (.vtos (w.extractLsb' 14 7) (w.extractLsb' 7 7) (w.extractLsb' 0 7))
  | 7 =>
      if w.extractLsb' 0 7 = 0#7 then .ok (.first (w.extractLsb' 14 7) (w.extractLsb' 7 7))
      else .error .reservedField
  | _ => .error .unlistedFunction

/-- Major 0x11 (R174): the function code, then the instruction. -/
def decodeReduce (w : Word) : Except DecodeError Instr :=
  match (w.extractLsb' 21 5).toNat with
  | 0 =>
      if w.extractLsb' 0 7 = 0#7 then .ok (.radd (w.extractLsb' 14 7) (w.extractLsb' 7 7))
      else .error .reservedField
  | 1 =>
      if w.extractLsb' 0 7 = 0#7 then .ok (.rminS (w.extractLsb' 14 7) (w.extractLsb' 7 7))
      else .error .reservedField
  | 2 =>
      if w.extractLsb' 0 7 = 0#7 then .ok (.rmaxS (w.extractLsb' 14 7) (w.extractLsb' 7 7))
      else .error .reservedField
  | 3 =>
      if w.extractLsb' 0 7 = 0#7 then .ok (.fradd (w.extractLsb' 14 7) (w.extractLsb' 7 7))
      else .error .reservedField
  | 4 =>
      if w.extractLsb' 0 7 = 0#7 then .ok (.frmax (w.extractLsb' 14 7) (w.extractLsb' 7 7))
      else .error .reservedField
  | 5 =>
      if w.extractLsb' 0 7 = 0#7 ∧ w.extractLsb' 10 4 = 0#4 then .ok (.ballot (w.extractLsb' 14 7) (w.extractLsb' 7 3))
      else .error .reservedField
  | 6 =>
      if w.extractLsb' 0 7 = 0#7 ∧ w.extractLsb' 10 4 = 0#4 ∧ w.extractLsb' 17 4 = 0#4 then .ok (.anyOf (w.extractLsb' 14 3) (w.extractLsb' 7 3))
      else .error .reservedField
  | 7 =>
      if w.extractLsb' 0 7 = 0#7 ∧ w.extractLsb' 10 4 = 0#4 ∧ w.extractLsb' 17 4 = 0#4 then .ok (.allOf (w.extractLsb' 14 3) (w.extractLsb' 7 3))
      else .error .reservedField
  | 8 =>
      if w.extractLsb' 0 7 = 0#7 then .ok (.pscanEx (w.extractLsb' 14 7) (w.extractLsb' 7 7))
      else if w.extractLsb' 0 7 = 1#7 then .ok (.pscanIn (w.extractLsb' 14 7) (w.extractLsb' 7 7))
      else .error .reservedField
  | 9 =>
      if w.extractLsb' 0 7 = 0#7 then .ok (.matchEq (w.extractLsb' 14 7) (w.extractLsb' 7 7))
      else .error .reservedField
  | _ => .error .unlistedFunction

/-- Major 0x12 (R174): the function code, then the instruction. -/
def decodeFp64 (w : Word) : Except DecodeError Instr :=
  match (w.extractLsb' 24 2).toNat with
  | 0 =>
      .ok (.dadd (w.extractLsb' 21 3) (w.extractLsb' 14 7) (w.extractLsb' 7 7) (w.extractLsb' 0 7))
  | 1 =>
      .ok (.dsub (w.extractLsb' 21 3) (w.extractLsb' 14 7) (w.extractLsb' 7 7) (w.extractLsb' 0 7))
  | 2 =>
      .ok (.dmul (w.extractLsb' 21 3) (w.extractLsb' 14 7) (w.extractLsb' 7 7) (w.extractLsb' 0 7))
  | 3 =>
      .ok (.ddiv (w.extractLsb' 21 3) (w.extractLsb' 14 7) (w.extractLsb' 7 7) (w.extractLsb' 0 7))
  | _ => .error .unlistedFunction

/-- Major 0x13 (R174): the function code, then the instruction. -/
def decodeFma64 (w : Word) : Except DecodeError Instr :=
  match (w.extractLsb' 24 2).toNat with
  | 0 =>
      .ok (.dfma (w.extractLsb' 21 3) (w.extractLsb' 14 7) (w.extractLsb' 7 7) (w.extractLsb' 0 7))
  | 1 =>
      .ok (.dfms (w.extractLsb' 21 3) (w.extractLsb' 14 7) (w.extractLsb' 7 7) (w.extractLsb' 0 7))
  | 2 =>
      .ok (.dfnma (w.extractLsb' 21 3) (w.extractLsb' 14 7) (w.extractLsb' 7 7) (w.extractLsb' 0 7))
  | _ => .error .unlistedFunction

/-- Major 0x14 (R174): the function code, then the instruction. -/
def decodeChain (w : Word) : Except DecodeError Instr :=
  match (w.extractLsb' 21 5).toNat with
  | 0 | 1 | 2 | 3 | 4 | 5 | 6 | 7 =>
      if w.extractLsb' 4 3 = 0#3 then .ok (.chain (w.extractLsb' 21 3) (w.extractLsb' 14 7) (w.extractLsb' 7 7) (w.extractLsb' 0 4))
      else .error .reservedField
  | _ => .error .unlistedFunction

/-- Major 0x18 (R174): the function code, then the instruction. -/
def decodeLd (w : Word) : Except DecodeError Instr :=
  match (w.extractLsb' 23 3).toNat with
  | 0 =>
      .ok (.ldB (w.extractLsb' 16 7) (w.extractLsb' 9 7) (w.extractLsb' 5 4) (w.extractLsb' 0 5))
  | 1 =>
      .ok (.ldSb (w.extractLsb' 16 7) (w.extractLsb' 9 7) (w.extractLsb' 5 4) (w.extractLsb' 0 5))
  | 2 =>
      .ok (.ldH (w.extractLsb' 16 7) (w.extractLsb' 9 7) (w.extractLsb' 5 4) (w.extractLsb' 0 5))
  | 3 =>
      .ok (.ldSh (w.extractLsb' 16 7) (w.extractLsb' 9 7) (w.extractLsb' 5 4) (w.extractLsb' 0 5))
  | 4 =>
      .ok (.ldW (w.extractLsb' 16 7) (w.extractLsb' 9 7) (w.extractLsb' 5 4) (w.extractLsb' 0 5))
  | 5 =>
      .ok (.ldD (w.extractLsb' 16 7) (w.extractLsb' 9 7) (w.extractLsb' 5 4) (w.extractLsb' 0 5))
  | 6 =>
      .ok (.ldQ (w.extractLsb' 16 7) (w.extractLsb' 9 7) (w.extractLsb' 5 4) (w.extractLsb' 0 5))
  | _ => .error .unlistedFunction

/-- Major 0x19 (R174): the function code, then the instruction. -/
def decodeSt (w : Word) : Except DecodeError Instr :=
  match (w.extractLsb' 23 3).toNat with
  | 0 =>
      .ok (.stB (w.extractLsb' 16 7) (w.extractLsb' 9 7) (w.extractLsb' 5 4) (w.extractLsb' 0 5))
  | 2 =>
      .ok (.stH (w.extractLsb' 16 7) (w.extractLsb' 9 7) (w.extractLsb' 5 4) (w.extractLsb' 0 5))
  | 4 =>
      .ok (.stW (w.extractLsb' 16 7) (w.extractLsb' 9 7) (w.extractLsb' 5 4) (w.extractLsb' 0 5))
  | 5 =>
      .ok (.stD (w.extractLsb' 16 7) (w.extractLsb' 9 7) (w.extractLsb' 5 4) (w.extractLsb' 0 5))
  | 6 =>
      .ok (.stQ (w.extractLsb' 16 7) (w.extractLsb' 9 7) (w.extractLsb' 5 4) (w.extractLsb' 0 5))
  | _ => .error .unlistedFunction

/-- Major 0x1A (R174): the function code, then the instruction. -/
def decodeScr (w : Word) : Except DecodeError Instr :=
  match (w.extractLsb' 23 3).toNat with
  | 0 =>
      .ok (.ldsW (w.extractLsb' 16 7) (w.extractLsb' 9 7) (w.extractLsb' 0 9))
  | 1 =>
      .ok (.ldsD (w.extractLsb' 16 7) (w.extractLsb' 9 7) (w.extractLsb' 0 9))
  | 2 =>
      .ok (.ldsQ (w.extractLsb' 16 7) (w.extractLsb' 9 7) (w.extractLsb' 0 9))
  | 3 =>
      .ok (.ldsH (w.extractLsb' 16 7) (w.extractLsb' 9 7) (w.extractLsb' 0 9))
  | 4 =>
      .ok (.stsW (w.extractLsb' 16 7) (w.extractLsb' 9 7) (w.extractLsb' 0 9))
  | 5 =>
      .ok (.stsD (w.extractLsb' 16 7) (w.extractLsb' 9 7) (w.extractLsb' 0 9))
  | 6 =>
      .ok (.stsQ (w.extractLsb' 16 7) (w.extractLsb' 9 7) (w.extractLsb' 0 9))
  | 7 =>
      .ok (.stsH (w.extractLsb' 16 7) (w.extractLsb' 9 7) (w.extractLsb' 0 9))
  | _ => .error .unlistedFunction

/-- Major 0x1B (R174): the function code, then the instruction. -/
def decodeCapmem (w : Word) : Except DecodeError Instr :=
  match (w.extractLsb' 23 3).toNat with
  | 0 =>
      .ok (.ldc (w.extractLsb' 16 7) (w.extractLsb' 9 7) (w.extractLsb' 5 4) (w.extractLsb' 0 5))
  | 1 =>
      .ok (.stc (w.extractLsb' 16 7) (w.extractLsb' 9 7) (w.extractLsb' 5 4) (w.extractLsb' 0 5))
  | 2 =>
      if w.extractLsb' 5 4 = 0#4 then .ok (.ldcL (w.extractLsb' 16 7) (w.extractLsb' 9 7) (w.extractLsb' 0 5))
      else .error .reservedField
  | 3 =>
      if w.extractLsb' 5 4 = 0#4 then .ok (.stcL (w.extractLsb' 16 7) (w.extractLsb' 9 7) (w.extractLsb' 0 5))
      else .error .reservedField
  | _ => .error .unlistedFunction

/-- Major 0x1C (R174): the function code, then the instruction. -/
def decodeAtom (w : Word) : Except DecodeError Instr :=
  match (w.extractLsb' 21 5).toNat with
  | 0 =>
      .ok (.aadd (w.extractLsb' 14 7) (w.extractLsb' 7 7) (w.extractLsb' 4 3) (w.extractLsb' 0 4))
  | 1 =>
      .ok (.aminS (w.extractLsb' 14 7) (w.extractLsb' 7 7) (w.extractLsb' 4 3) (w.extractLsb' 0 4))
  | 2 =>
      .ok (.amaxS (w.extractLsb' 14 7) (w.extractLsb' 7 7) (w.extractLsb' 4 3) (w.extractLsb' 0 4))
  | 3 =>
      .ok (.aminN (w.extractLsb' 14 7) (w.extractLsb' 7 7) (w.extractLsb' 4 3) (w.extractLsb' 0 4))
  | 4 =>
      .ok (.amaxN (w.extractLsb' 14 7) (w.extractLsb' 7 7) (w.extractLsb' 4 3) (w.extractLsb' 0 4))
  | 5 =>
      .ok (.aand (w.extractLsb' 14 7) (w.extractLsb' 7 7) (w.extractLsb' 4 3) (w.extractLsb' 0 4))
  | 6 =>
      .ok (.aor (w.extractLsb' 14 7) (w.extractLsb' 7 7) (w.extractLsb' 4 3) (w.extractLsb' 0 4))
  | 7 =>
      .ok (.axor (w.extractLsb' 14 7) (w.extractLsb' 7 7) (w.extractLsb' 4 3) (w.extractLsb' 0 4))
  | 8 =>
      .ok (.axchg (w.extractLsb' 14 7) (w.extractLsb' 7 7) (w.extractLsb' 4 3) (w.extractLsb' 0 4))
  | 9 =>
      .ok (.acas (w.extractLsb' 14 7) (w.extractLsb' 7 7) (w.extractLsb' 4 3) (w.extractLsb' 0 4))
  | 10 =>
      .ok (.afadd (w.extractLsb' 14 7) (w.extractLsb' 7 7) (w.extractLsb' 4 3) (w.extractLsb' 0 4))
  | 11 =>
      .ok (.abfadd2 (w.extractLsb' 14 7) (w.extractLsb' 7 7) (w.extractLsb' 4 3) (w.extractLsb' 0 4))
  | 12 =>
      .ok (.axchgW (w.extractLsb' 14 7) (w.extractLsb' 7 7) (w.extractLsb' 4 3) (w.extractLsb' 0 4))
  | 13 =>
      .ok (.acasW (w.extractLsb' 14 7) (w.extractLsb' 7 7) (w.extractLsb' 4 3) (w.extractLsb' 0 4))
  | 16 =>
      .ok (.rdadd (w.extractLsb' 14 7) (w.extractLsb' 7 7) (w.extractLsb' 4 3) (w.extractLsb' 0 4))
  | 17 =>
      .ok (.rdmin (w.extractLsb' 14 7) (w.extractLsb' 7 7) (w.extractLsb' 4 3) (w.extractLsb' 0 4))
  | 18 =>
      .ok (.rdmax (w.extractLsb' 14 7) (w.extractLsb' 7 7) (w.extractLsb' 4 3) (w.extractLsb' 0 4))
  | 19 =>
      .ok (.rdfadd (w.extractLsb' 14 7) (w.extractLsb' 7 7) (w.extractLsb' 4 3) (w.extractLsb' 0 4))
  | 20 =>
      .ok (.rdbfadd2 (w.extractLsb' 14 7) (w.extractLsb' 7 7) (w.extractLsb' 4 3) (w.extractLsb' 0 4))
  | 21 =>
      if w.extractLsb' 14 7 = 0#7 then .ok (.rdinc (w.extractLsb' 7 7) (w.extractLsb' 4 3) (w.extractLsb' 0 4))
      else .error .reservedField
  | _ => .error .unlistedFunction

/-- Major 0x1D (R174): the function code, then the instruction. -/
def decodeTxn (w : Word) : Except DecodeError Instr :=
  match (w.extractLsb' 21 5).toNat with
  | 0 =>
      if w.extractLsb' 0 21 = 0#21 then .ok (.tbeg)
      else .error .reservedField
  | 1 =>
      if w.extractLsb' 0 14 = 0#14 then .ok (.tend (w.extractLsb' 14 7))
      else .error .reservedField
  | 2 =>
      if w.extractLsb' 0 21 = 0#21 then .ok (.tabt)
      else .error .reservedField
  | 3 =>
      if w.extractLsb' 0 14 = 0#14 then .ok (.ttest (w.extractLsb' 14 7))
      else .error .reservedField
  | _ => .error .unlistedFunction

/-- Major 0x1E (R174): the function code, then the instruction. -/
def decodeSync (w : Word) : Except DecodeError Instr :=
  match (w.extractLsb' 21 5).toNat with
  | 0 =>
      if w.extractLsb' 2 2 = 0#2 ∧ w.extractLsb' 7 14 = 0#14 then .ok (.fence (w.extractLsb' 4 3) (w.extractLsb' 0 2))
      else .error .reservedField
  | 1 =>
      if w.extractLsb' 0 21 = 0#21 then .ok (.barG)
      else .error .reservedField
  | 2 =>
      if w.extractLsb' 0 21 = 0#21 then .ok (.barL)
      else if w.extractLsb' 0 21 = 1#21 then .ok (.barLYield)
      else .error .reservedField
  | 3 =>
      if w.extractLsb' 1 6 = 0#6 ∧ w.extractLsb' 14 7 = 0#7 then .ok (.waitph (w.extractLsb' 7 7) (w.extractLsb' 0 1))
      else .error .reservedField
  | 4 =>
      if w.extractLsb' 4 3 = 0#3 ∧ w.extractLsb' 14 7 = 0#7 then .ok (.tlwait (w.extractLsb' 7 7) (w.extractLsb' 0 4))
      else if w.extractLsb' 4 3 = 1#3 ∧ w.extractLsb' 14 7 = 0#7 then .ok (.tlwaitW (w.extractLsb' 7 7) (w.extractLsb' 0 4))
      else .error .reservedField
  | 5 =>
      if w.extractLsb' 14 7 = 0#7 then .ok (.waita (w.extractLsb' 7 7) (w.extractLsb' 0 7))
      else if w.extractLsb' 18 3 = 1#3 then .ok (.waitaGlobal (w.extractLsb' 14 4) (w.extractLsb' 7 7) (w.extractLsb' 0 7))
      else .error .reservedField
  | 6 =>
      if w.extractLsb' 0 14 = 0#14 then .ok (.mfence (w.extractLsb' 14 7))
      else .error .reservedField
  | 7 =>
      if w.extractLsb' 0 7 = 0#7 ∧ w.extractLsb' 14 7 = 0#7 then .ok (.mwait (w.extractLsb' 7 7))
      else .error .reservedField
  | 8 =>
      if w.extractLsb' 0 21 = 0#21 then .ok (.learly)
      else .error .reservedField
  | 9 =>
      if w.extractLsb' 0 21 = 0#21 then .ok (.lwaitp)
      else .error .reservedField
  | 10 =>
      if w.extractLsb' 0 21 = 0#21 then .ok (.yield)
      else .error .reservedField
  | 11 =>
      if w.extractLsb' 4 10 = 0#10 then .ok (.tlread (w.extractLsb' 14 7) (w.extractLsb' 0 4))
      else .error .reservedField
  | _ => .error .unlistedFunction

/-- Major 0x1F (R174): the function code, then the instruction. -/
def decodeEngine (w : Word) : Except DecodeError Instr :=
  match (w.extractLsb' 21 5).toNat with
  | 0 =>
      if w.extractLsb' 4 3 = 0#3 then .ok (.copy (w.extractLsb' 14 7) (w.extractLsb' 7 7) (w.extractLsb' 0 4))
      else .error .reservedField
  | 1 =>
      if w.extractLsb' 4 3 = 0#3 then .ok (.copyg (w.extractLsb' 14 7) (w.extractLsb' 7 7) (w.extractLsb' 0 4))
      else .error .reservedField
  | 2 =>
      if w.extractLsb' 4 3 = 0#3 then .ok (.copys (w.extractLsb' 14 7) (w.extractLsb' 7 7) (w.extractLsb' 0 4))
      else .error .reservedField
  | 3 =>
      if w.extractLsb' 4 3 = 0#3 then .ok (.tilest (w.extractLsb' 14 7) (w.extractLsb' 7 7) (w.extractLsb' 0 4))
      else .error .reservedField
  | 4 =>
      if w.extractLsb' 4 3 = 0#3 then .ok (.tileld (w.extractLsb' 14 7) (w.extractLsb' 7 7) (w.extractLsb' 0 4))
      else .error .reservedField
  | 5 =>
      if w.extractLsb' 4 3 = 0#3 then .ok (.regroup (w.extractLsb' 14 7) (w.extractLsb' 7 7) (w.extractLsb' 0 4))
      else .error .reservedField
  | 6 =>
      if w.extractLsb' 4 3 = 0#3 then .ok (.loftld (w.extractLsb' 14 7) (w.extractLsb' 7 7) (w.extractLsb' 0 4))
      else .error .reservedField
  | 7 =>
      if w.extractLsb' 4 3 = 0#3 then .ok (.loftev (w.extractLsb' 14 7) (w.extractLsb' 7 7) (w.extractLsb' 0 4))
      else .error .reservedField
  | 8 =>
      if w.extractLsb' 4 3 = 0#3 then .ok (.coll (w.extractLsb' 14 7) (w.extractLsb' 7 7) (w.extractLsb' 0 4))
      else .error .reservedField
  | _ => .error .unlistedFunction

/-- Major 0x20 (R174): the function code, then the instruction. -/
def decodeMma (w : Word) : Except DecodeError Instr :=
  match (w.extractLsb' 23 3).toNat with
  | 0 =>
      if w.extractLsb' 1 5 = 0#5 then .ok (.mma (w.extractLsb' 18 5) (w.extractLsb' 13 5) (w.extractLsb' 6 7) (w.extractLsb' 0 1))
      else .error .reservedField
  | 1 =>
      if w.extractLsb' 1 5 = 0#5 then .ok (.mmaZ (w.extractLsb' 18 5) (w.extractLsb' 13 5) (w.extractLsb' 6 7) (w.extractLsb' 0 1))
      else .error .reservedField
  | 2 =>
      if w.extractLsb' 1 5 = 0#5 then .ok (.mmaT (w.extractLsb' 18 5) (w.extractLsb' 13 5) (w.extractLsb' 6 7) (w.extractLsb' 0 1))
      else .error .reservedField
  | 3 =>
      if w.extractLsb' 1 5 = 0#5 then .ok (.mmas (w.extractLsb' 18 5) (w.extractLsb' 13 5) (w.extractLsb' 6 7) (w.extractLsb' 0 1))
      else .error .reservedField
  | 4 =>
      if w.extractLsb' 1 5 = 0#5 then .ok (.mmax (w.extractLsb' 18 5) (w.extractLsb' 13 5) (w.extractLsb' 6 7) (w.extractLsb' 0 1))
      else .error .reservedField
  | _ => .error .unlistedFunction

/-- Major 0x21 (R174): the function code, then the instruction. -/
def decodeCrib (w : Word) : Except DecodeError Instr :=
  match (w.extractLsb' 21 5).toNat with
  | 0 =>
      if w.extractLsb' 0 7 = 0#7 ∧ w.extractLsb' 19 2 = 0#2 then .ok (.cres (w.extractLsb' 14 5) (w.extractLsb' 7 7))
      else .error .reservedField
  | 1 =>
      if w.extractLsb' 0 14 = 0#14 ∧ w.extractLsb' 19 2 = 0#2 then .ok (.crel (w.extractLsb' 14 5))
      else .error .reservedField
  | 2 =>
      if w.extractLsb' 4 3 = 0#3 then .ok (.cld (w.extractLsb' 14 7) (w.extractLsb' 7 7) (w.extractLsb' 0 4))
      else .error .reservedField
  | 3 =>
      if w.extractLsb' 4 3 = 0#3 then .ok (.cst (w.extractLsb' 14 7) (w.extractLsb' 7 7) (w.extractLsb' 0 4))
      else .error .reservedField
  | 4 =>
      if w.extractLsb' 0 14 = 0#14 ∧ w.extractLsb' 19 2 = 0#2 then .ok (.czero (w.extractLsb' 14 5))
      else .error .reservedField
  | 5 =>
      if w.extractLsb' 0 7 = 0#7 ∧ w.extractLsb' 14 7 = 0#7 then .ok (.mrow (w.extractLsb' 7 7))
      else .error .reservedField
  | 6 =>
      if w.extractLsb' 0 7 = 0#7 ∧ w.extractLsb' 14 7 = 0#7 then .ok (.mcol (w.extractLsb' 7 7))
      else .error .reservedField
  | _ => .error .unlistedFunction

/-- Major 0x22 (R174): the function code, then the instruction. -/
def decodeDrain (w : Word) : Except DecodeError Instr :=
  match (w.extractLsb' 21 5).toNat with
  | 0 =>
      if w.extractLsb' 4 3 = 0#3 then .ok (.drain (w.extractLsb' 14 7) (w.extractLsb' 7 7) (w.extractLsb' 0 4))
      else .error .reservedField
  | 1 =>
      if w.extractLsb' 0 7 = 0#7 then .ok (.sieveRd (w.extractLsb' 14 7) (w.extractLsb' 7 7))
      else .error .reservedField
  | 2 =>
      if w.extractLsb' 0 21 = 0#21 then .ok (.sieveClr)
      else .error .reservedField
  | 3 =>
      if w.extractLsb' 4 3 = 0#3 ∧ w.extractLsb' 14 7 = 0#7 then .ok (.sieveCfg (w.extractLsb' 7 7) (w.extractLsb' 0 4))
      else .error .reservedField
  | _ => .error .unlistedFunction

/-- Major 0x23 (R174): the function code, then the instruction. -/
def decodeLoft (w : Word) : Except DecodeError Instr :=
  match (w.extractLsb' 21 5).toNat with
  | 0 =>
      if w.extractLsb' 14 7 = 0#7 then .ok (.lhset (w.extractLsb' 7 7) (w.extractLsb' 0 7))
      else if w.extractLsb' 0 7 = 0#7 ∧ w.extractLsb' 14 7 = 1#7 then .ok (.lhsetRel (w.extractLsb' 7 7))
      else .error .reservedField
  | 1 =>
      if w.extractLsb' 14 7 = 0#7 then .ok (.lhget (w.extractLsb' 7 7) (w.extractLsb' 0 7))
      else .error .reservedField
  | 2 =>
      if w.extractLsb' 0 7 = 0#7 ∧ w.extractLsb' 14 7 = 0#7 then .ok (.lhpin (w.extractLsb' 7 7))
      else .error .reservedField
  | 3 =>
      if w.extractLsb' 0 7 = 0#7 ∧ w.extractLsb' 14 7 = 0#7 then .ok (.lhunpin (w.extractLsb' 7 7))
      else .error .reservedField
  | _ => .error .unlistedFunction

/-- Major 0x24 (R174): the function code, then the instruction. -/
def decodeRegrow (w : Word) : Except DecodeError Instr :=
  match (w.extractLsb' 21 5).toNat with
  | 0 =>
      if w.extractLsb' 4 10 = 0#10 then .ok (.tdesc (w.extractLsb' 14 7) (w.extractLsb' 0 4))
      else if w.extractLsb' 4 10 = 1#10 then .ok (.tdescRel (w.extractLsb' 14 7) (w.extractLsb' 0 4))
      else .error .reservedField
  | 1 =>
      if w.extractLsb' 4 3 = 0#3 ∧ w.extractLsb' 11 3 = 0#3 then .ok (.recipe (w.extractLsb' 14 7) (w.extractLsb' 7 4) (w.extractLsb' 0 4))
      else .error .reservedField
  | 2 =>
      if w.extractLsb' 4 10 = 0#10 then .ok (.tpin (w.extractLsb' 14 7) (w.extractLsb' 0 4))
      else .error .reservedField
  | 3 =>
      if w.extractLsb' 4 10 = 0#10 then .ok (.tunpin (w.extractLsb' 14 7) (w.extractLsb' 0 4))
      else .error .reservedField
  | 4 =>
      if w.extractLsb' 4 10 = 0#10 then .ok (.tprobe (w.extractLsb' 14 7) (w.extractLsb' 0 4))
      else .error .reservedField
  | 5 =>
      if w.extractLsb' 4 10 = 0#10 then .ok (.tdrop (w.extractLsb' 14 7) (w.extractLsb' 0 4))
      else .error .reservedField
  | 6 =>
      if w.extractLsb' 0 21 = 0#21 then .ok (.regrown)
      else .error .reservedField
  | _ => .error .unlistedFunction

/-- Major 0x28 (R174): the function code, then the instruction. -/
noncomputable def decodeCap (w : Word) : Except DecodeError Instr :=
  match (w.extractLsb' 21 5).toNat with
  | 0 =>
      if w.extractLsb' 4 3 = 0#3 ∧ w.extractLsb' 18 3 = 0#3 then .ok (.csetb (w.extractLsb' 14 4) (w.extractLsb' 7 7) (w.extractLsb' 0 4))
      else .error .reservedField
  | 1 =>
      if w.extractLsb' 4 3 = 0#3 ∧ w.extractLsb' 18 3 = 0#3 then .ok (.csetbx (w.extractLsb' 14 4) (w.extractLsb' 7 7) (w.extractLsb' 0 4))
      else .error .reservedField
  | 2 =>
      if w.extractLsb' 4 3 = 0#3 ∧ w.extractLsb' 18 3 = 0#3 then .ok (.candp (w.extractLsb' 14 4) (w.extractLsb' 7 7) (w.extractLsb' 0 4))
      else .error .reservedField
  | 3 =>
      if w.extractLsb' 4 3 = 0#3 ∧ w.extractLsb' 18 3 = 0#3 then .ok (.cinc (w.extractLsb' 14 4) (w.extractLsb' 7 7) (w.extractLsb' 0 4))
      else .error .reservedField
  | 4 =>
      if w.extractLsb' 4 3 = 0#3 ∧ w.extractLsb' 18 3 = 0#3 then .ok (.cseta (w.extractLsb' 14 4) (w.extractLsb' 7 7) (w.extractLsb' 0 4))
      else .error .reservedField
  | 5 =>
      if w.extractLsb' 4 10 = 0#10 then .ok (.cgetb (w.extractLsb' 14 7) (w.extractLsb' 0 4))
      else if w.extractLsb' 4 10 = 1#10 then .ok (.cgetbCur (w.extractLsb' 14 7) (w.extractLsb' 0 4))
      else .error .reservedField
  | 6 =>
      if w.extractLsb' 4 10 = 0#10 then .ok (.cgetl (w.extractLsb' 14 7) (w.extractLsb' 0 4))
      else .error .reservedField
  | 7 =>
      if w.extractLsb' 4 10 = 0#10 then .ok (.cgetp (w.extractLsb' 14 7) (w.extractLsb' 0 4))
      else .error .reservedField
  | 8 =>
      if w.extractLsb' 4 10 = 0#10 then .ok (.cgeto (w.extractLsb' 14 7) (w.extractLsb' 0 4))
      else .error .reservedField
  | 9 =>
      if w.extractLsb' 4 10 = 0#10 then .ok (.cgett (w.extractLsb' 14 7) (w.extractLsb' 0 4))
      else .error .reservedField
  | 10 =>
      if w.extractLsb' 4 10 = 0#10 ∧ w.extractLsb' 18 3 = 0#3 then .ok (.cmov (w.extractLsb' 14 4) (w.extractLsb' 0 4))
      else if w.extractLsb' 4 10 = 1#10 then .ok (.cmovToLanes (w.extractLsb' 14 7) (w.extractLsb' 0 4))
      else if w.extractLsb' 0 7 = 32#7 ∧ w.extractLsb' 18 3 = 0#3 then .ok (.cmovFromLane (w.extractLsb' 14 4) (w.extractLsb' 7 7))
      else .error .reservedField
  | 11 =>
      if w.extractLsb' 0 14 = 0#14 ∧ w.extractLsb' 18 3 = 0#3 then .ok (.cclr (w.extractLsb' 14 4))
      else .error .reservedField
  | 12 =>
      if w.extractLsb' 4 3 = 0#3 ∧ w.extractLsb' 11 3 = 0#3 then .ok (.ctstsub (w.extractLsb' 14 7) (w.extractLsb' 7 4) (w.extractLsb' 0 4))
      else .error .reservedField
  | _ => .error .unlistedFunction

/-- Major 0x29 (R174): the function code, then the instruction. -/
noncomputable def decodeSeal (w : Word) : Except DecodeError Instr :=
  match (w.extractLsb' 21 5).toNat with
  | 0 =>
      if w.extractLsb' 4 3 = 0#3 ∧ w.extractLsb' 11 3 = 0#3 ∧ w.extractLsb' 18 3 = 0#3 then .ok (.cseal (w.extractLsb' 14 4) (w.extractLsb' 7 4) (w.extractLsb' 0 4))
      else .error .reservedField
  | 1 =>
      if w.extractLsb' 4 3 = 0#3 ∧ w.extractLsb' 11 3 = 0#3 ∧ w.extractLsb' 18 3 = 0#3 then .ok (.cunseal (w.extractLsb' 14 4) (w.extractLsb' 7 4) (w.extractLsb' 0 4))
      else .error .reservedField
  | 2 =>
      if w.extractLsb' 4 10 = 0#10 ∧ w.extractLsb' 18 3 = 0#3 then .ok (.cseale (w.extractLsb' 14 4) (w.extractLsb' 0 4))
      else .error .reservedField
  | 3 =>
      if w.extractLsb' 4 10 = 0#10 ∧ w.extractLsb' 18 3 = 0#3 then .ok (.cinvoke (w.extractLsb' 14 4) (w.extractLsb' 0 4))
      else .error .reservedField
  | _ => .error .unlistedFunction

/-- Major 0x2A (R174): the function code, then the instruction. -/
noncomputable def decodeIpc (w : Word) : Except DecodeError Instr :=
  match (w.extractLsb' 21 5).toNat with
  | 0 =>
      if w.extractLsb' 4 3 = 0#3 then .ok (.send (w.extractLsb' 14 7) (w.extractLsb' 7 7) (w.extractLsb' 0 4))
      else .error .reservedField
  | 1 =>
      if w.extractLsb' 4 10 = 0#10 then .ok (.recv (w.extractLsb' 14 7) (w.extractLsb' 0 4))
      else .error .reservedField
  | 2 =>
      if w.extractLsb' 4 3 = 0#3 then .ok (.callMsg (w.extractLsb' 14 7) (w.extractLsb' 7 7) (w.extractLsb' 0 4))
      else .error .reservedField
  | 3 =>
      if w.extractLsb' 4 3 = 0#3 then .ok (.reply (w.extractLsb' 14 7) (w.extractLsb' 7 7) (w.extractLsb' 0 4))
      else .error .reservedField
  | 4 =>
      if w.extractLsb' 4 3 = 0#3 then .ok (.nbsend (w.extractLsb' 14 7) (w.extractLsb' 7 7) (w.extractLsb' 0 4))
      else .error .reservedField
  | 5 =>
      if w.extractLsb' 4 17 = 0#17 then .ok (.signal (w.extractLsb' 0 4))
      else .error .reservedField
  | 6 =>
      if w.extractLsb' 4 10 = 0#10 then .ok (.waitn (w.extractLsb' 14 7) (w.extractLsb' 0 4))
      else .error .reservedField
  | _ => .error .unlistedFunction

/-- Major 0x2B (R174): the function code, then the instruction. -/
noncomputable def decodeKcall (w : Word) : Except DecodeError Instr :=
  match (w.extractLsb' 21 5).toNat with
  | 0 =>
      if w.extractLsb' 4 10 = 0#10 then .ok (.spawn (w.extractLsb' 14 7) (w.extractLsb' 0 4))
      else .error .reservedField
  | 1 =>
      if w.extractLsb' 4 3 = 0#3 ∧ w.extractLsb' 14 7 = 0#7 then .ok (.join (w.extractLsb' 7 7) (w.extractLsb' 0 4))
      else .error .reservedField
  | 2 =>
      if w.extractLsb' 0 7 = 0#7 then .ok (.svc (w.extractLsb' 14 7) (w.extractLsb' 7 7))
      else .error .reservedField
  | 3 =>
      if w.extractLsb' 4 10 = 0#10 then .ok (.revoke (w.extractLsb' 14 7) (w.extractLsb' 0 4))
      else .error .reservedField
  | _ => .error .unlistedFunction

/-- Major 0x30 (R174): the function code, then the instruction. -/
noncomputable def decodeBr (w : Word) : Except DecodeError Instr :=
  match (w.extractLsb' 23 3).toNat with
  | 0 =>
      if w.extractLsb' 20 3 = 0#3 then .ok (.bra (w.extractLsb' 0 20))
      else .error .reservedField
  | 1 =>
      .ok (.brp (w.extractLsb' 20 3) (w.extractLsb' 0 20))
  | 2 =>
      .ok (.brn (w.extractLsb' 20 3) (w.extractLsb' 0 20))
  | 3 =>
      if w.extractLsb' 20 3 = 0#3 then .ok (.brall (w.extractLsb' 0 20))
      else .error .reservedField
  | 4 =>
      if w.extractLsb' 20 3 = 0#3 then .ok (.brany (w.extractLsb' 0 20))
      else .error .reservedField
  | 5 =>
      if w.extractLsb' 20 3 = 0#3 then .ok (.brnone (w.extractLsb' 0 20))
      else .error .reservedField
  | 6 =>
      if w.extractLsb' 20 3 = 0#3 then .ok (.branchCall (w.extractLsb' 0 20))
      else .error .reservedField
  | _ => .error .unlistedFunction

/-- Major 0x31 (R174): the function code, then the instruction. -/
noncomputable def decodePath (w : Word) : Except DecodeError Instr :=
  match (w.extractLsb' 23 3).toNat with
  | 0 =>
      if w.extractLsb' 9 14 = 0#14 then .ok (.recMark (w.extractLsb' 0 9))
      else .error .reservedField
  | 1 =>
      if w.extractLsb' 16 7 = 0#7 then .ok (.path (w.extractLsb' 9 7) (w.extractLsb' 0 9))
      else .error .reservedField
  | 2 =>
      if w.extractLsb' 0 23 = 0#23 then .ok (.pyield)
      else .error .reservedField
  | _ => .error .unlistedFunction

/-- Major 0x32 (R174): the function code, then the instruction. -/
noncomputable def decodeXfer (w : Word) : Except DecodeError Instr :=
  match (w.extractLsb' 21 5).toNat with
  | 0 =>
      if w.extractLsb' 0 7 = 0#7 ∧ w.extractLsb' 14 7 = 0#7 then .ok (.ret (w.extractLsb' 7 7))
      else .error .reservedField
  | 1 =>
      if w.extractLsb' 0 7 = 0#7 ∧ w.extractLsb' 14 7 = 0#7 then .ok (.jmpr (w.extractLsb' 7 7))
      else .error .reservedField
  | 2 =>
      if w.extractLsb' 0 7 = 0#7 then .ok (.callr (w.extractLsb' 14 7) (w.extractLsb' 7 7))
      else .error .reservedField
  | _ => .error .unlistedFunction

/-- Major 0x33 (R174): the function code, then the instruction. -/
noncomputable def decodeSpecial (w : Word) : Except DecodeError Instr :=
  match (w.extractLsb' 21 5).toNat with
  | 0 =>
      if w.extractLsb' 7 7 = 0#7 then .ok (.srd (w.extractLsb' 14 7) (w.extractLsb' 0 7))
      else .error .reservedField
  | 1 =>
      if w.extractLsb' 14 7 = 0#7 then .ok (.swr (w.extractLsb' 7 7) (w.extractLsb' 0 7))
      else .error .reservedField
  | 2 =>
      if w.extractLsb' 0 21 = 0#21 then .ok (.xretRetry)
      else if w.extractLsb' 0 21 = 1#21 then .ok (.xretSkip)
      else .error .reservedField
  | 3 =>
      if w.extractLsb' 0 21 = 0#21 then .ok (.nop)
      else .error .reservedField
  | 4 =>
      if w.extractLsb' 0 21 = 0#21 then .ok (.exit)
      else .error .reservedField
  | 5 =>
      if w.extractLsb' 7 14 = 0#14 then .ok (.brk (w.extractLsb' 0 7))
      else .error .reservedField
  | 6 =>
      if w.extractLsb' 0 14 = 0#14 then .ok (.clock (w.extractLsb' 14 7))
      else .error .reservedField
  | 7 =>
      if w.extractLsb' 2 19 = 0#19 then .ok (.role (w.extractLsb' 0 2))
      else .error .reservedField
  | _ => .error .unlistedFunction

/-- Major 0x38 (R174): the function code, then the instruction. -/
noncomputable def decodeSys (w : Word) : Except DecodeError Instr :=
  match (w.extractLsb' 21 5).toNat with
  | 0 =>
      if w.extractLsb' 0 7 = 0#7 then .ok (.sysrd (w.extractLsb' 14 7) (w.extractLsb' 7 7))
      else .error .reservedField
  | 1 =>
      .ok (.syswr (w.extractLsb' 14 7) (w.extractLsb' 7 7) (w.extractLsb' 0 7))
  | _ => .error .unlistedFunction

/-- Major 0x39 (R174): the function code, then the instruction. -/
noncomputable def decodeXlt (w : Word) : Except DecodeError Instr :=
  match (w.extractLsb' 21 5).toNat with
  | 0 =>
      if w.extractLsb' 14 7 = 0#7 then .ok (.tlbinv (w.extractLsb' 7 7) (w.extractLsb' 0 7))
      else .error .reservedField
  | 1 =>
      if w.extractLsb' 7 14 = 0#14 then .ok (.tlbinva (w.extractLsb' 0 7))
      else if w.extractLsb' 0 21 = 16384#21 then .ok (.tlbinvaAll)
      else .error .reservedField
  | 2 =>
      if w.extractLsb' 0 21 = 0#21 then .ok (.ptwsync)
      else .error .reservedField
  | _ => .error .unlistedFunction

/-- Major 0x3A (R174): the function code, then the instruction. -/
noncomputable def decodeCtx (w : Word) : Except DecodeError Instr :=
  match (w.extractLsb' 21 5).toNat with
  | 0 =>
      if w.extractLsb' 4 3 = 0#3 then .ok (.eret (w.extractLsb' 14 7) (w.extractLsb' 7 7) (w.extractLsb' 0 4))
      else .error .reservedField
  | 1 =>
      if w.extractLsb' 4 10 = 0#10 then .ok (.haltctx (w.extractLsb' 14 7) (w.extractLsb' 0 4))
      else if w.extractLsb' 4 10 = 1#10 then .ok (.haltctxSave (w.extractLsb' 14 7) (w.extractLsb' 0 4))
      else .error .reservedField
  | 2 =>
      if w.extractLsb' 4 3 = 0#3 then .ok (.resumectx (w.extractLsb' 14 7) (w.extractLsb' 7 7) (w.extractLsb' 0 4))
      else .error .reservedField
  | 3 =>
      if w.extractLsb' 4 10 = 0#10 ∧ w.extractLsb' 18 3 = 0#3 then .ok (.stoprd (w.extractLsb' 14 4) (w.extractLsb' 0 4))
      else .error .reservedField
  | 4 =>
      if w.extractLsb' 4 10 = 0#10 then .ok (.qdrain (w.extractLsb' 14 7) (w.extractLsb' 0 4))
      else .error .reservedField
  | 5 =>
      if w.extractLsb' 4 3 = 0#3 ∧ w.extractLsb' 18 3 = 0#3 then .ok (.objnew (w.extractLsb' 14 4) (w.extractLsb' 7 7) (w.extractLsb' 0 4))
      else .error .reservedField
  | _ => .error .unlistedFunction

/-- Major 0x3B (R174): the function code, then the instruction. -/
noncomputable def decodePolicy (w : Word) : Except DecodeError Instr :=
  match (w.extractLsb' 21 5).toNat with
  | 0 =>
      if w.extractLsb' 4 3 = 0#3 then .ok (.pload (w.extractLsb' 14 7) (w.extractLsb' 7 7) (w.extractLsb' 0 4))
      else .error .reservedField
  | 1 =>
      if w.extractLsb' 0 7 = 0#7 then .ok (.pswap (w.extractLsb' 14 7) (w.extractLsb' 7 7))
      else .error .reservedField
  | 2 =>
      .ok (.pstat (w.extractLsb' 14 7) (w.extractLsb' 7 7) (w.extractLsb' 0 7))
  | _ => .error .unlistedFunction

/-- Major 0x3F (R174): the function code, then the instruction. -/
noncomputable def decodeHint (w : Word) : Except DecodeError Instr :=
  match (w.extractLsb' 23 3).toNat with
  | 0 =>
      .ok (.imm (w.extractLsb' 0 23))
  | 1 =>
      if w.extractLsb' 0 19 = 0#19 then .ok (.guard (w.extractLsb' 20 3) (w.extractLsb' 19 1))
      else .error .reservedField
  | 2 =>
      if w.extractLsb' 0 15 = 0#15 then .ok (.sched (w.extractLsb' 19 4) (w.extractLsb' 18 1) (w.extractLsb' 15 3))
      else .error .reservedField
  | 3 =>
      if w.extractLsb' 0 18 = 0#18 then .ok (.rmode (w.extractLsb' 20 3) (w.extractLsb' 18 2))
      else .error .reservedField
  | 4 =>
      if w.extractLsb' 22 1 = 0#1 then .ok (.chainop (w.extractLsb' 11 11) (w.extractLsb' 0 11))
      else .error .reservedField
  | 5 =>
      .ok (.offhi (w.extractLsb' 0 23))
  | 6 =>
      if w.extractLsb' 0 4 = 0#4 then .ok (.matx (w.extractLsb' 13 10) (w.extractLsb' 6 7) (w.extractLsb' 4 2))
      else .error .reservedField
  | _ => .error .unlistedFunction

/-- The instruction of a word by its major opcode (R169, R174), its operands not yet checked. -/
noncomputable def decodeRaw (w : Word) : Except DecodeError Instr :=
  match (w.extractLsb' 26 6).toNat with
  | 1 => decodeIalu w
  | 2 => decodeImul w
  | 3 => decodeIcmp w
  | 4 => decodeBits w
  | 5 => decodePred w
  | 6 => decodePk16 w
  | 7 => decodeIalui w
  | 8 => decodeFp32 w
  | 9 => decodeFma w
  | 10 => decodeFp16 w
  | 11 => decodeBf16 w
  | 12 => decodeFmisc w
  | 13 => decodeSfu w
  | 14 => decodeCvt w
  | 15 => decodeQuant w
  | 16 => decodeXlane w
  | 17 => decodeReduce w
  | 18 => decodeFp64 w
  | 19 => decodeFma64 w
  | 20 => decodeChain w
  | 24 => decodeLd w
  | 25 => decodeSt w
  | 26 => decodeScr w
  | 27 => decodeCapmem w
  | 28 => decodeAtom w
  | 29 => decodeTxn w
  | 30 => decodeSync w
  | 31 => decodeEngine w
  | 32 => decodeMma w
  | 33 => decodeCrib w
  | 34 => decodeDrain w
  | 35 => decodeLoft w
  | 36 => decodeRegrow w
  | 40 => decodeCap w
  | 41 => decodeSeal w
  | 42 => decodeIpc w
  | 43 => decodeKcall w
  | 48 => decodeBr w
  | 49 => decodePath w
  | 50 => decodeXfer w
  | 51 => decodeSpecial w
  | 56 => decodeSys w
  | 57 => decodeXlt w
  | 58 => decodeCtx w
  | 59 => decodePolicy w
  | 63 => decodeHint w
  | _ => .error .unassignedMajor

/-- The word of an instruction, from the word formulas of R191, R219 and R247 and the entries' field values;
an event has no word (spec/95). -/
def encode : Instr → Option Word
  | .add d a b => some (32#11 ++ d ++ a ++ b : BitVec 32)
  | .sub d a b => some (33#11 ++ d ++ a ++ b : BitVec 32)
  | .minS d a b => some (34#11 ++ d ++ a ++ b : BitVec 32)
  | .minN d a b => some (35#11 ++ d ++ a ++ b : BitVec 32)
  | .maxS d a b => some (36#11 ++ d ++ a ++ b : BitVec 32)
  | .maxN d a b => some (37#11 ++ d ++ a ++ b : BitVec 32)
  | .and d a b => some (38#11 ++ d ++ a ++ b : BitVec 32)
  | .or d a b => some (39#11 ++ d ++ a ++ b : BitVec 32)
  | .xor d a b => some (40#11 ++ d ++ a ++ b : BitVec 32)
  | .andn d a b => some (41#11 ++ d ++ a ++ b : BitVec 32)
  | .shl d a b => some (42#11 ++ d ++ a ++ b : BitVec 32)
  | .shr d a b => some (43#11 ++ d ++ a ++ b : BitVec 32)
  | .sar d a b => some (44#11 ++ d ++ a ++ b : BitVec 32)
  | .rotl d a b => some (45#11 ++ d ++ a ++ b : BitVec 32)
  | .adds d a b => some (46#11 ++ d ++ a ++ b : BitVec 32)
  | .subs d a b => some (47#11 ++ d ++ a ++ b : BitVec 32)
  | .absd d a b => some (48#11 ++ d ++ a ++ b : BitVec 32)
  | .addW d a b => some (49#11 ++ d ++ a ++ b : BitVec 32)
  | .subW d a b => some (50#11 ++ d ++ a ++ b : BitVec 32)
  | .shlW d a b => some (51#11 ++ d ++ a ++ b : BitVec 32)
  | .shrW d a b => some (52#11 ++ d ++ a ++ b : BitVec 32)
  | .mov d a => some (53#11 ++ d ++ a ++ 0#7 : BitVec 32)
  | .mul d a b => some (64#11 ++ d ++ a ++ b : BitVec 32)
  | .mulhS d a b => some (65#11 ++ d ++ a ++ b : BitVec 32)
  | .mulhN d a b => some (66#11 ++ d ++ a ++ b : BitVec 32)
  | .mulW d a b => some (67#11 ++ d ++ a ++ b : BitVec 32)
  | .mad d a b => some (68#11 ++ d ++ a ++ b : BitVec 32)
  | .divS d a b => some (69#11 ++ d ++ a ++ b : BitVec 32)
  | .divN d a b => some (70#11 ++ d ++ a ++ b : BitVec 32)
  | .remS d a b => some (71#11 ++ d ++ a ++ b : BitVec 32)
  | .remN d a b => some (72#11 ++ d ++ a ++ b : BitVec 32)
  | .eq p a b => some (1536#15 ++ p ++ a ++ b : BitVec 32)
  | .ne p a b => some (1552#15 ++ p ++ a ++ b : BitVec 32)
  | .ltS p a b => some (1568#15 ++ p ++ a ++ b : BitVec 32)
  | .leS p a b => some (1584#15 ++ p ++ a ++ b : BitVec 32)
  | .ltN p a b => some (1600#15 ++ p ++ a ++ b : BitVec 32)
  | .leN p a b => some (1616#15 ++ p ++ a ++ b : BitVec 32)
  | .tst p a b => some (1632#15 ++ p ++ a ++ b : BitVec 32)
  | .tstz p a b => some (1648#15 ++ p ++ a ++ b : BitVec 32)
  | .popc d a => some (128#11 ++ d ++ a ++ 0#7 : BitVec 32)
  | .clz d a => some (129#11 ++ d ++ a ++ 0#7 : BitVec 32)
  | .ctz d a => some (130#11 ++ d ++ a ++ 0#7 : BitVec 32)
  | .brev d a => some (131#11 ++ d ++ a ++ 0#7 : BitVec 32)
  | .bfeS d a b => some (132#11 ++ d ++ a ++ b : BitVec 32)
  | .bfeN d a b => some (133#11 ++ d ++ a ++ b : BitVec 32)
  | .bfi d a b => some (134#11 ++ d ++ a ++ b : BitVec 32)
  | .permb d a b => some (135#11 ++ d ++ a ++ b : BitVec 32)
  | .sel k d a b => some (20#8 ++ k ++ d ++ a ++ b : BitVec 32)
  | .pand d a b => some (2688#15 ++ d ++ 0#4 ++ a ++ 0#4 ++ b : BitVec 32)
  | .por d a b => some (2704#15 ++ d ++ 0#4 ++ a ++ 0#4 ++ b : BitVec 32)
  | .pxor d a b => some (2720#15 ++ d ++ 0#4 ++ a ++ 0#4 ++ b : BitVec 32)
  | .pandn d a b => some (2736#15 ++ d ++ 0#4 ++ a ++ 0#4 ++ b : BitVec 32)
  | .p2s d a => some (172#11 ++ d ++ 0#4 ++ a ++ 0#7 : BitVec 32)
  | .s2p d a => some (2768#15 ++ d ++ a ++ 0#7 : BitVec 32)
  | .dmac2Ss d a b => some (192#11 ++ d ++ a ++ b : BitVec 32)
  | .dmac2 d a b => some (193#11 ++ d ++ a ++ b : BitVec 32)
  | .add2S d a b => some (194#11 ++ d ++ a ++ b : BitVec 32)
  | .sub2S d a b => some (195#11 ++ d ++ a ++ b : BitVec 32)
  | .mul2Q15 d a b => some (196#11 ++ d ++ a ++ b : BitVec 32)
  | .shrr d a b => some (197#11 ++ d ++ a ++ b : BitVec 32)
  | .pack2S d a b => some (198#11 ++ d ++ a ++ b : BitVec 32)
  | .unpk2 d a => some (199#11 ++ d ++ a ++ 0#7 : BitVec 32)
  | .addi d a imm => some (56#9 ++ d ++ a ++ imm : BitVec 32)
  | .andi d a imm => some (57#9 ++ d ++ a ++ imm : BitVec 32)
  | .ori d a imm => some (58#9 ++ d ++ a ++ imm : BitVec 32)
  | .xori d a imm => some (59#9 ++ d ++ a ++ imm : BitVec 32)
  | .shli d a imm => some (60#9 ++ d ++ a ++ imm : BitVec 32)
  | .shri d a imm => some (61#9 ++ d ++ a ++ imm : BitVec 32)
  | .sari d a imm => some (62#9 ++ d ++ a ++ imm : BitVec 32)
  | .movi d imm => some (63#9 ++ d ++ 0#7 ++ imm : BitVec 32)
  | .fadd rm d a b => some (32#8 ++ rm ++ d ++ a ++ b : BitVec 32)
  | .fsub rm d a b => some (33#8 ++ rm ++ d ++ a ++ b : BitVec 32)
  | .fmul rm d a b => some (34#8 ++ rm ++ d ++ a ++ b : BitVec 32)
  | .fdiv rm d a b => some (35#8 ++ rm ++ d ++ a ++ b : BitVec 32)
  | .fma rm d a b => some (36#8 ++ rm ++ d ++ a ++ b : BitVec 32)
  | .fms rm d a b => some (37#8 ++ rm ++ d ++ a ++ b : BitVec 32)
  | .fnma rm d a b => some (38#8 ++ rm ++ d ++ a ++ b : BitVec 32)
  | .hadd2 rm d a b => some (40#8 ++ rm ++ d ++ a ++ b : BitVec 32)
  | .hmul2 rm d a b => some (41#8 ++ rm ++ d ++ a ++ b : BitVec 32)
  | .hfma2 rm d a b => some (42#8 ++ rm ++ d ++ a ++ b : BitVec 32)
  | .badd2 rm d a b => some (44#8 ++ rm ++ d ++ a ++ b : BitVec 32)
  | .bmul2 rm d a b => some (45#8 ++ rm ++ d ++ a ++ b : BitVec 32)
  | .bfma2 rm d a b => some (46#8 ++ rm ++ d ++ a ++ b : BitVec 32)
  | .fmin d a b => some (384#11 ++ d ++ a ++ b : BitVec 32)
  | .fmax d a b => some (385#11 ++ d ++ a ++ b : BitVec 32)
  | .fminNan d a b => some (386#11 ++ d ++ a ++ b : BitVec 32)
  | .fmaxNan d a b => some (387#11 ++ d ++ a ++ b : BitVec 32)
  | .fabs d a => some (388#11 ++ d ++ a ++ 0#7 : BitVec 32)
  | .fneg d a => some (389#11 ++ d ++ a ++ 0#7 : BitVec 32)
  | .fclass d a => some (390#11 ++ d ++ a ++ 0#7 : BitVec 32)
  | .fcmpEq p a b => some (6272#15 ++ p ++ a ++ b : BitVec 32)
  | .fcmpNe p a b => some (6288#15 ++ p ++ a ++ b : BitVec 32)
  | .fcmpLt p a b => some (6304#15 ++ p ++ a ++ b : BitVec 32)
  | .fcmpLe p a b => some (6320#15 ++ p ++ a ++ b : BitVec 32)
  | .fcmpUn p a b => some (6336#15 ++ p ++ a ++ b : BitVec 32)
  | .hmin2 d a b => some (397#11 ++ d ++ a ++ b : BitVec 32)
  | .hmax2 d a b => some (398#11 ++ d ++ a ++ b : BitVec 32)
  | .bmin2 d a b => some (399#11 ++ d ++ a ++ b : BitVec 32)
  | .bmax2 d a b => some (400#11 ++ d ++ a ++ b : BitVec 32)
  | .rcp d a => some (416#11 ++ d ++ a ++ 0#7 : BitVec 32)
  | .rsq d a => some (417#11 ++ d ++ a ++ 0#7 : BitVec 32)
  | .sqrt d a => some (418#11 ++ d ++ a ++ 0#7 : BitVec 32)
  | .exp2 d a => some (419#11 ++ d ++ a ++ 0#7 : BitVec 32)
  | .log2 d a => some (420#11 ++ d ++ a ++ 0#7 : BitVec 32)
  | .sinpi d a => some (421#11 ++ d ++ a ++ 0#7 : BitVec 32)
  | .cospi d a => some (422#11 ++ d ++ a ++ 0#7 : BitVec 32)
  | .tanh d a => some (423#11 ++ d ++ a ++ 0#7 : BitVec 32)
  | .sigm d a => some (424#11 ++ d ++ a ++ 0#7 : BitVec 32)
  | .cvt rm d a s t => some (56#8 ++ rm ++ d ++ a ++ s ++ t : BitVec 32)
  | .cvtPk rm d a s t => some (57#8 ++ rm ++ d ++ a ++ s ++ t : BitVec 32)
  | .cvtSat rm d a s t => some (58#8 ++ rm ++ d ++ a ++ s ++ t : BitVec 32)
  | .cvtXi rm d a s t => some (59#8 ++ rm ++ d ++ a ++ s ++ t : BitVec 32)
  | .cvtq d a b => some (480#11 ++ d ++ a ++ b : BitVec 32)
  | .mxscale d a b => some (481#11 ++ d ++ a ++ b : BitVec 32)
  | .mxpack d a b => some (482#11 ++ d ++ a ++ b : BitVec 32)
  | .slideup d a b => some (512#11 ++ d ++ a ++ b : BitVec 32)
  | .slidedn d a b => some (513#11 ++ d ++ a ++ b : BitVec 32)
  | .shuf d a b => some (514#11 ++ d ++ a ++ b : BitVec 32)
  | .xshuf d a b => some (515#11 ++ d ++ a ++ b : BitVec 32)
  | .bcast d a b => some (516#11 ++ d ++ a ++ b : BitVec 32)
  | .rot d a b => some (517#11 ++ d ++ a ++ b : BitVec 32)
  | .vtos d a b => some (518#11 ++ d ++ a ++ b : BitVec 32)
  | .first d a => some (519#11 ++ d ++ a ++ 0#7 : BitVec 32)
  | .radd d a => some (544#11 ++ d ++ a ++ 0#7 : BitVec 32)
  | .rminS d a => some (545#11 ++ d ++ a ++ 0#7 : BitVec 32)
  | .rmaxS d a => some (546#11 ++ d ++ a ++ 0#7 : BitVec 32)
  | .fradd d a => some (547#11 ++ d ++ a ++ 0#7 : BitVec 32)
  | .frmax d a => some (548#11 ++ d ++ a ++ 0#7 : BitVec 32)
  | .ballot d a => some (549#11 ++ d ++ 0#4 ++ a ++ 0#7 : BitVec 32)
  | .anyOf d a => some (8800#15 ++ d ++ 0#4 ++ a ++ 0#7 : BitVec 32)
  | .allOf d a => some (8816#15 ++ d ++ 0#4 ++ a ++ 0#7 : BitVec 32)
  | .pscanEx d a => some (552#11 ++ d ++ a ++ 0#7 : BitVec 32)
  | .pscanIn d a => some (552#11 ++ d ++ a ++ 1#7 : BitVec 32)
  | .matchEq d a => some (553#11 ++ d ++ a ++ 0#7 : BitVec 32)
  | .dadd rm d a b => some (72#8 ++ rm ++ d ++ a ++ b : BitVec 32)
  | .dsub rm d a b => some (73#8 ++ rm ++ d ++ a ++ b : BitVec 32)
  | .dmul rm d a b => some (74#8 ++ rm ++ d ++ a ++ b : BitVec 32)
  | .ddiv rm d a b => some (75#8 ++ rm ++ d ++ a ++ b : BitVec 32)
  | .dfma rm d a b => some (76#8 ++ rm ++ d ++ a ++ b : BitVec 32)
  | .dfms rm d a b => some (77#8 ++ rm ++ d ++ a ++ b : BitVec 32)
  | .dfnma rm d a b => some (78#8 ++ rm ++ d ++ a ++ b : BitVec 32)
  | .chain fn d a q => some (80#8 ++ fn ++ d ++ a ++ 0#3 ++ q : BitVec 32)
  | .ldB d o q imm => some (192#9 ++ d ++ o ++ q ++ imm : BitVec 32)
  | .ldSb d o q imm => some (193#9 ++ d ++ o ++ q ++ imm : BitVec 32)
  | .ldH d o q imm => some (194#9 ++ d ++ o ++ q ++ imm : BitVec 32)
  | .ldSh d o q imm => some (195#9 ++ d ++ o ++ q ++ imm : BitVec 32)
  | .ldW d o q imm => some (196#9 ++ d ++ o ++ q ++ imm : BitVec 32)
  | .ldD d o q imm => some (197#9 ++ d ++ o ++ q ++ imm : BitVec 32)
  | .ldQ d o q imm => some (198#9 ++ d ++ o ++ q ++ imm : BitVec 32)
  | .stB d o q imm => some (200#9 ++ d ++ o ++ q ++ imm : BitVec 32)
  | .stH d o q imm => some (202#9 ++ d ++ o ++ q ++ imm : BitVec 32)
  | .stW d o q imm => some (204#9 ++ d ++ o ++ q ++ imm : BitVec 32)
  | .stD d o q imm => some (205#9 ++ d ++ o ++ q ++ imm : BitVec 32)
  | .stQ d o q imm => some (206#9 ++ d ++ o ++ q ++ imm : BitVec 32)
  | .ldsW d a imm => some (208#9 ++ d ++ a ++ imm : BitVec 32)
  | .ldsD d a imm => some (209#9 ++ d ++ a ++ imm : BitVec 32)
  | .ldsQ d a imm => some (210#9 ++ d ++ a ++ imm : BitVec 32)
  | .ldsH d a imm => some (211#9 ++ d ++ a ++ imm : BitVec 32)
  | .stsW d a imm => some (212#9 ++ d ++ a ++ imm : BitVec 32)
  | .stsD d a imm => some (213#9 ++ d ++ a ++ imm : BitVec 32)
  | .stsQ d a imm => some (214#9 ++ d ++ a ++ imm : BitVec 32)
  | .stsH d a imm => some (215#9 ++ d ++ a ++ imm : BitVec 32)
  | .ldc d o q imm => some (216#9 ++ d ++ o ++ q ++ imm : BitVec 32)
  | .stc d o q imm => some (217#9 ++ d ++ o ++ q ++ imm : BitVec 32)
  | .ldcL d o imm => some (218#9 ++ d ++ o ++ 0#4 ++ imm : BitVec 32)
  | .stcL d o imm => some (219#9 ++ d ++ o ++ 0#4 ++ imm : BitVec 32)
  | .aadd d a o q => some (896#11 ++ d ++ a ++ o ++ q : BitVec 32)
  | .aminS d a o q => some (897#11 ++ d ++ a ++ o ++ q : BitVec 32)
  | .amaxS d a o q => some (898#11 ++ d ++ a ++ o ++ q : BitVec 32)
  | .aminN d a o q => some (899#11 ++ d ++ a ++ o ++ q : BitVec 32)
  | .amaxN d a o q => some (900#11 ++ d ++ a ++ o ++ q : BitVec 32)
  | .aand d a o q => some (901#11 ++ d ++ a ++ o ++ q : BitVec 32)
  | .aor d a o q => some (902#11 ++ d ++ a ++ o ++ q : BitVec 32)
  | .axor d a o q => some (903#11 ++ d ++ a ++ o ++ q : BitVec 32)
  | .axchg d a o q => some (904#11 ++ d ++ a ++ o ++ q : BitVec 32)
  | .acas d a o q => some (905#11 ++ d ++ a ++ o ++ q : BitVec 32)
  | .afadd d a o q => some (906#11 ++ d ++ a ++ o ++ q : BitVec 32)
  | .abfadd2 d a o q => some (907#11 ++ d ++ a ++ o ++ q : BitVec 32)
  | .axchgW d a o q => some (908#11 ++ d ++ a ++ o ++ q : BitVec 32)
  | .acasW d a o q => some (909#11 ++ d ++ a ++ o ++ q : BitVec 32)
  | .rdadd d a o q => some (912#11 ++ d ++ a ++ o ++ q : BitVec 32)
  | .rdmin d a o q => some (913#11 ++ d ++ a ++ o ++ q : BitVec 32)
  | .rdmax d a o q => some (914#11 ++ d ++ a ++ o ++ q : BitVec 32)
  | .rdfadd d a o q => some (915#11 ++ d ++ a ++ o ++ q : BitVec 32)
  | .rdbfadd2 d a o q => some (916#11 ++ d ++ a ++ o ++ q : BitVec 32)
  | .rdinc a o q => some (117376#18 ++ a ++ o ++ q : BitVec 32)
  | .tbeg => some (1946157056#32 : BitVec 32)
  | .tend d => some (929#11 ++ d ++ 0#14 : BitVec 32)
  | .tabt => some (1950351360#32 : BitVec 32)
  | .ttest d => some (931#11 ++ d ++ 0#14 : BitVec 32)
  | .fence o s => some (15728640#25 ++ o ++ 0#2 ++ s : BitVec 32)
  | .barG => some (2015363072#32 : BitVec 32)
  | .barL => some (2017460224#32 : BitVec 32)
  | .barLYield => some (2017460225#32 : BitVec 32)
  | .waitph a p => some (123264#18 ++ a ++ 0#6 ++ p : BitVec 32)
  | .tlwait a q => some (123392#18 ++ a ++ 0#3 ++ q : BitVec 32)
  | .tlwaitW a q => some (123392#18 ++ a ++ 1#3 ++ q : BitVec 32)
  | .waita a b => some (123520#18 ++ a ++ b : BitVec 32)
  | .waitaGlobal q a b => some (7721#14 ++ q ++ a ++ b : BitVec 32)
  | .mfence d => some (966#11 ++ d ++ 0#14 : BitVec 32)
  | .mwait a => some (123776#18 ++ a ++ 0#7 : BitVec 32)
  | .learly => some (2030043136#32 : BitVec 32)
  | .lwaitp => some (2032140288#32 : BitVec 32)
  | .yield => some (2034237440#32 : BitVec 32)
  | .tlread d q => some (971#11 ++ d ++ 0#10 ++ q : BitVec 32)
  | .copy d a q => some (992#11 ++ d ++ a ++ 0#3 ++ q : BitVec 32)
  | .copyg d a q => some (993#11 ++ d ++ a ++ 0#3 ++ q : BitVec 32)
  | .copys d a q => some (994#11 ++ d ++ a ++ 0#3 ++ q : BitVec 32)
  | .tilest d a q => some (995#11 ++ d ++ a ++ 0#3 ++ q : BitVec 32)
  | .tileld d a q => some (996#11 ++ d ++ a ++ 0#3 ++ q : BitVec 32)
  | .regroup d a q => some (997#11 ++ d ++ a ++ 0#3 ++ q : BitVec 32)
  | .loftld d a q => some (998#11 ++ d ++ a ++ 0#3 ++ q : BitVec 32)
  | .loftev d a q => some (999#11 ++ d ++ a ++ 0#3 ++ q : BitVec 32)
  | .coll d a q => some (1000#11 ++ d ++ a ++ 0#3 ++ q : BitVec 32)
  | .mma c a b z => some (256#9 ++ c ++ a ++ b ++ 0#5 ++ z : BitVec 32)
  | .mmaZ c a b z => some (257#9 ++ c ++ a ++ b ++ 0#5 ++ z : BitVec 32)
  | .mmaT c a b z => some (258#9 ++ c ++ a ++ b ++ 0#5 ++ z : BitVec 32)
  | .mmas c a b z => some (259#9 ++ c ++ a ++ b ++ 0#5 ++ z : BitVec 32)
  | .mmax c a b z => some (260#9 ++ c ++ a ++ b ++ 0#5 ++ z : BitVec 32)
  | .cres c a => some (4224#13 ++ c ++ a ++ 0#7 : BitVec 32)
  | .crel c => some (4228#13 ++ c ++ 0#14 : BitVec 32)
  | .cld d a q => some (1058#11 ++ d ++ a ++ 0#3 ++ q : BitVec 32)
  | .cst d a q => some (1059#11 ++ d ++ a ++ 0#3 ++ q : BitVec 32)
  | .czero c => some (4240#13 ++ c ++ 0#14 : BitVec 32)
  | .mrow a => some (135808#18 ++ a ++ 0#7 : BitVec 32)
  | .mcol a => some (135936#18 ++ a ++ 0#7 : BitVec 32)
  | .drain d a q => some (1088#11 ++ d ++ a ++ 0#3 ++ q : BitVec 32)
  | .sieveRd d a => some (1089#11 ++ d ++ a ++ 0#7 : BitVec 32)
  | .sieveClr => some (2285895680#32 : BitVec 32)
  | .sieveCfg a q => some (139648#18 ++ a ++ 0#3 ++ q : BitVec 32)
  | .lhset a b => some (143360#18 ++ a ++ b : BitVec 32)
  | .lhsetRel a => some (143361#18 ++ a ++ 0#7 : BitVec 32)
  | .lhget a b => some (143488#18 ++ a ++ b : BitVec 32)
  | .lhpin a => some (143616#18 ++ a ++ 0#7 : BitVec 32)
  | .lhunpin a => some (143744#18 ++ a ++ 0#7 : BitVec 32)
  | .tdesc d q => some (1152#11 ++ d ++ 0#10 ++ q : BitVec 32)
  | .tdescRel d q => some (1152#11 ++ d ++ 1#10 ++ q : BitVec 32)
  | .recipe d a q => some (1153#11 ++ d ++ 0#3 ++ a ++ 0#3 ++ q : BitVec 32)
  | .tpin d q => some (1154#11 ++ d ++ 0#10 ++ q : BitVec 32)
  | .tunpin d q => some (1155#11 ++ d ++ 0#10 ++ q : BitVec 32)
  | .tprobe d q => some (1156#11 ++ d ++ 0#10 ++ q : BitVec 32)
  | .tdrop d q => some (1157#11 ++ d ++ 0#10 ++ q : BitVec 32)
  | .regrown => some (2428502016#32 : BitVec 32)
  | .csetb d a q => some (10240#14 ++ d ++ a ++ 0#3 ++ q : BitVec 32)
  | .csetbx d a q => some (10248#14 ++ d ++ a ++ 0#3 ++ q : BitVec 32)
  | .candp d a q => some (10256#14 ++ d ++ a ++ 0#3 ++ q : BitVec 32)
  | .cinc d a q => some (10264#14 ++ d ++ a ++ 0#3 ++ q : BitVec 32)
  | .cseta d a q => some (10272#14 ++ d ++ a ++ 0#3 ++ q : BitVec 32)
  | .cgetb d q => some (1285#11 ++ d ++ 0#10 ++ q : BitVec 32)
  | .cgetbCur d q => some (1285#11 ++ d ++ 1#10 ++ q : BitVec 32)
  | .cgetl d q => some (1286#11 ++ d ++ 0#10 ++ q : BitVec 32)
  | .cgetp d q => some (1287#11 ++ d ++ 0#10 ++ q : BitVec 32)
  | .cgeto d q => some (1288#11 ++ d ++ 0#10 ++ q : BitVec 32)
  | .cgett d q => some (1289#11 ++ d ++ 0#10 ++ q : BitVec 32)
  | .cmov d q => some (10320#14 ++ d ++ 0#10 ++ q : BitVec 32)
  | .cmovToLanes d q => some (1290#11 ++ d ++ 1#10 ++ q : BitVec 32)
  | .cmovFromLane d a => some (10320#14 ++ d ++ a ++ 32#7 : BitVec 32)
  | .cclr d => some (10328#14 ++ d ++ 0#14 : BitVec 32)
  | .ctstsub d a q => some (1292#11 ++ d ++ 0#3 ++ a ++ 0#3 ++ q : BitVec 32)
  | .cseal d a q => some (10496#14 ++ d ++ 0#3 ++ a ++ 0#3 ++ q : BitVec 32)
  | .cunseal d a q => some (10504#14 ++ d ++ 0#3 ++ a ++ 0#3 ++ q : BitVec 32)
  | .cseale d q => some (10512#14 ++ d ++ 0#10 ++ q : BitVec 32)
  | .cinvoke d q => some (10520#14 ++ d ++ 0#10 ++ q : BitVec 32)
  | .send d a q => some (1344#11 ++ d ++ a ++ 0#3 ++ q : BitVec 32)
  | .recv d q => some (1345#11 ++ d ++ 0#10 ++ q : BitVec 32)
  | .callMsg d a q => some (1346#11 ++ d ++ a ++ 0#3 ++ q : BitVec 32)
  | .reply d a q => some (1347#11 ++ d ++ a ++ 0#3 ++ q : BitVec 32)
  | .nbsend d a q => some (1348#11 ++ d ++ a ++ 0#3 ++ q : BitVec 32)
  | .signal q => some (176816128#28 ++ q : BitVec 32)
  | .waitn d q => some (1350#11 ++ d ++ 0#10 ++ q : BitVec 32)
  | .spawn d q => some (1376#11 ++ d ++ 0#10 ++ q : BitVec 32)
  | .join a q => some (176256#18 ++ a ++ 0#3 ++ q : BitVec 32)
  | .svc d a => some (1378#11 ++ d ++ a ++ 0#7 : BitVec 32)
  | .revoke d q => some (1379#11 ++ d ++ 0#10 ++ q : BitVec 32)
  | .bra o => some (3072#12 ++ o : BitVec 32)
  | .brp p o => some (385#9 ++ p ++ o : BitVec 32)
  | .brn p o => some (386#9 ++ p ++ o : BitVec 32)
  | .brall o => some (3096#12 ++ o : BitVec 32)
  | .brany o => some (3104#12 ++ o : BitVec 32)
  | .brnone o => some (3112#12 ++ o : BitVec 32)
  | .branchCall o => some (3120#12 ++ o : BitVec 32)
  | .recMark imm => some (6422528#23 ++ imm : BitVec 32)
  | .path a imm => some (50304#16 ++ a ++ imm : BitVec 32)
  | .pyield => some (3305111552#32 : BitVec 32)
  | .ret a => some (204800#18 ++ a ++ 0#7 : BitVec 32)
  | .jmpr a => some (204928#18 ++ a ++ 0#7 : BitVec 32)
  | .callr d a => some (1602#11 ++ d ++ a ++ 0#7 : BitVec 32)
  | .srd d b => some (1632#11 ++ d ++ 0#7 ++ b : BitVec 32)
  | .swr a b => some (209024#18 ++ a ++ b : BitVec 32)
  | .xretRetry => some (3426746368#32 : BitVec 32)
  | .xretSkip => some (3426746369#32 : BitVec 32)
  | .nop => some (3428843520#32 : BitVec 32)
  | .exit => some (3430940672#32 : BitVec 32)
  | .brk b => some (26820608#25 ++ b : BitVec 32)
  | .clock d => some (1638#11 ++ d ++ 0#14 : BitVec 32)
  | .role r => some (859308032#30 ++ r : BitVec 32)
  | .sysrd d a => some (1792#11 ++ d ++ a ++ 0#7 : BitVec 32)
  | .syswr d a b => some (1793#11 ++ d ++ a ++ b : BitVec 32)
  | .tlbinv a b => some (233472#18 ++ a ++ b : BitVec 32)
  | .tlbinva b => some (29900800#25 ++ b : BitVec 32)
  | .tlbinvaAll => some (3827318784#32 : BitVec 32)
  | .ptwsync => some (3829399552#32 : BitVec 32)
  | .eret d a q => some (1856#11 ++ d ++ a ++ 0#3 ++ q : BitVec 32)
  | .haltctx d q => some (1857#11 ++ d ++ 0#10 ++ q : BitVec 32)
  | .haltctxSave d q => some (1857#11 ++ d ++ 1#10 ++ q : BitVec 32)
  | .resumectx d a q => some (1858#11 ++ d ++ a ++ 0#3 ++ q : BitVec 32)
  | .stoprd d q => some (14872#14 ++ d ++ 0#10 ++ q : BitVec 32)
  | .qdrain d q => some (1860#11 ++ d ++ 0#10 ++ q : BitVec 32)
  | .objnew d a q => some (14888#14 ++ d ++ a ++ 0#3 ++ q : BitVec 32)
  | .pload d a q => some (1888#11 ++ d ++ a ++ 0#3 ++ q : BitVec 32)
  | .pswap d a => some (1889#11 ++ d ++ a ++ 0#7 : BitVec 32)
  | .pstat d a b => some (1890#11 ++ d ++ a ++ b : BitVec 32)
  | .imm h => some (504#9 ++ h : BitVec 32)
  | .guard p n => some (505#9 ++ p ++ n ++ 0#19 : BitVec 32)
  | .sched s y r => some (506#9 ++ s ++ y ++ r ++ 0#15 : BitVec 32)
  | .rmode rm t => some (507#9 ++ rm ++ t ++ 0#18 : BitVec 32)
  | .chainop a b => some (1016#10 ++ a ++ b : BitVec 32)
  | .offhi h => some (509#9 ++ h : BitVec 32)
  | .matx k start strm => some (510#9 ++ k ++ start ++ strm ++ 0#4 : BitVec 32)
  | .unitStop _ => none
  | .faultDecision _ => none
  | .dispatchDecision _ => none
  | .pressureDecision _ => none
  | .stepBudgetOverrun _ => none
  | .kill _ => none
  | .resume _ => none
  | .notify _ => none
  | .watchdogHang _ _ => none
  | .watchdogDeadlock _ => none
  | .eccNoConsumer _ => none
  | .forcedSave _ => none
  | .reconvergenceHalt _ => none
  | .coreHandover _ => none
  | .quarantineLanding _ => none
  | .contextRestore _ _ _ => none
  | .launchReady _ => none
  | .gangDispatch _ => none
  | .phaseStart _ => none
  | .launchCompletion _ => none
  | .furrowLaunchPacket => none
  | .arrivalUpdate _ => none
  | .engineCommandComplete _ => none
  | .fusedSetClose _ => none
  | .pass _ => none
  | .cribResultWrite _ => none
  | .batchEnd _ => none
  | .regrowServe _ => none
  | .regrowLaunchComplete _ => none
  | .bucketRefill _ _ => none
  | .arbitrationRound _ _ => none
  | .epochBegin _ => none
  | .epochComplete _ => none
  | .markRelease _ => none
  | .gleanerRequestComplete _ => none
  | .ageingSwap _ => none
  | .kernelReentry _ => none
  | .policySlotSwap _ => none
  | .frameReceive => none
  | .linkDown _ => none
  | .peerTimeout _ => none
  | .keyReplace _ => none
  | .hostSlotRequest => none
  | .interruptSourceFire _ => none
  | .partdef => none
  | .vdcreate => none
  | .claim => none
  | .measure => none
  | .extend => none
  | .vfreset => none
  | .functionLevelReset _ => none
  | .exportVd => none
  | .importVd => none
  | .releaseRequest _ _ => none
  | .confirm _ => none
  | .erase => none
  | .abandon => none
  | .admitVd => none
  | .pageSet => none
  | .pageClear => none
  | .glreqWrite _ _ => none
  | .bcfgWrite _ _ _ _ => none
  | .svclendWrite _ _ => none
  | .rowRetire _ _ _ => none
  | .channelRetire _ _ => none
  | .diestateOffline _ => none
  | .diestateOnline _ => none
  | .dieTestComplete _ => none
  | .alarmClear _ _ => none
  | .alarmRaise _ _ => none
  | .fwctlGo => none
  | .fwSwap => none
  | .wearRecompute _ => none
  | .loftRowRemap _ => none
  | .powerOn => none
  | .powerLoss => none
  | .illegalEncoding _ => none
  | .instructionFetchFault => none
  | .engineFault _ => none
  | .moduleLeavesDomain _ => none
  | .alarmConditionGone _ _ => none

/-- An event of the table: a step without a word. -/
def isEvent (i : Instr) : Bool := (encode i).isNone

/-- The instruction of a word: R169's three steps, with every static operand check. -/
noncomputable def decode (w : Word) : Except DecodeError Instr :=
  match decodeRaw w with
  | .ok i => if i.wellFormed then .ok i else .error .illegalOperand
  | .error e => .error e

/-- Decoding from bytes in the order of memory (R3, R168): the instruction and the bytes after it. -/
noncomputable def decodeBytes : List Byte → Except DecodeError (Instr × List Byte)
  | b0 :: b1 :: b2 :: b3 :: rest =>
      match decode (b3 ++ b2 ++ b1 ++ b0) with
      | .ok i => .ok (i, rest)
      | .error e => .error e
  | _ => .error .tooShort

/-- The bytes of a word, lowest address first (R3). -/
def wordBytes (w : Word) : List Byte :=
  [w.extractLsb' 0 8, w.extractLsb' 8 8, w.extractLsb' 16 8, w.extractLsb' 24 8]

/-- What the decoder reads from an instruction numbered as spec/opcode_table.json numbers it: every instruction is
one 32-bit word (R168), so the bits above `nbits` are 0 and the word is laid out as memory holds it. -/
noncomputable def decodeTableWord (nbits w : Nat) : Option Instr :=
  match decodeBytes (wordBytes (BitVec.ofNat 32 (w % 2 ^ nbits))) with
  | .ok (i, _) => some i
  | .error _ => none

end Sys2Proof
end

