-- ==== Sys2Proof/Config.lean ====
section
/-! DEFINITION. What one step lets move, and the free values: constants of the part that the manual leaves open.
They have no body, so that no proof can see one; each is applied to a counter or to the operands it depends on
(notes/assumptions/5.md). -/
namespace Sys2Proof

/-- Who moves in one step of the model (notes/assumptions/3.md). -/
inductive Turn where
  /-- Unit `u` issues one instruction from path slot A (`false`) or B (`true`) (R38). -/
  | issue (u : Nat) (slotB : Bool)
  /-- An event of the table of steps happens. -/
  | event (i : Instr)
  /-- The same, with some of the instruction's lane accesses to memory: their places among those still to be made
  (R146, R159). -/
  | part (u : Nat) (slotB : Bool) (ps : List Nat)
  /-- An uncorrectable error appears in a store, or is gone: the unit of R59's DETAIL, and the place in it (R23). -/
  | error (unit place : Nat) (on : Bool)
  /-- Core cycles and control cycles pass (R4). -/
  | elapse (core ctl : Nat)
  deriving DecidableEq, Repr, Inhabited

namespace Machine

/-- A kernel's declarations (R187). `entry` is its entry address, `text` the extent of `.text`. -/
structure Kern where
  entry : DWord
  text : Nat × Nat
  width : Nat
  groups : Nat := 1
  vregs : Nat := 96
  carryV : List Nat := []
  carryS : List (Nat × Nat) := []
  scratch : Nat := 0
  pathstack : Nat := 16
  crib : Nat := 0
  cribN : Nat := 0
  handler : Option DWord := none
  deriving DecidableEq, Repr

end Machine

namespace Config

/-- The turn that comes when the agenda is empty: the order of agents is open (R38, R44, R383; R146). -/
opaque freeTurn : Nat → Turn

/-- A choice the manual leaves open, for a fresh counter value (victims R319, old or new R159, R424 ...). -/
opaque freeNat : Nat → Nat

/-- Such a choice for one access among those of a step (which cached entry a translation uses, R424). -/
opaque freePick : Nat → Nat → Nat

/-- The difference between a core's cycle count and the cycles the model counts (R206). -/
opaque freeClock : Nat → Nat

/-- The declarations of the kernel that the loader has accepted at an entry, if it has: the loader is software, and the
manual gives no step of the part by which it tells the dispatcher (R190, R214; notes/assumptions/11.md). -/
opaque freeKernel : Nat → Option Machine.Kern

/-- Is the kernel at an entry of an address space, known by its ROOT, a service kernel, whose gangs are service gangs (R17,
R348)? The manual gives no mark of one (notes/assumptions/37.md). -/
opaque serviceKernel : Nat → Nat → Bool

/-- The digest of the firmware that the part starts with, which the manual does not give (R473), by a fresh number. -/
opaque freeDigest : Nat → BitVec 384

/-- Digests of messages that the manual names and does not lay out: of a VD's VDCFG and frames (R459); of the DIEPART and
LINKFW of a partition's dies and its active winnow program (R461); of a staged firmware image (R475). -/
opaque vdDigest : BitVec 64 → List (Nat × Nat × Bool × Nat) → BitVec 384
opaque partDigest : List (BitVec 64 × BitVec 64) → Option (List (BitVec 16)) → BitVec 384
opaque fwDigest : List Byte → BitVec 384

/-- Does the signature of a staged image verify against the fuses (R475)? -/
opaque fwSigned : List Byte → Bool

/-- The signature of a report under the part's attestation key (R461). -/
opaque freeSignature : Nat → BitVec 768

/-- The module serial number of a report (R461). -/
opaque serial : BitVec 64

/-- The predicted remaining life of a die in hours, from its monitors (R479). -/
opaque freeLife : Nat → Nat

/-- Spare rows of HBM4E and of the loft at power-on, per die (R474: no reset value). -/
opaque spareRows : Nat → Nat

end Config

end Sys2Proof
end

