-- ==== Sys2Proof/Machine/State.lean ====
section
/-! DEFINITION. The state of the UL-20A as plain data: every register, record and queue that the manual gives the
part, the reasons a step can stop, and the state after reset (R473). Finite maps are lists of (key, value) in one
canonical form: keys strictly rising, and no entry equal to the map's default. -/
namespace Sys2Proof.Machine

/-- Why the machine stops. The part has no such stop; both are safe. -/
inductive Fault where
  /-- Raised by an instruction that is executed while no valid path is issuing (no run of `step` does that). Safe. -/
  | noIssuer
  deriving DecidableEq, Repr

/-- Why an instruction has no meaning. Safe. -/
inductive Refusal where
  /-- Raised by an arm of `exec` whose meaning is not written yet. Safe. -/
  | notModelled (mnemonic : String)
  deriving DecidableEq, Repr

/-- A capability: 128 bits and the tag (R61). -/
structure Cap where
  bits : BitVec 128
  tag : Bool
  deriving DecidableEq, Repr, Inhabited

/-- The null capability (R62). -/
abbrev Cap.null : Cap := ⟨0, false⟩

/-- The two privilege levels (R348). -/
inductive Level where
  | user
  | kernel
  deriving DecidableEq, Repr

/-- The address space a unit translates in (R363, R418). -/
inductive ASpace where
  /-- The firmware's map of the physical addresses (notes/assumptions/1.md). -/
  | boot
  /-- ROOT, PROT, VD and ASID of an address-space object (R363). -/
  | tables (root : Nat) (prot : Bool) (vd : Nat) (asid : Nat)
  /-- No space: a launch record's ASPACE names none, and nothing has a translation (R367). -/
  | none
  deriving DecidableEq, Repr

/-- An agent of the scratch race check (R164): a group of the gang, or one command of the copy engine or crib port. -/
inductive Who where
  | grp (g : Nat)
  | cmd (id : Nat) (crib : Bool)
  deriving DecidableEq, Repr

/-- For each agent, how many of its scratch accesses scratch-precede (R165). -/
abbrev Clock := List (Who × Nat)

/-- What a path waits for: the waiting instructions of R44, R82, R83, R268, R397. -/
inductive Wait where
  /-- Arrived at BAR.G in this generation of the gang barrier (R45). -/
  | barrier (gen : Nat)
  /-- Arrived at BAR.L (`false`) or BAR.L.YIELD (`true`) (R46, R49). -/
  | launchBar (yield : Bool)
  /-- A sender queued at the endpoint, with its ticket of arrival; a CALL or not; sd, the info word and the badge
  (R77, R78). -/
  | sending (ep ticket : Nat) (call : Bool) (rd : Nat) (info : Nat) (badge : Nat)
  /-- A receiver queued at the endpoint, and sd (R77). -/
  | receiving (ep ticket : Nat) (rd : Nat)
  /-- A CALL that was sent and waits for the reply of this number, and sd (R79). -/
  | calling (reply : Nat) (rd : Nat)
  /-- WAITN on a notification or interrupt line, and sd (R80). -/
  | notified (obj : Nat) (rd : Nat)
  /-- Asleep in an SVC batch (R83). -/
  | service (batch : Nat)
  /-- TLWAIT, JOIN or LWAITP: (timeline's virtual address, value) pairs not yet reached (R397, R424). -/
  | timelines (pairs : List (Nat × Nat))
  /-- WAITA: lanes that have read a differing word, whether the word is in global memory (R265), and the clocks of the
  release stores that those lanes have read (R165). -/
  | words (seen : DWord) (global : Bool) (clk : Clock)
  /-- TLBINV or TLBINVA, whose entries are removed: the commands and the transactions, by unit and lane, that hold accesses
through them still to be performed (R423); a part of an LD or ST by unit and 64 + slot. -/
  | performed (cmds : List Nat) (txns : List (Nat × Nat))
  /-- REVOKE, which has read its region's ranges and waits for room among the marks (R429). -/
  | marking (ranges : List (Nat × Nat))
  /-- An access whose frame a closed link has discarded: it gets no answer (R453). -/
  | lost
  /-- Another external wait (R397). -/
  | external
  /-- Another wait for an internal object (R397). -/
  | internal
  /-- Any other wait, which the table of R397 does not list. -/
  | other
  deriving DecidableEq, Repr

/-- A table entry as a walk read it (R419, R420): the address space's ASID, its level, the index bits down to that
level, its physical address and its bits. -/
structure Pte where
  asid : Nat
  level : Nat
  page : Nat
  addr : Nat
  bits : BitVec 128
  deriving DecidableEq, Repr

/-- A translation: physical address, TAGCAP, the slice of an affinity page, the home die, the leaf, the entries that its
walk read from memory, and how many bytes from the address on the access touches. -/
structure Xl where
  pa : Nat
  tagcap : Bool
  aff : Option Nat
  home : Nat
  leaf : Option Pte
  walk : List Pte := []
  len : Nat := 1
  deriving DecidableEq, Repr

/-- Where the bytes of an access lie: a key per byte, tag-capable or not, the peer if remote, and what the caches
are to see. -/
structure Place where
  keys : List Nat
  tagcap : Bool
  peer : Option Nat
  xls : List Xl
  deriving DecidableEq, Repr

/-- One lane's access: where its bytes lie. -/
structure LaneAt where
  lane : Nat
  pl : Place
  deriving DecidableEq, Repr

/-- The part of a lane's access that lies in one granule (R121): where, the byte of the access it begins at, and the bytes
that a store writes there. -/
structure Piece where
  at_ : LaneAt
  off : Nat
  v : Nat := 0
  deriving DecidableEq, Repr

/-- Where the values of an instruction's accesses go: an LD's into a run of registers, sign-extended from `sx` bits when it is
not 0; a store's nowhere. -/
inductive Landing where
  | load (d : Reg) (regs sx : Nat)
  | store
  deriving DecidableEq, Repr

/-- An LD or ST some of whose accesses have been made (R121, R146, R159): its word, the pieces still to be made, and lane,
offset and value of the pieces read. -/
structure Progress where
  w : Word
  left : List Piece
  got : List (Nat × Nat × Nat) := []
  land : Landing
  deriving DecidableEq, Repr

/-- A path in a slot (R38), with its pending hints (R177), its wait, its age under R44, its SCHED stall (R178), and the
accesses of its instruction that are still to be made (R146). -/
structure Path where
  pc : DWord
  mask : DWord
  link : Option Nat := none
  nrpc : Option DWord := none
  hnd : Bool := false
  hints : List Word := []
  wait : Option Wait := none
  age : Nat := 0
  stall : Nat := 0
  part : Option Progress := none
  deriving DecidableEq, Repr

/-- A record of the path stack (R40, R41). `join jpc total arrived hnd link`, `deferred pc mask nrpc barGen hnd link`. -/
inductive Rec where
  | join (jpc : Option DWord) (total arrived : DWord) (hnd : Bool) (link : Option Nat)
  | deferred (pc mask : DWord) (nrpc : Option DWord) (bar : Option Nat) (hnd : Bool) (link : Option Nat)
  deriving DecidableEq, Repr

/-- The trap registers (R181 to R183). -/
structure TrapRegs where
  word : Word := 0
  op : Word := 0
  fn : Word := 0
  rd : Word := 0
  ra : Word := 0
  rb : Word := 0
  imm : Word := 0
  pc : DWord := 0
  hints : Word := 0
  hw : List Word := []
  cause : Word := 0
  deriving DecidableEq, Repr

/-- A lane's transaction state (R258). -/
inductive TxnState where
  | none
  | opened
  | doomed (cause : Nat)
  deriving DecidableEq, Repr

/-- A lane's transaction: state, read set (granule and value read), buffered bytes, write granules, and whether it
runs serialised (R143 to R145). -/
structure Txn where
  state : TxnState := .none
  reads : List (Nat × BitVec 128) := []
  writes : List (Nat × Byte) := []
  granules : List Nat := []
  serial : Bool := false
  /-- It touched a granule that a serialised transaction held locked (R145). -/
  hit : Bool := false
  /-- The leaves through which it has accesses not yet performed: ASID, level and page (R423). -/
  pages : List (Nat × Nat × Nat) := []
  deriving DecidableEq, Repr

/-- The other bank of a control core (R449). -/
structure Bank where
  v : Sparse Word := []
  vf : Sparse Bool := []
  s : Sparse Word := []
  p : Sparse DWord := []
  mode : Word := 1
  status : Word := 0
  stoch : Word := 0
  pc : DWord := 0
  pcc : Cap := Cap.null
  /-- The K bank's thread is in the K handler (R483); the context that the U bank's thread belongs to (R431, R433). -/
  hnd : Bool := false
  ctx : Option Nat := none
  pccAt : Option Nat := none
  deriving DecidableEq, Repr

/-- A group, or a control-core thread, with all its registers. -/
structure Grp where
  width : Nat
  level : Level
  vd : Nat
  ctx : Option Nat := none
  aspace : ASpace
  kern : Kern
  launch : Option Nat := none
  gang : Option Nat := none
  gidx : Nat := 0
  /-- %gang.x, %gang.y, %gang.z (R185). -/
  gx : Nat := 0
  gy : Nat := 0
  gz : Nat := 0
  /-- The program capability (R75), and the peer whose memory it names (R87). -/
  pcc : Cap
  pccAt : Option Nat := none
  /-- v registers, keyed 64 × register + lane (R62). -/
  v : Sparse Word := []
  /-- Per-lane capability flags of the v quads, keyed 64 × quad + lane (R62). -/
  vf : Sparse Bool := []
  s : Sparse Word := []
  q : Sparse Cap := []
  p : Sparse DWord := []
  /-- %mode (R99), %status (R100), %stoch (R101). -/
  mode : Word := 1
  status : Word := 0
  stoch : Word := 0
  /-- %role: 0 LOAD, 1 STORE, 2 COMPUTE (R57, R204). -/
  role : Nat := 2
  x : TrapRegs := {}
  slotA : Option Path := none
  slotB : Option Path := none
  stack : Sparse Rec := []
  /-- Which of the path stacks of its launch's PATHMEM it uses (R39, R368). -/
  pathNo : Nat := 0
  /-- The slot that issued last is B; issues since the last fill or swap, and how many of them there were when a
  deferred record came into an index (R44). -/
  lastB : Bool := false
  sinceFill : Nat := 0
  recAt : Sparse Nat := []
  /-- The slot that PYIELD gave the next issue to (R202); the slot whose path prefers others until this core cycle after
  SCHED YIELD (R178). -/
  next : Option Bool := none
  cede : Option (Bool × Nat) := none
  /-- Matrix masks (R290), batch counter and closed batches not ended (R266, R308), fallback counts (R301, R309). -/
  rowMask : DWord := -1#64
  colMask : BitVec 128 := -1#128
  batchNo : Nat := 0
  closed : List Nat := []
  fallback : Nat := 0
  fbBatch : Sparse Nat := []
  /-- Sieve bins, BASE and counter capability (R312, R313). -/
  bins : Sparse Word := []
  sieveBase : Nat := 0
  sieveCap : Cap := Cap.null
  txn : Sparse Txn := []
  fails : Sparse Nat := []
  /-- Lanes with a release FENCE of gang scope or wider and no scratch access of their path since (R165). -/
  relLanes : DWord := 0
  /-- System registers held per thread, group or control core, keyed by number; each resets to 0 (R351, R404, R412,
  R427, R438, R454). -/
  own : Sparse DWord := []
  bank : Option Bank := none
  /-- Stopped by the halt of its context (R436); a control thread stopped for ever (R483). -/
  stopped : Bool := false
  dead : Bool := false
  /-- Halted on a marked core, waiting for its gang to be saved (R394). -/
  vacate : Bool := false
  /-- K half of a control core waiting at its ERET, with the register that receives the cause (R450). -/
  eretRd : Option Nat := none
  /-- YIELD (R267): no issue before this core cycle; eligible run of R383. -/
  yieldTo : Nat := 0
  run : Nat := 0
  /-- The core cycle from which it may issue again: it issues at most one instruction in each (R38). -/
  issued : Nat := 0
  /-- CURVD and the loader's marks aside: the group runs in the regrow launch of this tile (R325). -/
  regrow : Option Nat := none
  deriving DecidableEq, Repr

/-- A scratch access of the phase: agent, its number, bytes lo to hi − 1, write, release store (R165, R167). -/
structure Acc where
  who : Who
  n : Nat
  lo : Nat
  hi : Nat
  write : Bool
  rel : Bool
  deriving DecidableEq, Repr

/-- The race state of a gang's scratch in the current phase (R164 to R167). -/
structure Race where
  log : List Acc := []
  /-- Clock of each group, and what its next acquire fence adds. -/
  clk : Sparse Clock := []
  pend : Sparse Clock := []
  /-- Release stores still readable: bytes and clock. -/
  rels : List (Nat × Nat × Clock) := []
  /-- Arrival objects: offset, clock of bytes counted so far, clock of the last flip. -/
  arrs : List (Nat × Clock × Clock) := []
  deriving DecidableEq, Repr

/-- A resident gang (R31). -/
structure Gang where
  launch : Option Nat
  regrow : Option Nat := none
  index : Nat := 0
  core : Nat
  /-- Units of the gang in group order; a group that has ended is `none`. -/
  units : List (Option Nat)
  gen : Nat := 0
  phase : Nat := 0
  regrown : Bool := false
  scratch : Nat := 0
  /-- Crib allotment: first byte in the core's crib, bytes, and count of reservations (R283). -/
  cribBase : Nat := 0
  cribLen : Nat := 0
  cribN : Nat := 0
  /-- Reservation records (R284), keyed by number. -/
  res : Sparse (BitVec 128) := []
  race : Race := {}
  deriving DecidableEq, Repr

/-- Where a launch stands (R51, R376). -/
inductive LState where
  | waiting
  | queued
  | running
  | done (status : Nat)
  deriving DecidableEq, Repr

/-- A launch (R32, R50, R366): record as submitted, with its granule tags. -/
structure Launch where
  vd : Nat
  num : Nat
  ctx : Nat
  bits : BitVec 6144
  tags : BitVec 48
  kern : Kern
  aspace : ASpace
  region : Nat
  /-- The level of its groups: K for service gangs (R17, R348). -/
  level : Level := .user
  state : LState := .waiting
  prio : Nat := 0
  pclass : Nat := 0
  /-- Scores of the dies (R378) and the die order (R379). -/
  scores : Sparse Nat := []
  order : List Nat := []
  /-- Gangs not yet dispatched, gangs retired at the barrier, gangs exited; the phase (R46). -/
  toGo : List Nat := []
  retired : List Nat := []
  exited : Nat := 0
  phase : Nat := 0
  /-- Gangs among `toGo` that continue from a phase record (R48, R49). -/
  resume : List Nat := []
  /-- Place in its queue, and when it became the head (R376, R388). -/
  ticket : Nat := 0
  headAt : Option Nat := none
  /-- When it first became queueable (R393). -/
  born : Nat := 0
  /-- No PRESSURE decision is due for it as head: one has been made, or some core could hold a gang of it when it became the
  head (R384). -/
  asked : Bool := false
  /-- Accepted by the policy (R380); queued while only startable early (R52); aborted by the predecessor of this number
  (R54). -/
  accepted : Bool := false
  early : Bool := false
  aborted : Option Nat := none
  /-- Gangs that have executed LEARLY or exited (R52). -/
  learly : List Nat := []
  deriving DecidableEq, Repr

/-- Where a context stands: running, halting, halted in place, saved, or dead (R435, R440, R443). -/
inductive CState where
  | running
  | halting
  | halted
  | saved
  | dead
  deriving DecidableEq, Repr

/-- The fields of a context fault (R58, R59). -/
structure FaultInfo where
  code : Nat
  detail : Nat
  addr : DWord := 0
  pc : DWord := 0
  core : Nat := 0
  slot : Nat := 0
  slotB : Bool := false
  lane : Nat := 0
  /-- The failing capability and its q register, for CAPV 1 (R58). -/
  cap : Option (Cap × Nat) := none
  /-- The unit at fault, if any; and where its path goes on once its hints are rewound (R177). -/
  unit : Option Nat := none
  resume : Option DWord := none
  /-- Chain entries of a REGROW fault: descriptor, cause, depth (R327). -/
  chain : List (Nat × Nat × Nat) := []
  deriving DecidableEq, Repr

/-- An instruction that waits for the hardware's answer, by its path: unit, gang, lowest lane. -/
structure Caller where
  unit : Nat
  gang : Option Nat
  lane : Nat
  deriving DecidableEq, Repr

/-- A context (R35, R58, R435). -/
structure Ctx where
  vd : Nat
  /-- Virtual address of the root region's RCB. -/
  root : Nat
  state : CState := .running
  seq : Nat := 0
  fault : Option FaultInfo := none
  /-- Other faults recorded during the halt (R437), by unit. -/
  more : List (Nat × FaultInfo) := []
  /-- The halt came from HALTCTX; a FAULT decision is due (R442). -/
  byCall : Bool := false
  decide : Bool := false
  /-- An action of R443 chosen and not yet carried out: 0 KILL, 1 RESUME, 2 NOTIFY (of a decision, or of a handler). -/
  act : Option (Nat × Bool) := none
  /-- HALTCTX instructions that wait for the halt: who, sd, .SAVE; those whose path was not in a slot when it ended, with their
  status; the origin at which a RESUME restores it. -/
  callers : List (Caller × Nat × Bool) := []
  answers : List (Caller × Nat) := []
  restore : Option (Nat × Nat) := none
  /-- Image: physical address, bytes (R439); the extents in it that capabilities to it bound (R482). -/
  image : Option (Nat × Nat) := none
  shown : List (Nat × Nat) := []
  /-- Control-core threads in its image, with the unit that each ran as (R440, R446). -/
  threads : List (Nat × Grp) := []
  /-- Reply capability of a delivered fault message, and the context root whose handler holds it (R341, R443). -/
  reply : Option Nat := none
  escalate : Nat := 0
  hang : Sparse Nat := []
  deadlock : Nat := 0
  lastPc : DWord := 0
  deriving DecidableEq, Repr

/-- A live kernel object (R354): otype, VD, virtual and physical address of its first byte, COUNT. -/
structure Obj where
  otype : Nat
  vd : Nat
  va : Nat
  pa : Nat
  count : Nat := 0
  /-- Where it goes on in another page: from which of its bytes, and at which physical address (R356). -/
  next : Option (Nat × Nat) := none
  deriving DecidableEq, Repr

/-- Who gets a reply (R79, R341, R371, R467). -/
inductive ReplyTo where
  | path (u : Nat) (slotB : Bool)
  | handler (ctx : Nat)
  | batch (id : Nat)
  | hostSlot (vd slot : Nat)
  /-- A caller at a peer, with its number for the reply (R87). -/
  | peer (m id : Nat)
  deriving DecidableEq, Repr

/-- An outstanding reply capability: who gets the reply, and the context that received the CALL (R79). -/
structure Reply where
  dest : ReplyTo
  server : Option Nat
  /-- The base of the capability that names it. -/
  base : Nat
  live : Bool := true
  /-- The VD of the thread or group that received the CALL (R465). -/
  vd : Option Nat := none
  deriving DecidableEq, Repr

/-- A message (R78): badge, words, capabilities, and the reply capability's number for a CALL. -/
structure Msg where
  badge : Nat
  words : List Word
  caps : List Cap
  reply : Option Nat := none
  deriving DecidableEq, Repr

/-- A message from a sender that is not a path (fault delivery, batches, host slots), queued at an endpoint. -/
structure Post where
  ep : Nat
  ticket : Nat
  msg : Msg
  /-- The peer that its sender waits at (R87). -/
  peer : Option Nat := none
  deriving DecidableEq, Repr

/-- An SVC batch (R371, R372, R408): its die, caller, lanes with their eight words, record slot when served. -/
structure Batch where
  die : Nat
  vd : Nat
  unit : Nat
  slotB : Bool
  rd : Nat
  mask : DWord
  entries : List (Nat × List Word)
  age : Nat
  slot : Option Nat := none
  deriving DecidableEq, Repr

/-- An LLC line (R20, R413): line number, way, context charged, dirty. -/
structure Line where
  line : Nat
  way : Nat
  ctx : Option Nat
  dirty : Bool
  deriving DecidableEq, Repr

/-- A cached table entry, leaf or not (R422): the TLB that holds it, a core's by the core's number, a die's by 2,000 + die;
the entry. -/
structure TlbEntry where
  tlb : Nat
  pte : Pte
  deriving DecidableEq, Repr

/-- A registered tile (R315): descriptor, storage extent, slice, registering VD and context. -/
structure Tile where
  aspace : ASpace
  desc : Nat
  descVa : Nat
  lo : Nat
  len : Nat
  die : Nat
  slice : Nat
  vd : Nat
  ctx : Option Nat
  deriving DecidableEq, Repr

/-- An open regrow request (R323 to R329): the tile, the requesting context, the request it serves, the sources
pinned, whether its launch has started, and gangs left to start, run and check. -/
structure Regrow where
  ctx : Nat
  parent : Option Nat := none
  pins : List Nat := []
  checked : Bool := false
  launched : Bool := false
  toGo : List Nat := []
  left : Nat := 0
  failed : Option Nat := none
  /-- The groups' accesses that wait, in order of arrival: unit, slot, lane, PC (R327). -/
  waiters : List (Nat × Bool × Nat × DWord) := []
  /-- The record as read: its capabilities ENTRY, OUT, SRC0 to SRC3, ARG, its dimensions, and its kernel (R324). -/
  caps : List Cap := []
  dims : Nat × Nat × Nat := (0, 0, 0)
  kern : Option Kern := none
  aspace : ASpace := .boot
  /-- The source being served: its place among the REGROW sources, and whether its request is waited for (R324). -/
  pos : Nat := 0
  waits : Bool := false
  deriving DecidableEq, Repr

/-- A place a command reads or writes: virtual memory, scratch of its gang, crib of its core, the image of a loft handle;
or its own output, before it is written. -/
inductive Loc where
  | mem (va : Nat)
  | scr (off : Nat)
  | crib (at_ : Nat)
  | loft (handle at_ : Nat)
  | out (at_ : Nat)
  deriving DecidableEq, Repr

/-- What an engine command does, captured at its issue (R131). -/
inductive CmdBody where
  /-- COPY, COPYG, COPYS, CLD, CST: rows of bytes; whether source and destination let tags pass (R70). -/
  | move (rows : Nat) (len : Nat) (src dst : Loc) (sstride dstride : Nat) (srcTag dstTag dstLocal : Bool)
  /-- TILEST: descriptor's place, storage address, rows, row bytes, stride, scale bytes, scratch offset and stride,
  all-or-nothing. -/
  | tilest (desc base rows rowBytes stride scales soff sstride : Nat) (aon : Bool)
  | tileld (desc base rows rowBytes stride scales soff sstride statOff : Nat)
  | regroup (k e bcap t tok bucket counts : Nat) (cnt : Option Nat)
  /-- LOFTLD: (handle, source address) pairs with their records. -/
  | loftld (fills : List (Nat × Nat))
  | loftev (handle : Nat) (dst : Option Nat)
  | coll (group collid op fmt count root src dst stat : Nat)
  | chain (ops : List (Nat × Nat)) (consts : List Word) (count : Nat) (dst src0 src1 : Nat) (dt t0 t1 : Nat) (sat : Bool)
  /-- DRAIN: the reservation's first byte in the crib and its stride; the sieve's BASE and counters. -/
  | drain (cbase stride row0 rows col0 ncol ofmt mstride : Nat) (blk sat : Bool) (dst : Loc)
      (sieve : Option (Int × Option Nat))
  deriving DecidableEq, Repr

/-- The engines (R130, R441). -/
inductive Engine where
  | copy
  | crib
  | regroup
  | loft
  | stream
  | coll
  deriving DecidableEq, Repr

/-- An engine command issued and not complete (R131, R132). -/
structure Cmd where
  engine : Engine
  unit : Nat
  slotB : Bool
  lane : Nat
  pc : DWord
  gang : Option Nat
  core : Nat
  ctx : Option Nat
  vd : Nat
  aspace : ASpace
  launch : Option Nat
  /-- The timeline's physical address, the sequence number (R134), and the leaves that gave the places it holds (R423). -/
  tl : Nat
  pages : List (Nat × Nat × Nat) := []
  seq : Nat
  arrive : Option Nat
  body : CmdBody
  /-- The tile whose regrow launch issued it. -/
  regrow : Option Nat := none
  /-- The stage reached, the pieces done, bytes held between reading and writing, counts gathered, the source granules
  read, each with its tag, and whether its completion has been reported (R132, R134). -/
  pos : Nat := 0
  got : List (Loc × Nat × Bool) := []
  told : Bool := false
  did : List Nat := []
  buf : List Byte := []
  counts : Sparse Nat := []
  /-- Its scratch clock and the number of its scratch accesses (R165). -/
  clk : Clock := []
  accs : Nat := 0
  /-- TILEST: the odd VERSION it has set. TILELD: retries. -/
  held : Option Nat := none
  stopped : Bool := false
  finished : Bool := false
  status : Nat := 0
  /-- A closed link has discarded one of its accesses: it never completes (R453). -/
  lost : Bool := false
  deriving DecidableEq, Repr

/-- A loft handle record with its holder (R291, R292). -/
structure Handle where
  bits : BitVec 384
  ctrTag : Bool := false
  backTag : Bool := false
  holder : Option Nat := none
  deriving DecidableEq, Repr, Inhabited

/-- An octet operation, or a CZERO, formed and not ended (R300 to R305). -/
structure MOp where
  unit : Nat
  gang : Nat
  core : Nat
  ctx : Option Nat
  vd : Nat
  aspace : ASpace
  pc : DWord
  slotB : Bool
  lane : Nat := 0
  batch : Nat
  regrow : Option Nat := none
  czero : Bool := false
  octet : Nat := 0
  /-- Live rows of the octet, column mask. -/
  live : BitVec 8 := 0
  cols : BitVec 128 := 0
  /-- C and A records as captured, the number of the C reservation, and the gang's first crib byte. -/
  cres : BitVec 128 := 0
  ares : BitVec 128 := 0
  cnum : Nat := 0
  cbase : Nat := 0
  handle : Nat := 0
  hrec : Handle := default
  s : Nat := 0
  k : Nat := 0
  /-- MMA.Z, MMA.T, RZ; the streamed path; the counter's address for MMAX. -/
  z : Bool := false
  t : Bool := false
  rz : Bool := false
  streamed : Bool := false
  ctr : Option Nat := none
  /-- Its fused set; all its passes run; stopped by the halt of its context. -/
  set : Nat := 0
  done : Bool := false
  stopped : Bool := false
  deriving DecidableEq, Repr

/-- A fused set (R305): its core, whether it is closed (with its order), when it opened, chunk passes run. -/
structure MSet where
  core : Nat
  openedAt : Nat
  closed : Option Nat := none
  passes : Nat := 0
  deriving DecidableEq, Repr

/-- A pass result on the way to the crib (R306). -/
structure MRes where
  core : Nat
  op : Nat
  cells : List (Nat × Word)
  last : Bool
  deriving DecidableEq, Repr

/-- A partition (R451) with its winnow slots and counters (R391, R392). -/
structure Part where
  row0 : Nat
  row1 : Nat
  col0 : Nat
  col1 : Nat
  active : Option (List (BitVec 16)) := none
  shadow : Option (List (BitVec 16)) := none
  version : Nat := 0
  decisions : Nat := 0
  overruns : Nat := 0
  invalids : Nat := 0
  /-- PSWAPs that wait for the next decision boundary, and sd; those whose path was not in a slot then, with their status
  (R392). -/
  swap : List (Caller × Nat) := []
  answers : List (Caller × Nat) := []
  /-- A DISPATCH that ended in REJECT, until something changes (R384). -/
  rejected : Bool := false
  deriving DecidableEq, Repr

/-- A core marked for the head of a queue (R393): the launch it is given to, and when the mark reached it. -/
structure Mark where
  launch : Nat
  at_ : Nat
  deriving DecidableEq, Repr

/-- What arrives from outside (R86, R374, R453, R457, R467). -/
inductive Frame where
  /-- A sealed frame on a link direction: die, direction (0 to 3, 4 control join), authentic, transit. -/
  | link (die dir : Nat) (ok transit : Bool)
  /-- An access by a peer: VD, address, bytes to store, or a read of so many bytes, or an atomic by its number; and the value
that answers one (R87, R127). -/
  | store (vd : Nat) (va : Nat) (bytes : List Byte)
  | load (vd peer va size : Nat)
  | atomic (vd peer va size op x y : Nat)
  | value (peer v : Nat)
  /-- A message for an endpoint of a VD, its capabilities sent as tokens by a peer; a CALL with the peer's number for the
  reply (R86, R87). -/
  | message (vd : Nat) (ep : Nat) (peer : Nat) (badge : Nat) (words : List Word) (tokens : List Cap) (call : Option Nat)
  /-- The reply to a CALL, by the number that its caller's module gave it, with its STATUS; a SIGNAL (R87). -/
  | reply (peer id status : Nat) (words : List Word) (tokens : List Cap)
  | signal (vd peer base badge : Nat)
  /-- A receiver at a peer's endpoint takes the message of the first sender that waits here (R77, R87); or that sender's wait
ends there with a STATUS (R466). -/
  | matched (peer ep : Nat) (status : Nat := 0)
  /-- A VD of a peer has been reset: its collective memberships are excluded (R472). -/
  | reset (peer vd : Nat)
  /-- A launch packet: VD, table index, origin module, record image and tags of its tokens (R374). -/
  | launch (vd index origin : Nat) (bits : BitVec 6144) (tags : BitVec 48)
  /-- A posted write of a request area: VD, slot, the nine words (R467). -/
  | host (vd slot : Nat) (words : List Word) (whole : Bool)
  deriving DecidableEq, Repr

/-- A waiting request at a metered arbiter (R398): kind, instance, VD, cost, age, and what it does when served. -/
inductive ReqWhat where
  | line (vd line : Nat) (ctx : Option Nat)
  /-- An access that waits for its round: its requester. -/
  | access (who : Nat)
  | flit
  /-- A frame that waits for the Furrow queue (R398). -/
  | frame (f : Frame)
  | batch (id : Nat)
  | examine (vd epoch : Nat) (key : Nat)
  | erase (vd req : Nat) (line : Nat)
  /-- A line of frames that CLAIM, VDCREATE or a VF reset erases through the gleaner (R456, R465). -/
  | wipe (vd line : Nat)
  deriving DecidableEq, Repr

structure Req where
  kind : Nat
  inst : Nat
  vd : Nat
  cost : Nat
  age : Nat
  what : ReqWhat
  deriving DecidableEq, Repr

/-- A marked range of virtual addresses, with its owning VD and epoch (R429). -/
structure RMark where
  part : Nat
  vd : Nat
  epoch : Nat
  lo : Nat
  hi : Nat
  /-- The mark of a reset epoch: the VD's otype range and its frames (R465). -/
  reset : Bool := false
  deriving DecidableEq, Repr

/-- Epochs of a VD (R429 to R433, R465): last number given, last begun, last complete; the gangs that were resident when
the last one began and have not been saved, retired or ended since; the number of a reset epoch. -/
structure Epochs where
  last : Nat := 0
  begun : Nat := 0
  complete : Nat := 0
  residents : List Nat := []
  reset : Option Nat := none
  deriving DecidableEq, Repr

/-- A gleaner request not complete (R434). -/
structure Glean where
  vd : Nat
  num : Nat
  deriving DecidableEq, Repr

/-- A host slot (R467): status, request and reply words. -/
structure Slot where
  status : Nat := 0
  request : List Word := []
  reply : List Word := []
  deriving DecidableEq, Repr

/-- A read in flight at a stop (R436, R445): the word of a register of a gang's group, by the group's index, register and lane;
or the granules for a piece of a command that writes scratch. -/
inductive Late where
  | reg (gidx place lane : Nat) (v : Word)
  | piece (cmd k : Nat) (got : List (Loc × Nat × Bool))
  deriving DecidableEq, Repr

/-- A saved gang (R444). -/
structure Saved where
  ctx : Nat
  core : Nat
  gang : Gang
  units : List (Nat × Grp)
  scr : Sparse Byte
  tags : Sparse Bool
  crib : Sparse Byte
  handles : List (Nat × Handle)
  quar : List Late
  deriving DecidableEq, Repr

/-- What a VD takes with it (R462): for which module, its configuration and measurement, its frames with what they hold, and
its kernel objects, contexts, launches and saved gangs. -/
structure Blob where
  dest : Nat
  cfg : Nat
  meas : BitVec 384
  frames : List (Nat × Nat × Bool × Nat)
  mem : List Host.Cell := []
  tags : Sparse Bool := []
  objs : List Obj := []
  ctxs : Sparse Ctx := []
  launches : Sparse Launch := []
  saved : Sparse Saved := []
  cmds : Sparse Cmd := []
  ops : Sparse MOp := []
  sets : Sparse MSet := []
  deriving DecidableEq, Repr, Inhabited

/-- A VD at the security core (R455 to R465). Frames: first 2 MiB frame, count, protected, key generation. -/
structure Vd where
  live : Bool := false
  part : Nat := 0
  port : Nat := 0
  hstate : Nat := 0
  retries : Nat := 0
  meas : BitVec 384 := 0
  frames : List (Nat × Nat × Bool × Nat) := []
  /-- Every key generation that a run of frames has had in this VD (R458). -/
  gens : List (Nat × Nat × Nat) := []
  root : Nat := 0
  rootAt : Nat := 0
  /-- The copy of the blob kept after EXPORT (R462). -/
  blob : Option Blob := none
  /-- A release granted and not confirmed: to which module, and whether its failure has been counted (R463, R464). -/
  released : Option (Nat × Bool) := none
  resetting : Bool := false
  /-- The reply of the VFRESET that is running (R465); the call, by its ticket, for which frames are being erased (R456). -/
  caller : Option Nat := none
  claim : Option Nat := none
  deriving DecidableEq, Repr

/-- The whole machine. -/
structure State where
  /-- The model's own: whose turns come, whose instruction runs, cycles passed, free values drawn, orders of arrival
  (notes/assumptions/3.md, 5.md, 6.md). -/
  agenda : List Turn
  cur : Nat × Bool
  /-- The lane accesses that this step makes: all of the instruction's, or those at these places among the ones left. -/
  part : Option (List Nat)
  now : Nat
  ctlNow : Nat
  free : Nat
  ticket : Nat
  /-- Units: groups keyed 64 × core + slot, control-core thread n keyed 81,920 + n. -/
  units : Sparse Grp
  gangs : Sparse Gang
  launches : Sparse Launch
  launchNo : Sparse Nat
  /-- Kernels that the loader accepted, with the ROOT of the address space they lie in (R190). -/
  kernels : List (Nat × Kern)
  ctxs : Sparse Ctx
  saved : Sparse Saved
  objs : List Obj
  replies : Sparse Reply
  posts : List Post
  batches : Sparse Batch
  batchSeq : Sparse Nat
  /-- Memory, tags of granules, scratch and its tags by gang, crib and loft by core (R120, R124). -/
  mem : List Host.Cell
  tags : Sparse Bool
  scr : Sparse Byte
  scrTags : Sparse Bool
  crib : Sparse Byte
  loft : Sparse Byte
  handles : Sparse Handle
  /-- LLC lines of a slice and set, keyed (48 × die + slice) × 1,024 + set (R20); cached table entries (R422). -/
  llc : Sparse (List Line)
  tlb : List TlbEntry
  /-- Serial token by partition: unit and lane (R145); granules locked. -/
  serial : Sparse (Nat × Nat)
  locked : List Nat
  tiles : List Tile
  regrows : Sparse Regrow
  cmds : Sparse Cmd
  ops : Sparse MOp
  sets : Sparse MSet
  results : List MRes
  /-- Narrowed dies (R28); quarantine buffers by core: context, gang, read (R445); reads in flight at a stop: core, gang,
  read. -/
  narrow : Sparse Bool
  quarantine : Sparse (List (Nat × Nat × Late))
  flight : List (Nat × Nat × Late)
  parts : Sparse Part
  marks : Sparse Mark
  /-- The VD whose work each core holds or held last (R123, R381). -/
  coreVd : Sparse Nat
  /-- Token buckets: LEVEL in 1,024ths, pools, waiting requests (R399). -/
  level : Sparse Nat
  pool : Sparse Nat
  reqs : List Req
  /-- Rounds won by accesses that have not been made yet: requester, kind and instance of the arbiter, cost (R400). -/
  grants : List (Nat × Nat × Nat × Nat)
  /-- Uncorrectable errors present: the unit of R59's DETAIL, and the place in it (R23). -/
  errs : List (Nat × Nat)
  /-- Issue slots V0, V1, M and U of a core, keyed 4 × core + slot: from which core cycle an instruction occupies it,
  and until which (R382). -/
  busy : Sparse (Nat × Nat)
  /-- Dies whose service core is lent no longer until SVCLEND is written again (R410). -/
  lendOff : List Nat
  rmarks : List RMark
  epochs : Sparse Epochs
  gleans : List Glean
  /-- System registers that are not per thread or core, keyed as `sysKey` says (R350). -/
  sys : Sparse DWord
  vds : Sparse Vd
  measFw : BitVec 384
  /-- The digest of a verified image, which the swap puts into MEAS_FW (R475). -/
  fwNext : BitVec 384
  inbox : List Frame
  /-- What has left for a peer over Furrow, the latest first; names of objects at peers that have arrived: VD, otype, base,
  module (R86, R87). -/
  sent : List Frame
  far : List (Nat × Nat × Nat × Nat)
  slots : Sparse Slot
  /-- Links: failures in a row; links down; peers and pools lost; key counters (R457). -/
  linkFail : Sparse Nat
  linkDown : List Nat
  lost : List Nat
  keys : Sparse Nat
  retired : List (Nat × Nat × Option Nat)
  remaps : List (Nat × Nat)
  /-- Alarm conditions present, by die (R480). -/
  conds : Sparse Nat
  powered : Bool
  deriving DecidableEq, Repr

/-- The firmware's program capability on control core 0: the whole 57-bit space, with EXEC and LOAD, cursor 0,
E 43, LM 2^14 (notes/assumptions/1.md). -/
def bootCap : Cap := ⟨0x0000_0000_0000_0000_A000_000A_C000_4000#128, true⟩

/-- The firmware as a kernel: width 1, 96 registers, no handler (notes/assumptions/1.md). -/
def bootKern : Kern :=
  { entry := 0, text := (0, 2 ^ 57), width := 1, scratch := 0, pathstack := 16 }

/-- The root capability of the firmware: the whole 57-bit space (R63, E 43) with every permission
(notes/assumptions/1.md). -/
def rootCap : Cap := ⟨0x0000_0000_0000_0000_FFFE_000A_C000_4000#128, true⟩

/-- Virtual bases that name the security core's endpoint and the page endpoint (R426, R456; notes/assumptions/10.md). -/
def secEp : Nat := 0x01FE_0000_0000_0000
def pageEp : Nat := 0x01FE_0000_0004_0000

/-- An object capability (R355): base at the object, length 65,536, cursor base + badge. -/
def objCap (otype base badge perms : Nat) : Cap :=
  ⟨BitVec.ofNat 128 (((base + badge) <<< 64) + (perms <<< 48) + (otype <<< 36) + (2 <<< 30)
      + ((base / 4 % 2 ^ 15) <<< 15) + 16384), true⟩

/-- A control-core thread at level K, at the firmware entry (R473 step 4). The manual gives it no registers: that q0 holds
the root capability, and q1 the security core's endpoint with badge 0, which the owner holds (R455), is the model's choice.
DESIGN CHOICE: notes/assumptions/1.md. -/
def bootThread : Grp :=
  { width := 1, level := .kernel, vd := 0, aspace := .boot, kern := bootKern, pcc := bootCap,
    q := [(0, rootCap), (1, objCap 1 secEp 0 0x0240)],
    slotA := some { pc := 0, mask := 1 }, bank := some {} }

/-- The 64 control cores at reset (R15), at level K (R348): core 0 at the firmware entry; of the others the manual states no
start, and they hold their registers and no thread until a restored thread takes one of them (R446).
DESIGN CHOICE: notes/assumptions/1.md. -/
def bootCores : Sparse Grp :=
  (81920, bootThread) :: (List.range 63).map (fun n => (81921 + n, { bootThread with q := [], slotA := none }))

/-- The machine right after reset (R473): control core 0 at the firmware entry, nothing else resident, memory zero with
clear tags, every register at the value the manual states, or the one the log names. -/
def State.reset : State :=
  { agenda := [.issue 81920 false], cur := (81920, false), part := none, now := 0, ctlNow := 0, free := 0, ticket := 0,
    units := bootCores, gangs := [], launches := [], launchNo := [], kernels := [], ctxs := [],
    saved := [], objs := [], replies := [], posts := [], batches := [], batchSeq := [], mem := [], tags := [],
    scr := [], scrTags := [], crib := [], loft := [], handles := [], llc := [], tlb := [], serial := [], locked := [],
    tiles := [], regrows := [], cmds := [], ops := [], sets := [], results := [], narrow := [], quarantine := [],
    flight := [], parts := [], marks := [], coreVd := [], level := [], pool := [], reqs := [], grants := [], errs := [],
    busy := [], lendOff := [], rmarks := [], epochs := [], gleans := [], sys := [], vds := [], measFw := 0, fwNext := 0, inbox := [],
    sent := [], far := [], slots := [], linkFail := [], linkDown := [], lost := [], keys := [], retired := [], remaps := [], conds := [], powered := true }

end Sys2Proof.Machine
end

