-- ==== Sys2Proof/Machine/Bits.lean ====
section
/-! DEFINITION. Finite maps as lists, bit fields, sign extension and byte order (R2, R3). -/
namespace Sys2Proof.Machine

/-- The value of a map at a key, or its default. -/
def look {α : Type} (d : α) : List (Nat × α) → Nat → α
  | [], _ => d
  | (k', v) :: r, k => if k' = k then v else look d r k

/-- The entry of a map at a key, if there is one. -/
def find {α : Type} : List (Nat × α) → Nat → Option α
  | [], _ => none
  | (k', v) :: r, k => if k' = k then some v else find r k

/-- The map without a key. -/
def del {α : Type} : List (Nat × α) → Nat → List (Nat × α)
  | [], _ => []
  | (k', v) :: r, k => if k' = k then del r k else (k', v) :: del r k

/-- An entry put before the first larger key. -/
def insertAt {α : Type} (k : Nat) (v : α) : List (Nat × α) → List (Nat × α)
  | [] => [(k, v)]
  | (k', v') :: r => if k < k' then (k, v) :: (k', v') :: r else (k', v') :: insertAt k v r

/-- The map with a key set. -/
def put {α : Type} (m : List (Nat × α)) (k : Nat) (v : α) : List (Nat × α) := insertAt k v (del m k)

/-- The map with a key set, no entry for the default: the canonical form. -/
def store {α : Type} [DecidableEq α] (d : α) (m : List (Nat × α)) (k : Nat) (v : α) : List (Nat × α) :=
  if v = d then del m k else put m k v

/-- The canonical form: keys strictly rising from `lo`, and no entry equal to the default. -/
def canonFrom {α : Type} [DecidableEq α] (d : α) : Nat → List (Nat × α) → Bool
  | _, [] => true
  | lo, (k, v) :: r => decide (lo ≤ k) && decide (v ≠ d) && canonFrom d (k + 1) r

/-- Bits `lo + w - 1 : lo` of a number. -/
def fld (x lo w : Nat) : Nat := (x >>> lo) % 2 ^ w

/-- A field of a value as a Boolean. -/
def bit (x i : Nat) : Bool := fld x i 1 == 1

/-- Two's-complement reading of `w` bits (R5). -/
def sint (w x : Nat) : Int := if x % 2 ^ w < 2 ^ (w - 1) then (x % 2 ^ w : Nat) else (x % 2 ^ w : Nat) - (2 ^ w : Nat)

/-- The bits of an integer modulo 2^w. -/
def wrap (w : Nat) (x : Int) : Nat := (x % (2 ^ w : Nat)).toNat

/-- A 32-bit word of an integer. -/
def word (x : Int) : Word := BitVec.ofNat 32 (wrap 32 x)

/-- The bytes from a reader, lowest address first, as one number (R3). -/
def leRead (f : Nat → Byte) (a : Nat) : Nat → Nat
  | 0 => 0
  | n + 1 => (f a).toNat + 256 * leRead f (a + 1) n

/-- The `n` bytes of a number, lowest address first (R3). -/
def leBytes (x : Nat) : Nat → List Byte
  | 0 => []
  | n + 1 => BitVec.ofNat 8 x :: leBytes (x / 256) n

/-- The 32-bit words of a number, lowest first. -/
def leWords (x : Nat) : Nat → List Word
  | 0 => []
  | n + 1 => BitVec.ofNat 32 x :: leWords (x / 2 ^ 32) n

/-- The number of a list of 32-bit words, lowest first. -/
def wordsNum : List Word → Nat
  | [] => 0
  | w :: r => w.toNat + 2 ^ 32 * wordsNum r

/-- The lanes of a mask below a width, ascending. -/
def lanesOf (w : Nat) (m : DWord) : List Nat := (List.range w).filter (fun l => m.getLsbD l)

/-- The mask of a width: lanes 0 to w - 1 (R29). -/
def widthMask (w : Nat) : DWord := BitVec.ofNat 64 (2 ^ w - 1)

/-- The mask of a list of lanes. -/
def maskOf : List Nat → DWord
  | [] => 0
  | l :: r => (1#64 <<< l) ||| maskOf r

/-- The bits `l` of a mask, from a test. -/
def maskWhere (w : Nat) (f : Nat → Bool) : DWord := maskOf ((List.range w).filter f)

/-- The lowest lane of a mask (0 of an empty one). -/
def lowest (w : Nat) (m : DWord) : Nat := (lanesOf w m).headD 0

/-- floor(log2 x) for x > 0. -/
def ilog2 (x : Nat) : Nat := x.log2

/-- Floor and ceiling of a quotient of integers. -/
def floorDiv (a b : Int) : Int := a.fdiv b
def ceilDiv (a b : Nat) : Nat := (a + b - 1) / b

/-- The number of one bits. -/
def popcount (w x : Nat) : Nat := ((List.range w).filter (fun i => bit x i)).length

/-- A list updated at a position. -/
def setNth {α : Type} (l : List α) (i : Nat) (x : α) : List α := l.set i x

/-- The largest key of a map plus one, or 0: a fresh key (R39's h). -/
def freshKey {α : Type} (m : List (Nat × α)) : Nat := m.foldl (fun n e => max n (e.1 + 1)) 0

end Sys2Proof.Machine
end

