-- ==== Sys2Proof/Machine/Operands.lean ====
section
/-! DEFINITION. Operand forms: registers per lane and uniform, pairs, quads, predicates, q registers and capability
quads (R62, R172, R173), immediates and displacements with their hints (R171, R177 to R179), and which hints may
stand before an instruction (R178). -/
namespace Sys2Proof.Machine

/-- A register read in lane `l`: a v register's lane, or the s register broadcast (R173). -/
def Grp.rd (g : Grp) (r : Reg) (l : Nat) : Word :=
  if r.isV then look 0 g.v (64 * r.toNat + l) else look 0 g.s (r.toNat - 96)

/-- The register `k` after one named in a field. -/
def Reg.plus (r : Reg) (k : Nat) : Reg := r + BitVec.ofNat 7 k

/-- A pair, named by its even register (R172). -/
def Grp.rd2 (g : Grp) (r : Reg) (l : Nat) : DWord := g.rd (Reg.plus r 1) l ++ g.rd r l

/-- A quad, low register first. -/
def Grp.rd4 (g : Grp) (r : Reg) (l : Nat) : BitVec 128 :=
  g.rd (Reg.plus r 3) l ++ g.rd (Reg.plus r 2) l ++ g.rd (Reg.plus r 1) l ++ g.rd r l

/-- One lane of a v register written; the lane's capability flag of the quad is cleared (R62). -/
def Grp.wrV (g : Grp) (r l : Nat) (x : Word) : Grp :=
  { g with v := store 0 g.v (64 * r + l) x, vf := store false g.vf (64 * (r / 4) + l) false }

/-- An s register written. -/
def Grp.wrS (g : Grp) (n : Nat) (x : Word) : Grp := { g with s := store 0 g.s n x }

/-- The lanes of a list written in turn. -/
def Grp.wrLanes (g : Grp) (r : Nat) (f : Nat → Word) : List Nat → Grp
  | [] => g
  | l :: ls => Grp.wrLanes (g.wrV r l (f l)) r f ls

/-- A destination written: each listed lane of a v register, or the s register once (R173). -/
def Grp.wr (g : Grp) (r : Reg) (ls : List Nat) (f : Nat → Word) : Grp :=
  if r.isV then g.wrLanes r.toNat f ls else g.wrS (r.toNat - 96) (f 0)

/-- A pair destination. -/
def Grp.wr2 (g : Grp) (r : Reg) (ls : List Nat) (f : Nat → DWord) : Grp :=
  (g.wr r ls (fun l => (f l).extractLsb' 0 32)).wr (Reg.plus r 1) ls (fun l => (f l).extractLsb' 32 32)

/-- A run of `k` registers written from words. -/
def Grp.wrRun (g : Grp) (r : Reg) (ls : List Nat) (f : Nat → Nat → Word) : Nat → Grp
  | 0 => g
  | k + 1 => (Grp.wrRun g r ls f k).wr (Reg.plus r k) ls (fun l => f l k)

/-- A predicate read: p7 is all ones of the width (R56, R172). -/
def Grp.pr (g : Grp) (k : Nat) : DWord := if k = 7 then widthMask g.width else look 0 g.p k &&& widthMask g.width

/-- A predicate's bits written in the lanes of a mask; p7 is never a destination (R172). -/
def Grp.pw (g : Grp) (k : Nat) (act new : DWord) : Grp :=
  { g with p := store 0 g.p k ((look 0 g.p k &&& ~~~act) ||| (new &&& act)) }

/-- q registers (R62). -/
def Grp.qr (g : Grp) (k : Nat) : Cap := look Cap.null g.q k
def Grp.qw (g : Grp) (k : Nat) (c : Cap) : Grp := { g with q := store Cap.null g.q k c }

/-- The capability of a v quad in a lane (R62). -/
def Grp.quad (g : Grp) (r : Reg) (l : Nat) : Cap :=
  ⟨g.rd4 r l, look false g.vf (64 * (r.toNat / 4) + l)⟩

/-- A capability written into a v quad of one lane, with its flag. -/
def Grp.quadW (g : Grp) (r : Reg) (l : Nat) (c : Cap) : Grp :=
  let g1 := (((g.wrV r.toNat l (c.bits.extractLsb' 0 32)).wrV (r.toNat + 1) l (c.bits.extractLsb' 32 32)).wrV
    (r.toNat + 2) l (c.bits.extractLsb' 64 32)).wrV (r.toNat + 3) l (c.bits.extractLsb' 96 32)
  { g1 with vf := store false g1.vf (64 * (r.toNat / 4) + l) c.tag }

/-- A system register held by the unit itself. -/
def Grp.ownR (g : Grp) (n : Nat) : DWord := look 0 g.own n
def Grp.ownW (g : Grp) (n : Nat) (x : DWord) : Grp := { g with own := store 0 g.own n x }

/-! Hints. -/

/-- The kind and payload of a hint word (R170, R178). -/
def hintKind (w : Word) : Nat := fld w.toNat 23 3
def hintPayload (w : Word) : Nat := fld w.toNat 0 23

/-- The payload of the pending hint of a kind. -/
def hint? (hs : List Word) (k : Nat) : Option Nat := (hs.find? (fun w => hintKind w == k)).map hintPayload

/-- The fields of an instruction word. -/
def major (w : Word) : Nat := fld w.toNat 26 6

/-- The format letter of a major (R170, R174). -/
inductive Fmt where
  | r | f | i | m | b | x | c | h
  deriving DecidableEq, Repr

/-- The format of a major; an unassigned major is read as R (R181). -/
def fmtOf (op : Nat) : Fmt :=
  if op == 0x3F then .h
  else if [0x08, 0x09, 0x0A, 0x0B, 0x0E, 0x12, 0x13].contains op then .f
  else if [0x07, 0x1A, 0x31].contains op then .i
  else if [0x18, 0x19, 0x1B].contains op then .m
  else if op == 0x30 then .b
  else if op == 0x20 then .x
  else if [0x14, 0x1F, 0x24, 0x28, 0x29, 0x2A, 0x2B, 0x3A, 0x3B].contains op then .c
  else .r

/-- May GUARD stand before the instruction (R178, R179): the per-lane instructions (R173, R236) of majors 0x01 to 0x11
and 0x18 to 0x1C, and SVC. -/
def Instr.guardable : Instr → Bool
  | .add d _ _ | .sub d _ _ | .minS d _ _ | .minN d _ _ | .maxS d _ _ | .maxN d _ _ | .and d _ _ | .or d _ _
  | .xor d _ _ | .andn d _ _ | .shl d _ _ | .shr d _ _ | .sar d _ _ | .rotl d _ _ | .adds d _ _ | .subs d _ _
  | .absd d _ _ | .mul d _ _ | .mulhS d _ _ | .mulhN d _ _ | .mad d _ _ | .divS d _ _ | .divN d _ _ | .remS d _ _
  | .remN d _ _ | .bfeS d _ _ | .bfeN d _ _ | .bfi d _ _ | .permb d _ _ | .dmac2Ss d _ _ | .dmac2 d _ _
  | .add2S d _ _ | .sub2S d _ _ | .mul2Q15 d _ _ | .shrr d _ _ | .pack2S d _ _
  | .fmin d _ _ | .fmax d _ _ | .fminNan d _ _ | .fmaxNan d _ _ | .hmin2 d _ _ | .hmax2 d _ _ | .bmin2 d _ _
  | .bmax2 d _ _ | .mxpack d _ _ | .addW d _ _ | .subW d _ _ | .mulW d _ _ | .shlW d _ _ | .shrW d _ _
  | .mov d _ | .popc d _ | .clz d _ | .ctz d _ | .brev d _ | .fabs d _ | .fneg d _ | .fclass d _
  | .rcp d _ | .rsq d _ | .sqrt d _ | .exp2 d _ | .log2 d _ | .sinpi d _ | .cospi d _ | .tanh d _ | .sigm d _
  | .unpk2 d _ | .sel _ d _ _ | .addi d _ _ | .andi d _ _ | .ori d _ _ | .xori d _ _ | .shli d _ _ | .shri d _ _
  | .sari d _ _ | .movi d _ | .fadd _ d _ _ | .fsub _ d _ _ | .fmul _ d _ _ | .fdiv _ d _ _ | .fma _ d _ _
  | .fms _ d _ _ | .fnma _ d _ _ | .hadd2 _ d _ _ | .hmul2 _ d _ _ | .hfma2 _ d _ _ | .badd2 _ d _ _
  | .bmul2 _ d _ _ | .bfma2 _ d _ _ | .cvt _ d _ _ _ | .cvtSat _ d _ _ _ | .cvtPk _ d _ _ _ | .cvtXi _ d _ _ _
  | .cvtq d _ _ | .mxscale d _ _ | .slideup d _ _ | .slidedn d _ _ | .bcast d _ _ | .rot d _ _ | .shuf d _ _
  | .xshuf d _ _ | .first d _ | .radd d _ | .rminS d _ | .rmaxS d _ | .fradd d _ | .frmax d _ | .pscanEx d _
  | .pscanIn d _ | .matchEq d _ | .ldB d _ _ _ | .ldSb d _ _ _ | .ldH d _ _ _ | .ldSh d _ _ _ | .ldW d _ _ _
  | .ldD d _ _ _ | .ldQ d _ _ _ | .ldsW d _ _ | .ldsH d _ _ | .ldsD d _ _ | .ldsQ d _ _ | .ldc d _ _ _ | .stc d _ _ _
  | .ldcL d _ _ | .stcL d _ _ => d.isV
  | .aadd d a _ _ | .aminS d a _ _ | .amaxS d a _ _ | .aminN d a _ _ | .amaxN d a _ _ | .aand d a _ _ | .aor d a _ _
  | .axor d a _ _ | .axchg d a _ _ | .afadd d a _ _ | .abfadd2 d a _ _ | .acas d a _ _ | .axchgW d a _ _
  | .acasW d a _ _ | .rdadd d a _ _ | .rdmin d a _ _ | .rdmax d a _ _ | .rdfadd d a _ _ | .rdbfadd2 d a _ _
  | .stsW d a _ | .stsH d a _ | .stsD d a _ | .stsQ d a _ => d.isV || a.isV
  | .stB d o _ _ | .stH d o _ _ | .stW d o _ _ | .stD d o _ _ | .stQ d o _ _ => d.isV || o.isV
  | .rdinc a _ _ => a.isV
  | .eq _ _ _ | .ne _ _ _ | .ltS _ _ _ | .leS _ _ _ | .ltN _ _ _ | .leN _ _ _ | .tst _ _ _ | .tstz _ _ _
  | .fcmpEq _ _ _ | .fcmpNe _ _ _ | .fcmpLt _ _ _ | .fcmpLe _ _ _ | .fcmpUn _ _ _ | .pand _ _ _ | .por _ _ _
  | .pxor _ _ _ | .pandn _ _ _ | .s2p _ _ | .anyOf _ _ | .allOf _ _ => true
  | .svc _ _ => true
  | _ => false

/-- May RMODE stand before the instruction (R178)? -/
def rmodeOk (fradd : Bool) (op pay : Nat) : Bool :=
  (decide (0x08 ≤ op) && decide (op ≤ 0x0B)) || (decide (0x0D ≤ op) && decide (op ≤ 0x0F)) || op == 0x12 || op == 0x13
    || fradd
  |> fun ok => ok && (fld pay 20 3 != 6 || op == 0x0E)

/-- The stream-unit operations of the pending CHAINOP hints in order, and whether their count fits `n` (R179). -/
def chainPays (hs : List Word) : List Nat := (hs.filter (fun w => hintKind w == 4)).map hintPayload

def chainFits (hs : List Word) (n : Nat) : Bool :=
  let ps := chainPays hs
  ps.length == (n + 1) / 2
    && (List.range ps.length).all (fun j =>
      let o := fld (ps.getD j 0) 0 11
      if 2 * j + 1 < n then o != 0 else o == 0)

/-- The number of operations a CHAIN needs; 0 for another instruction. -/
def chainNeed : Instr → Nat
  | .chain fn _ _ _ => fn.toNat + 1
  | _ => 0

/-- What the checks of R481 read of an instruction: its word, whether its own fields are well formed, its register and
reservation fields, whether GUARD may precede it, its operation count as a CHAIN, its shift immediate, and whether it is
FRADD. -/
structure Sig where
  w : Word
  wf : Bool := true
  vf : List Reg := []
  cf : List Nat := []
  guard : Bool := false
  chain : Nat := 0
  shi : Option (BitVec 9) := none
  fradd : Bool := false
  deriving DecidableEq, Repr

/-- Does the pending sequence fit the instruction (R176, R178, R179)? -/
def hintsFit (sg : Sig) (hs : List Word) : Bool :=
  let op := major sg.w
  let f := fmtOf op
  let kinds := hs.map hintKind
  (List.range 8).all (fun k => k == 4 || decide ((kinds.filter (· == k)).length ≤ 1))
    && hs.all (fun h =>
      match hintKind h with
      | 0 => f == .i
      | 1 => sg.guard
      | 2 => true
      | 3 => rmodeOk sg.fradd op (hintPayload h)
      | 4 => op == 0x14
      | 5 => f == .b || f == .m
      | 6 => f == .x
      | _ => false)
    && (op != 0x14 || chainFits hs sg.chain)

/-- A hint word that traps with cause ILLEGAL when it issues: kind 7, or a reserved payload bit or value (R176, R178,
R242). Decoding refuses the reserved bits; this says it of any word. -/
def hintReserved (w : Word) : Bool :=
  let p := hintPayload w
  match hintKind w with
  | 0 | 5 => false
  | 1 => fld p 0 19 != 0
  | 2 => fld p 0 15 != 0
  | 3 => fld p 0 18 != 0 || fld p 20 3 == 7 || fld p 18 2 == 3
  | 4 => bit p 22 || !(chainOpOk (BitVec.ofNat 11 (fld p 11 11)))
      || !(fld p 0 11 == 0 || chainOpOk (BitVec.ofNat 11 (fld p 0 11)))
  | 6 => fld p 0 4 != 0 || fld p 4 2 == 3
  | _ => true

/-- The lanes that execute: the path's mask, narrowed by a GUARD (R179). -/
def guardMask (g : Grp) (p : Path) : DWord :=
  match hint? p.hints 1 with
  | none => p.mask
  | some pay =>
      let m := g.pr (fld pay 20 3)
      p.mask &&& (if bit pay 19 then ~~~m else m)

/-- imm9, or HI:imm9 after an IMM hint (R171). -/
def immOf (hs : List Word) (imm9 : BitVec 9) : Word :=
  match hint? hs 0 with
  | none => imm9.signExtend 32
  | some hi => BitVec.ofNat 32 (hi * 512 + imm9.toNat)

/-- The displacement of an M-format word, in bytes: sext5(d5) × size, or sext28(HI:d5) × size (R171). -/
def dispOf (hs : List Word) (d5 : BitVec 5) (size : Nat) : Int :=
  match hint? hs 5 with
  | none => d5.toInt * size
  | some hi => sint 28 (hi * 32 + d5.toNat) * size

/-- The word offset of a B-format word: sext20(off20), or sext43(HI:off20) (R171). -/
def branchOff (hs : List Word) (off : BitVec 20) : Int :=
  match hint? hs 5 with
  | none => off.toInt
  | some hi => sint 43 (hi * 2 ^ 20 + off.toNat)

/-- An offset register: 127 names none and reads as 0 (R171, R249, R254, R265). -/
def Grp.off (g : Grp) (r : Reg) (l : Nat) : Word := if r = 127#7 then 0 else g.rd r l

/-- The register fields of an instruction that must lie below `.vregs` (R36, R172). -/
def Instr.vfields : Instr → List Reg
  | .add d a b | .sub d a b | .minS d a b | .minN d a b | .maxS d a b | .maxN d a b | .and d a b | .or d a b
  | .xor d a b | .andn d a b | .shl d a b | .shr d a b | .sar d a b | .rotl d a b | .adds d a b | .subs d a b
  | .absd d a b | .mul d a b | .mulhS d a b | .mulhN d a b | .mad d a b | .divS d a b | .divN d a b | .remS d a b
  | .remN d a b | .bfeS d a b | .bfeN d a b | .bfi d a b | .permb d a b | .dmac2Ss d a b | .dmac2 d a b
  | .add2S d a b | .sub2S d a b | .mul2Q15 d a b | .shrr d a b | .pack2S d a b
  | .fmin d a b | .fmax d a b | .fminNan d a b | .fmaxNan d a b | .hmin2 d a b | .hmax2 d a b | .bmin2 d a b
  | .bmax2 d a b | .mxpack d a b | .addW d a b | .subW d a b | .mulW d a b | .shlW d a b | .shrW d a b
  | .fadd _ d a b | .fsub _ d a b | .fmul _ d a b | .fdiv _ d a b | .fma _ d a b
  | .fms _ d a b | .fnma _ d a b | .hadd2 _ d a b | .hmul2 _ d a b | .hfma2 _ d a b | .badd2 _ d a b
  | .bmul2 _ d a b | .bfma2 _ d a b | .sel _ d a b | .cvtq d a b | .mxscale d a b | .slideup d a b | .slidedn d a b
  | .bcast d a b | .rot d a b | .shuf d a b | .xshuf d a b | .vtos d a b
  | .dadd _ d a b | .dsub _ d a b | .dmul _ d a b | .ddiv _ d a b | .dfma _ d a b | .dfms _ d a b
  | .dfnma _ d a b => [d, a, b]
  | .mov d a | .popc d a | .clz d a | .ctz d a | .brev d a | .fabs d a | .fneg d a | .fclass d a
  | .rcp d a | .rsq d a | .sqrt d a | .exp2 d a | .log2 d a | .sinpi d a | .cospi d a | .tanh d a | .sigm d a
  | .unpk2 d a | .addi d a _ | .andi d a _ | .ori d a _ | .xori d a _ | .shli d a _ | .shri d a _ | .sari d a _
  | .cvt _ d a _ _ | .cvtSat _ d a _ _ | .first d a | .radd d a | .rminS d a | .rmaxS d a
  | .fradd d a | .frmax d a | .pscanEx d a | .pscanIn d a | .matchEq d a | .ldB d a _ _ | .ldSb d a _ _ | .ldH d a _ _
  | .ldSh d a _ _ | .ldW d a _ _ | .ldD d a _ _ | .ldQ d a _ _ | .stB d a _ _ | .stH d a _ _ | .stW d a _ _
  | .stD d a _ _ | .stQ d a _ _ | .ldsW d a _ | .ldsH d a _ | .ldsD d a _ | .ldsQ d a _ | .stsW d a _ | .stsH d a _
  | .stsD d a _ | .stsQ d a _ | .ldc d a _ _ | .stc d a _ _ | .ldcL d a _ | .stcL d a _ | .aadd d a _ _ | .aminS d a _ _
  | .amaxS d a _ _ | .aminN d a _ _ | .amaxN d a _ _ | .aand d a _ _ | .aor d a _ _ | .axor d a _ _ | .axchg d a _ _
  | .afadd d a _ _ | .abfadd2 d a _ _ | .acas d a _ _ | .axchgW d a _ _ | .acasW d a _ _ | .rdadd d a _ _
  | .rdmin d a _ _ | .rdmax d a _ _ | .rdfadd d a _ _ | .rdbfadd2 d a _ _ | .callr d a | .sieveRd d a => [d, a]
  | .eq _ a b | .ne _ a b | .ltS _ a b | .leS _ a b | .ltN _ a b | .leN _ a b | .tst _ a b | .tstz _ a b
  | .fcmpEq _ a b | .fcmpNe _ a b | .fcmpLt _ a b | .fcmpLe _ a b | .fcmpUn _ a b | .waita a b
  | .waitaGlobal _ a b => [a, b]
  | .rdinc a _ _ | .path a _ | .jmpr a | .ret a | .cmovFromLane _ a => [a]
  | .movi d _ | .srd d _ | .tend d | .ttest d | .cmovToLanes d _ => [d]
  | .mmax _ _ b _ => [b]
  | .svc d a => [d, a]
  | .cvtPk _ d a s t =>
      [d, a, Reg.plus a ((pkShape (cvtWidth s.toNat) (cvtWidth t.toNat)).2.1 - 1),
        Reg.plus d ((pkShape (cvtWidth s.toNat) (cvtWidth t.toNat)).2.2 - 1)]
  | .cvtXi _ d a s t =>
      [d, a, Reg.plus a ((pkShape (xiWidth s.toNat) (cvtWidth t.toNat)).2.1 - 1),
        Reg.plus d ((pkShape (xiWidth s.toNat) (cvtWidth t.toNat)).2.2 - 1)]
  | _ => []

/-- Is a register field legal under the kernel's `.vregs` (R36)? The offset 127 and the q holders of major 0x1B are no
v registers. -/
def fieldOk (vregs : Nat) (r : Reg) : Bool := decide (96 ≤ r.toNat) || decide (r.toNat < vregs)

/-- The reservation fields of an instruction (R283). -/
def Instr.cfields : Instr → List Nat
  | .mma c a _ _ | .mmaZ c a _ _ | .mmaT c a _ _ | .mmas c a _ _ | .mmax c a _ _ => [c.toNat, a.toNat]
  | .cres c _ => [c.toNat]
  | .crel c | .czero c => [c.toNat]
  | _ => []

/-- The shift immediate of SHLI, SHRI and SARI (R194). -/
def Instr.shiftImm : Instr → Option (BitVec 9)
  | .shli _ _ i | .shri _ _ i | .sari _ _ i => some i
  | _ => none

/-- The word of an instruction; an event has none. -/
def wordOf (i : Instr) : Word := (encode i).getD 0

/-- What the checks read of an instruction. -/
def Instr.sig (i : Instr) : Sig :=
  { w := wordOf i, wf := i.wellFormed, vf := Instr.vfields i, cf := Instr.cfields i, guard := Instr.guardable i,
    chain := chainNeed i, shi := Instr.shiftImm i, fradd := match i with
      | .fradd _ _ => true
      | _ => false }

end Sys2Proof.Machine
end

