-- ==== Sys2Proof/Machine/Flags.lean ====
section
/-! DEFINITION. STATUS and MODE (R99, R100), the floating-point formats (R91, R92), rounding with its flags (R103 to
R106), arithmetic (R107, R108), conversions (R111 to R113) and microscaling blocks (R98). A value is exact until it is
rounded once. -/
namespace Sys2Proof.Machine

/-! The flags of STATUS, as bits of a number (R100). -/
def fINV : Nat := 1
def fDZ : Nat := 2
def fOVF : Nat := 4
def fUNF : Nat := 8
def fINX : Nat := 16
def fSATI : Nat := 32

/-- Flags ORed into STATUS; an instruction never clears one (R100). -/
def Grp.raise (g : Grp) (f : Nat) : Grp := { g with status := g.status ||| BitVec.ofNat 32 f }

/-- Fields of MODE (R99). -/
def Grp.rm (g : Grp) : Nat := fld g.mode.toNat 0 3
def Grp.ftz (g : Grp) : Bool := bit g.mode.toNat 3
def Grp.daz (g : Grp) : Bool := bit g.mode.toNat 4
def Grp.satf (g : Grp) : Bool := bit g.mode.toNat 5

/-- A MODE value that SWR accepts: no reserved bit, RM 1 to 5 (R99, R7). -/
def modeOk (w : Word) : Bool := fld w.toNat 6 26 == 0 && decide (1 ≤ fld w.toNat 0 3) && decide (fld w.toNat 0 3 ≤ 5)

/-- A rounding mode; stochastic rounding carries the draw z of its lane (R103, R105). -/
inductive RM where
  | rne
  | rz
  | rdn
  | rup
  | rna
  | sr (z : Nat)
  deriving DecidableEq, Repr

/-- The mode of an rm code 1 to 6 (R103). -/
def RM.ofCode (c z : Nat) : RM :=
  match c with
  | 2 => .rz
  | 3 => .rdn
  | 4 => .rup
  | 5 => .rna
  | 6 => .sr z
  | _ => .rne

/-- The rm code in force: the rm field, else the RMODE hint, else MODE.RM (R103). -/
def rmCode (g : Grp) (hs : List Word) (rm : Nat) : Nat :=
  if rm ≠ 0 then rm
  else match hint? hs 3 with
    | some p => if fld p 20 3 ≠ 0 then fld p 20 3 else g.rm
    | none => g.rm

/-- SATF in force: the RMODE hint's SAT field, else MODE.SATF (R103, R178). -/
def satOf (g : Grp) (hs : List Word) : Bool :=
  match hint? hs 3 with
  | some p => if fld p 18 2 = 1 then false else if fld p 18 2 = 2 then true else g.satf
  | none => g.satf

/-- The draw of stochastic rounding for lane number `l` (R105). -/
def stochDraw (stoch l : Nat) : Nat :=
  let z := (stoch + (l + 1) * 0x9E3779B9) % 2 ^ 32
  let z := ((z ^^^ (z >>> 16)) * 0x85EBCA6B) % 2 ^ 32
  let z := ((z ^^^ (z >>> 13)) * 0xC2B2AE35) % 2 ^ 32
  z ^^^ (z >>> 16)

/-- STOCH advances once per instruction (R105). -/
def Grp.stochNext (g : Grp) : Grp := { g with stoch := g.stoch + 0x6D2B79F5#32 }

/-- The formats of R91. -/
inductive FF where
  | fp32
  | fp16
  | bf16
  | e5m2
  | e4m3
  | e2m1
  deriving DecidableEq, Repr

def FF.ebits : FF → Nat
  | .fp32 | .bf16 => 8
  | .fp16 | .e5m2 => 5
  | .e4m3 => 4
  | .e2m1 => 2

def FF.mbits : FF → Nat
  | .fp32 => 23
  | .fp16 => 10
  | .bf16 => 7
  | .e5m2 => 2
  | .e4m3 => 3
  | .e2m1 => 1

def FF.bias (f : FF) : Int := 2 ^ (f.ebits - 1) - 1

/-- Bits of the format. -/
def FF.width (f : FF) : Nat := 1 + f.ebits + f.mbits

/-- The code of the largest finite magnitude (R91). -/
def FF.maxCode : FF → Nat
  | .fp32 => 0x7F7FFFFF
  | .fp16 => 0x7BFF
  | .bf16 => 0x7F7F
  | .e5m2 => 0x7B
  | .e4m3 => 0x7E
  | .e2m1 => 0x7

/-- The default NaN (R92); E2M1 has none and converts a NaN to +0 (R111). -/
def FF.nanCode : FF → Nat
  | .fp32 => 0x7FC00000
  | .fp16 => 0x7E00
  | .bf16 => 0x7FC0
  | .e5m2 => 0x7E
  | .e4m3 => 0x7F
  | .e2m1 => 0

/-- Formats that FTZ and DAZ act on (R106). -/
def FF.wide : FF → Bool
  | .fp32 | .fp16 | .bf16 => true
  | _ => false

/-- A value: NaN (signalling or not), an infinity, or ± m × 2^e exactly. -/
inductive FV where
  | nan (sig : Bool)
  | inf (neg : Bool)
  | fin (neg : Bool) (m : Nat) (e : Int)
  deriving DecidableEq, Repr

/-- The value of a code (R91, R92). -/
def FF.decode (f : FF) (x : Nat) : FV :=
  let neg := bit x (f.width - 1)
  let e := fld x f.mbits f.ebits
  let m := fld x 0 f.mbits
  let plain : FV :=
    if e = 0 then .fin neg m (1 - f.bias - f.mbits) else .fin neg (m + 2 ^ f.mbits) ((e : Int) - f.bias - f.mbits)
  match f with
  | .e2m1 => plain
  | .e4m3 => if e = 15 && m = 7 then .nan false else plain
  | .e5m2 => if e = 31 then (if m = 0 then .inf neg else .nan false) else plain
  | _ => if e = 2 ^ f.ebits - 1 then (if m = 0 then .inf neg else .nan (!(bit x (f.mbits - 1)))) else plain

/-- An operand, with DAZ (R106). -/
def FF.operand (f : FF) (daz : Bool) (x : Nat) : FV :=
  if daz && f.wide && fld x f.mbits f.ebits == 0 then .fin (bit x (f.width - 1)) 0 0 else f.decode x

/-- m × 2^(e - u) rounded to an integer under a mode for a magnitude of the given sign, and whether it is inexact. -/
def roundAt (rm : RM) (neg : Bool) (m : Nat) (e u : Int) : Nat × Bool :=
  if u ≤ e then (m * 2 ^ (e - u).toNat, false)
  else
    let sh := (u - e).toNat
    let q := m >>> sh
    let r := m % 2 ^ sh
    let up : Bool :=
      if r = 0 then false
      else match rm with
        | .rne => decide (2 ^ sh < 2 * r) || (2 * r == 2 ^ sh && q % 2 == 1)
        | .rz => false
        | .rdn => neg
        | .rup => !neg
        | .rna => decide (2 ^ sh ≤ 2 * r)
        | .sr z => decide (z * 2 ^ sh < r * 2 ^ 32)
    (if up then q + 1 else q, r != 0)

/-- What an overflow delivers as a magnitude code, by the mode's row of R104. `thr`: |x| is at or above the RZ
overflow threshold (R105). -/
def overflowCode (f : FF) (rm : RM) (satf neg thr : Bool) : Nat :=
  let toInf : Bool :=
    match rm with
    | .rne | .rna => true
    | .rz => false
    | .rdn => neg
    | .rup => !neg
    | .sr _ => thr
  if !toInf then f.maxCode
  else match f with
    | .e2m1 => f.maxCode
    | .e4m3 => if satf then f.maxCode else f.nanCode
    | _ => if satf then f.maxCode else f.maxCode + 1

/-- `round(x, fmt, rm)` of ± m × 2^e, m > 0 (R103 to R106): the code and the flags. -/
def roundFin (f : FF) (rm : RM) (satf ftz : Bool) (neg : Bool) (m : Nat) (e : Int) : Nat × Nat :=
  let sign := if neg then 2 ^ (f.width - 1) else 0
  let k : Int := (ilog2 m : Int) + e
  let emin : Int := 1 - f.bias
  let mb : Int := f.mbits
  -- with an unbounded exponent
  let r0 := roundAt rm neg m e (k - mb)
  let tiny : Bool := decide ((if r0.1 = 2 ^ (f.mbits + 1) then k + 1 else k) < emin)
  -- with the format's exponents
  let k' := max k emin
  let r := roundAt rm neg m e (k' - mb)
  let code := (k' - emin).toNat * 2 ^ f.mbits + r.1
  if f.maxCode < code then
    let thr : Bool := decide ((f.maxCode : Int) + 1 ≤ (k' - emin) * 2 ^ f.mbits + ((m : Int) * 2 ^ (e - (k' - mb)).toNat / 2 ^ ((k' - mb) - e).toNat))
    let o := overflowCode f rm satf neg thr
    -- a NaN carries no sign (R92)
    (if f = .e4m3 && o = f.nanCode then o else sign + o, fOVF + fINX)
  else if tiny && ftz && f.wide then (sign, fUNF + fINX)
  else (sign + code, (if r.2 then fINX else 0) + (if tiny && r.2 then fUNF else 0))

/-- Rounding of any value. An infinity or a NaN converts as R111 states (`conv`: the source is another format). -/
def roundFV (f : FF) (rm : RM) (satf ftz : Bool) : FV → Nat × Nat
  | .nan sig => (f.nanCode, (if sig then fINV else 0) ||| (if f = .e2m1 then fINV else 0))
  | .inf neg =>
      let sign := if neg then 2 ^ (f.width - 1) else 0
      match f with
      | .e2m1 => (sign + f.maxCode, fINV)
      | .e4m3 => if satf then (sign + f.maxCode, fINV) else (f.nanCode, fINV)
      | _ => if satf then (sign + f.maxCode, fINV) else (sign + f.maxCode + 1, 0)
  | .fin neg 0 _ => (if neg then 2 ^ (f.width - 1) else 0, 0)
  | .fin neg m e => roundFin f rm satf ftz neg m e

/-! Exact operations: a value and the flags that do not come from rounding (R108). -/

def FV.isNan : FV → Bool
  | .nan _ => true
  | _ => false

def FV.isSig : FV → Bool
  | .nan s => s
  | _ => false

def FV.neg : FV → FV
  | .nan s => .nan s
  | .inf n => .inf (!n)
  | .fin n m e => .fin (!n) m e

/-- Flags of NaN operands: INV only when one is signalling (R108). -/
def nanFlags (a b : FV) : Nat := if a.isSig || b.isSig then fINV else 0

/-- The exact sum of two finite values; an exact zero takes its sign from R108. -/
def finAdd (rm : RM) (na : Bool) (ma : Nat) (ea : Int) (nb : Bool) (mb : Nat) (eb : Int) : FV :=
  if ma = 0 && mb = 0 then .fin (if na = nb then na else rm == .rdn) 0 0
  else
    let e := min ea eb
    let x : Int := (if na then -1 else 1) * (ma * 2 ^ (ea - e).toNat : Nat)
    let y : Int := (if nb then -1 else 1) * (mb * 2 ^ (eb - e).toNat : Nat)
    let z := x + y
    if z = 0 then .fin (rm == .rdn) 0 0 else .fin (decide (z < 0)) z.natAbs e

/-- a + b. -/
def addX (rm : RM) (a b : FV) : FV × Nat :=
  match a, b with
  | .nan _, _ | _, .nan _ => (.nan false, nanFlags a b)
  | .inf x, .inf y => if x = y then (.inf x, 0) else (.nan false, fINV)
  | .inf x, _ | _, .inf x => (.inf x, 0)
  | .fin na ma ea, .fin nb mb eb => (finAdd rm na ma ea nb mb eb, 0)

/-- a × b. -/
def mulX (a b : FV) : FV × Nat :=
  match a, b with
  | .nan _, _ | _, .nan _ => (.nan false, nanFlags a b)
  | .inf x, .inf y => (.inf (x != y), 0)
  | .inf x, .fin n m _ | .fin n m _, .inf x => if m = 0 then (.nan false, fINV) else (.inf (x != n), 0)
  | .fin na ma ea, .fin nb mb eb => (.fin (na != nb) (ma * mb) (ea + eb), 0)

/-- a × b + c, with c's NaN not hiding 0 × ∞ (R108, R221). -/
def fmaX (rm : RM) (a b c : FV) : FV × Nat :=
  let p := mulX a b
  let q := addX rm p.1 c
  (q.1, p.2 ||| q.2)

/-- a ÷ b: the quotient with its remainder folded into a last sticky bit. -/
def divX (a b : FV) : FV × Nat :=
  match a, b with
  | .nan _, _ | _, .nan _ => (.nan false, nanFlags a b)
  | .inf _, .inf _ => (.nan false, fINV)
  | .inf x, .fin n _ _ => (.inf (x != n), 0)
  | .fin n _ _, .inf x => (.fin (n != x) 0 0, 0)
  | .fin na ma ea, .fin nb mb eb =>
      if mb = 0 then (if ma = 0 then (.nan false, fINV) else (.inf (na != nb), fDZ))
      else if ma = 0 then (.fin (na != nb) 0 0, 0)
      else
        let n := ma * 2 ^ 64
        (.fin (na != nb) (2 * (n / mb) + (if n % mb = 0 then 0 else 1)) (ea - eb - 65), 0)

/-- Integer square root by bits, from bit `k - 1` down. -/
def isqrtAux (n : Nat) : Nat → Nat → Nat
  | 0, r => r
  | k + 1, r =>
      let t := r + 2 ^ k
      isqrtAux n k (if t * t ≤ n then t else r)

/-- floor(√n). -/
def isqrt (n : Nat) : Nat := isqrtAux n (n.log2 / 2 + 1) 0

/-- √a, with the remainder as a sticky bit (R227). -/
def sqrtX (a : FV) : FV × Nat :=
  match a with
  | .nan s => (.nan false, if s then fINV else 0)
  | .inf false => (.inf false, 0)
  | .inf true => (.nan false, fINV)
  | .fin n m e =>
      if m = 0 then (.fin n 0 0, 0)
      else if n then (.nan false, fINV)
      else
        let sh : Nat := if e % 2 = 0 then 80 else 81
        let x := m * 2 ^ sh
        let r := isqrt x
        (.fin false (2 * r + (if r * r = x then 0 else 1)) ((e - sh) / 2 - 1), 0)

/-- An exact operation rounded once into a format (R107). -/
def rounded (f : FF) (rm : RM) (ftz : Bool) (x : FV × Nat) : Nat × Nat :=
  let r := roundFV f rm false ftz x.1
  (r.1, r.2 ||| x.2)

/-- Order of finite and infinite values as a pair comparison: a < b and a = b. -/
def FV.lt (a b : FV) : Bool :=
  match a, b with
  | .nan _, _ | _, .nan _ => false
  | .inf x, .inf y => x && !y
  | .inf x, _ => x
  | _, .inf y => !y
  | .fin na ma ea, .fin nb mb eb =>
      let e := min ea eb
      decide ((if na then -1 else 1) * ((ma * 2 ^ (ea - e).toNat : Nat) : Int)
        < (if nb then -1 else 1) * ((mb * 2 ^ (eb - e).toNat : Nat) : Int))

def FV.eq (a b : FV) : Bool := !a.isNan && !b.isNan && !(a.lt b) && !(b.lt a)

def FV.isZero : FV → Bool
  | .fin _ 0 _ => true
  | _ => false

def FV.sign : FV → Bool
  | .nan _ => false
  | .inf n => n
  | .fin n _ _ => n

/-- FMIN and FMAX on codes (R223): the code delivered and the flags. `nanWins`: the .NAN forms. -/
def minmaxF (f : FF) (daz isMax nanWins : Bool) (x y : Nat) : Nat × Nat :=
  let a := f.operand daz x
  let b := f.operand daz y
  let fl := nanFlags a b
  -- the operand after DAZ, bit for bit
  let keep (v : FV) (c : Nat) : Nat := if v.isZero then (if v.sign then 2 ^ (f.width - 1) else 0) else c
  let cx := keep a (x % 2 ^ f.width)
  let cy := keep b (y % 2 ^ f.width)
  if a.isNan || b.isNan then
    if nanWins || (a.isNan && b.isNan) then (f.nanCode, fl) else if a.isNan then (cy, fl) else (cx, fl)
  else
    let less : Bool := a.lt b || (a.isZero && b.isZero && a.sign && !b.sign)
    (if less != isMax then cx else cy, fl)

/-- The integer types of R94: bits, and signed or not. -/
structure IT where
  bits : Nat
  signed : Bool
  deriving DecidableEq, Repr

def IT.lo (t : IT) : Int := if t.signed then -(2 ^ (t.bits - 1) : Nat) else 0
def IT.hi (t : IT) : Int := if t.signed then (2 ^ (t.bits - 1) : Nat) - 1 else (2 ^ t.bits : Nat) - 1

/-- The integer of a code. -/
def IT.value (t : IT) (x : Nat) : Int := if t.signed then sint t.bits x else ((x % 2 ^ t.bits : Nat) : Int)

/-- `sat(x, lo, hi)` and its flag (R9). -/
def satI (x lo hi : Int) : Int × Nat := if x < lo then (lo, fSATI) else if hi < x then (hi, fSATI) else (x, 0)

/-- Float to integer (R112): rounds, saturates, NaN gives 0; out of range or not finite sets INV alone.
DEDUCED: notes/assumptions/78.md. -/
def toInt (t : IT) (rm : RM) (v : FV) : Int × Nat :=
  match v with
  | .nan _ => (0, fINV)
  | .inf n => (if n then t.lo else t.hi, fINV)
  | .fin n m e =>
      let r := roundAt rm n m e 0
      let x : Int := if n then -(r.1 : Int) else r.1
      if x < t.lo then (t.lo, fINV)
      else if t.hi < x then (t.hi, fINV)
      else (x, if r.2 then fINX else 0)

/-- Integer to float (R113). -/
def ofInt (x : Int) : FV := .fin (decide (x < 0)) x.natAbs 0

/-- The types of R228 by code. -/
inductive CT where
  | float (f : FF)
  | int (t : IT)
  deriving DecidableEq, Repr

def CT.ofCode (c : Nat) : CT :=
  match c with
  | 0 => .float .fp32
  | 1 => .float .fp16
  | 2 => .float .bf16
  | 3 => .float .e4m3
  | 4 => .float .e5m2
  | 5 => .float .e2m1
  | 6 => .int ⟨32, true⟩
  | 7 => .int ⟨32, false⟩
  | 8 => .int ⟨16, true⟩
  | 9 => .int ⟨16, false⟩
  | 10 => .int ⟨8, true⟩
  | 11 => .int ⟨8, false⟩
  | _ => .int ⟨4, true⟩

/-- The narrow integer types of CVT.XI (R231). -/
def CT.ofXi (c : Nat) : IT :=
  match c with
  | 0 => ⟨16, true⟩
  | 1 => ⟨16, false⟩
  | 2 => ⟨8, true⟩
  | 3 => ⟨8, false⟩
  | _ => ⟨4, true⟩

def CT.width : CT → Nat
  | .float f => f.width
  | .int t => t.bits

/-- One conversion (R111 to R113, R229): the integer or code of the result, before it is placed, with its flags.
`satInt`: CVT.SAT of an integer to an integer. -/
def convert (s t : CT) (rm : RM) (satf ftz daz satInt : Bool) (x : Nat) : Int × Nat :=
  match s, t with
  | .float f, .float g => let r := roundFV g rm satf ftz (f.operand daz x); (r.1, r.2)
  | .float f, .int u => toInt u rm (f.operand daz x)
  | .int u, .float g => let r := roundFV g rm satf ftz (ofInt (u.value x)); (r.1, r.2)
  | .int u, .int v => if satInt then satI (u.value x) v.lo v.hi else (u.value x, 0)

/-- A converted value in a 32-bit register: a float code zero-extended, an integer extended by its sign (R229). -/
def placed (t : CT) (x : Int) : Word :=
  match t with
  | .float _ => BitVec.ofNat 32 x.toNat
  | .int u => if u.signed then word (sint u.bits (wrap u.bits x)) else BitVec.ofNat 32 (wrap u.bits x)

/-! Microscaling (R96, R98). -/

/-- The element formats of an MX block. -/
inductive EF where
  | e2m1
  | e4m3
  | e5m2
  | int8
  deriving DecidableEq, Repr

def EF.ofCode (c : Nat) : EF :=
  match c with
  | 0 => .e2m1
  | 1 => .e4m3
  | 2 => .e5m2
  | _ => .int8

def EF.emax : EF → Int
  | .e2m1 => 2
  | .e4m3 => 8
  | .e5m2 => 15
  | .int8 => 0

/-- floor(log2 |v|) of a finite nonzero value. -/
def FV.log2 : FV → Int
  | .fin _ m e => (ilog2 m : Int) + e
  | _ => 0

/-- The scale X of a block of values (R98). -/
def mxScale (vs : List FV) (ef : EF) : Nat :=
  if vs.any (fun v => v.isNan || match v with | .inf _ => true | _ => false) then 255
  else
    let nz := vs.filter (fun v => !v.isZero)
    match nz with
    | [] => 0
    | v :: r =>
        let sx := r.foldl (fun a w => max a w.log2) v.log2 - ef.emax
        (max 0 (min 254 (sx + 127))).toNat

/-- One element under a scale X < 255: its code and the flags of R98. -/
def mxElem (ef : EF) (x : Nat) (v : FV) : Nat × Nat :=
  match v with
  | .fin n m e =>
      let e' := e - ((x : Int) - 127)
      if m = 0 then
        (match ef with
          | .e2m1 => if n then 8 else 0
          | .e4m3 | .e5m2 => if n then 128 else 0
          | .int8 => 0, 0)
      else match ef with
        | .e2m1 => roundFin .e2m1 .rne true false n m e'
        | .e4m3 => roundFin .e4m3 .rne true false n m e'
        | .e5m2 => roundFin .e5m2 .rne true false n m e'
        | .int8 =>
            let r := roundAt .rne n m e' (-6)
            let i : Int := if n then -(r.1 : Int) else r.1
            if i < -128 then (128, fOVF + fINX)
            else if 127 < i then (127, fOVF + fINX)
            else (wrap 8 i, if r.2 then fINX else 0)
  | _ => (0, 0)

end Sys2Proof.Machine
end

