-- ==== Sys2Proof/Machine/Caps.lean ====
section
/-! DEFINITION. Capability arithmetic: fields, bounds, derivations, checks and sealing (R61 to R75). -/
namespace Sys2Proof.Machine

/-! Fields (R61). -/
def Cap.cursor (c : Cap) : Nat := fld c.bits.toNat 64 64
def Cap.perms (c : Cap) : Nat := fld c.bits.toNat 48 16
def Cap.otype (c : Cap) : Nat := fld c.bits.toNat 36 12
def Cap.ex (c : Cap) : Nat := fld c.bits.toNat 30 6
def Cap.bm (c : Cap) : Nat := fld c.bits.toNat 15 15
def Cap.lm (c : Cap) : Nat := fld c.bits.toNat 0 15

/-- The bits of a capability from its fields. -/
def capBits (cursor perms otype e bm lm : Nat) : BitVec 128 :=
  BitVec.ofNat 128 ((cursor % 2 ^ 64) * 2 ^ 64 + (perms % 2 ^ 16) * 2 ^ 48 + (otype % 2 ^ 12) * 2 ^ 36 + (e % 2 ^ 6) * 2 ^ 30
    + (bm % 2 ^ 15) * 2 ^ 15 + lm % 2 ^ 15)

/-- base and top of R63, exact integers. -/
def Cap.base (c : Cap) : Int :=
  let g : Nat := 2 ^ c.ex
  let a := c.cursor / g
  (g : Int) * ((a : Int) - ((a : Int) - c.bm) % (2 ^ 15 : Nat))

def Cap.top (c : Cap) : Int := c.base + ((c.lm * 2 ^ c.ex : Nat) : Int)

/-! Permission bits (R67). -/
def pLOAD : Nat := 2 ^ 15
def pSTORE : Nat := 2 ^ 14
def pEXEC : Nat := 2 ^ 13
def pLOADCAP : Nat := 2 ^ 12
def pSTORECAP : Nat := 2 ^ 11
def pSTORELOCAL : Nat := 2 ^ 10
def pGLOBAL : Nat := 2 ^ 9
def pSEAL : Nat := 2 ^ 8
def pUNSEAL : Nat := 2 ^ 7
def pSEND : Nat := 2 ^ 6
def pRECV : Nat := 2 ^ 5
def pSPAWN : Nat := 2 ^ 4
def pREVOKE : Nat := 2 ^ 3
def pATOMIC : Nat := 2 ^ 2
def pLOFT : Nat := 2

/-- A permission held. -/
def Cap.has (c : Cap) (p : Nat) : Bool := c.perms &&& p == p

/-- The lowest bit number of a mask. -/
def lowBit (x : Nat) : Nat := ((List.range 16).find? (fun i => bit x i)).getD 16

/-- A failed check: fault code, DETAIL and ADDR (R59, R60, R66). -/
structure Fail where
  code : Nat
  detail : Nat
  addr : Nat := 0
  deriving DecidableEq, Repr

/-- The permissions of `perm` that a capability lacks. -/
def Cap.lacks (c : Cap) (perm : Nat) : Nat := perm &&& (65535 - c.perms)

/-- `cap_check(q, off, size, perm)` (R66): the virtual address, or the first failure. -/
def capCheck (c : Cap) (off : Int) (size perm : Nat) : Except Fail Nat :=
  let a : Int := c.cursor + off
  if !c.tag then .error ⟨0x01, 0, 0⟩
  else if c.otype ≠ 0 then .error ⟨0x02, 0, 0⟩
  else if c.lacks perm ≠ 0 then .error ⟨0x03, lowBit (c.lacks perm), 0⟩
  else if c.base ≤ a ∧ a + size ≤ c.top then .ok (wrap 64 a)
  else .error ⟨0x04, if size ≤ 16 then size else 0x20, wrap 64 a⟩

/-- The tag, seal and permission part of `cap_check`, for an empty extent (R269). -/
def capCheckNoBounds (c : Cap) (perm : Nat) : Except Fail Nat :=
  if !c.tag then .error ⟨0x01, 0, 0⟩
  else if c.otype ≠ 0 then .error ⟨0x02, 0, 0⟩
  else if c.lacks perm ≠ 0 then .error ⟨0x03, lowBit (c.lacks perm), 0⟩
  else .ok c.cursor

/-- `obj_check(q, otype, perm)` (R66): the object's base. -/
def objCheck (c : Cap) (otype perm : Nat) : Except Fail Nat :=
  if !c.tag then .error ⟨0x01, 0, 0⟩
  else if c.otype ≠ otype then .error ⟨0x02, otype % 256, 0⟩
  else if c.lacks perm ≠ 0 then .error ⟨0x03, lowBit (c.lacks perm), 0⟩
  else .ok (wrap 64 c.base)

/-- The badge of an object capability: CURSOR - base (R76). -/
def Cap.badge (c : Cap) : Nat := (c.cursor - c.base).toNat % 65536

/-- The smallest exponent of R65, searched from `e` upward. -/
def setbExp (b t : Nat) : Nat → Nat → Nat
  | 0, e => e
  | fuel + 1, e => if ceilDiv t (2 ^ e) - b / 2 ^ e ≤ 2 ^ 15 - 1 then e else setbExp b t fuel (e + 1)

/-- `setb(c, len, exact)` (R65). -/
def setb (c : Cap) (len : Nat) (exact : Bool) : Cap :=
  let b := c.cursor
  let t := b + len
  let e := setbExp b t 63 0
  let g := 2 ^ e
  let nb := b / g * g
  let nt := ceilDiv t g * g
  ⟨capBits b c.perms c.otype e (nb / g) ((nt - nb) / g),
    c.tag && c.otype == 0 && decide (e ≤ 49) && decide (c.base ≤ nb) && decide ((nt : Int) ≤ c.top)
      && (!exact || (nb == b && nt == t))⟩

/-- A capability with its permissions replaced (CANDP, R207). -/
def Cap.withPerms (c : Cap) (m : Nat) : Cap :=
  ⟨capBits c.cursor (c.perms &&& m) c.otype c.ex c.bm c.lm, c.tag && c.otype == 0⟩

/-- A capability with its cursor moved; the tag stays only within [base, top] of an unsealed source (R64, R69). -/
def Cap.withCursor (c : Cap) (x : Nat) : Cap :=
  let x := x % 2 ^ 64
  ⟨capBits x c.perms c.otype c.ex c.bm c.lm,
    c.tag && c.otype == 0 && decide (c.base ≤ x) && decide ((x : Int) ≤ c.top)⟩

/-- The bits with an otype. -/
def Cap.withOtype (c : Cap) (t : Nat) (tag : Bool) : Cap := ⟨capBits c.cursor c.perms t c.ex c.bm c.lm, tag⟩

/-- The seal conditions on `s` of R73, for SEAL or UNSEAL. -/
def sealerOk (s : Cap) (perm : Nat) : Bool :=
  s.tag && s.otype == 0 && s.has perm && decide (s.base ≤ s.cursor) && decide ((s.cursor : Int) < s.top)
    && decide (256 ≤ s.cursor) && decide (s.cursor ≤ 4095)

/-- CSEAL (R73). -/
def cseal (d s : Cap) : Cap := d.withOtype s.cursor (d.tag && d.otype == 0 && sealerOk s pSEAL)

/-- CUNSEAL (R73). -/
def cunseal (d s : Cap) : Cap := d.withOtype 0 (d.tag && sealerOk s pUNSEAL && d.otype == s.cursor)

/-- CSEALE (R75). -/
def cseale (d : Cap) : Cap := d.withOtype 7 (d.tag && d.otype == 0 && d.has pEXEC)

/-- Could `q` be derived from `a` (CTSTSUB, R207)? -/
def subCap (a q : Cap) : Bool :=
  a.tag && q.tag && decide (a.base ≤ q.base) && decide (q.top ≤ a.top) && (q.perms &&& (65535 - a.perms)) == 0
    && a.otype == q.otype

/-- A tagged, unsealed capability over bytes, its bounds exact or rounded outward by R65. -/
def mkCap (base len perms : Nat) : Cap :=
  let e := setbExp base (base + len) 63 0
  ⟨capBits base perms 0 e (base / 2 ^ e) (ceilDiv (base + len) (2 ^ e) - base / 2 ^ e), true⟩

/-- A capability that crosses a message: a local one arrives untagged (R68). -/
def Cap.sent (c : Cap) : Cap := if c.has pGLOBAL then c else ⟨c.bits, false⟩

end Sys2Proof.Machine
end

