-- ==== Sys2Proof/Machine/Mem.lean ====
section
/-! DEFINITION. Memory: system registers' keys, physical placement (R124, R125), translation (R418 to R425), the LLC
(R317 to R319, R411 to R415), bytes and tags (R70, R71), scratch and its races (R122, R164 to R167). -/
namespace Sys2Proof.Machine

/-! System registers that are not held by a unit (R350, R404, R412, R427, R438, R454, R474). -/

/-- The key of a register: number, die, VD, and PEER, SLOT, KIND or slice. -/
def sysKey (num die vd sub : Nat) : Nat := num + 2 ^ 16 * die + 2 ^ 24 * vd + 2 ^ 32 * sub

/-- Reset values (R351, R385, R404, R454); the numbers whose reset value the manual does not give reset to 0 here
(notes/assumptions/8.md). -/
def sysReset (num : Nat) : DWord :=
  match num with
  | 0x0000 => 0x1020A
  | 0x0301 => 0x0000_4000_0000_FFFF
  | 0x0400 => 0x1F
  | 0x0408 => 1
  | 0x0500 => 0x40000
  | 0x0501 => 0x100
  | _ => 0

def State.sysR (s : State) (num die vd sub : Nat) : DWord := look (sysReset num) s.sys (sysKey num die vd sub)
def State.sysW (s : State) (num die vd sub : Nat) (x : DWord) : State :=
  { s with sys := store (sysReset num) s.sys (sysKey num die vd sub) x }

/-- A fresh free value, and a fresh place in an order of arrival. -/
def State.draw (s : State) : State := { s with free := s.free + 1 }
def State.freeVal (s : State) : Nat := Config.freeNat s.free
def State.tick (s : State) : State := { s with ticket := s.ticket + 1 }

/-! VDs, partitions and dies. -/

def State.vd? (s : State) (v : Nat) : Vd := look {} s.vds v

/-- The partition a VD lives in (R455). -/
def State.partOfVd (s : State) (v : Nat) : Option Nat := if (s.vd? v).live then some (s.vd? v).part else none

/-- The partition of a die (R451). -/
def State.partOfDie (s : State) (d : Nat) : Option Nat :=
  let p := fld (s.sysR 0x0400 d 0 0).toNat 0 5
  if p = 31 then none else some p

/-- The dies of a partition, ascending. -/
def State.diesOf (s : State) (p : Nat) : List Nat := (List.range 20).filter (fun d => s.partOfDie d == some p)

/-- A die's state is ONLINE (R474). -/
def State.online (s : State) (d : Nat) : Bool := fld (s.sysR 0x0700 d 0 0).toNat 0 2 == 0

/-- The core, slot and die of a unit; a control core has no die (R15, R16). -/
def unitCore (u : Nat) : Nat := if u < 81920 then u / 64 else 1280 + (u - 81920)
def unitSlot (u : Nat) : Nat := if u < 81920 then u % 64 else 0
def unitDie (u : Nat) : Option Nat := if u < 81920 then some (u / 4096) else none
def isControl (u : Nat) : Bool := decide (81920 ≤ u)

/-! Physical placement. -/

def hbmTop : Nat := 0x140_0000_0000
def tierLo : Nat := 0x10_0000_0000_0000
def isHbm (pa : Nat) : Bool := decide (pa < hbmTop)
def isTier (pa : Nat) : Bool := decide (tierLo ≤ pa) && decide (pa < 2 ^ 56)

/-- The hash slice of a line number (R125). -/
def hashSlice (line : Nat) : Nat := (line ^^^ (line >>> 16) ^^^ (line >>> 32)) % 2 ^ 16 % 48

/-- Is a physical address in protected memory, and of which VD (R425)? -/
def State.protOf (s : State) (pa : Nat) : Option Nat :=
  (s.vds.find? (fun e => e.2.live && e.2.frames.any (fun f =>
    f.2.2.1 && decide (f.1 ≤ pa / 2 ^ 21) && decide (pa / 2 ^ 21 < f.1 + f.2.1)))).map (·.1)

/-- Does a range of physical memory touch protected memory; is all of it protected memory of a VD (R425)? -/
def State.protAny (s : State) (lo len : Nat) : Bool :=
  s.vds.any (fun e => e.2.live && e.2.frames.any (fun f =>
    f.2.2.1 && decide (f.1 < (lo + len + 2 ^ 21 - 1) / 2 ^ 21) && decide (lo / 2 ^ 21 < f.1 + f.2.1)))

def State.protAll (s : State) (vd lo len : Nat) : Bool :=
  (List.range ((lo + len + 2 ^ 21 - 1) / 2 ^ 21 - lo / 2 ^ 21)).all (fun i => s.protOf (lo + i * 2 ^ 21) == some vd)

/-- Memory as stored: one byte under a key (R124; a byte that nothing has written reads 0, notes/assumptions/7.md). -/
def State.rb (s : State) (k : Nat) : Byte := look 0 s.mem k
def State.wb (s : State) (k : Nat) (x : Byte) : State := { s with mem := store 0 s.mem k x }
def State.tagR (s : State) (k : Nat) : Bool := look false s.tags (k / 16)
def State.tagW (s : State) (k : Nat) (t : Bool) : State := { s with tags := store false s.tags (k / 16) t }

/-- `n` bytes from a key, as one number. -/
def State.rn (s : State) (k n : Nat) : Nat := leRead s.rb k n

/-- Bytes written at keys, and the tag of every granule touched cleared (R70). -/
def State.wkeys (s : State) : List Nat → List Byte → State
  | k :: ks, b :: bs => State.wkeys ((s.wb k b).tagW k false) ks bs
  | _, _ => s

/-- The low `n` bytes of a number written from a key on, clearing tags. -/
def State.wn (s : State) (k n x : Nat) : State := s.wkeys ((List.range n).map (k + ·)) (leBytes x n)

/-- Memory as an agent without a context reads and writes it: its accesses to protected memory are discarded, and what such
a read would give is taken as 0 (R425). DEDUCED: notes/assumptions/87.md. -/
def State.openRn (s : State) (k n : Nat) : Nat := leRead (fun a => if (s.protOf a).isSome then 0 else s.rb a) k n

def State.openW (s : State) (ks : List Nat) (bs : List Byte) : State :=
  let es := (ks.zip bs).filter (fun e => (s.protOf e.1).isNone)
  s.wkeys (es.map (·.1)) (es.map (·.2))

/-- The physical address of a byte of the live object that begins at one, page by page (R356). -/
def State.objAt (s : State) (pa off : Nat) : Nat :=
  match (s.objs.find? (fun o => o.pa == pa)).bind (fun o => o.next) with
  | some (c, p) => if c ≤ off then p + (off - c) else pa + off
  | none => pa + off

/-- A granule with its tag. -/
def State.capAt (s : State) (k : Nat) : Cap := ⟨BitVec.ofNat 128 (s.rn k 16), s.tagR k⟩
def State.capPut (s : State) (k : Nat) (c : Cap) : State := (s.wn k 16 c.bits.toNat).tagW k c.tag

/-! Registered tiles (R315 to R318): descriptor fields STATE and VERSION, the key of a byte of storage. -/

def tileState (s : State) (desc : Nat) : Nat := fld (s.rb (desc + 26)).toNat 4 4
def tileVersion (s : State) (desc : Nat) : Nat := s.rn (desc + 40) 8

/-- A byte of a descriptor's HW fields changed without touching its tags. -/
def State.rawW (s : State) (k n x : Nat) : State :=
  (List.range n).foldl (fun t i => t.wb (k + i) (BitVec.ofNat 8 (x >>> (8 * i)))) s

def State.setTileState (s : State) (desc st : Nat) : State :=
  s.wb (desc + 26) (BitVec.ofNat 8 ((s.rb (desc + 26)).toNat % 16 + 16 * st))

def State.setTileVersion (s : State) (desc v : Nat) : State := s.rawW (desc + 40) 8 v

/-- The registered tile whose storage holds a physical address. -/
def State.tileAt (s : State) (pa : Nat) : Option Tile :=
  s.tiles.find? (fun t => decide (t.lo ≤ pa) && decide (pa < t.lo + t.len))

/-- The registered tiles with storage on a line (R317, R318). -/
def State.tilesOn (s : State) (line : Nat) : List Tile :=
  s.tiles.filter (fun t => decide (t.lo < 128 * line + 128) && decide (128 * line < t.lo + t.len))

/-- Storage of a registered tile is held in its slice, apart from HBM4E (R317).
DESIGN CHOICE: notes/assumptions/32.md. -/
def tileKey (pa : Nat) : Nat := 2 ^ 57 + pa
def State.memKey (s : State) (pa : Nat) : Nat := if (s.tileAt pa).isSome then tileKey pa else pa

/-- The recipe record of a tile: its address, when RECIPE is not null (R139, R321). -/
def State.recipeOf (s : State) (desc : Nat) : Option Cap :=
  let c := s.capAt (desc + 48)
  if c.bits = 0 ∧ c.tag = false then none else some c

/-- PINS and DEPTH of a recipe record at a physical address (R321). -/
def recPins (s : State) (r : Nat) : Nat := s.rn (r + 120) 2
def recDepth (s : State) (r : Nat) : Nat := fld (s.rn (r + 118) 2) 13 3

/-! Translation. -/

/-- An agent of an access: its VD, address space, context, the core it runs on (1,280 + n for control core n; none for the
dispatcher and the ports), the number under which it waits for rounds (R400), and the lane. -/
structure Ag where
  vd : Nat
  aspace : ASpace
  ctx : Option Nat := none
  core : Option Nat := none
  who : Nat := 2 ^ 40
  lane : Nat := 0
  deriving DecidableEq, Repr

/-- The die of an agent (none: the control die). -/
def Ag.die (a : Ag) : Option Nat :=
  match a.core with
  | some c => if c < 1280 then some (c / 64) else none
  | none => none

/-- The TLBs that an agent's walks use: its core's, and its die's (R422). -/
def Ag.tlbs (a : Ag) : List Nat :=
  match a.core with
  | some c => if c < 1280 then [c, 2000 + c / 64] else [c]
  | none => []

/-- The leaf bits an access needs (R421). -/
structure Need where
  r : Bool := false
  w : Bool := false
  x : Bool := false
  deriving DecidableEq, Repr

/-- The leaf of a translation: ASID, level and page. -/
def Xl.page (x : Xl) : Option (Nat × Nat × Nat) := x.leaf.map (fun e => (e.asid, e.level, e.page))
def Place.pages (p : Place) : List (Nat × Nat × Nat) := p.xls.filterMap Xl.page

/-- The shift of a level's index and its width (R418). -/
def lvlShift : Nat → Nat
  | 4 => 43
  | 3 => 30
  | 2 => 21
  | _ => 16

def lvlBits : Nat → Nat
  | 4 => 14
  | 3 => 13
  | 2 => 9
  | _ => 5

/-- Alignment of a table of a level (R418). -/
def tblAlign (lvl : Nat) : Nat := if lvl = 1 then 512 else 4096

/-- Does an entry read at a level break R419 or R420, the protection of its table aside? -/
def entryBad (lvl : Nat) (e : Nat) : Bool :=
  let addr := fld e 8 48 * 256
  fld e 96 32 != 0 || fld e 56 16 != 0 || fld e 2 6 != 0 || !(bit e 0)
    || (if bit e 1 then
          lvl == 4 || addr % 2 ^ lvlShift lvl != 0
            || (!(isHbm addr) && !(isTier addr))
            || (if isHbm addr then fld e 84 5 != 0 else decide (19 < fld e 84 5) || bit e 76)
            || (if bit e 77 then decide (47 < fld e 78 6) else fld e 78 6 != 0)
        else lvl == 1 || fld e 72 24 != 0 || addr % tblAlign (lvl - 1) != 0)

/-- The fault of a walk's read of a table entry: one that R425 does not serve, or an uncorrectable error in the LLC, HBM4E
or the second tier (R23, R59). -/
def State.entryErr (s : State) (prot : Bool) (va at_ : Nat) : Option Fail :=
  if !prot && (s.protOf at_).isSome then some ⟨0x09, 0, va⟩
  else (s.errs.find? (fun e => ((e.1 == 5) || (e.1 == 6 && isHbm at_) || (e.1 == 8 && isTier at_)) && e.2 == at_ / 16)).map
    (fun e => ⟨0x18, e.1, va⟩)

/-- Does an entry of a level, at an address in a table, end a walk with XLATE (R420)? -/
def State.entryStops (s : State) (prot : Bool) (vd lvl t at_ e : Nat) : Bool :=
  entryBad lvl e || (prot && (s.protOf t != some vd || s.protOf at_ != some vd))

/-- The walk of R420 from a table at a level: the leaf with its level, or its fault; and the valid entries read on the
way. -/
def walkFrom (s : State) (prot : Bool) (vd asid va : Nat) : Nat → Nat → Except Fail (Nat × Nat) × List Pte
  | 0, _ => (.error ⟨0x08, 1, va⟩, [])
  | lvl + 1, t =>
      let at_ := t + 16 * fld va (lvlShift (lvl + 1)) (lvlBits (lvl + 1))
      let e := s.rn at_ 16
      let here : List Pte := if bit e 0 then [⟨asid, lvl + 1, va / 2 ^ lvlShift (lvl + 1), at_, BitVec.ofNat 128 e⟩] else []
      match s.entryErr prot va at_ with
      | some f => (.error f, [])
      | none =>
          if s.entryStops prot vd (lvl + 1) t at_ e then (.error ⟨0x08, lvl + 1, va⟩, here)
          else if bit e 1 then (.ok (e, lvl + 1), here)
          else
            let r := walkFrom s prot vd asid va lvl (fld e 8 48 * 256)
            (r.1, here ++ r.2)

/-- The physical address of a leaf of a level, and of its page. -/
def leafPa (e lvl va : Nat) : Nat := fld e 8 48 * 256 + va % 2 ^ lvlShift lvl

/-- The cached entries that cover a virtual address for an agent (R422). -/
def State.cached (s : State) (ag : Ag) (asid va : Nat) : List Pte :=
  (s.tlb.filter (fun t => ag.tlbs.contains t.tlb && t.pte.asid == asid && t.pte.page == va / 2 ^ lvlShift t.pte.level)).map
    (·.pte)

/-- The leaf used, and the entries read for it: a walk from ROOT, or from any cached entry that no invalidation has
removed, leaf or not; which one is open, lane by lane (R422, R424). -/
def leafFor (s : State) (ag : Ag) (root : Nat) (prot : Bool) (vd asid va : Nat) : Except Fail (Nat × Nat) × List Pte :=
  match s.cached ag asid va with
  | [] => walkFrom s prot vd asid va 4 root
  | t :: r =>
      match (t :: r)[Config.freePick s.free (va + 2 ^ 64 * ag.lane) % (r.length + 2)]? with
      | none => walkFrom s prot vd asid va 4 root
      | some c =>
          if s.entryStops prot vd c.level c.addr c.addr c.bits.toNat then (.error ⟨0x08, c.level, va⟩, [])
          else if bit c.bits.toNat 1 then (.ok (c.bits.toNat, c.level), [])
          else walkFrom s prot vd asid va (c.level - 1) (fld c.bits.toNat 8 48 * 256)

/-- A second-tier page is usable only in a VALID pool range of the agent's partition (R468): its pool. -/
def State.poolAt (s : State) (vd pa : Nat) : Option Nat :=
  match s.partOfVd vd with
  | none => none
  | some p => (List.range 16).find? (fun i =>
      let r := (s.sysR (0x0410 + i) 0 0 0).toNat
      let base := fld r 30 26 * 2 ^ 30
      bit r 63 && fld r 57 5 == p && decide (base ≤ pa) && decide (pa < base + fld r 0 16 * 2 ^ 30))

/-- The home die of a physical address with the hint of its page: its own for HBM4E, the hint's for the second tier
(R124). -/
def homeOf (pa hint : Nat) : Nat := if isHbm pa then pa / 2 ^ 36 else hint

/-- Translation of one address for an agent with the leaf bits needed (R418 to R421, R425, R468). An address of the second
tier that the boot map gives has no page and so no hint; its home is die 0. DESIGN CHOICE: notes/assumptions/1.md. -/
def translate (s : State) (ag : Ag) (need : Need) (va : Nat) : Except Fail Xl :=
  if va / 2 ^ 57 ≠ 0 ∨ 0x01FF_0000_0000_0000 ≤ va then .error ⟨0x08, 4, va⟩
  else match ag.aspace with
  | .none => .error ⟨0x08, 4, va⟩
  | .boot =>
      if !(isHbm va) && !(isTier va) then .error ⟨0x08, 4, va⟩
      else if (s.protOf va).isSome then .error ⟨0x09, 0, va⟩
      else if isTier va && (s.poolAt ag.vd va).isNone then .error ⟨0x09, 0, va⟩
      else .ok { pa := va, tagcap := isHbm va, aff := none, home := homeOf va 0, leaf := none }
  | .tables root prot svd asid =>
      let r := leafFor s ag root prot svd asid va
      match r.1 with
      | .error f => .error f
      | .ok (e, lvl) =>
          let pa := leafPa e lvl va
          let page := fld e 8 48 * 256
          let lp := bit e 75
          if (if lp then !(s.protAll (fld e 89 7) page (2 ^ lvlShift lvl)) else s.protAny page (2 ^ lvlShift lvl)) then
            .error ⟨0x08, 1, va⟩
          else if (need.r && !(bit e 72)) || (need.w && !(bit e 73)) || (need.x && !(bit e 74))
              || fld e 89 7 != ag.vd || (lp && !prot) then .error ⟨0x09, 0, va⟩
          else if isTier pa && (s.poolAt ag.vd pa).isNone then .error ⟨0x09, 0, va⟩
          else .ok
            { pa := pa, tagcap := bit e 76, aff := if bit e 77 then some (fld e 78 6) else none,
              home := homeOf pa (fld e 84 5), walk := r.2,
              leaf := some ⟨asid, lvl, va / 2 ^ lvlShift lvl, 0, BitVec.ofNat 128 e⟩ }

/-- The peer module that a virtual address of a VD names, and the address there (R86, R87, R469). -/
def State.peerOf (s : State) (vd va : Nat) : Option (Nat × Nat) :=
  ((s.sys.filter (fun e => e.1 % 2 ^ 16 == 0x0404 && fld e.1 24 8 == vd)).find? (fun e =>
    bit e.2.toNat 0 && fld e.2.toNat 30 17 == va / 2 ^ 40)).map
    (fun e => (e.1 / 2 ^ 32, fld e.2.toNat 47 17 * 2 ^ 40 + va % 2 ^ 40))

/-- The module at which an object capability of a VD names its object, where it came from a peer (R86, R87).
DESIGN CHOICE: notes/assumptions/59.md. -/
def State.farOf (s : State) (otype vd base : Nat) : Option Nat :=
  (s.far.find? (fun e => e.1 == vd && e.2.1 == otype && e.2.2.1 == base)).map (·.2.2.2)

/-- The keys of memory at a peer. -/
def peerKey (m va : Nat) : Nat := (m + 1) * 2 ^ 60 + va

/-- The image window (R418, R482). -/
def imageBase : Nat := 0x01FF_0000_0000_0000

/-- Is an image held, and has a capability over an extent of it been given to a holder? Two capabilities over one extent are
the same bits. DEDUCED: notes/assumptions/92.md. -/
def State.imageHeld (s : State) (base top : Nat) : Bool :=
  s.ctxs.any (fun e => match e.2.image with
    | some (b, len) => decide (b ≤ base) && decide (top ≤ b + len) && e.2.shown.contains (base, top)
    | none => false)

/-! Links (R452, R457). Link 8 × die + direction: 0 toward row − 1, 1 column + 1, 2 row + 1, 3 column − 1, 4 control
join. -/

/-- The links that a request crosses from a die, or the control die, to a die: along the row, then across the rows (R452);
by the links' numbers at the sending end. The numbers are the model's: notes/assumptions/61.md. -/
def route (a : Option Nat) (b : Nat) : List Nat :=
  let r := match a with
    | some d => d / 10
    | none => b / 10
  let c := match a with
    | some d => d % 10
    | none => 0
  let enter : List Nat := match a with
    | some _ => []
    | none => [8 * (10 * r) + 4]
  let east := (List.range (b % 10 - c)).map (fun i => 8 * (10 * r + c + i) + 1)
  let west := (List.range (c - b % 10)).map (fun i => 8 * (10 * r + c - i) + 3)
  let south := (List.range (b / 10 - r)).map (fun i => 8 * (10 * (r + i) + b % 10) + 2)
  let north := (List.range (r - b / 10)).map (fun i => 8 * (10 * (r - i) + b % 10))
  enter ++ east ++ west ++ south ++ north

/-- The number of a link at its other end. -/
def farEnd (l : Nat) : Nat :=
  match l % 8 with
  | 0 => 8 * (l / 8 - 10) + 2
  | 1 => 8 * (l / 8 + 1) + 3
  | 2 => 8 * (l / 8 + 10)
  | 3 => 8 * (l / 8 - 1) + 1
  | _ => l

/-- The links that an access of an agent crosses to a die and on its way back (R452). -/
def Ag.links (ag : Ag) (die : Nat) : List Nat :=
  route ag.die die ++ (match ag.die with
    | some d => route (some die) d
    | none => (route none die).map farEnd)

/-- The link whose far end discards a frame of the core dies: it is closed there (R453). Traffic of the control die passes in
transit frames. DEDUCED: notes/assumptions/91.md. -/
def State.closedOn (s : State) (ag : Ag) (die : Nat) : Option Nat :=
  if ag.die.isNone then none
  else ((ag.links die).map farEnd).find? (fun l => !(bit (s.sysR 0x0401 (l / 8) 0 0).toNat (l % 8)))

/-- The code of an access that gets no answer, since a closed link has discarded its frame (R453): it names no fault of R59.
DETAIL is the link. -/
def noAnswer : Nat := 0x100

/-- Why the links no longer carry traffic of an agent with a die: one is closed or down (R453, R457). -/
def State.cut (s : State) (ag : Ag) (die : Nat) : Option (Nat × Nat) :=
  match s.closedOn ag die with
  | some l => some (noAnswer, l)
  | none =>
      if (ag.links die).any (fun l => s.linkDown.contains l || s.linkDown.contains (farEnd l)) then some (0x19, 1) else none

/-- Can the links still carry the reads of an access's walk and the access itself, and does the page's pool respond (R453,
R457)? -/
def State.carried (s : State) (ag : Ag) (x : Xl) : Option (Nat × Nat) :=
  match (x.walk.filter (fun e => isHbm e.addr)).findSome? (fun e => s.cut ag (e.addr / 2 ^ 36)) with
  | some d => some d
  | none =>
      match s.cut ag x.home with
      | some d => some d
      | none =>
          match if isTier x.pa then s.poolAt ag.vd x.pa else none with
          | some i => if s.lost.contains (64 + i) then some (0x19, 2) else none
          | none => none

/-- A translation that can be reached (R453, R457). -/
def reach (s : State) (ag : Ag) (need : Need) (va : Nat) : Except Fail Xl :=
  match translate s ag need va with
  | .error f => .error f
  | .ok x => match s.carried ag x with
      | some (c, d) => .error ⟨c, d, va⟩
      | none => .ok x

/-- A closed link has discarded a frame: DROPS of its die rises (R453, R454). -/
def State.dropped (s : State) (l : Nat) : State :=
  let fw := (s.sysR 0x0401 (l / 8) 0 0).toNat
  s.sysW 0x0401 (l / 8) 0 0 (BitVec.ofNat 64 (fw % 2 ^ 32 + min 65535 (fld fw 32 16 + 1) * 2 ^ 32))

/-- The place in a store where an uncorrectable error of a granule of memory lies: in a core's L1 (4), the LLC (5), HBM4E
(6) or a second-tier line (8) (R23, R59). -/
def errHere (ag : Ag) (ks : List Nat) (e : Nat × Nat) : Bool :=
  ks.any (fun k => (((e.1 == 5) || (e.1 == 6 && isHbm k) || (e.1 == 8 && isTier k)) && e.2 == k / 16)
    || (e.1 == 4 && (match ag.core with
      | some c => e.2 == 2 ^ 60 * (c + 1) + k / 16
      | none => false)))

/-- Does a store other than memory hold an uncorrectable error in some bytes: scratch (1), a crib (2), a loft (3), by
their keys (R23, R59)? -/
def State.errAt (s : State) (unit key n : Nat) : Bool :=
  s.errs.any (fun e => e.1 == unit && decide (key / 16 ≤ e.2) && decide (e.2 ≤ (key + n - 1) / 16))

/-- A place whose bytes are read, or the fault of the first uncorrectable error among them (R23, R59).
DESIGN CHOICE: notes/assumptions/19.md. -/
def State.sound (s : State) (ag : Ag) (need : Need) (va : Nat) (pl : Place) : Except Fail Place :=
  if need.r || need.x then
    match s.errs.find? (errHere ag pl.keys) with
    | some e => .error ⟨0x18, e.1, va⟩
    | none => .ok pl
  else .ok pl

/-- The bytes of an access to a peer's memory, at an address there (R87, R457). -/
def State.peerPlace (s : State) (m ra va size : Nat) : Except Fail Place :=
  if s.lost.contains m then .error ⟨0x19, 0, va⟩
  else .ok ⟨(List.range size).map (fun i => peerKey m (ra + i)), false, some m, []⟩

/-- The bytes of an access of `size` bytes at `va`, every page translated (R121, R248, R421). -/
def locate (s : State) (ag : Ag) (need : Need) (va size : Nat) : Except Fail Place :=
  match s.peerOf ag.vd va with
  | some (m, ra) => s.peerPlace m ra va size
  | none =>
      match reach s ag need va with
      | .error f => .error f
      | .ok x =>
          let last := va + size - 1
          let here := 2 ^ 16 - va % 2 ^ 16
          if size ≤ 1 || last / 2 ^ 16 = va / 2 ^ 16 then
            s.sound ag need va
              ⟨(List.range size).map (fun i => s.memKey (x.pa + i)), x.tagcap, none, [{ x with len := size }]⟩
          else match reach s ag need last with
            | .error f => .error f
            | .ok y =>
                s.sound ag need va ⟨(List.range size).map (fun i =>
                    if (va + i) / 2 ^ 16 = va / 2 ^ 16 then s.memKey (x.pa + i)
                    else s.memKey (y.pa - (last - (va + i)))), x.tagcap, none,
                  [{ x with len := here }, { y with pa := y.pa + 1 - (size - here), len := size - here }]⟩

/-- A load through a capability into the image window (R425, R482), or the ordinary place. -/
def locateLoad (s : State) (ag : Ag) (c : Cap) (need : Need) (va size : Nat) : Except Fail Place :=
  if imageBase ≤ va ∧ va < imageBase + 2 ^ 48 then
    if c.perms = pLOAD ∧ (imageBase : Int) ≤ c.base ∧ need.w = false then
      let pa := va - imageBase
      let x : Xl := { pa := pa, tagcap := false, aff := none, home := homeOf pa 0, leaf := none, len := size }
      if !(s.imageHeld (c.base.toNat - imageBase) (c.top.toNat - imageBase)) || s.protAny pa size then .error ⟨0x09, 0, va⟩
      else match s.carried ag x with
        | some (k, d) => .error ⟨k, d, va⟩
        | none => s.sound ag need va ⟨(List.range size).map (pa + ·), false, none, [x]⟩
    else .error ⟨0x08, 4, va⟩
  else locate s ag need va size

/-- The number that the bytes at keys hold. -/
def State.rkeys (s : State) : List Nat → Nat
  | [] => 0
  | k :: ks => (s.rb k).toNat + 256 * State.rkeys s ks

/-! The LLC (R20, R411 to R415) and dropping (R318, R319). -/

def llcSet (die slice line : Nat) : Nat := (48 * die + slice) * 1024 + line % 1024

/-- The recipe record of a registered tile: the place that RECIPE names for the agent that registered it. -/
def State.recAt (s : State) (t : Tile) : Option Nat :=
  match s.recipeOf t.desc with
  | none => none
  | some c => match locate s { vd := t.vd, aspace := t.aspace, ctx := t.ctx, core := some (64 * t.die) } {} c.cursor 128 with
      | .ok pl => pl.keys.head?
      | .error _ => none

/-- DEPTH of a registered tile's recipe; 0 without a recipe. -/
def State.depthOf (s : State) (t : Tile) : Nat :=
  match s.recAt t with
  | none => 0
  | some r => recDepth s r

/-- Is a tile held: pinned, or of depth 4 (R318)? -/
def State.tileHeld (s : State) (t : Tile) : Bool :=
  match s.recAt t with
  | none => false
  | some r => decide (0 < recPins s r) || recDepth s r == 4

/-- The registered tile of a descriptor. -/
def State.tileOf (s : State) (desc : Nat) : Option Tile := s.tiles.find? (fun t => t.desc == desc)

/-- The chain of a request, the tile first requested first: descriptor, cause of the last entry, depth (R327). -/
def chainOf (s : State) (cause : Nat) : Nat → Nat → List (Nat × Nat × Nat)
  | 0, _ => []
  | n + 1, d =>
      match find s.regrows d, s.tileOf d with
      | some r, some t =>
          (match r.parent with
            | some p => chainOf s 0 n p
            | none => []) ++ [(t.descVa, cause, s.depthOf t)]
      | _, _ => []

/-- A fault inside the regrow launch of a tile is a REGROW fault with its chain (R327, R328). -/
def State.inRegrow (s : State) (d : Option Nat) (f : FaultInfo) : FaultInfo :=
  match d.map (fun d => (d, s.tileOf d)) with
  | some (d, some t) =>
      { f with
        code := 0x20
        detail := s.depthOf t
        addr := BitVec.ofNat 64 t.descVa
        cap := none
        chain := chainOf s f.code 4 d }
  | _ => f

/-- Lines of a slice charged to a context: OCC (R412). -/
def State.occ (s : State) (die slice : Nat) (ctx : Nat) : Nat :=
  (s.llc.filter (fun e => e.1 / 1024 == 48 * die + slice)).foldl
    (fun n e => n + (e.2.filter (fun l => l.ctx == some ctx)).length) 0

/-- Is a line one of a held or REGROWING tile; one of a VALID tile that is not held (R318)? A line with any byte of a
tile's storage is one of its lines. -/
def State.lineHeld (s : State) (line : Nat) : Bool :=
  (s.tilesOn line).any (fun t => tileState s t.desc == 2 || s.tileHeld t)

def State.lineTile (s : State) (line : Nat) : Bool := (s.tilesOn line).any (fun t => tileState s t.desc == 0)

/-- SOFT of a context's VD in a slice (R412). -/
def State.soft (s : State) (die slice ctx : Nat) : Nat :=
  match find s.ctxs ctx with
  | none => 16384
  | some c => fld (s.sysR 0x0301 die c.vd slice).toNat 32 15

/-- Victim class 1 of R319: above the soft limit, or charged to none (R414). -/
def State.above (s : State) (die slice : Nat) (l : Line) : Bool :=
  match l.ctx with
  | none => true
  | some c => decide (s.soft die slice c < s.occ die slice c)

/-- The lines of the first non-empty victim class among the candidates (R319). -/
def State.victims (s : State) (die slice : Nat) (ls : List Line) : List Line :=
  let ok := ls.filter (fun l => !(s.lineHeld l.line))
  let c1 := ok.filter (fun l => s.above die slice l)
  let c2 := ok.filter (fun l => s.lineTile l.line)
  if !c1.isEmpty then c1 else if !c2.isEmpty then c2 else ok

/-- A request at a metered arbiter joins the waiting ones (R398). DEDUCED: notes/assumptions/53.md. -/
def State.request (s : State) (kind inst vd cost : Nat) (what : ReqWhat) : State :=
  { s with reqs := s.reqs ++ [⟨kind, inst, vd, cost, s.ticket, what⟩], ticket := s.ticket + 1 }

/-- The pseudo-channel bucket of an HBM4E line: 128 × stack + channel (R398, R477). -/
def hbmInst (pa : Nat) : Nat := pa / 2 ^ 29

/-- Every line of a tile leaves its slice; its storage is lost (R318). -/
def State.clearTile (s : State) (t : Tile) : State :=
  { s with
    llc := s.llc.filterMap (fun e =>
      let ls := e.2.filter (fun l => !(decide (t.lo / 128 ≤ l.line) && decide (l.line < (t.lo + t.len + 127) / 128)))
      if ls.isEmpty then none else some (e.1, ls))
    mem := s.mem.filter (fun e => !(decide (tileKey t.lo ≤ e.1) && decide (e.1 < tileKey t.lo + t.len)))
    tags := s.tags.filter (fun e => !(decide (tileKey t.lo ≤ 16 * e.1) && decide (16 * e.1 < tileKey t.lo + t.len))) }

/-- TILE_DROP (R318). -/
def State.dropTile (s : State) (t : Tile) : State :=
  let s := s.clearTile t
  (s.setTileVersion t.desc (tileVersion s t.desc + 2)).setTileState t.desc 1

/-! Buckets and requests (R398 to R400). -/

/-- The die whose BCFG governs an instance of kinds 0 to 3. -/
def bucketDie (kind inst : Nat) : Nat :=
  match kind with
  | 0 => inst / 64
  | 1 => inst / 128
  | 2 => inst / 8
  | _ => inst

/-- The configuration of a VD's bucket: BCFG or MBCFG (R406). -/
def State.bucketCfg (s : State) (kind inst vd : Nat) : Nat :=
  if kind ≤ 3 then (s.sysR 0x0201 (bucketDie kind inst) vd kind).toNat else (s.sysR 0x0202 0 vd kind).toNat

def cfgRate (c : Nat) : Nat := fld c 0 24
def cfgDepth (c : Nat) : Nat := fld c 32 24
def cfgCap (c : Nat) : Bool := bit c 63

/-- Capacity per 1,024 cycles and minimum DEPTH of a kind (R398). -/
def kindCapacity (kind : Nat) : Nat := [4096, 256, 256000, 1024, 10752, 2048, 2048].getD kind 0
def kindDepth (kind : Nat) : Nat := [1, 2, 1, 64, 1, 1, 1].getD kind 0

/-- The key of a token bucket: kind, instance and VD (R398). -/
def bucketKey (kind inst vd : Nat) : Nat := kind + 8 * vd + 1024 * inst

/-- LEVEL in 1,024ths of a token, and the pool of a partition. -/
def State.levelOf (s : State) (kind inst vd : Nat) : Nat := look 0 s.level (bucketKey kind inst vd)
def State.setLevel (s : State) (kind inst vd n : Nat) : State := { s with level := store 0 s.level (bucketKey kind inst vd) n }
def State.poolOf (s : State) (kind inst part : Nat) : Nat := look 0 s.pool (bucketKey kind inst part)
def State.setPool (s : State) (kind inst part n : Nat) : State := { s with pool := store 0 s.pool (bucketKey kind inst part) n }

/-- What a pool holds at most (R399). -/
def State.poolCap (s : State) (kind inst part : Nat) : Nat :=
  ((List.range 128).filter (fun v => s.partOfVd v == some part)).foldl
    (fun n v => n + 1024 * cfgDepth (s.bucketCfg kind inst v)) 0

/-- An overflow goes to the pool of the VD's partition. -/
def State.lend (s : State) (kind inst vd n : Nat) : State :=
  match s.partOfVd vd with
  | none => s
  | some p => s.setPool kind inst p (min (s.poolCap kind inst p) (s.poolOf kind inst p + n))

/-- The waiting requests of an arbiter, oldest first, and those of a VD. -/
def State.waiting (s : State) (kind inst : Nat) : List Req := s.reqs.filter (fun r => r.kind == kind && r.inst == inst)

/-- Is the epoch of a THRESH request a reset epoch of a VD with RATE 0: its CAP is ignored (R465)? -/
def State.capIgnored (s : State) (r : Req) : Bool :=
  match r.what with
  | .examine vd e _ => (look {} s.epochs vd).reset == some e && cfgRate (s.bucketCfg r.kind r.inst vd) == 0
  | _ => false

/-- The class of a request (R400): 0 owner, 1 borrower, 2 spare; 3 when it is not served. -/
def State.classOf (s : State) (ws : List Req) (r : Req) : Nat :=
  let cfg := s.bucketCfg r.kind r.inst r.vd
  let oldest := ((ws.find? (fun x => x.vd == r.vd)).map (fun x => x.cost)).getD r.cost
  if 1024 * oldest ≤ s.levelOf r.kind r.inst r.vd then 0
  else if cfgCap cfg && !(s.capIgnored r) then 3
  else match s.partOfVd r.vd with
    | some p => if 1024 * r.cost ≤ s.poolOf r.kind r.inst p then 1 else 2
    | none => 2

/-- The cost is charged by class. -/
def State.charge (s : State) (cls : Nat) (r : Req) : State :=
  match cls with
  | 0 => s.setLevel r.kind r.inst r.vd (s.levelOf r.kind r.inst r.vd - 1024 * r.cost)
  | 1 => match s.partOfVd r.vd with
      | some p => s.setPool r.kind r.inst p (s.poolOf r.kind r.inst p - 1024 * r.cost)
      | none => s
  | _ => s

/-- The storage of a registered tile in a line leaves with the line: it is never written back (R317). -/
def State.loseLine (s : State) (t : Tile) (line : Nat) : State :=
  let lo := tileKey (max t.lo (128 * line))
  let hi := tileKey (min (t.lo + t.len) (128 * line + 128))
  { s with
    mem := s.mem.filter (fun e => !(decide (lo ≤ e.1) && decide (e.1 < hi)))
    tags := s.tags.filter (fun e => !(decide (lo ≤ 16 * e.1) && decide (16 * e.1 < hi))) }

/-- The VD that a line is charged to: its context's, or the agent's own (R413). -/
def State.chargedVd (s : State) (ctx : Option Nat) (vd : Nat) : Nat :=
  match ctx with
  | some c => ((find s.ctxs c).map (fun (x : Ctx) => x.vd)).getD vd
  | none => vd

/-- An access reaches a slice: a hit, or a fill with its victim, whose tiles are dropped or whose dirty line waits for its
write-back (R411, R413, R317 to R319). DEDUCED: notes/assumptions/72.md. -/
def State.touchLine (s : State) (ctx : Option Nat) (vd die slice line : Nat) (write : Bool) : State :=
  let k := llcSet die slice line
  let ls : List Line := look [] s.llc k
  if ls.any (fun (l : Line) => l.line == line) then
    { s with llc := put s.llc k (ls.map (fun (l : Line) => if l.line == line then { l with dirty := l.dirty || write } else l)) }
  else
    let mask := if !(s.tilesOn line).isEmpty then 0xFFFF
      else fld (s.sysR 0x0301 die (s.chargedVd ctx vd) slice).toNat 0 16
    let ways := (List.range 16).filter (fun w => bit mask w)
    match ways.find? (fun w => !(ls.any (fun (l : Line) => l.way == w))) with
    | some w => { s with llc := put s.llc k (ls ++ [⟨line, w, ctx, write⟩]) }
    | none =>
        let vs : List Line := s.victims die slice (ls.filter (fun (l : Line) => ways.contains l.way))
        match vs[s.freeVal % vs.length]? with
        | none => s
        | some v =>
            let s := if vs.length ≤ 1 then s else s.draw
            let s := { s with llc := put s.llc k ((ls.filter (fun (l : Line) => l.line != v.line)) ++ [(⟨line, v.way, ctx, write⟩ : Line)]) }
            match s.tilesOn v.line with
            | [] =>
                if v.dirty && isHbm (v.line * 128) then
                  let wvd := s.chargedVd v.ctx vd
                  s.request 1 (hbmInst (v.line * 128)) wvd 2 (.line wvd v.line v.ctx)
                else s
            | ts => ts.foldl (fun (s : State) t =>
                if tileState s t.desc = 0 then s.dropTile t else s.loseLine t v.line) s

/-- How many entries a TLB holds (R422); the manual sizes no control core's TLB. -/
def tlbSize (n : Nat) : Option Nat := if n < 1280 then some 256 else if 2000 ≤ n then some 16384 else none

/-- An entry that a walk has read is held by a TLB; a full one gives up one of its entries, which one is open (R422). -/
def State.cacheIn (s : State) (n : Nat) (e : Pte) : State :=
  let t : TlbEntry := ⟨n, e⟩
  let mine := s.tlb.filter (fun x => x.tlb == n)
  if s.tlb.contains t then s
  else match tlbSize n with
    | some size =>
        if mine.length < size then { s with tlb := t :: s.tlb }
        else match mine[s.freeVal % mine.length]? with
          | some v => { s.draw with tlb := t :: s.tlb.erase v }
          | none => s
    | none => { s with tlb := t :: s.tlb }

/-- The entries that a walk has read come into its agent's TLBs (R422). -/
def State.cacheWalk (s : State) (ag : Ag) (es : List Pte) : State :=
  es.foldl (fun (s : State) e => ag.tlbs.foldl (fun (s : State) n => s.cacheIn n e) s) s

/-- Is a second-tier page in an UNCACHED range (R468)? -/
def State.uncached (s : State) (vd pa : Nat) : Bool :=
  match s.poolAt vd pa with
  | some i => bit (s.sysR (0x0410 + i) 0 0 0).toNat 62
  | none => false

/-- The slice of an access, and the lines that it touches there (R125). -/
def Xl.slice (x : Xl) (line : Nat) : Nat := x.aff.getD (hashSlice line)
def Xl.lines (x : Xl) : List Nat := (List.range ((x.pa + x.len - 1) / 128 + 1 - x.pa / 128)).map (x.pa / 128 + ·)

/-- Is a line held in the slice of a translated access? -/
def State.lineIn (s : State) (x : Xl) (l : Nat) : Bool :=
  (look [] s.llc (llcSet x.home (x.slice l) l)).any (fun (y : Line) => y.line == l)

/-- What accesses made together ask of the metered arbiters: kind, instance and cost (R398). Each entry that a walk reads and
each line that they fill comes from HBM4E, once for all of them; each link that a walk's read or an access crosses, and its
response, carries a flit; a peer's memory is reached through the Furrow queue. The route back is the model's:
notes/assumptions/61.md. -/
def State.wants (s : State) (ag : Ag) (pls : List Place) : List (Nat × Nat × Nat) :=
  let xls := pls.flatMap (fun p => p.xls)
  let walks := (xls.flatMap (fun x => x.walk.map (fun e => e.addr))).eraseDups
  let fills := (xls.flatMap (fun x => x.lines.filter (fun l =>
    isHbm (128 * l) && (s.tilesOn l).isEmpty && !(s.lineIn x l)))).eraseDups
  (pls.filter (fun p => p.peer.isSome)).map (fun _ => (4, 0, 1))
    ++ walks.map (fun a => (1, hbmInst a, 1))
    ++ ((walks.filter isHbm).flatMap (fun a => ag.links (a / 2 ^ 36))).map (fun l => (2, l, 1))
    ++ (xls.flatMap (fun x => ag.links x.home)).map (fun l => (2, l, 1))
    ++ fills.map (fun l => (1, hbmInst (128 * l), 2))

/-- One of these is served: by a round already won, or in a round that starts now, when no request of its class or a
better one waits at the arbiter (R400, R401). Its own request there waits no longer. -/
def State.takeWant (s : State) (ag : Ag) (w : Nat × Nat × Nat) : Option State :=
  let k := (ag.who, w.1, w.2.1, w.2.2)
  if s.grants.contains k then some { s with grants := s.grants.erase k }
  else
    let mine (x : Req) : Bool := x.kind == w.1 && x.inst == w.2.1 && x.what == .access ag.who
    let r : Req := ⟨w.1, w.2.1, ag.vd, w.2.2, s.ticket, .access ag.who⟩
    let ws := (s.waiting w.1 w.2.1).filter (fun x => !(mine x))
    let c := s.classOf (ws ++ [r]) r
    if c = 3 ∨ ws.any (fun x => decide (s.classOf ws x ≤ c)) then none
    else some (State.charge { s with reqs := s.reqs.filter (fun x => !(mine x && x.cost == w.2.2)) } c r)

/-- What the caches see of a translated access (R125, R413, R422). -/
def State.touchXl (s : State) (ag : Ag) (write : Bool) (x : Xl) : State :=
  let s := s.cacheWalk ag x.walk
  if isTier x.pa && s.uncached ag.vd x.pa then s
  else x.lines.foldl (fun (s : State) l => s.touchLine ag.ctx ag.vd x.home (x.slice l) l write) s

/-- The traffic of accesses made together is charged, and the caches see each in turn. -/
def State.touchAll (s : State) (ag : Ag) (write : Bool) (pls : List Place) : State :=
  (pls.flatMap (fun p => p.xls)).foldl (fun t x => t.touchXl ag write x)
    ((s.wants ag pls).foldl (fun t w => (t.takeWant ag w).getD t) s)

/-- The same of one access. -/
def State.touch (s : State) (ag : Ag) (write : Bool) (pl : Place) : State := s.touchAll ag write [pl]

/-- A request of an agent at an arbiter is served now, or joins the waiting ones (R400). -/
def State.pay (s : State) (ag : Ag) (w : Nat × Nat × Nat) : Except State State :=
  match s.takeWant ag w with
  | some t => .ok t
  | none => .error (
      if s.reqs.any (fun x => x.kind == w.1 && x.inst == w.2.1 && x.cost == w.2.2 && x.what == .access ag.who) then s
      else s.request w.1 w.2.1 ag.vd w.2.2 (.access ag.who))

/-- The requests of accesses that no round serves now join the waiting ones, once each: the first component has been
served what could be, the second holds those requests. -/
def State.joinWants (s : State) (ag : Ag) (pls : List Place) : State × List Req :=
  (s.wants ag pls).foldl (fun (a : State × List Req) w =>
    match a.1.takeWant ag w with
    | some t => (t, a.2)
    | none => (a.1, a.2 ++ [⟨w.1, w.2.1, ag.vd, w.2.2, 0, .access ag.who⟩])) (s, [])

/-- Do the arbiters serve the traffic of accesses now (R400, R401)? None when they do; otherwise the state in which the
requests wait. -/
def State.unserved (s : State) (ag : Ag) (pls : List Place) : Option State :=
  match (s.joinWants ag pls).2 with
  | [] => none
  | rs => some (rs.foldl (fun t r =>
      if t.reqs.any (fun x => x.kind == r.kind && x.inst == r.inst && x.cost == r.cost && x.what == r.what) then t
      else t.request r.kind r.inst r.vd r.cost r.what) s)

/-- Tiles in state DROPPED or REGROWING with storage in a granule that an access touches (R323). -/
def State.meets (s : State) (pl : Place) : List Tile :=
  s.tiles.filter (fun t => pl.keys.any (fun k => decide (k < 2 ^ 58)
      && decide (16 * (k % 2 ^ 57 / 16) < t.lo + t.len) && decide (t.lo < 16 * (k % 2 ^ 57 / 16) + 16))
    && (tileState s t.desc == 1 || tileState s t.desc == 2))

/-! Revocation (R88, R430). -/

/-- The physical addresses to which the address spaces of a partition map a virtual address; where none maps it, the
firmware's map does (R428; notes/assumptions/1.md). -/
def State.mapsOf (s : State) (p va : Nat) : List Nat :=
  let pas := (s.objs.filter (fun o => o.otype == 4 && s.partOfVd o.vd == some p)).filterMap (fun o =>
    match (walkFrom s (bit (s.rn o.pa 16) 71) (fld (s.rn o.pa 16) 64 7) 0 va 4 (fld (s.rn o.pa 16) 12 44 * 4096)).1 with
    | .error _ => none
    | .ok (e, lvl) => some (leafPa e lvl va))
  if pas.isEmpty then [va] else pas

/-- Does a virtual base lie in the frames of a VD (R428, R465)? -/
def State.inFrames (s : State) (p vd va : Nat) : Bool :=
  (s.mapsOf p va).any (fun pa => (s.vd? vd).frames.any (fun f =>
    decide (f.1 ≤ pa / 2 ^ 21) && decide (pa / 2 ^ 21 < f.1 + f.2.1)))

/-- Does a capability fall in a mark (R430); in a reset epoch's: by otype, or by a base in the frames (R465)? -/
def State.inMark (s : State) (m : RMark) (c : Cap) : Bool :=
  if m.reset then
    (decide (256 + 30 * m.vd ≤ c.otype) && decide (c.otype ≤ 285 + 30 * m.vd))
      || (c.otype == 6 && c.base == ((s.vd? m.vd).root : Int))
      || (decide (c.base < (2 ^ 57 : Nat)) && s.inFrames m.part m.vd (wrap 64 c.base))
  else decide ((m.lo : Int) ≤ c.base) && decide (c.base < (m.hi : Int))

/-- A capability falls in a marked range of the VD's partition. -/
def State.revoked (s : State) (vd : Nat) (c : Cap) : Bool :=
  match s.partOfVd vd with
  | none => false
  | some p => s.rmarks.any (fun m => m.part == p && s.inMark m c)

/-- A capability with the tag that hardware writes (R430). -/
def State.swept (s : State) (vd : Nat) (c : Cap) : Cap := if c.tag && s.revoked vd c then ⟨c.bits, false⟩ else c

/-! Scratch (R122) and its races (R164 to R167). -/

def scrKey (gang off : Nat) : Nat := gang * 2 ^ 19 + off
def State.scrR (s : State) (gang off n : Nat) : Nat := leRead (fun a => look 0 s.scr (scrKey gang a)) off n
def State.scrTag (s : State) (gang off : Nat) : Bool := look false s.scrTags (scrKey gang off / 16)
def State.scrTagW (s : State) (gang off : Nat) (t : Bool) : State :=
  { s with scrTags := store false s.scrTags (scrKey gang off / 16) t }

def State.scrWb (s : State) (gang off : Nat) : List Byte → State
  | [] => s
  | b :: bs =>
      State.scrWb ({ s with scr := store 0 s.scr (scrKey gang off) b }.scrTagW gang off false) gang (off + 1) bs

/-- Bytes stored to scratch; the tag of every granule touched is cleared (R250). -/
def State.scrW (s : State) (gang off n x : Nat) : State := s.scrWb gang off (leBytes x n)
def State.scrCap (s : State) (gang off : Nat) : Cap := ⟨BitVec.ofNat 128 (s.scrR gang off 16), s.scrTag gang off⟩
def State.scrCapW (s : State) (gang off : Nat) (c : Cap) : State := (s.scrW gang off 16 c.bits.toNat).scrTagW gang off c.tag

/-- R122: aligned to its size and wholly inside the gang's scratch. -/
def scrOk (g : Gang) (off n : Nat) : Bool := off % n == 0 && decide (off + n ≤ g.scratch)

/-- The clock's entry for an agent. -/
def Clock.get (c : Clock) (w : Who) : Nat := ((c.find? (fun e => e.1 == w)).map (·.2)).getD 0
def Clock.set (c : Clock) (w : Who) (n : Nat) : Clock := (w, n) :: c.filter (fun e => e.1 != w)

/-- Both clocks' knowledge together. -/
def Clock.join (a b : Clock) : Clock :=
  b.foldl (fun c e => if Clock.get c e.1 < e.2 then Clock.set c e.1 e.2 else c) a

/-- Do two accesses of R164 come from one agent: a group, or one engine over all its commands? -/
def sameAgent : Who → Who → Bool
  | .grp a, .grp b => a == b
  | .cmd _ x, .cmd _ y => x == y
  | _, _ => false

/-- The code of an agent in DETAIL (R59). -/
def agentCode : Who → Nat
  | .grp _ => 0
  | .cmd _ false => 1
  | .cmd _ true => 2

/-- An access to an arrival granule takes no part in races (R166). -/
def Race.exempt (r : Race) (lo hi : Nat) : Bool :=
  r.arrs.any (fun a => decide (lo / 16 = a.1 / 16) && decide ((hi - 1) / 16 = a.1 / 16))

/-- Is an access a load of a group (R166)? An engine's read is none. -/
def Acc.isLoad (a : Acc) : Bool :=
  !a.write && (match a.who with
    | .grp _ => true
    | .cmd _ _ => false)

/-- Accesses that an access races with (R166, R167). -/
def Race.against (r : Race) (clk : Clock) (a : Acc) : List Acc :=
  if r.exempt a.lo a.hi then []
  else r.log.filter (fun x =>
    !(sameAgent x.who a.who) && (x.write || a.write)
      && decide (x.lo / 16 ≤ (a.hi - 1) / 16) && decide (a.lo / 16 ≤ (x.hi - 1) / 16)
      && !(r.exempt x.lo x.hi)
      && decide (Clock.get clk x.who < x.n)
      && !((x.rel && (a.isLoad || a.rel)) || (a.rel && x.isLoad)))

/-- The byte that a SCRATCH_RACE of two accesses names, and the code of the first one's agent: the lowest byte both touch;
when they share the granule and no byte, the larger of their first bytes (R167). DESIGN CHOICE: notes/assumptions/82.md. -/
def racePair (a x : Acc) : Bool × Nat × Nat :=
  (decide (max x.lo a.lo < min x.hi a.hi), max x.lo a.lo, agentCode x.who)

/-- What a SCRATCH_RACE reports of all pairs that race: the lowest byte that both accesses of some pair touch, and the lowest
agent code there (R167). -/
def raceReport (ps : List (Bool × Nat × Nat)) : Nat × Nat :=
  let both := ps.filter (·.1)
  let ps := if both.isEmpty then ps else both
  match ps with
  | [] => (0, 0)
  | p :: r =>
      let b := r.foldl (fun n y => min n y.2.1) p.2.1
      (b, (((p :: r).filter (fun y => y.2.1 == b)).map (·.2.2)).foldl min 2)

end Sys2Proof.Machine
end

