-- ==== Sys2Proof/Machine/Paths.lean ====
section
/-! DEFINITION. Paths: slots, the path stack, splits, parks, joins, exits, fills and swaps (R38 to R45). -/
namespace Sys2Proof.Machine

/-- A slot of a group: A (`false`) or B (`true`). -/
def Grp.slot (g : Grp) (b : Bool) : Option Path := if b then g.slotB else g.slotA

def Grp.setSlot (g : Grp) (b : Bool) (x : Option Path) : Grp := if b then { g with slotB := x } else { g with slotA := x }

/-- The free index of R39, or none at the capacity. -/
def Grp.alloc (g : Grp) : Option Nat := if freshKey g.stack < g.kern.pathstack then some (freshKey g.stack) else none

/-- The reconvergence PC of a path (R38). -/
def Grp.rpc (g : Grp) (x : Path) : Option DWord :=
  match x.link with
  | none => none
  | some j => match find g.stack j with
      | some (.join jpc _ _ _ _) => jpc
      | _ => none

/-- The check of R42 on the path in a slot: park, settle, and the same check on the path that settling forms. A path
that holds pending hints does not park (R177). -/
def Grp.park : Nat → Grp → Bool → Grp
  | 0, g, _ => g
  | n + 1, g, b =>
      match g.slot b with
      | none => g
      | some x =>
          match x.link with
          | none => g
          | some j =>
              match find g.stack j with
              | some (.join (some jpc) total arr hnd link) =>
                  if x.pc = jpc ∧ x.hints = [] then
                    let arr := arr ||| x.mask
                    let hnd := hnd || x.hnd
                    if arr = total then
                      Grp.park n ({ g with stack := del g.stack j }.setSlot b
                        (some { pc := jpc, mask := total, link := link, hnd := hnd })) b
                    else { g with stack := put g.stack j (.join (some jpc) total arr hnd link) }.setSlot b none
                  else g
              | _ => g

/-- As many rounds as records can be freed. -/
def Grp.fuel (g : Grp) : Nat := g.stack.length + 2

/-- Would R43 accept the record, at this generation of the gang barrier? -/
def Rec.accept (gen : Nat) : Rec → Bool
  | .deferred _ _ _ none _ _ => true
  | .deferred _ _ _ (some n) _ _ => n != gen
  | _ => false

/-- The path of a deferred record. -/
def Rec.path : Rec → Option Path
  | .deferred pc mask nrpc _ hnd link => some { pc := pc, mask := mask, nrpc := nrpc, hnd := hnd, link := link }
  | .join .. => none

/-- The acceptable deferred record of highest index (R43). -/
def Grp.pick (g : Grp) (gen : Nat) : Option (Nat × Path) :=
  match (g.stack.filter (fun e => e.2.accept gen)).getLast? with
  | none => none
  | some (k, r) => r.path.map (fun x => (k, x))

/-- Every free slot filled at once (R43): slot A first when both are free and two records are acceptable.
DESIGN CHOICE: notes/assumptions/81.md. -/
def Grp.fill (gen : Nat) : Nat → Grp → Grp
  | 0, g => g
  | n + 1, g =>
      let free : Option Bool := if g.slotA.isNone then some false else if g.slotB.isNone then some true else none
      match free, g.pick gen with
      | some b, some (k, x) =>
          Grp.fill gen n (Grp.park g.fuel ({ g with stack := del g.stack k, sinceFill := 0, recAt := [] }.setSlot b (some x)) b)
      | _, _ => g

/-- The park check of a slot and then the fill of free slots. -/
def Grp.settled (g : Grp) (gen : Nat) (b : Bool) : Grp :=
  let g := g.park g.fuel b
  g.fill gen g.fuel

/-- The record a path leaves in an index it is written into (R44): at its instruction, or after its BAR.G. -/
def Path.record (x : Path) : Rec :=
  match x.wait with
  | some (.barrier n) => .deferred (x.pc + 4) x.mask x.nrpc (some n) x.hnd x.link
  | some _ => .deferred (x.pc - BitVec.ofNat 64 (4 * x.hints.length)) x.mask x.nrpc none x.hnd x.link
  | none => .deferred x.pc x.mask x.nrpc none x.hnd x.link

/-- The path of a slot and a record are swapped (R44). -/
def Grp.swapWith (g : Grp) (gen : Nat) (b : Bool) (r : Option (Nat × Path)) : Grp :=
  match g.slot b, r with
  | some x, some (k, y) =>
      let g := { g with stack := put g.stack k x.record, sinceFill := 0, recAt := [] }.setSlot b (some y)
      g.settled gen b
  | _, _ => g

/-- The path of a slot and the acceptable record of highest index are swapped (R44). -/
def Grp.swap (g : Grp) (gen : Nat) (b : Bool) : Grp := g.swapWith gen b (g.pick gen)

/-- The acceptable record of highest index that has waited while the group issued 1,024 instructions (R44). -/
def Grp.pickAged (g : Grp) (gen : Nat) : Option (Nat × Path) :=
  match (g.stack.filter (fun e => e.2.accept gen && decide (look 0 g.recAt e.1 + 1024 ≤ g.sinceFill))).getLast? with
  | none => none
  | some (k, r) => r.path.map (fun x => (k, x))

/-- Does the path of the slot that issued last give way to a record of age, at the end of its instruction (R44)? -/
def Grp.ageDue (g : Grp) (gen : Nat) : Bool :=
  (g.pickAged gen).isSome
    && (match g.slot g.lastB with
      | some p => p.hints.isEmpty && p.part.isNone
      | none => false)

/-- A blocked path gives way to an acceptable record (R44). -/
def Grp.yieldBlocked (g : Grp) (gen : Nat) (b : Bool) : Grp :=
  match g.slot b with
  | some x => if x.wait.isSome then g.swap gen b else g
  | none => g

/-- Each slot's blocked path gives way to an acceptable record, this slot's first (R44).
DESIGN CHOICE: notes/assumptions/81.md. -/
def Grp.giveWay (g : Grp) (gen : Nat) (b : Bool) : Grp := (g.yieldBlocked gen b).yieldBlocked gen (!b)

/-- A path continues at a PC: no hints pending, no wait, no access left (R168). -/
def Path.go (x : Path) (pc : DWord) : Path := { x with pc := pc, hints := [], wait := none, stall := 0, part := none }

/-- The path of a slot continues at a PC, with the check of R42 and the fill of R43. -/
def Grp.goTo (g : Grp) (gen : Nat) (b : Bool) (pc : DWord) : Grp :=
  match g.slot b with
  | none => g
  | some x => (g.setSlot b (some (x.go pc))).settled gen b

/-- `split(X, S, target)` (R42): the group, or none where a record cannot be allocated (PATHSTACK_OVF, R39).
`taken` is narrowed to the path's lanes; `fpc` is where the not-taken half continues. -/
def Grp.split (g : Grp) (gen : Nat) (b : Bool) (taken : DWord) (target fpc : DWord) : Option Grp :=
  match g.slot b with
  | none => some g
  | some x =>
      let t := taken &&& x.mask
      let f := x.mask &&& ~~~t
      if t = 0 then some ((g.setSlot b (some { x.go fpc with nrpc := none })).settled gen b)
      else if f = 0 then some ((g.setSlot b (some { x.go target with nrpc := none })).settled gen b)
      else
        match g.alloc with
        | none => none
        | some j =>
            let jpc := match x.nrpc with
              | some n => some n
              | none => g.rpc x
            let g1 := { g with stack := put g.stack j (.join jpc x.mask 0 false x.link) }
            let half : Path := { pc := fpc, mask := f, link := some j, hnd := x.hnd }
            let mine : Path := { pc := target, mask := t, link := some j, hnd := x.hnd, age := x.age }
            let g2 : Option Grp :=
              if (g1.slot (!b)).isNone then some (Grp.park (g1.fuel) (g1.setSlot (!b) (some half)) (!b))
              else match g1.alloc with
                | none => none
                | some d => some { g1 with
                    stack := put g1.stack d (.deferred fpc f none none x.hnd (some j))
                    recAt := store 0 g1.recAt d g1.sinceFill }
            g2.map (fun g2 => ((g2.setSlot b (some mine)).settled gen b).giveWay gen b)

/-- TOTAL of every record on a LINK chain loses the lanes that exit (R42). -/
def dropLanes (m : DWord) : Nat → Sparse Rec → Option Nat → Sparse Rec
  | 0, st, _ => st
  | _ + 1, st, none => st
  | n + 1, st, some k =>
      match find st k with
      | some (.join jpc total arr hnd link) =>
          dropLanes m n (put st k (.join jpc (total &&& ~~~m) arr hnd link)) link
      | _ => st

/-- Records without live lanes are freed outward; the first with some is returned (R42). -/
def freeEmpty : Nat → Sparse Rec → Option Nat → Sparse Rec × Option Nat
  | 0, st, k => (st, k)
  | _ + 1, st, none => (st, none)
  | n + 1, st, some k =>
      match find st k with
      | some (.join _ total _ _ link) => if total = 0 then freeEmpty n (del st k) link else (st, some k)
      | _ => (st, none)

/-- `exit(X, S)` (R42) of the path in a slot, and the fill of R43. -/
def Grp.exitPath (g : Grp) (gen : Nat) (b : Bool) : Grp :=
  match g.slot b with
  | none => g
  | some x =>
      let st := dropLanes x.mask g.fuel g.stack x.link
      let r := freeEmpty g.fuel st x.link
      let g := { g with stack := r.1 }.setSlot b none
      let g := match r.2 with
        | none => g
        | some j => match find g.stack j with
            | some (.join (some jpc) total arr hnd link) =>
                if arr = total then
                  Grp.park g.fuel ({ g with stack := del g.stack j }.setSlot b
                    (some { pc := jpc, mask := total, link := link, hnd := hnd })) b
                else g
            | _ => g
      g.fill gen g.fuel

/-- No lane is active in the group (R43). -/
def Grp.ended (g : Grp) : Bool := g.slotA.isNone && g.slotB.isNone && g.stack.all (fun e => e.2.path.isNone)

/-- Exactly one slot valid and no record (R45). -/
def Grp.reconverged (g : Grp) : Bool := (g.slotA.isSome != g.slotB.isSome) && g.stack.isEmpty

/-- Has every lane of the group that has not exited arrived at the barrier of this generation (R45)? -/
def Grp.atBarrier (g : Grp) (gen : Nat) : Bool :=
  let slotOk (x : Option Path) : Bool := match x with
    | none => true
    | some p => p.wait == some (.barrier gen)
  slotOk g.slotA && slotOk g.slotB && g.stack.all (fun e => match e.2 with
    | .deferred _ _ _ bar _ _ => bar == some gen
    | .join _ _ arr _ _ => arr == 0)

/-- The gang barrier of a generation has completed for the group: its arrived paths go on, and blocked slots give way
to records that the barrier releases (R43, R44, R45). `gen` is the new generation. -/
def Grp.release (g : Grp) (gen : Nat) : Grp :=
  let step (g : Grp) (b : Bool) : Grp := match g.slot b with
    | some x => match x.wait with
        | some (.barrier _) => g.goTo gen b (x.pc + 4)
        | _ => g
    | none => g
  let g := step (step g false) true
  (g.fill gen g.fuel).giveWay gen false

/-- Is some path of the group, other than the one of a slot, in the handler (R180)?
DEDUCED: notes/assumptions/14.md. -/
def Grp.otherInHandler (g : Grp) (b : Bool) : Bool :=
  (match g.slot (!b) with
    | some y => y.hnd
    | none => false)
  || g.stack.any (fun e => match e.2 with
      | .deferred _ _ _ _ hnd _ => hnd
      | _ => false)

/-- A path back at the first hint of its sequence, waiting for nothing (R177, R268).
DEDUCED: notes/assumptions/74.md. -/
def Path.rewound (x : Path) : Path :=
  { x with pc := x.pc - BitVec.ofNat 64 (4 * x.hints.length), hints := [], wait := none }

/-- The group stopped at instruction boundaries, its waiting instructions without effect (R436, R268). -/
def Grp.halt (g : Grp) : Grp :=
  { g with stopped := true, slotA := g.slotA.map Path.rewound, slotB := g.slotB.map Path.rewound }

/-- OPEN lanes are doomed with cause INTERRUPTED, their stores discarded; no lane runs serialised any longer (R260). -/
def Grp.interruptTxn (g : Grp) : Grp :=
  { g with txn := g.txn.map (fun e => match e.2.state with
      | .opened => (e.1, { state := .doomed 5 })
      | .doomed c => (e.1, { state := .doomed c })
      | .none => e) }

/-- Lanes with a path of their own: valid slots and deferred records. -/
def Grp.liveMask (g : Grp) : DWord :=
  let m (x : Option Path) : DWord := match x with
    | none => 0
    | some p => p.mask
  g.stack.foldl (fun a e => match e.2 with
    | .deferred _ mask _ _ _ _ => a ||| mask
    | .join _ _ arr _ _ => a ||| arr) (m g.slotA ||| m g.slotB)

end Sys2Proof.Machine
end

