-- ==== Sys2Proof/Machine/Ops.lean ====
section
/-! DEFINITION. What every issue shares: the issuing path, the checks on a word (R481), the illegal-encoding trap and
its return (R180 to R184, R450, R483), context faults (R58, R435 to R437), retiring, waiting, and one wrapper through
which every encoded instruction runs. -/
namespace Sys2Proof.Machine

/-- A unit's group put back. -/
def State.putU (s : State) (u : Nat) (g : Grp) : State := { s with units := put s.units u g }

/-- A context changed. -/
def State.modCtx (s : State) (c : Nat) (f : Ctx → Ctx) : State :=
  match find s.ctxs c with
  | none => s
  | some k => { s with ctxs := put s.ctxs c (f k) }

/-- The generation of a group's gang barrier (R45); a control core is in no gang. -/
def State.genOf (s : State) (g : Grp) : Nat :=
  match g.gang with
  | none => 0
  | some n => match find s.gangs n with
      | none => 0
      | some k => k.gen

/-- The path that issues: unit, slot, group with its issue counted, path, word, and the lanes that execute. -/
structure Iss where
  u : Nat
  b : Bool
  g : Grp
  p : Path
  w : Word
  deriving DecidableEq, Repr

/-- The lanes that execute, as a mask and as a list (R173, R179). -/
def Iss.act (x : Iss) : DWord := guardMask x.g x.p
def Iss.lanes (x : Iss) : List Nat := lanesOf x.g.width x.act

/-- The lowest active lane. -/
def Iss.low (x : Iss) : Nat := lowest x.g.width x.act

/-- Can a path issue: valid and not blocked in a waiting instruction (R38)? -/
def eligible (x : Option Path) : Bool :=
  match x with
  | none => false
  | some p => p.wait.isNone

/-- The issue of a path is counted (R44). -/
def Grp.counted (g : Grp) (b : Bool) : Grp :=
  let g := { g with lastB := b, sinceFill := g.sinceFill + 1, run := 0, next := none }
  let g := g.setSlot b ((g.slot b).map (fun p => { p with age := 0 }))
  g.setSlot (!b) ((g.slot (!b)).map (fun p => if p.wait.isNone then { p with age := p.age + 1 } else p))

/-- The path that issued an instruction under SCHED YIELD prefers others for one core cycle (R178). -/
def Grp.ceded (g : Grp) (now : Nat) (b : Bool) (p : Path) (w : Word) : Grp :=
  if major w ≠ 0x3F ∧ p.hints.any (fun h => hintKind h == 2 && bit (hintPayload h) 18) then
    { g with cede := some (b, now + 2) }
  else g

/-- Is a group halted on a core that is still marked (R394)? -/
def State.vacated (s : State) (u : Nat) (g : Grp) : Bool := g.vacate && (find s.marks (unitCore u)).isSome

/-- The path whose turn it is. -/
def State.issuer (s : State) (w : Word) : Option Iss :=
  match find s.units s.cur.1 with
  | none => none
  | some g =>
      if g.stopped || g.dead || s.vacated s.cur.1 g then none
      else match g.slot s.cur.2 with
        | none => none
        | some p => some ⟨s.cur.1, s.cur.2, (if p.part.isSome then g
            else (g.counted s.cur.2).ceded s.now s.cur.2 p w), p, w⟩

/-- The agent of the unit's accesses. -/
def unitAg (u : Nat) (b : Bool) (g : Grp) : Ag :=
  { vd := g.vd, aspace := g.aspace, ctx := g.ctx, core := some (unitCore u), who := 2 * u + if b then 1 else 0 }
def Iss.ag (x : Iss) : Ag := unitAg x.u x.b x.g

/-! Interrupt sources (R80, R364). -/

/-- SOURCE of the interrupt line at a physical address. -/
def lineSource (s : State) (pa : Nat) : Nat := s.rn (pa + 4) 2

/-- The word of a notification or interrupt line (R361, R364), and its update: a hardware field, not a data store. -/
def noteWord (s : State) (id : Nat) : Nat := s.rn id 2
def State.noteOr (s : State) (id badge : Nat) : State := s.rawW id 2 (noteWord s id ||| badge)

/-- Interrupt source `n` fires: the line bound to it takes the source's badge, which the manual leaves to the source
(notes/assumptions/5.md). DESIGN CHOICE: notes/assumptions/16.md. -/
def State.fire (s : State) (n : Nat) : State :=
  match s.objs.find? (fun o => o.otype == 5 && lineSource s o.pa == n) with
  | none => s
  | some o => (s.noteOr o.pa (s.freeVal % 65536)).draw

/-! Faults. -/

/-- What the failing capability adds to a fault (R58): only for these codes and details. -/
def capOf (f : Fail) (c : Option (Cap × Nat)) : Option (Cap × Nat) :=
  if f.code == 1 || f.code == 2 || f.code == 3 || f.code == 5
      || (f.code == 4 && ((decide (1 ≤ f.detail) && decide (f.detail ≤ 16)) || f.detail == 0x20)) then c else none

/-- The 256-bit value of R58 with a sequence number. -/
def faultWord (f : FaultInfo) (seq : Nat) : BitVec 256 :=
  let cap : Nat := match f.cap with
    | none => 0
    | some (c, _) => c.bits.toNat % 2 ^ 64
  let low : Nat := match f.cap with
    | none => 15 * 8
    | some (c, q) => (if c.tag then 128 else 0) + (q % 16) * 8 + 4
  BitVec.ofNat 256 (f.addr.toNat * 2 ^ 192 + f.pc.toNat * 2 ^ 128 + cap * 2 ^ 64 + (f.core % 2 ^ 11) * 2 ^ 53
    + (f.slot % 64) * 2 ^ 47 + (if f.slotB then 2 ^ 46 else 0) + (f.lane % 64) * 2 ^ 40 + (seq % 65536) * 2 ^ 24
    + (f.detail % 256) * 2 ^ 16 + (f.code % 256) * 256 + low)

/-- A context fault raises the halt line (R435); a second one during the halt goes into its unit's record (R437). -/
def State.ctxFault (s : State) (c : Nat) (f : FaultInfo) : State :=
  s.modCtx c (fun k => match k.state with
    | .running => { k with state := .halting, fault := some f, seq := (k.seq + 1) % 65536 }
    | .halting | .halted => { k with more := k.more ++ [(f.unit.getD (2 ^ 62), f)] }
    | _ => k)

/-- Lanes of a unit no longer hold the serial token (R145, R260). -/
def State.freeToken (s : State) (u : Nat) : State := { s with serial := s.serial.filter (fun e => e.2.1 != u) }

/-- Granules that a unit's serialised transaction holds locked are let go (R145). -/
def State.unlock (s : State) (g : Grp) : State :=
  let held := g.txn.foldl (fun a e => if e.2.serial then a ++ e.2.reads.map (·.1) ++ e.2.granules else a) []
  { s with locked := s.locked.filter (fun k => !(held.contains k)) }

/-- The register words of a lane whose pieces have been read: word `k`, sign-extended from `sx` bits when it is not 0. -/
def landWord (got : List (Nat × Nat × Nat)) (sx lane k : Nat) : Word :=
  let v := (got.filter (fun e => e.1 == lane)).foldl (fun n e => n + e.2.2 * 2 ^ (8 * e.2.1)) 0
  if sx = 0 then BitVec.ofNat 32 (v >>> (32 * k)) else word (sint sx v)

/-- Bytes of a read in flight. -/
def Late.size : Late → Nat
  | .reg .. => 4
  | .piece _ _ got => 16 * got.length

/-- A register word lands: a v register's lane, or an s register. -/
def Grp.landReg (g : Grp) (reg lane : Nat) (v : Word) : Grp :=
  if reg < 96 then g.wrV reg lane v else g.wrS (reg - 96) v

/-- May a core hold so many more bytes of a context's reads in flight: at most 64 KiB of them (R445)? -/
def State.flightRoom (s : State) (core n : Nat) : Bool :=
  let up := (s.flight.filter (fun e => e.1 == core)).map (fun e => e.2.2.size)
  let down := (look [] s.quarantine core).map (fun (e : Nat × Nat × Late) => e.2.2.size)
  decide ((up ++ down).foldl (· + ·) n ≤ 65536)

/-- The transaction of a lane. -/
def Grp.txnOf (g : Grp) (l : Nat) : Txn := look {} g.txn l

/-- The bytes that a lane's transaction sees: its buffered stores over memory (R143). -/
def State.seen (s : State) (t : Txn) (ks : List Nat) : Nat :=
  match ks with
  | [] => 0
  | k :: r => (look (s.rb k) t.writes k).toNat + 256 * State.seen s t r

/-- The accesses that an LD or ST of a slot has left when its unit stops: a store's are made, those of lanes in a transaction
aside (R160, R258); a load's are performed now and are in flight (R436, R445); the instruction is complete. Where one of
them meets a tile that is not there, the instruction executes again (R323). -/
def State.landSlot (s : State) (u : Nat) (b : Bool) : State :=
  match find s.units u with
  | none => s
  | some g =>
      match g.slot b with
      | none => s
      | some p =>
          match p.part with
          | none => s
          | some pt =>
              let done (s : State) (g : Grp) : State := s.putU u (g.goTo (s.genOf g) b (p.pc + 4))
              if pt.left.any (fun e => !(s.meets e.at_.pl).isEmpty) then
                s.putU u (g.setSlot b (some { p with part := none }))
              else match pt.land with
              | .store =>
                  done ((pt.left.filter (fun e => (g.txnOf e.at_.lane).state == .none)).foldl (fun (t : State) e =>
                    t.wkeys e.at_.pl.keys (leBytes e.v e.at_.pl.keys.length)) s) g
              | .load d regs sx =>
                  let got := pt.got ++ pt.left.map (fun e =>
                    (e.at_.lane, e.off, s.seen (g.txnOf e.at_.lane) e.at_.pl.keys))
                  let lanes := if d.isV then (got.map (·.1)).eraseDups else (got.map (·.1)).take 1
                  let ws : List (Nat × Nat × Word) := lanes.flatMap (fun l => (List.range regs).map (fun k =>
                    ((Reg.plus d k).toNat, l, landWord got sx l k)))
                  match g.gang with
                  | some n =>
                      if s.flightRoom (unitCore u) (4 * ws.length) then
                        done { s with
                          flight := s.flight ++ ws.map (fun e => (unitCore u, n, Late.reg g.gidx e.1 e.2.1 e.2.2)) } g
                      else done s (ws.foldl (fun (g : Grp) e => g.landReg e.1 e.2.1 e.2.2) g)
                  | none => done s (ws.foldl (fun (g : Grp) e => g.landReg e.1 e.2.1 e.2.2) g)

/-- No instruction of a unit has accesses left. -/
def State.landUnit (s : State) (u : Nat) : State := (s.landSlot u false).landSlot u true

/-- A unit stops for the halt of its context (R436, R260, R268). DESIGN CHOICE: notes/assumptions/42.md. -/
def State.stopUnit (s : State) (u : Nat) : State :=
  let s := s.landUnit u
  match find s.units u with
  | none => s
  | some g => ((s.unlock g).freeToken u).putU u g.halt.interruptTxn

/-! The trap registers (R181 to R183). -/

/-- Fields of the trapping word by its format. -/
def trapRegs (w : Word) (hints : List Word) (pc : DWord) (cause : Nat) : TrapRegs :=
  let n := w.toNat
  let op := fld n 26 6
  let fm := fmtOf op
  let v (x : Nat) : Word := BitVec.ofNat 32 x
  let fn : Nat := match fm with
    | .r | .c => fld n 21 5
    | .f => fld n 24 2
    | .i | .x | .m | .b | .h => fld n 23 3
  let rd : Nat := match fm with
    | .r | .f | .c => fld n 14 7
    | .i | .m => fld n 16 7
    | .x => fld n 18 5
    | .b => fld n 20 3
    | .h => 0
  let ra : Nat := match fm with
    | .r | .f | .c => fld n 7 7
    | .i | .m => fld n 9 7
    | .x => fld n 13 5
    | _ => 0
  let rb : Nat := match fm with
    | .r | .f | .c => fld n 0 7
    | .m => fld n 5 4
    | .x => fld n 6 7
    | _ => 0
  let imm : Word := match fm with
    | .i => word (sint 9 n)
    | .m => word (sint 5 n)
    | .b => word (sint 20 n)
    | .f => v (fld n 21 3)
    | .x => v (fld n 0 6)
    | .h => v (fld n 0 23)
    | _ => 0
  let kinds := (List.range hints.length).foldl (fun a k => a + hintKind (hints.getD k 0) * 2 ^ (3 + 3 * k)) 0
  { word := w, op := v op, fn := v fn, rd := v rd, ra := v ra, rb := v rb, imm := imm, pc := pc,
    hints := v (hints.length + kinds), hw := hints, cause := v cause }

/-! A control core's banks (R449, R450, R483). -/

/-- The registers in use and those of the other bank change places; the bank left keeps a PC, whether its path is in the
handler, and the context of its thread (R449, R483). -/
def Grp.useBank (g : Grp) (k : Bank) (pc : DWord) : Grp :=
  { g with
    v := k.v
    vf := k.vf
    s := k.s
    p := k.p
    mode := k.mode
    status := k.status
    stoch := k.stoch
    pcc := k.pcc
    pccAt := k.pccAt
    bank := some ⟨g.v, g.vf, g.s, g.p, g.mode, g.status, g.stoch, pc, g.pcc, g.slotA.any (fun p => p.hnd), g.ctx,
      g.pccAt⟩ }

/-- Re-entry to level K with a cause: the U bank stays as it stood, the K bank goes on after its ERET. -/
def Grp.reenter (g : Grp) (upc : DWord) (cause : Nat) : Grp :=
  match g.bank with
  | some k =>
      let p : Path := g.slotA.getD { pc := 0, mask := 1 }
      let g1 : Grp := { g.useBank k upc with
        level := .kernel, ctx := none, aspace := .boot, vd := fld (g.ownR 0x0002).toNat 0 7, stopped := false,
        eretRd := none, slotA := some { p.go k.pc with hnd := k.hnd } }
      match g.eretRd with
      | none => g1
      | some r => g1.wrS r (BitVec.ofNat 32 cause)
  | none => g

/-- A trap or fault of a thread at level K (R483): KVEC, or the thread stops and source 800 + n fires.
DESIGN CHOICE: notes/assumptions/15.md. -/
def State.kernelEntry (s : State) (x : Iss) (g : Grp) : State :=
  let kvec := g.ownR 0x0603
  if kvec = 0 ∨ x.p.hnd then (s.putU x.u { g with dead := true }).fire (800 + (x.u - 81920))
  else s.putU x.u { g with slotA := some { x.p.go kvec with hnd := true } }

/-- The fault fields of the issuing path (R58). -/
def Iss.info (x : Iss) (f : Fail) (lane : Nat) (c : Option (Cap × Nat)) : FaultInfo :=
  { code := f.code, detail := f.detail, addr := BitVec.ofNat 64 f.addr, pc := x.p.pc, core := unitCore x.u,
    slot := unitSlot x.u, slotB := x.b, lane := lane, cap := capOf f c, unit := some x.u, resume := some x.p.rewound.pc }

/-- KFLT0 to KFLT3 written (R438, R483). -/
def Grp.setKflt (g : Grp) (v : BitVec 256) : Grp :=
  (((g.ownW 0x0604 (v.extractLsb' 0 64)).ownW 0x0605 (v.extractLsb' 64 64)).ownW 0x0606 (v.extractLsb' 128 64)).ownW
    0x0607 (v.extractLsb' 192 64)

/-- The entries that a walk read before its fault may be cached (R422). -/
def State.cacheFault (s : State) (ag : Ag) (f : FaultInfo) : State :=
  match ag.aspace with
  | .tables root prot vd asid =>
      if (f.code = 8 ∨ f.code = 9) ∧ f.addr.toNat < imageBase then
        s.cacheWalk ag (leafFor s { ag with lane := f.lane } root prot vd asid f.addr.toNat).2
      else s
  | .boot | .none => s

/-- The path of a unit waits: PC kept (R44, R268), and a blocked path gives way to an acceptable record. -/
def State.block (s : State) (u : Nat) (b : Bool) (w : Wait) : State :=
  match find s.units u with
  | none => s
  | some g =>
      let g := g.setSlot b ((g.slot b).map (fun p => { p with wait := some w }))
      s.putU u (g.giveWay (s.genOf g) b)

/-- A context fault at the issuing path, before its instruction has any effect (R58, R436, R450, R483). An access that a
closed link has discarded waits for an answer (R453). -/
def State.raise (s : State) (x : Iss) (f : FaultInfo) : State :=
  if f.code = noAnswer then (s.dropped f.detail).block x.u x.b .lost else
  let s := s.cacheFault x.ag f
  match find s.units x.u with
  | none => s
  | some g =>
      if isControl x.u && g.level == .kernel then
        let f := { f with slot := 0, slotB := false, lane := 0 }
        let g := { g.setKflt (faultWord f s.freeVal) with
          x := trapRegs x.w x.p.hints x.p.pc (Config.freeNat (s.free + 1) % 5) }
        (s.draw.draw).kernelEntry x g
      else
        let s1 := match g.ctx with
          | none => s
          | some c => s.ctxFault c (s.inRegrow g.regrow f)
        let s2 := s1.stopUnit x.u
        if isControl x.u then
          match find s2.units x.u with
          | none => s2
          | some g => s2.putU x.u (g.reenter x.p.rewound.pc 2)
        else s2

/-- HANDLER_ILLEGAL (R59, R180). -/
def handlerIllegal : Fail := ⟨0x13, 0, 0⟩

/-- `trap_illegal()` and BRK, with a cause (R180, R183, R450, R483). -/
def State.trap (s : State) (x : Iss) (cause : Nat) : State :=
  match find s.units x.u with
  | none => s
  | some g0 =>
      let regs := trapRegs x.w x.p.hints x.p.pc cause
      let g := { x.g with x := regs }
      if isControl x.u then
        match g.level with
        | .kernel => s.kernelEntry x g
        | .user => s.putU x.u (g.reenter x.p.pc 1)
      else match g.kern.handler with
        | none => s.raise x (x.info handlerIllegal x.low none)
        | some entry =>
            if x.p.hnd then s.raise x (x.info handlerIllegal x.low none)
            else if g0.otherInHandler x.b then s.block x.u x.b .internal
            else
              let g := g.setSlot x.b ((g.slot x.b).map (fun p => { p.go entry with hnd := true }))
              s.putU x.u (g.settled (s.genOf g) x.b)

/-! Retiring. -/

/-- An instruction of a context retires (R58, R396, R397). -/
def State.noteRetire (s : State) (x : Iss) : State :=
  match x.g.ctx with
  | none => s
  | some c => s.modCtx c (fun k => { k with
      hang := match unitDie x.u with
        | none => k.hang
        | some d => del k.hang d
      deadlock := 0, lastPc := x.p.pc })

/-- The path continues at a PC with its group's new registers. -/
def State.retireTo (s : State) (x : Iss) (g : Grp) (pc : DWord) : State :=
  (s.putU x.u (g.goTo (s.genOf g) x.b pc)).noteRetire x

/-- What an instruction does in the end. -/
inductive Res where
  /-- It retires with the state and the group's registers; the path continues at the next word. -/
  | retire (s : State) (g : Grp)
  /-- It retires and the path continues at a PC. -/
  | goto (s : State) (g : Grp) (pc : DWord)
  /-- It retires; the state already holds the group and its paths. -/
  | done (s : State)
  /-- Some of its accesses have been made; it goes on with the rest. -/
  | part (s : State) (g : Grp) (pt : Progress)
  /-- It waits and has had no effect beyond the state given. -/
  | wait (s : State) (w : Wait)
  /-- It takes the trap with a cause, without effect. -/
  | trap (cause : Nat)
  /-- It raises a context fault, without effect. -/
  | fault (f : FaultInfo)
  /-- It raises a context fault after effects of other lanes (R248, R436: accesses performed stay performed). -/
  | faultIn (s : State) (f : FaultInfo)

/-- Every outcome of a machine step here. -/
abbrev Out := Host.Outcome State Fault Refusal

/-- The end of an issue. -/
def finish (s : State) (x : Iss) : Res → State
  | .retire t g => t.retireTo x g (x.p.pc + 4)
  | .goto t g pc => t.retireTo x g pc
  | .done t => t.noteRetire x
  | .part t g pt => t.putU x.u (g.setSlot x.b ((g.slot x.b).map (fun p => { p with part := some pt, wait := none })))
  | .wait t w => t.block x.u x.b w
  | .trap c => s.trap x c
  | .fault f => s.raise x f
  | .faultIn t f => t.raise x f

/-- Is the major privileged (R175)? -/
def privileged (op : Nat) : Bool := decide (0x38 ≤ op) && decide (op ≤ 0x3B)

/-- Is the word a legal encoding for this kernel and gang (R36, R169, R172, R194, R283)? -/
def legal (s : State) (x : Iss) (i : Sig) : Bool :=
  i.wf && i.vf.all (fieldOk x.g.kern.vregs)
    && i.cf.all (fun c => match x.g.gang with
        | none => false
        | some n => match find s.gangs n with
            | none => false
            | some k => decide (c < k.cribN))
    && (match i.shi with
        | some m => decide ((immOf x.p.hints m).toNat < 32)
        | none => true)

/-- The cause of the trap that a word takes before it executes (R481), or none. -/
def refuse (s : State) (x : Iss) (i : Sig) : Option Nat :=
  let op := major x.w
  if privileged op && x.g.level == .user then some 3
  else if op == 0x3F then
    if hintReserved x.w || !(legal s x i) then some 0 else if 4 ≤ x.p.hints.length then some 1 else none
  else if !(legal s x i) then some 0
  else if !(hintsFit i x.p.hints) then some 1
  else if op == 0x12 || op == 0x13 then some 2
  else none

/-- A fault of a check on a capability in q register `q`, at a lane. DEDUCED: notes/assumptions/80.md. -/
def Iss.fail (x : Iss) (f : Fail) (lane : Nat) (c : Cap) (q : Nat) : FaultInfo := x.info f lane (some (c, q))

/-- A fault that names no capability. -/
def Iss.failPlain (x : Iss) (f : Fail) (lane : Nat) : FaultInfo := x.info f lane none

/-! Registers that an instruction reads, by its word (R23, R172, R174): runs of a first register and a count; a register is
its number in a field, 128 + k for qk and 144 + k for pk. -/

/-- A q register, a predicate, and an offset register, which 127 leaves out, as runs. -/
def qRun (k : Nat) : List (Nat × Nat) := [(128 + k % 16, 1)]
def pRun (k : Nat) : List (Nat × Nat) := [(144 + k % 8, 1)]
def offRun (r : Nat) : List (Nat × Nat) := if r = 127 then [] else [(r, 1)]

/-- The capability holder of major 0x1B (R251). -/
def holderRun (r : Nat) : List (Nat × Nat) := if r < 96 then [(r, 4)] else qRun (r - 96)

/-- Arithmetic, majors 0x01 to 0x14. -/
def readArith (n op fn : Nat) : List (Nat × Nat) :=
  let d := fld n 14 7
  let a := fld n 7 7
  let b := fld n 0 7
  let two := [(a, 1), (b, 1)]
  let acc := (d, 1) :: two
  match op with
  | 0x01 => if fn = 0x11 ∨ fn = 0x12 then [(a, 2), (b, 2)] else if fn = 0x13 ∨ fn = 0x14 then [(a, 2), (b, 1)]
      else if fn = 0x15 then [(a, 1)] else two
  | 0x02 => if fn = 3 then [(a, 2), (b, 2)] else if fn = 4 then acc else two
  | 0x04 => if fn ≤ 3 then [(a, 1)] else if 6 ≤ fn then acc else two
  | 0x05 => if fn < 8 then pRun fn ++ two else if fn = 0x0D then [(a, 2)] else if fn = 0x0C then pRun a else pRun a ++ pRun b
  | 0x06 => if fn ≤ 1 then acc else if fn = 7 then [(a, 1)] else two
  | 0x07 => if fn / 4 = 7 then [] else [(fld n 9 7, 1)]
  | 0x09 => acc
  | 0x0A | 0x0B => if fn / 8 = 2 then acc else two
  | 0x0C => if 4 ≤ fn ∧ fn ≤ 6 then [(a, 1)] else two
  | 0x0D => [(a, 1)]
  | 0x0E => [(a, match fn / 8 with
      | 1 => (pkShape (cvtWidth (fld n 4 3)) (cvtWidth (fld n 0 4))).2.1
      | 3 => (pkShape (xiWidth (fld n 4 3)) (cvtWidth (fld n 0 4))).2.1
      | _ => 1)]
  | 0x0F => if fn = 0 then [(a, 1), (b, 3)] else two
  | 0x10 => if fn = 7 then [(a, 1)] else two
  | 0x11 => if 5 ≤ fn ∧ fn ≤ 7 then pRun a else [(a, 1)]
  | 0x12 => [(a, 2), (b, 2)]
  | 0x13 => [(d, 2), (a, 2), (b, 2)]
  | 0x14 => (a, 1) :: qRun b
  | _ => two

/-- Memory, waits and engines, majors 0x18 to 0x24. -/
def readMem (n op fn : Nat) : List (Nat × Nat) :=
  let a := fld n 7 7
  let b := fld n 0 7
  let md := fld n 16 7
  let ma := offRun (fld n 9 7)
  match op with
  | 0x18 => ma ++ qRun (fld n 5 4)
  | 0x19 => (md, if fn / 4 = 6 then 4 else if fn / 4 = 5 then 2 else 1) :: ma ++ qRun (fld n 5 4)
  | 0x1A => if fn / 4 < 4 then ma else (md, if fn / 4 = 6 then 4 else if fn / 4 = 5 then 2 else 1) :: ma
  | 0x1B => (if fn / 4 % 2 = 1 then holderRun md else []) ++ ma ++ (if fn / 4 < 2 then qRun (fld n 5 4) else [])
  | 0x1C => (if fn = 0x15 then []
      else [(fld n 14 7, if fn = 0x0D then 4 else if fn = 9 ∨ fn = 0x0C then 2 else 1)]) ++ offRun a ++ qRun b
  | 0x1E => match fn with
      | 3 | 7 => [(a, 1)]
      | 4 => (a, if bit n 4 then 2 else 1) :: qRun b
      | 5 => offRun a ++ (b, 1) :: (if bit n 18 then qRun (fld n 14 4) else [])
      | 0xB => qRun b
      | _ => []
  | 0x1F => (a, 1) :: qRun b
  | 0x20 => [(fld n 6 7, 1)]
  | 0x21 => match fn with
      | 0 => [(a, 4)]
      | 2 | 3 => (a, 1) :: qRun b
      | 5 => [(a, 2)]
      | 6 => [(a, 4)]
      | _ => []
  | 0x22 => if fn = 0 ∨ fn = 3 then (a, 1) :: qRun b else if fn = 1 then [(a, 1)] else []
  | 0x23 => if fn = 1 ∨ (fn = 0 ∧ fld n 14 7 = 0) then [(a, 1), (b, 1)] else [(a, 1)]
  | 0x24 => if fn = 6 then [] else if fn = 1 then qRun a ++ qRun b else qRun b
  | _ => []

/-- Capabilities, messages, control and the system, majors 0x28 to 0x3B. -/
def readSys (n op fn : Nat) : List (Nat × Nat) :=
  let d := fld n 14 7
  let a := fld n 7 7
  let b := fld n 0 7
  match op with
  | 0x28 =>
      if fn ≤ 4 then (a, if fn = 2 then 1 else 2) :: qRun b
      else if fn = 0x0A ∧ bit n 5 then [(a, 4)]
      else if fn = 0x0B then [] else if fn = 0x0C then qRun a ++ qRun b else qRun b
  | 0x29 => if fn ≤ 1 then qRun a ++ qRun b else if fn = 3 then qRun d ++ qRun b else qRun b
  | 0x2A => if fn = 0 ∨ fn = 2 ∨ fn = 3 ∨ fn = 4 then (a, 1) :: qRun b else qRun b
  | 0x2B => if fn = 1 then (a, 2) :: qRun b else if fn = 2 then [(a, 8)] else qRun b
  | 0x30 => match fn / 4 with
      | 1 | 2 => pRun (fld n 20 3)
      | 3 | 4 | 5 => pRun 0
      | _ => []
  | 0x31 => if fn / 4 = 1 then [(fld n 9 7, 1)] else []
  | 0x32 => [(a, 2)]
  | 0x33 => if fn = 1 then [(a, 1)] else []
  | 0x38 => if fn = 0 then [(a, 1)] else [(a, 1), (b, 2)]
  | 0x39 => if fn = 0 then [(a, 2), (b, 1)] else if fn = 1 ∧ d = 0 then [(b, 1)] else []
  | 0x3A => match fn with
      | 0 | 5 => (a, 2) :: qRun b
      | 2 => (a, 1) :: qRun b
      | _ => qRun b
  | 0x3B => if fn = 0 then (a, 1) :: qRun b else [(a, 1)]
  | _ => []

/-- The registers that a word names and reads, those that its pending hints read (R179), and the registers of a message
that its info word asks for (R78): a group's s and q registers, a control core's v registers. -/
def Iss.reads (x : Iss) : List Nat :=
  let n := x.w.toNat
  let op := major x.w
  let fn := fld n 21 5
  let runs :=
    (if op ≤ 0x14 then readArith n op fn else if op ≤ 0x24 then readMem n op fn else readSys n op fn)
      ++ (match hint? x.p.hints 1 with
        | some pay => pRun (fld pay 20 3)
        | none => [])
      ++ (if op = 0x2A ∧ (fn = 0 ∨ fn = 2 ∨ fn = 3 ∨ fn = 4) then
            let info := (x.g.rd (BitVec.ofNat 7 (fld n 7 7)) 0).toNat
            [(if isControl x.u then 0 else 96, min 8 (fld info 20 4)), (128, min 4 (fld info 24 3))]
          else [])
  runs.flatMap (fun r => (List.range r.2).map (r.1 + ·))

/-- Does an instruction read a register that holds an uncorrectable error (R23)? -/
def State.regError (s : State) (x : Iss) : Bool :=
  !s.errs.isEmpty && major x.w != 0x3F && x.reads.any (fun r => s.errs.contains (0, 2 ^ 8 * x.u + r))

/-- The issue of an encoded instruction: its checks, a GUARD that leaves no lane, then its own effect.
DESIGN CHOICE: notes/assumptions/75.md. -/
def issue (i : Sig) (s : State) (body : Iss → State → Res) : Out :=
  match s.issuer i.w with
  | none => .fault .noIssuer
  | some x =>
      .next (match refuse s x i with
        | some c => s.trap x c
        | none =>
            if s.regError x then s.raise x (x.failPlain ⟨0x18, 0, 0⟩ x.low)
            else if x.act = 0 ∧ major x.w ≠ 0x3F then s.retireTo x x.g (x.p.pc + 4) else finish s x (body x s))

/-- Registers only: the group's new value. -/
def issueG (i : Sig) (s : State) (f : Iss → Grp) : Out := issue i s (fun x s => .retire s (f x))

/-- Fetch of a word (R75, R168): the word and the pages walked, or the failure. A program capability that arrived from a peer
names the code there (R87). -/
def fetch (s : State) (g : Grp) (p : Path) : Except Fail (Word × Place) :=
  match capCheck g.pcc ((p.pc.toNat : Int) - g.pcc.cursor) 4 pEXEC with
  | .error f => .error f
  | .ok va =>
      if va % 4 ≠ 0 then .error ⟨0x04, 4, va⟩
      else match (match g.pccAt with
          | some m => s.peerPlace m va va 4
          | none => locate s (unitAg s.cur.1 s.cur.2 g) { x := true } va 4) with
        | .error f => .error f
        | .ok pl => .ok (BitVec.ofNat 32 (s.rkeys pl.keys), pl)

end Sys2Proof.Machine
end

