-- ==== Sys2Proof/Machine/Sigs.lean ====
section
/-! DEFINITION. What the checks of R481 read of the instructions whose constructors stand late in `Instr`: the same
values as `Instr.sig` gives (Laws/Sigs.lean), written without building the instruction, so that the meanings compile. -/
namespace Sys2Proof.Machine

/-- The signature of `csetb`. -/
def sigCsetb (d : BitVec 4) (a : Reg) (q : BitVec 4) : Sig :=
  { w := (10240#14 ++ d ++ a ++ 0#3 ++ q : BitVec 32), wf := a.isS && a.even }

/-- The signature of `csetbx`. -/
def sigCsetbx (d : BitVec 4) (a : Reg) (q : BitVec 4) : Sig :=
  { w := (10248#14 ++ d ++ a ++ 0#3 ++ q : BitVec 32), wf := a.isS && a.even }

/-- The signature of `candp`. -/
def sigCandp (d : BitVec 4) (a : Reg) (q : BitVec 4) : Sig :=
  { w := (10256#14 ++ d ++ a ++ 0#3 ++ q : BitVec 32), wf := a.isS }

/-- The signature of `cinc`. -/
def sigCinc (d : BitVec 4) (a : Reg) (q : BitVec 4) : Sig :=
  { w := (10264#14 ++ d ++ a ++ 0#3 ++ q : BitVec 32), wf := a.isS && a.even }

/-- The signature of `cseta`. -/
def sigCseta (d : BitVec 4) (a : Reg) (q : BitVec 4) : Sig :=
  { w := (10272#14 ++ d ++ a ++ 0#3 ++ q : BitVec 32), wf := a.isS && a.even }

/-- The signature of `cgetb`. -/
def sigCgetb (d : Reg) (q : BitVec 4) : Sig :=
  { w := (1285#11 ++ d ++ 0#10 ++ q : BitVec 32), wf := d.isS && d.even }

/-- The signature of `cgetbCur`. -/
def sigCgetbCur (d : Reg) (q : BitVec 4) : Sig :=
  { w := (1285#11 ++ d ++ 1#10 ++ q : BitVec 32), wf := d.isS && d.even }

/-- The signature of `cgetl`. -/
def sigCgetl (d : Reg) (q : BitVec 4) : Sig :=
  { w := (1286#11 ++ d ++ 0#10 ++ q : BitVec 32), wf := d.isS && d.even }

/-- The signature of `cgetp`. -/
def sigCgetp (d : Reg) (q : BitVec 4) : Sig :=
  { w := (1287#11 ++ d ++ 0#10 ++ q : BitVec 32), wf := d.isS }

/-- The signature of `cgeto`. -/
def sigCgeto (d : Reg) (q : BitVec 4) : Sig :=
  { w := (1288#11 ++ d ++ 0#10 ++ q : BitVec 32), wf := d.isS }

/-- The signature of `cgett`. -/
def sigCgett (d : Reg) (q : BitVec 4) : Sig :=
  { w := (1289#11 ++ d ++ 0#10 ++ q : BitVec 32), wf := d.isS }

/-- The signature of `cmov`. -/
def sigCmov (d : BitVec 4) (q : BitVec 4) : Sig :=
  { w := (10320#14 ++ d ++ 0#10 ++ q : BitVec 32) }

/-- The signature of `cmovToLanes`. -/
def sigCmovToLanes (d : Reg) (q : BitVec 4) : Sig :=
  { w := (1290#11 ++ d ++ 1#10 ++ q : BitVec 32), wf := d.isV && d.mul4, vf := [d] }

/-- The signature of `cmovFromLane`. -/
def sigCmovFromLane (d : BitVec 4) (a : Reg) : Sig :=
  { w := (10320#14 ++ d ++ a ++ 32#7 : BitVec 32), wf := a.isV && a.mul4, vf := [a] }

/-- The signature of `cclr`. -/
def sigCclr (d : BitVec 4) : Sig :=
  { w := (10328#14 ++ d ++ 0#14 : BitVec 32) }

/-- The signature of `ctstsub`. -/
def sigCtstsub (d : Reg) (a : BitVec 4) (q : BitVec 4) : Sig :=
  { w := (1292#11 ++ d ++ 0#3 ++ a ++ 0#3 ++ q : BitVec 32), wf := d.isS }

/-- The signature of `cseal`. -/
def sigCseal (d : BitVec 4) (a : BitVec 4) (q : BitVec 4) : Sig :=
  { w := (10496#14 ++ d ++ 0#3 ++ a ++ 0#3 ++ q : BitVec 32) }

/-- The signature of `cunseal`. -/
def sigCunseal (d : BitVec 4) (a : BitVec 4) (q : BitVec 4) : Sig :=
  { w := (10504#14 ++ d ++ 0#3 ++ a ++ 0#3 ++ q : BitVec 32) }

/-- The signature of `cseale`. -/
def sigCseale (d : BitVec 4) (q : BitVec 4) : Sig :=
  { w := (10512#14 ++ d ++ 0#10 ++ q : BitVec 32) }

/-- The signature of `cinvoke`. -/
def sigCinvoke (d : BitVec 4) (q : BitVec 4) : Sig :=
  { w := (10520#14 ++ d ++ 0#10 ++ q : BitVec 32) }

/-- The signature of `send`. -/
def sigSend (d : Reg) (a : Reg) (q : BitVec 4) : Sig :=
  { w := (1344#11 ++ d ++ a ++ 0#3 ++ q : BitVec 32), wf := d.isS && a.isS }

/-- The signature of `recv`. -/
def sigRecv (d : Reg) (q : BitVec 4) : Sig :=
  { w := (1345#11 ++ d ++ 0#10 ++ q : BitVec 32), wf := d.isS }

/-- The signature of `callMsg`. -/
def sigCallMsg (d : Reg) (a : Reg) (q : BitVec 4) : Sig :=
  { w := (1346#11 ++ d ++ a ++ 0#3 ++ q : BitVec 32), wf := d.isS && a.isS }

/-- The signature of `reply`. -/
def sigReply (d : Reg) (a : Reg) (q : BitVec 4) : Sig :=
  { w := (1347#11 ++ d ++ a ++ 0#3 ++ q : BitVec 32), wf := d.isS && a.isS }

/-- The signature of `nbsend`. -/
def sigNbsend (d : Reg) (a : Reg) (q : BitVec 4) : Sig :=
  { w := (1348#11 ++ d ++ a ++ 0#3 ++ q : BitVec 32), wf := d.isS && a.isS }

/-- The signature of `signal`. -/
def sigSignal (q : BitVec 4) : Sig :=
  { w := (176816128#28 ++ q : BitVec 32) }

/-- The signature of `waitn`. -/
def sigWaitn (d : Reg) (q : BitVec 4) : Sig :=
  { w := (1350#11 ++ d ++ 0#10 ++ q : BitVec 32), wf := d.isS }

/-- The signature of `spawn`. -/
def sigSpawn (d : Reg) (q : BitVec 4) : Sig :=
  { w := (1376#11 ++ d ++ 0#10 ++ q : BitVec 32), wf := d.isS }

/-- The signature of `join`. -/
def sigJoin (a : Reg) (q : BitVec 4) : Sig :=
  { w := (176256#18 ++ a ++ 0#3 ++ q : BitVec 32), wf := a.isS && a.even }

/-- The signature of `svc`. -/
def sigSvc (d : Reg) (a : Reg) : Sig :=
  { w := (1378#11 ++ d ++ a ++ 0#7 : BitVec 32), wf := d.isV && d.mul4 && a.isV && a.toNat % 8 == 0, vf := [d, a], guard := true }

/-- The signature of `revoke`. -/
def sigRevoke (d : Reg) (q : BitVec 4) : Sig :=
  { w := (1379#11 ++ d ++ 0#10 ++ q : BitVec 32), wf := d.isS && d.even }

/-- The signature of `bra`. -/
def sigBra (o : BitVec 20) : Sig :=
  { w := (3072#12 ++ o : BitVec 32) }

/-- The signature of `brp`. -/
def sigBrp (p : BitVec 3) (o : BitVec 20) : Sig :=
  { w := (385#9 ++ p ++ o : BitVec 32) }

/-- The signature of `brn`. -/
def sigBrn (p : BitVec 3) (o : BitVec 20) : Sig :=
  { w := (386#9 ++ p ++ o : BitVec 32) }

/-- The signature of `brall`. -/
def sigBrall (o : BitVec 20) : Sig :=
  { w := (3096#12 ++ o : BitVec 32) }

/-- The signature of `brany`. -/
def sigBrany (o : BitVec 20) : Sig :=
  { w := (3104#12 ++ o : BitVec 32) }

/-- The signature of `brnone`. -/
def sigBrnone (o : BitVec 20) : Sig :=
  { w := (3112#12 ++ o : BitVec 32) }

/-- The signature of `branchCall`. -/
def sigBranchCall (o : BitVec 20) : Sig :=
  { w := (3120#12 ++ o : BitVec 32) }

/-- The signature of `recMark`. -/
def sigRecMark (imm : BitVec 9) : Sig :=
  { w := (6422528#23 ++ imm : BitVec 32) }

/-- The signature of `path`. -/
def sigPath (a : Reg) (imm : BitVec 9) : Sig :=
  { w := (50304#16 ++ a ++ imm : BitVec 32), vf := [a] }

/-- The signature of `pyield`. -/
def sigPyield : Sig :=
  { w := (3305111552#32 : BitVec 32) }

/-- The signature of `ret`. -/
def sigRet (a : Reg) : Sig :=
  { w := (204800#18 ++ a ++ 0#7 : BitVec 32), wf := a.even, vf := [a] }

/-- The signature of `jmpr`. -/
def sigJmpr (a : Reg) : Sig :=
  { w := (204928#18 ++ a ++ 0#7 : BitVec 32), wf := a.even, vf := [a] }

/-- The signature of `callr`. -/
def sigCallr (d : Reg) (a : Reg) : Sig :=
  { w := (1602#11 ++ d ++ a ++ 0#7 : BitVec 32), wf := Reg.dst1 d a && d.even && a.even, vf := [d, a] }

/-- The signature of `srd`. -/
def sigSrd (d : Reg) (b : Reg) : Sig :=
  { w := (1632#11 ++ d ++ 0#7 ++ b : BitVec 32), wf := srdOk d b, vf := [d] }

/-- The signature of `swr`. -/
def sigSwr (a : Reg) (b : Reg) : Sig :=
  { w := (209024#18 ++ a ++ b : BitVec 32), wf := a.isS && (b == 6#7 || b == 7#7 || b == 8#7) }

/-- The signature of `xretRetry`. -/
def sigXretRetry : Sig :=
  { w := (3426746368#32 : BitVec 32) }

/-- The signature of `xretSkip`. -/
def sigXretSkip : Sig :=
  { w := (3426746369#32 : BitVec 32) }

/-- The signature of `nop`. -/
def sigNop : Sig :=
  { w := (3428843520#32 : BitVec 32) }

/-- The signature of `exit`. -/
def sigExit : Sig :=
  { w := (3430940672#32 : BitVec 32) }

/-- The signature of `brk`. -/
def sigBrk (b : Reg) : Sig :=
  { w := (26820608#25 ++ b : BitVec 32) }

/-- The signature of `clock`. -/
def sigClock (d : Reg) : Sig :=
  { w := (1638#11 ++ d ++ 0#14 : BitVec 32), wf := d.isS && d.even }

/-- The signature of `role`. -/
def sigRole (r : BitVec 2) : Sig :=
  { w := (859308032#30 ++ r : BitVec 32), wf := decide (r.toNat ≤ 2) }

/-- The signature of `sysrd`. -/
def sigSysrd (d : Reg) (a : Reg) : Sig :=
  { w := (1792#11 ++ d ++ a ++ 0#7 : BitVec 32), wf := d.isS && d.even && a.isS }

/-- The signature of `syswr`. -/
def sigSyswr (d : Reg) (a : Reg) (b : Reg) : Sig :=
  { w := (1793#11 ++ d ++ a ++ b : BitVec 32), wf := d.isS && a.isS && b.isS && b.even }

/-- The signature of `tlbinv`. -/
def sigTlbinv (a : Reg) (b : Reg) : Sig :=
  { w := (233472#18 ++ a ++ b : BitVec 32), wf := a.isS && a.even && b.isS }

/-- The signature of `tlbinva`. -/
def sigTlbinva (b : Reg) : Sig :=
  { w := (29900800#25 ++ b : BitVec 32), wf := b.isS }

/-- The signature of `tlbinvaAll`. -/
def sigTlbinvaAll : Sig :=
  { w := (3827318784#32 : BitVec 32) }

/-- The signature of `ptwsync`. -/
def sigPtwsync : Sig :=
  { w := (3829399552#32 : BitVec 32) }

/-- The signature of `eret`. -/
def sigEret (d : Reg) (a : Reg) (q : BitVec 4) : Sig :=
  { w := (1856#11 ++ d ++ a ++ 0#3 ++ q : BitVec 32), wf := d.isS && a.isS && a.even }

/-- The signature of `haltctx`. -/
def sigHaltctx (d : Reg) (q : BitVec 4) : Sig :=
  { w := (1857#11 ++ d ++ 0#10 ++ q : BitVec 32), wf := d.isS }

/-- The signature of `haltctxSave`. -/
def sigHaltctxSave (d : Reg) (q : BitVec 4) : Sig :=
  { w := (1857#11 ++ d ++ 1#10 ++ q : BitVec 32), wf := d.isS }

/-- The signature of `resumectx`. -/
def sigResumectx (d : Reg) (a : Reg) (q : BitVec 4) : Sig :=
  { w := (1858#11 ++ d ++ a ++ 0#3 ++ q : BitVec 32), wf := d.isS && a.isS }

/-- The signature of `stoprd`. -/
def sigStoprd (d : BitVec 4) (q : BitVec 4) : Sig :=
  { w := (14872#14 ++ d ++ 0#10 ++ q : BitVec 32) }

/-- The signature of `qdrain`. -/
def sigQdrain (d : Reg) (q : BitVec 4) : Sig :=
  { w := (1860#11 ++ d ++ 0#10 ++ q : BitVec 32), wf := d.isS }

/-- The signature of `objnew`. -/
def sigObjnew (d : BitVec 4) (a : Reg) (q : BitVec 4) : Sig :=
  { w := (14888#14 ++ d ++ a ++ 0#3 ++ q : BitVec 32), wf := a.isS && a.even }

/-- The signature of `pload`. -/
def sigPload (d : Reg) (a : Reg) (q : BitVec 4) : Sig :=
  { w := (1888#11 ++ d ++ a ++ 0#3 ++ q : BitVec 32), wf := d.isS && a.isS }

/-- The signature of `pswap`. -/
def sigPswap (d : Reg) (a : Reg) : Sig :=
  { w := (1889#11 ++ d ++ a ++ 0#7 : BitVec 32), wf := d.isS && a.isS }

/-- The signature of `pstat`. -/
def sigPstat (d : Reg) (a : Reg) (b : Reg) : Sig :=
  { w := (1890#11 ++ d ++ a ++ b : BitVec 32), wf := d.isS && d.even && a.isS && decide (b.toNat ≤ 4) }

/-- The signature of `imm`. -/
def sigImm (h : BitVec 23) : Sig :=
  { w := (504#9 ++ h : BitVec 32) }

/-- The signature of `guard`. -/
def sigGuard (p : BitVec 3) (n : BitVec 1) : Sig :=
  { w := (505#9 ++ p ++ n ++ 0#19 : BitVec 32) }

/-- The signature of `sched`. -/
def sigSched (s : BitVec 4) (y : BitVec 1) (r : BitVec 3) : Sig :=
  { w := (506#9 ++ s ++ y ++ r ++ 0#15 : BitVec 32) }

/-- The signature of `rmode`. -/
def sigRmode (rm : BitVec 3) (t : BitVec 2) : Sig :=
  { w := (507#9 ++ rm ++ t ++ 0#18 : BitVec 32), wf := rm != 7#3 && t != 3#2 }

/-- The signature of `chainop`. -/
def sigChainop (a : BitVec 11) (b : BitVec 11) : Sig :=
  { w := (1016#10 ++ a ++ b : BitVec 32), wf := chainOpOk a && (b == 0#11 || chainOpOk b) }

/-- The signature of `offhi`. -/
def sigOffhi (h : BitVec 23) : Sig :=
  { w := (509#9 ++ h : BitVec 32) }

/-- The signature of `matx`. -/
def sigMatx (k : BitVec 10) (start : BitVec 7) (strm : BitVec 2) : Sig :=
  { w := (510#9 ++ k ++ start ++ strm ++ 0#4 : BitVec 32), wf := strm != 3#2 }

end Sys2Proof.Machine
end

