-- ==== Sys2Proof/Machine/IntAlu.lean ====
section
/-! DEFINITION. Integer, compare, bit, predicate and packed 16-bit instructions, majors 0x01 to 0x07 (R192 to R199). -/
namespace Sys2Proof.Machine

/-! Word operations (R193, R195, R197, R199). -/

def shlW32 (a : Word) (n : Nat) : Word := if n < 32 then a <<< n else 0
def shrW32 (a : Word) (n : Nat) : Word := if n < 32 then a >>> n else 0
def sarW32 (a : Word) (n : Nat) : Word := if n < 32 then a.sshiftRight n else if a.msb then 0xFFFF_FFFF#32 else 0
def rotlW32 (a : Word) (n : Nat) : Word := a.rotateLeft (n % 32)

/-- Signed 32-bit saturation with SATI (R9). -/
def sat32 (x : Int) : Word × Nat := let r := satI x (-(2 ^ 31)) (2 ^ 31 - 1); (word r.1, r.2)

/-- sat16 (R199). -/
def sat16 (x : Int) : Int × Nat := satI x (-32768) 32767

/-- |a.S - b.S| (R193). -/
def absdW (a b : Word) : Word := BitVec.ofNat 32 (a.toInt - b.toInt).natAbs

def divSW (a b : Word) : Word :=
  if b = 0 then 0xFFFF_FFFF#32 else if a = 0x8000_0000#32 ∧ b = 0xFFFF_FFFF#32 then 0x8000_0000#32
  else word (a.toInt.tdiv b.toInt)
def divNW (a b : Word) : Word := if b = 0 then 0xFFFF_FFFF#32 else a / b
def remSW (a b : Word) : Word :=
  if b = 0 then a else if a = 0x8000_0000#32 ∧ b = 0xFFFF_FFFF#32 then 0 else word (a.toInt.tmod b.toInt)
def remNW (a b : Word) : Word := if b = 0 then a else a % b

/-- Number of leading zero bits. -/
def clzW (a : Word) : Word := if a = 0 then 32 else BitVec.ofNat 32 (31 - a.toNat.log2)

/-- Number of trailing zero bits. -/
def ctzW (a : Word) : Word := BitVec.ofNat 32 (((List.range 32).find? (fun i => a.getLsbD i)).getD 32)

/-- Bit i moved to bit 31 - i. -/
def brevW (a : Word) : Word :=
  BitVec.ofNat 32 ((List.range 32).foldl (fun n i => n + (if a.getLsbD i then 2 ^ (31 - i) else 0)) 0)

/-- pos and w of the field forms (R197). -/
def bfPos (b : Word) : Nat := fld b.toNat 0 5
def bfLen (b : Word) : Nat := min (fld b.toNat 8 6) (32 - bfPos b)

def bfeNW (a b : Word) : Word := BitVec.ofNat 32 (fld a.toNat (bfPos b) (bfLen b))
def bfeSW (a b : Word) : Word := if bfLen b = 0 then 0 else word (sint (bfLen b) (fld a.toNat (bfPos b) (bfLen b)))
def bfiW (a b d : Word) : Word :=
  let m := (BitVec.ofNat 32 (2 ^ bfLen b - 1)) <<< bfPos b
  (d &&& ~~~m) ||| ((a <<< bfPos b) &&& m)

/-- Byte i by selector k of b: bytes 0 to 3 of a, 4 to 7 of d, zero above (R197). -/
def permbW (a b d : Word) : Word :=
  let pick (i : Nat) : Nat :=
    let k := fld b.toNat (4 * i) 4
    if k < 4 then fld a.toNat (8 * k) 8 else if k < 8 then fld d.toNat (8 * (k - 4)) 8 else 0
  BitVec.ofNat 32 (pick 0 + 2 ^ 8 * pick 1 + 2 ^ 16 * pick 2 + 2 ^ 24 * pick 3)

/-- The I16 elements of a word (R95). -/
def el16 (a : Word) (i : Nat) : Int := sint 16 (fld a.toNat (16 * i) 16)

/-- Two 16-bit elements in a word. -/
def pk16 (x y : Int) : Word := BitVec.ofNat 32 (wrap 16 x + 2 ^ 16 * wrap 16 y)

/-- An operation on each of the two elements, saturated (R199). -/
def each16 (f : Int → Int → Int) (a b : Word) : Word × Nat :=
  let x := sat16 (f (el16 a 0) (el16 b 0))
  let y := sat16 (f (el16 a 1) (el16 b 1))
  (pk16 x.1 y.1, x.2 ||| y.2)

/-- rna(x / 2^n): to nearest, ties away from zero (R199). -/
def rnaDiv (x : Int) (n : Nat) : Int :=
  let m := (2 * x.natAbs + 2 ^ n) / 2 ^ (n + 1)
  if x < 0 then -(m : Int) else m

/-- The sum of products of DMAC2, exact. -/
def dmacSum (d : Int) (a b : Word) : Int := d + el16 a 0 * el16 b 0 + el16 a 1 * el16 b 1

/-! Destinations. -/

/-- The lanes a destination is computed for: the active lanes, or once (R173). -/
def Iss.dst (x : Iss) (d : Reg) : List Nat := if d.isV then x.lanes else [0]

/-- A destination from one, two and three (with the old destination) operands. -/
def Iss.un (x : Iss) (d a : Reg) (f : Word → Word) : Grp := x.g.wr d x.lanes (fun l => f (x.g.rd a l))
def Iss.bin (x : Iss) (d a b : Reg) (f : Word → Word → Word) : Grp :=
  x.g.wr d x.lanes (fun l => f (x.g.rd a l) (x.g.rd b l))
def Iss.tri (x : Iss) (d a b : Reg) (f : Word → Word → Word → Word) : Grp :=
  x.g.wr d x.lanes (fun l => f (x.g.rd a l) (x.g.rd b l) (x.g.rd d l))

/-- The flags raised in any lane that executes (R100). -/
def Iss.flags (x : Iss) (d : Reg) (f : Nat → Nat) : Nat := (x.dst d).foldl (fun n l => n ||| f l) 0

/-- A destination with flags. -/
def Iss.mapF (x : Iss) (d : Reg) (f : Nat → Word × Nat) : Grp :=
  (x.g.wr d x.lanes (fun l => (f l).1)).raise (x.flags d (fun l => (f l).2))
def Iss.binF (x : Iss) (d a b : Reg) (f : Word → Word → Word × Nat) : Grp :=
  x.mapF d (fun l => f (x.g.rd a l) (x.g.rd b l))
def Iss.triF (x : Iss) (d a b : Reg) (f : Word → Word → Word → Word × Nat) : Grp :=
  x.mapF d (fun l => f (x.g.rd a l) (x.g.rd b l) (x.g.rd d l))

/-- A pair destination from pairs. -/
def Iss.binW (x : Iss) (d a b : Reg) (f : DWord → DWord → DWord) : Grp :=
  x.g.wr2 d x.lanes (fun l => f (x.g.rd2 a l) (x.g.rd2 b l))

/-- A pair destination from a pair and a single register. -/
def Iss.shW (x : Iss) (d a b : Reg) (f : DWord → Nat → DWord) : Grp :=
  x.g.wr2 d x.lanes (fun l => f (x.g.rd2 a l) (x.g.rd b l).toNat)

/-- A predicate destination: the bit of each active lane (R173, R196). -/
def Iss.cmp (x : Iss) (p : BitVec 3) (a b : Reg) (f : Word → Word → Bool) : Grp :=
  x.g.pw p.toNat x.act (maskWhere x.g.width (fun l => f (x.g.rd a l) (x.g.rd b l)))

/-- A logical form on predicates (R198). -/
def Iss.plog (x : Iss) (d a b : BitVec 3) (f : DWord → DWord → DWord) : Grp :=
  x.g.pw d.toNat x.act (f (x.g.pr a.toNat) (x.g.pr b.toNat))

/-- A destination from an operand and the immediate (R194). -/
def Iss.immOp (x : Iss) (d a : Reg) (imm : BitVec 9) (f : Word → Word → Word) : Grp :=
  x.g.wr d x.lanes (fun l => f (x.g.rd a l) (immOf x.p.hints imm))


/-! Major 0x01. -/

/-- ADD (R193). -/
def execAdd (d a b : Reg) (s : State) : Out :=
  issueG (Instr.sig (.add d a b)) s (fun x => x.bin d a b (· + ·))

/-- SUB (R193). -/
def execSub (d a b : Reg) (s : State) : Out :=
  issueG (Instr.sig (.sub d a b)) s (fun x => x.bin d a b (· - ·))

/-- MIN_S (R193). -/
def execMinS (d a b : Reg) (s : State) : Out :=
  issueG (Instr.sig (.minS d a b)) s (fun x => x.bin d a b (fun a b => if a.slt b then a else b))

/-- MIN_N (R193). -/
def execMinN (d a b : Reg) (s : State) : Out :=
  issueG (Instr.sig (.minN d a b)) s (fun x => x.bin d a b (fun a b => if a < b then a else b))

/-- MAX_S (R193). -/
def execMaxS (d a b : Reg) (s : State) : Out :=
  issueG (Instr.sig (.maxS d a b)) s (fun x => x.bin d a b (fun a b => if a.slt b then b else a))

/-- MAX_N (R193). -/
def execMaxN (d a b : Reg) (s : State) : Out :=
  issueG (Instr.sig (.maxN d a b)) s (fun x => x.bin d a b (fun a b => if a < b then b else a))

/-- AND (R193). -/
def execAnd (d a b : Reg) (s : State) : Out :=
  issueG (Instr.sig (.and d a b)) s (fun x => x.bin d a b (· &&& ·))

/-- OR (R193). -/
def execOr (d a b : Reg) (s : State) : Out :=
  issueG (Instr.sig (.or d a b)) s (fun x => x.bin d a b (· ||| ·))

/-- XOR (R193). -/
def execXor (d a b : Reg) (s : State) : Out :=
  issueG (Instr.sig (.xor d a b)) s (fun x => x.bin d a b (· ^^^ ·))

/-- ANDN (R193). -/
def execAndn (d a b : Reg) (s : State) : Out :=
  issueG (Instr.sig (.andn d a b)) s (fun x => x.bin d a b (fun a b => a &&& ~~~b))

/-- SHL (R193). -/
def execShl (d a b : Reg) (s : State) : Out :=
  issueG (Instr.sig (.shl d a b)) s (fun x => x.bin d a b (fun a b => shlW32 a b.toNat))

/-- SHR (R193). -/
def execShr (d a b : Reg) (s : State) : Out :=
  issueG (Instr.sig (.shr d a b)) s (fun x => x.bin d a b (fun a b => shrW32 a b.toNat))

/-- SAR (R193). -/
def execSar (d a b : Reg) (s : State) : Out :=
  issueG (Instr.sig (.sar d a b)) s (fun x => x.bin d a b (fun a b => sarW32 a b.toNat))

/-- ROTL (R193). -/
def execRotl (d a b : Reg) (s : State) : Out :=
  issueG (Instr.sig (.rotl d a b)) s (fun x => x.bin d a b (fun a b => rotlW32 a b.toNat))

/-- ABSD (R193). -/
def execAbsd (d a b : Reg) (s : State) : Out :=
  issueG (Instr.sig (.absd d a b)) s (fun x => x.bin d a b (absdW))

/-- ADDS (R193). -/
def execAdds (d a b : Reg) (s : State) : Out :=
  issueG (Instr.sig (.adds d a b)) s (fun x => x.binF d a b (fun a b => sat32 (a.toInt + b.toInt)))

/-- SUBS (R193). -/
def execSubs (d a b : Reg) (s : State) : Out :=
  issueG (Instr.sig (.subs d a b)) s (fun x => x.binF d a b (fun a b => sat32 (a.toInt - b.toInt)))

/-- ADD_W (R193). -/
def execAddW (d a b : Reg) (s : State) : Out :=
  issueG (Instr.sig (.addW d a b)) s (fun x => x.binW d a b (· + ·))

/-- SUB_W (R193). -/
def execSubW (d a b : Reg) (s : State) : Out :=
  issueG (Instr.sig (.subW d a b)) s (fun x => x.binW d a b (· - ·))

/-- SHL_W (R193). -/
def execShlW (d a b : Reg) (s : State) : Out :=
  issueG (Instr.sig (.shlW d a b)) s (fun x => x.shW d a b (fun a n => if n < 64 then a <<< n else 0))

/-- SHR_W (R193). -/
def execShrW (d a b : Reg) (s : State) : Out :=
  issueG (Instr.sig (.shrW d a b)) s (fun x => x.shW d a b (fun a n => if n < 64 then a >>> n else 0))

/-- MOV (R193). -/
def execMov (d a : Reg) (s : State) : Out :=
  issueG (Instr.sig (.mov d a)) s (fun x => x.un d a id)

/-! Major 0x02. -/

/-- MUL (R195). -/
def execMul (d a b : Reg) (s : State) : Out :=
  issueG (Instr.sig (.mul d a b)) s (fun x => x.bin d a b (· * ·))

/-- MULH_S (R195). -/
def execMulhS (d a b : Reg) (s : State) : Out :=
  issueG (Instr.sig (.mulhS d a b)) s (fun x => x.bin d a b (fun a b => word (floorDiv (a.toInt * b.toInt) (2 ^ 32))))

/-- MULH_N (R195). -/
def execMulhN (d a b : Reg) (s : State) : Out :=
  issueG (Instr.sig (.mulhN d a b)) s (fun x => x.bin d a b (fun a b => BitVec.ofNat 32 (a.toNat * b.toNat / 2 ^ 32)))

/-- DIV_S (R195). -/
def execDivS (d a b : Reg) (s : State) : Out :=
  issueG (Instr.sig (.divS d a b)) s (fun x => x.bin d a b (divSW))

/-- DIV_N (R195). -/
def execDivN (d a b : Reg) (s : State) : Out :=
  issueG (Instr.sig (.divN d a b)) s (fun x => x.bin d a b (divNW))

/-- REM_S (R195). -/
def execRemS (d a b : Reg) (s : State) : Out :=
  issueG (Instr.sig (.remS d a b)) s (fun x => x.bin d a b (remSW))

/-- REM_N (R195). -/
def execRemN (d a b : Reg) (s : State) : Out :=
  issueG (Instr.sig (.remN d a b)) s (fun x => x.bin d a b (remNW))

/-- MUL_W (R195). -/
def execMulW (d a b : Reg) (s : State) : Out :=
  issueG (Instr.sig (.mulW d a b)) s (fun x => x.binW d a b (· * ·))

/-- MAD (R195). -/
def execMad (d a b : Reg) (s : State) : Out :=
  issueG (Instr.sig (.mad d a b)) s (fun x => x.tri d a b (fun a b d => a * b + d))

/-! Major 0x03. -/

/-- EQ (R196). -/
def execEq (p : BitVec 3) (a b : Reg) (s : State) : Out :=
  issueG (Instr.sig (.eq p a b)) s (fun x => x.cmp p a b (fun a b => a == b))

/-- NE (R196). -/
def execNe (p : BitVec 3) (a b : Reg) (s : State) : Out :=
  issueG (Instr.sig (.ne p a b)) s (fun x => x.cmp p a b (fun a b => a != b))

/-- LT_S (R196). -/
def execLtS (p : BitVec 3) (a b : Reg) (s : State) : Out :=
  issueG (Instr.sig (.ltS p a b)) s (fun x => x.cmp p a b (fun a b => a.slt b))

/-- LE_S (R196). -/
def execLeS (p : BitVec 3) (a b : Reg) (s : State) : Out :=
  issueG (Instr.sig (.leS p a b)) s (fun x => x.cmp p a b (fun a b => !(b.slt a)))

/-- LT_N (R196). -/
def execLtN (p : BitVec 3) (a b : Reg) (s : State) : Out :=
  issueG (Instr.sig (.ltN p a b)) s (fun x => x.cmp p a b (fun a b => decide (a < b)))

/-- LE_N (R196). -/
def execLeN (p : BitVec 3) (a b : Reg) (s : State) : Out :=
  issueG (Instr.sig (.leN p a b)) s (fun x => x.cmp p a b (fun a b => decide (a ≤ b)))

/-- TST (R196). -/
def execTst (p : BitVec 3) (a b : Reg) (s : State) : Out :=
  issueG (Instr.sig (.tst p a b)) s (fun x => x.cmp p a b (fun a b => a &&& b != 0))

/-- TSTZ (R196). -/
def execTstz (p : BitVec 3) (a b : Reg) (s : State) : Out :=
  issueG (Instr.sig (.tstz p a b)) s (fun x => x.cmp p a b (fun a b => a &&& b == 0))

/-! Major 0x04. -/

/-- POPC (R197). -/
def execPopc (d a : Reg) (s : State) : Out :=
  issueG (Instr.sig (.popc d a)) s (fun x => x.un d a (fun a => BitVec.ofNat 32 (popcount 32 a.toNat)))

/-- CLZ (R197). -/
def execClz (d a : Reg) (s : State) : Out :=
  issueG (Instr.sig (.clz d a)) s (fun x => x.un d a (clzW))

/-- CTZ (R197). -/
def execCtz (d a : Reg) (s : State) : Out :=
  issueG (Instr.sig (.ctz d a)) s (fun x => x.un d a (ctzW))

/-- BREV (R197). -/
def execBrev (d a : Reg) (s : State) : Out :=
  issueG (Instr.sig (.brev d a)) s (fun x => x.un d a (brevW))

/-- BFE_S (R197). -/
def execBfeS (d a b : Reg) (s : State) : Out :=
  issueG (Instr.sig (.bfeS d a b)) s (fun x => x.bin d a b bfeSW)

/-- BFE_N (R197). -/
def execBfeN (d a b : Reg) (s : State) : Out :=
  issueG (Instr.sig (.bfeN d a b)) s (fun x => x.bin d a b bfeNW)

/-- BFI (R197). -/
def execBfi (d a b : Reg) (s : State) : Out :=
  issueG (Instr.sig (.bfi d a b)) s (fun x => x.tri d a b bfiW)

/-- PERMB (R197). -/
def execPermb (d a b : Reg) (s : State) : Out :=
  issueG (Instr.sig (.permb d a b)) s (fun x => x.tri d a b permbW)

/-! Major 0x05. -/

/-- SEL (R198). -/
def execSel (k : BitVec 3) (d a b : Reg) (s : State) : Out :=
  issueG (Instr.sig (.sel k d a b)) s (fun x => 
    x.g.wr d x.lanes (fun l => if (x.g.pr k.toNat).getLsbD l then x.g.rd a l else x.g.rd b l))

/-- PAND (R198). -/
def execPand (d a b : BitVec 3) (s : State) : Out :=
  issueG (Instr.sig (.pand d a b)) s (fun x => x.plog d a b (· &&& ·))

/-- POR (R198). -/
def execPor (d a b : BitVec 3) (s : State) : Out :=
  issueG (Instr.sig (.por d a b)) s (fun x => x.plog d a b (· ||| ·))

/-- PXOR (R198). -/
def execPxor (d a b : BitVec 3) (s : State) : Out :=
  issueG (Instr.sig (.pxor d a b)) s (fun x => x.plog d a b (· ^^^ ·))

/-- PANDN (R198). -/
def execPandn (d a b : BitVec 3) (s : State) : Out :=
  issueG (Instr.sig (.pandn d a b)) s (fun x => x.plog d a b (fun a b => a &&& ~~~b))

/-- P2S (R198). -/
def execP2s (d : Reg) (a : BitVec 3) (s : State) : Out :=
  issueG (Instr.sig (.p2s d a)) s (fun x => x.g.wr2 d x.lanes (fun _ => x.g.pr a.toNat))

/-- S2P (R198). -/
def execS2p (d : BitVec 3) (a : Reg) (s : State) : Out :=
  issueG (Instr.sig (.s2p d a)) s (fun x => x.g.pw d.toNat x.act (x.g.rd2 a 0))

/-! Major 0x06. -/

/-- DMAC2_SS (R199). -/
def execDmac2Ss (d a b : Reg) (s : State) : Out :=
  issueG (Instr.sig (.dmac2Ss d a b)) s (fun x => x.triF d a b (fun a b d => sat32 (dmacSum d.toInt a b)))

/-- DMAC2 (R199). -/
def execDmac2 (d a b : Reg) (s : State) : Out :=
  issueG (Instr.sig (.dmac2 d a b)) s (fun x => x.tri d a b (fun a b d => word (dmacSum d.toInt a b)))

/-- ADD2_S (R199). -/
def execAdd2S (d a b : Reg) (s : State) : Out :=
  issueG (Instr.sig (.add2S d a b)) s (fun x => x.binF d a b (each16 (· + ·)))

/-- SUB2_S (R199). -/
def execSub2S (d a b : Reg) (s : State) : Out :=
  issueG (Instr.sig (.sub2S d a b)) s (fun x => x.binF d a b (each16 (· - ·)))

/-- MUL2_Q15 (R199). -/
def execMul2Q15 (d a b : Reg) (s : State) : Out :=
  issueG (Instr.sig (.mul2Q15 d a b)) s (fun x => x.binF d a b (each16 (fun p q => rnaDiv (p * q) 15)))

/-- SHRR (R199). -/
def execShrr (d a b : Reg) (s : State) : Out :=
  issueG (Instr.sig (.shrr d a b)) s (fun x => 
    x.binF d a b (fun a b => let r := sat16 (rnaDiv a.toInt (fld b.toNat 0 5)); (word r.1, r.2)))

/-- PACK2_S (R199). -/
def execPack2S (d a b : Reg) (s : State) : Out :=
  issueG (Instr.sig (.pack2S d a b)) s (fun x => 
    x.binF d a b (fun a b => let p := sat16 a.toInt; let q := sat16 b.toInt; (pk16 p.1 q.1, p.2 ||| q.2)))

/-- UNPK2 (R199). -/
def execUnpk2 (d a : Reg) (s : State) : Out :=
  issueG (Instr.sig (.unpk2 d a)) s (fun x => 
    x.g.wrRun d x.lanes (fun l k => word (el16 (x.g.rd a l) k)) 2)

/-! Major 0x07. -/

/-- ADDI (R194). -/
def execAddi (d a : Reg) (imm : BitVec 9) (s : State) : Out :=
  issueG (Instr.sig (.addi d a imm)) s (fun x => x.immOp d a imm (· + ·))

/-- ANDI (R194). -/
def execAndi (d a : Reg) (imm : BitVec 9) (s : State) : Out :=
  issueG (Instr.sig (.andi d a imm)) s (fun x => x.immOp d a imm (· &&& ·))

/-- ORI (R194). -/
def execOri (d a : Reg) (imm : BitVec 9) (s : State) : Out :=
  issueG (Instr.sig (.ori d a imm)) s (fun x => x.immOp d a imm (· ||| ·))

/-- XORI (R194). -/
def execXori (d a : Reg) (imm : BitVec 9) (s : State) : Out :=
  issueG (Instr.sig (.xori d a imm)) s (fun x => x.immOp d a imm (· ^^^ ·))

/-- SHLI (R194). -/
def execShli (d a : Reg) (imm : BitVec 9) (s : State) : Out :=
  issueG (Instr.sig (.shli d a imm)) s (fun x => x.immOp d a imm (fun a n => shlW32 a n.toNat))

/-- SHRI (R194). -/
def execShri (d a : Reg) (imm : BitVec 9) (s : State) : Out :=
  issueG (Instr.sig (.shri d a imm)) s (fun x => x.immOp d a imm (fun a n => shrW32 a n.toNat))

/-- SARI (R194). -/
def execSari (d a : Reg) (imm : BitVec 9) (s : State) : Out :=
  issueG (Instr.sig (.sari d a imm)) s (fun x => x.immOp d a imm (fun a n => sarW32 a n.toNat))

/-- MOVI (R194). -/
def execMovi (d : Reg) (imm : BitVec 9) (s : State) : Out :=
  issueG (Instr.sig (.movi d imm)) s (fun x => x.g.wr d x.lanes (fun _ => immOf x.p.hints imm))

end Sys2Proof.Machine
end

