-- ==== Sys2Proof/Machine/Sfu.lean ====
section
/-! DEFINITION. The special functions of R226 and R227, correctly rounded to nearest: each value is enclosed between
two integers scaled by 2^-P, both ends are rounded to FP32, and P grows until the two results agree. -/
namespace Sys2Proof.Machine

/-- Σ_{k ≥ 0} of terms t_k, t_{k+1} = t_k × x ÷ 2^p ÷ (k + 1): exp of x/2^p, scaled by 2^p. -/
def expSeries (p x : Nat) : Nat → Nat → Nat → Nat
  | 0, _, _ => 0
  | fuel + 1, t, k => if t = 0 then 0 else t + expSeries p x fuel ((t * x) >>> p / (k + 1)) (k + 1)

/-- exp(x/2^p) × 2^p for 0 ≤ x < 2^p. -/
def expFix (p x : Nat) : Nat := expSeries p x (p + 8) (2 ^ p) 0

/-- Σ z^(2k+1)/(2k+1) for z/2^p, given t = z^(2k+1) and z² scaled. -/
def atanhSeries (p z2 : Nat) : Nat → Nat → Nat → Nat
  | 0, _, _ => 0
  | fuel + 1, t, k => if t = 0 then 0 else t / (2 * k + 1) + atanhSeries p z2 fuel ((t * z2) >>> p) (k + 1)

/-- ln((n+d)/(d) ...): 2 atanh(a/b) × 2^p. -/
def twoAtanh (p a b : Nat) : Nat :=
  let z := a * 2 ^ p / b
  2 * atanhSeries p ((z * z) >>> p) (p + 8) z 0

/-- ln 2 × 2^p. -/
def ln2Fix (p : Nat) : Nat := twoAtanh p 1 3

/-- Alternating series of atan(1/n) × 2^p: t = 2^p / n^(2k+1). -/
def atanInv (n2 : Nat) : Nat → Nat → Nat → Int
  | 0, _, _ => 0
  | fuel + 1, t, k =>
      if t = 0 then 0
      else (if k % 2 = 0 then 1 else -1) * ((t / (2 * k + 1) : Nat) : Int) + atanInv n2 fuel (t / n2) (k + 1)

/-- π × 2^p, by Machin's formula. -/
def piFix (p : Nat) : Nat :=
  (16 * atanInv 25 (p + 8) (2 ^ p / 5) 0 - 4 * atanInv (239 * 239) (p + 8) (2 ^ p / 239) 0).toNat

/-- Alternating series from a term t at index k: t, -t x²/((k+1)(k+2)), ... -/
def altSeries (p x2 : Nat) : Nat → Nat → Nat → Int
  | 0, _, _ => 0
  | fuel + 1, t, k =>
      if t = 0 then 0 else (t : Int) - altSeries p x2 fuel (((t * x2) >>> p) / ((k + 1) * (k + 2))) (k + 2)

/-- sin and cos of x/2^p, scaled. -/
def sinFix (p x : Nat) : Int := altSeries p ((x * x) >>> p) (p + 8) x 1
def cosFix (p x : Nat) : Int := altSeries p ((x * x) >>> p) (p + 8) (2 ^ p) 0

/-- m × 2^e scaled by 2^p, floor. -/
def scaleTo (p : Nat) (m : Nat) (e : Int) : Nat :=
  if 0 ≤ e + p then m * 2 ^ (e + p).toNat else m >>> (-(e + p)).toNat

/-- The largest code of the two ends of an enclosure v ± d of a positive value, if they agree. -/
def roundBoth (p : Nat) (v d : Nat) : Option (Nat × Nat) :=
  let up := roundFin .fp32 .rne false false false (v + d) (-p)
  if v ≤ d then none
  else
    let lo := roundFin .fp32 .rne false false false (v - d) (-p)
    if lo.1 = up.1 then some lo else none

/-- The first precision at which the ends agree; the last one's value when none does.
DEDUCED: notes/assumptions/77.md. -/
def ziv (f : Nat → Nat × Nat) : List Nat → Nat
  | [] => 0
  | p :: ps =>
      let r := f p
      match roundBoth p r.1 r.2 with
      | some c => c.1
      | none => if ps.isEmpty then (roundFin .fp32 .rne false false false (r.1 + 1) (-p)).1 else ziv f ps

/-- The precisions tried, from a starting one. -/
def precs (p : Nat) : List Nat := [p, p + 64, p + 192, p + 448]

/-- Flags of an inexact special function: INX, and UNF when the result is below 2^-126 (R226); FTZ (R106). -/
def sfuInexact (ftz neg : Bool) (code : Nat) : Nat × Nat :=
  let s := if neg then 2 ^ 31 else 0
  if code < 0x00800000 then (if ftz then s else s + code, fUNF + fINX) else (s + code, fINX)

/-- An exact case: no flag, but a subnormal result under FTZ (R226). -/
def sfuExact (ftz neg : Bool) (m : Nat) (e : Int) : Nat × Nat :=
  roundFV .fp32 .rne false ftz (.fin neg m e)

/-- 2^x for x = m × 2^e (sign neg), not an integer, scaled by 2^p, with its error. -/
def exp2At (neg : Bool) (m : Nat) (e : Int) (p : Nat) : Nat × Nat :=
  let w := p + 32
  let x : Int := if neg then -((scaleTo w m e : Nat) : Int) else (scaleTo w m e : Nat)
  let n : Int := x.fdiv (2 ^ w : Nat)
  let r : Nat := (x - n * (2 ^ w : Nat)).toNat
  let v := expFix w ((r * ln2Fix w) >>> w)
  -- v × 2^(n - w), scaled to p
  (scaleTo p v (n - w), 2 + scaleTo p 1 (n - p))

def exp2F (ftz : Bool) (v : FV) : Nat × Nat :=
  match v with
  | .nan s => (0x7FC00000, if s then fINV else 0)
  | .inf n => (if n then 0 else 0x7F800000, 0)
  | .fin n m e =>
      if m = 0 then (0x3F800000, 0)
      else
        let k : Int := (ilog2 m : Int) + e
        if 8 ≤ k || (!n && 7 ≤ k) then
          if n then sfuInexact ftz false 0 else (0x7F800000, fOVF + fINX)
        else
          let isInt : Bool := 0 ≤ e || m % 2 ^ (-e).toNat == 0
          let i : Int := if 0 ≤ e then m * 2 ^ e.toNat else ((m >>> (-e).toNat : Nat) : Int)
          let i : Int := if n then -i else i
          if isInt && -149 ≤ i then sfuExact ftz false 1 i
          -- 2^-150 lies half way between 0 and the least subnormal: the tie, and all below it, go to 0
          else if n && 150 * 2 ^ 23 ≤ scaleTo 23 m e then sfuInexact ftz false 0
          else sfuInexact ftz false (ziv (exp2At n m e) (precs 240))

/-- |log2 x| for x = m × 2^e > 0, x no power of two: sign and scaled magnitude. -/
def log2At (m : Nat) (e : Int) (w : Nat) : Int :=
  let k := ilog2 m
  -- y = m / 2^k in [1, 2); halve it above 3/2
  let big : Bool := 3 * 2 ^ k ≤ 2 * m
  let den := if big then 2 ^ (k + 1) else 2 ^ k
  let n : Int := (k : Int) + e + (if big then 1 else 0)
  let num : Nat := if den ≤ m then m - den else den - m
  let ln := twoAtanh w num (m + den)
  let l2 : Int := ((ln * 2 ^ w / ln2Fix w : Nat) : Int)
  n * (2 ^ w : Nat) + (if den ≤ m then l2 else -l2)

def log2F (ftz : Bool) (v : FV) : Nat × Nat :=
  match v with
  | .nan s => (0x7FC00000, if s then fINV else 0)
  | .inf n => if n then (0x7FC00000, fINV) else (0x7F800000, 0)
  | .fin n m e =>
      if m = 0 then (0xFF800000, fDZ)
      else if n then (0x7FC00000, fINV)
      else if m = 2 ^ ilog2 m then
        let i : Int := (ilog2 m : Int) + e
        sfuExact ftz (decide (i < 0)) i.natAbs 0
      else
        let x := log2At m e 160
        sfuInexact ftz (decide (x < 0)) (ziv (fun p => ((log2At m e (p + 16)).natAbs >>> 16, 4)) (precs 144))

/-- The fraction of |x| modulo 2, scaled: x = m × 2^e, exact for p ≥ -e. -/
def mod2 (p : Nat) (m : Nat) (e : Int) : Nat := scaleTo p m e % 2 ^ (p + 1)

/-- |sin(π r)| or |cos(π r)| for r/2^p in [0, 1/2], scaled. -/
def sinPiAt (p r : Nat) : Nat :=
  if 4 * r ≤ 2 ^ p then (sinFix p ((r * piFix p) >>> p)).toNat
  else (cosFix p (((2 ^ (p - 1) - r) * piFix p) >>> p)).toNat

/-- sin(πx) and cos(πx) of a finite nonzero x with |x| < 2^24. -/
def sincosPi (ftz isCos n : Bool) (m : Nat) (e : Int) : Nat × Nat :=
  let p0 : Nat := (max 0 (-e)).toNat + 8
  let t := mod2 p0 m e
  -- quadrant in halves: position q of 4 and remainder r in [0, 1/2)
  let t := if isCos then (t + 2 ^ (p0 - 1)) % 2 ^ (p0 + 1) else t
  let half := 2 ^ (p0 - 1)
  let qd := t / half
  let r := t % half
  let neg0 : Bool := decide (2 ≤ qd)
  let neg := if isCos then neg0 else neg0 != n
  if r = 0 then
    if qd % 2 = 0 then (if isCos then 0 else if n then 2 ^ 31 else 0, 0)
    else ((if neg then 2 ^ 31 else 0) + 0x3F800000, 0)
  else
    let r := if qd % 2 = 0 then r else half - r
    let at_ (p : Nat) : Nat × Nat :=
      let w := p + p0 + 32
      let v := sinPiAt w (r * 2 ^ (w - p0))
      (v >>> (w - p), 4)
    sfuInexact ftz neg (ziv at_ (precs (p0 + 96)))

def sinpiF (ftz : Bool) (v : FV) : Nat × Nat :=
  match v with
  | .nan s => (0x7FC00000, if s then fINV else 0)
  | .inf _ => (0x7FC00000, fINV)
  | .fin n m e => if m = 0 then (0, 0) else sincosPi ftz false n m e

def cospiF (ftz : Bool) (v : FV) : Nat × Nat :=
  match v with
  | .nan s => (0x7FC00000, if s then fINV else 0)
  | .inf _ => (0x7FC00000, fINV)
  | .fin n m e => if m = 0 then (0x3F800000, 0) else sincosPi ftz true n m e

/-- exp(-x) × 2^w for x = m × 2^e ≥ 0. -/
def expNeg (w m : Nat) (e : Int) : Nat :=
  let x := scaleTo w m e
  let l := ln2Fix w
  let n := x / l + 1
  let r := n * l - x
  expFix w (min r (2 ^ w - 1)) >>> n

/-- tanh |x| × 2^p. -/
def tanhAt (m : Nat) (e : Int) (p : Nat) : Nat × Nat :=
  let w := p + 32
  let t := expNeg w m (e + 1)
  (((2 ^ w - t) * 2 ^ p) / (2 ^ w + t), 2)

def tanhF (ftz : Bool) (v : FV) : Nat × Nat :=
  match v with
  | .nan s => (0x7FC00000, if s then fINV else 0)
  | .inf n => ((if n then 2 ^ 31 else 0) + 0x3F800000, 0)
  | .fin n m e =>
      if m = 0 then (if n then 2 ^ 31 else 0, 0)
      else
        let k : Int := (ilog2 m : Int) + e
        if 4 ≤ k then sfuInexact ftz n 0x3F800000
        -- x - x³/3 rounds to x itself below 2^-20
        else if k < -20 then sfuInexact ftz n (roundFin .fp32 .rne false false false m e).1
        else sfuInexact ftz n (ziv (tanhAt m e) (precs 128))

/-- 1 ÷ (1 + e^-x) × 2^p. -/
def sigmAt (n : Bool) (m : Nat) (e : Int) (p : Nat) : Nat × Nat :=
  let w := p + 32
  let t := expNeg w m e
  (if n then t * 2 ^ p / (2 ^ w + t) else 2 ^ (w + p) / (2 ^ w + t), 2)

def sigmF (ftz : Bool) (v : FV) : Nat × Nat :=
  match v with
  | .nan s => (0x7FC00000, if s then fINV else 0)
  | .inf n => (if n then 0 else 0x3F800000, 0)
  | .fin n m e =>
      if m = 0 then (0x3F000000, 0)
      else
        let k : Int := (ilog2 m : Int) + e
        if 8 ≤ k then sfuInexact ftz false (if n then 0 else 0x3F800000)
        else if k < -30 then sfuInexact ftz false 0x3F000000
        else sfuInexact ftz false (ziv (sigmAt n m e) (precs 480))

/-- 1 ÷ √a (R227). -/
def rsqF (ftz : Bool) (v : FV) : Nat × Nat :=
  match v with
  | .nan s => (0x7FC00000, if s then fINV else 0)
  | .inf n => if n then (0x7FC00000, fINV) else (0, 0)
  | .fin n m e =>
      if m = 0 then ((if n then 2 ^ 31 else 0) + 0x7F800000, fDZ)
      else if n then (0x7FC00000, fINV)
      else
        -- even exponent, then floor(√(2^160 / m)) with a sticky bit
        let m' := if e % 2 = 0 then m else 2 * m
        let e' : Int := if e % 2 = 0 then e else e - 1
        let r := isqrt (2 ^ 160 / m')
        roundFV .fp32 .rne false ftz (.fin false (2 * r + (if r * r * m' = 2 ^ 160 then 0 else 1)) (-(e' / 2) - 81))

/-- RCP and SQRT, rounded under the mode of R103 (R226). -/
def rcpF (rm : RM) (ftz : Bool) (v : FV) : Nat × Nat := rounded .fp32 rm ftz (divX (.fin false 1 0) v)
def sqrtF (rm : RM) (ftz : Bool) (v : FV) : Nat × Nat := rounded .fp32 rm ftz (sqrtX v)

end Sys2Proof.Machine
end

