-- ==== Sys2Proof/Machine/Float.lean ====
section
/-! DEFINITION. Floating-point, conversion and quantisation instructions, majors 0x08 to 0x0F (R219 to R235), and the
FP64 words (R175). CVTQ, which writes scratch, is in Machine/Scratch.lean. -/
namespace Sys2Proof.Machine

/-- The rounding mode of an arithmetic instruction (R103). -/
def Iss.mode (x : Iss) (rm : BitVec 3) : RM := RM.ofCode (rmCode x.g x.p.hints rm.toNat) 0

/-- A code and its flags as a word. -/
def codeW (r : Nat × Nat) : Word × Nat := (BitVec.ofNat 32 r.1, r.2)

/-- FP32 arithmetic on two operands, rounded once (R107, R220). -/
def Iss.f2 (x : Iss) (rm : BitVec 3) (d a b : Reg) (f : RM → FV → FV → FV × Nat) : Grp :=
  let m := x.mode rm
  let op (w : Word) : FV := FF.fp32.operand x.g.daz w.toNat
  x.binF d a b (fun p q => codeW (rounded .fp32 m x.g.ftz (f m (op p) (op q))))

/-- A fused FP32 operation with the old destination as addend (R221). -/
def Iss.f3 (x : Iss) (rm : BitVec 3) (d a b : Reg) (f : RM → FV → FV → FV → FV × Nat) : Grp :=
  let m := x.mode rm
  let op (w : Word) : FV := FF.fp32.operand x.g.daz w.toNat
  x.triF d a b (fun p q r => codeW (rounded .fp32 m x.g.ftz (f m (op p) (op q) (op r))))

/-- Two 16-bit elements, each with flags (R95). -/
def halves (f : Nat → Nat → Nat → Nat × Nat) (p q r : Word) : Word × Nat :=
  let e (w : Word) (i : Nat) : Nat := fld w.toNat (16 * i) 16
  let lo := f (e p 0) (e q 0) (e r 0)
  let hi := f (e p 1) (e q 1) (e r 1)
  (BitVec.ofNat 32 (lo.1 + 2 ^ 16 * hi.1), lo.2 ||| hi.2)

/-- A packed operation in a 16-bit format (R222). -/
def Iss.packed (x : Iss) (t : FF) (rm : BitVec 3) (d a b : Reg) (f : RM → FV → FV → FV → FV × Nat) : Grp :=
  let m := x.mode rm
  x.triF d a b (halves (fun p q r =>
    rounded t m x.g.ftz (f m (t.operand x.g.daz p) (t.operand x.g.daz q) (t.operand x.g.daz r))))

/-- A minimum or maximum on FP32 values, and on packed 16-bit ones (R223). -/
def Iss.mm (x : Iss) (d a b : Reg) (isMax nanWins : Bool) : Grp :=
  x.binF d a b (fun p q => codeW (minmaxF .fp32 x.g.daz isMax nanWins p.toNat q.toNat))
def Iss.mm2 (x : Iss) (t : FF) (d a b : Reg) (isMax : Bool) : Grp :=
  x.binF d a b (fun p q => halves (fun u v _ => minmaxF t x.g.daz isMax false u v) p q 0)

/-- The class bit of an FP32 code (R224). -/
def fclassW (w : Word) : Word :=
  let n := w.toNat
  let neg := bit n 31
  let e := fld n 23 8
  let m := fld n 0 23
  let k : Nat :=
    if e = 255 then (if m = 0 then (if neg then 0 else 7) else if bit n 22 then 9 else 8)
    else if e = 0 then (if m = 0 then (if neg then 3 else 4) else if neg then 2 else 5)
    else if neg then 1 else 6
  BitVec.ofNat 32 (2 ^ k)

/-- A float compare with its flag (R225). -/
def Iss.fcmp (x : Iss) (p : BitVec 3) (a b : Reg) (quiet : Bool) (f : FV → FV → Bool) : Grp :=
  let op (w : Word) : FV := FF.fp32.operand x.g.daz w.toNat
  let inv (u v : FV) : Nat := if quiet then nanFlags u v else if u.isNan || v.isNan then fINV else 0
  (x.cmp p a b (fun u v => f (op u) (op v))).raise
    (x.lanes.foldl (fun n l => n ||| inv (op (x.g.rd a l)) (op (x.g.rd b l))) 0)

/-- A special function of one FP32 operand (R226). -/
def Iss.sfu (x : Iss) (d a : Reg) (f : FV → Nat × Nat) : Grp :=
  x.mapF d (fun l => codeW (f (FF.fp32.operand x.g.daz (x.g.rd a l).toNat)))

/-- The mode of a conversion for element `j` of lane `l` (R103, R232). -/
def Iss.cmode (x : Iss) (rm : BitVec 3) (d : Reg) (l j : Nat) : RM :=
  RM.ofCode (rmCode x.g x.p.hints rm.toNat) (stochDraw x.g.stoch.toNat ((if d.isV then l else 0) + 64 * j))

/-- STOCH advances once when the mode is stochastic (R105). -/
def Iss.stoch (x : Iss) (rm : BitVec 3) (g : Grp) : Grp :=
  if rmCode x.g x.p.hints rm.toNat = 6 then g.stochNext else g

/-- CVT and CVT.SAT (R229). -/
def Iss.cvt (x : Iss) (rm : BitVec 3) (d a : Reg) (src dst : CT) (sat : Bool) : Grp :=
  x.stoch rm (x.mapF d (fun l =>
    let r := convert src dst (x.cmode rm d l 0) (sat || satOf x.g x.p.hints) x.g.ftz x.g.daz sat
      (fld (x.g.rd a l).toNat 0 src.width)
    (placed dst r.1, r.2)))

/-- Element `j` of a run of registers in a lane (R95, R230). -/
def Grp.elem (g : Grp) (a : Reg) (l w j : Nat) : Nat :=
  fld (g.rd (Reg.plus a (j * w / 32)) l).toNat ((j % (32 / w)) * w) w

/-- CVT.PK and CVT.XI (R230, R231). -/
def Iss.cvtPk (x : Iss) (rm : BitVec 3) (d a : Reg) (src dst : CT) : Grp :=
  let n := 32 / min src.width dst.width
  let one (l j : Nat) : Int × Nat :=
    convert src dst (x.cmode rm d l j) (satOf x.g x.p.hints) x.g.ftz x.g.daz false (x.g.elem a l src.width j)
  let per := 32 / dst.width
  let reg (l k : Nat) : Word := BitVec.ofNat 32
    ((List.range per).foldl (fun v i => v + wrap dst.width (one l (k * per + i)).1 * 2 ^ (i * dst.width)) 0)
  let fl (l : Nat) : Nat := (List.range n).foldl (fun v j => v ||| (one l j).2) 0
  x.stoch rm ((x.g.wrRun d x.lanes reg (n * dst.width / 32)).raise (x.flags d fl))

/-- MXSCALE (R234): the scale word of a lane's block. -/
def Iss.mxWord (x : Iss) (a : Reg) (ctl : Word) (l : Nat) : Word :=
  let len := if bit ctl.toNat 4 then 16 else 32
  let ef := fld ctl.toNat 0 2
  let ls := x.lanes.filter (fun j => j / len == l / len)
  BitVec.ofNat 32 (mxScale (ls.map (fun j => FF.fp32.operand x.g.daz (x.g.rd a j).toNat)) (EF.ofCode ef) + 256 * ef)

/-- MXPACK of one lane (R235). -/
def mxPackW (daz : Bool) (a b : Word) : Word × Nat :=
  let v := FF.fp32.operand daz a.toNat
  let sc := fld b.toNat 0 8
  if sc = 255 then (0, 0)
  else match v with
    | .fin .. => codeW (mxElem (EF.ofCode (fld b.toNat 8 2)) sc v)
    | _ => (0, 0)

/-! Majors 0x08 to 0x0B. -/

/-- FADD (R220). -/
def execFadd (rm : BitVec 3) (d a b : Reg) (s : State) : Out :=
  issueG (Instr.sig (.fadd rm d a b)) s (fun x => x.f2 rm d a b (fun m p q => addX m p q))

/-- FSUB (R220). -/
def execFsub (rm : BitVec 3) (d a b : Reg) (s : State) : Out :=
  issueG (Instr.sig (.fsub rm d a b)) s (fun x => x.f2 rm d a b (fun m p q => addX m p q.neg))

/-- FMUL (R220). -/
def execFmul (rm : BitVec 3) (d a b : Reg) (s : State) : Out :=
  issueG (Instr.sig (.fmul rm d a b)) s (fun x => x.f2 rm d a b (fun _ p q => mulX p q))

/-- FDIV (R220). -/
def execFdiv (rm : BitVec 3) (d a b : Reg) (s : State) : Out :=
  issueG (Instr.sig (.fdiv rm d a b)) s (fun x => x.f2 rm d a b (fun _ p q => divX p q))

/-- FMA (R221). -/
def execFma (rm : BitVec 3) (d a b : Reg) (s : State) : Out :=
  issueG (Instr.sig (.fma rm d a b)) s (fun x => x.f3 rm d a b (fun m p q r => fmaX m p q r))

/-- FMS (R221). -/
def execFms (rm : BitVec 3) (d a b : Reg) (s : State) : Out :=
  issueG (Instr.sig (.fms rm d a b)) s (fun x => x.f3 rm d a b (fun m p q r => fmaX m p q r.neg))

/-- FNMA (R221). -/
def execFnma (rm : BitVec 3) (d a b : Reg) (s : State) : Out :=
  issueG (Instr.sig (.fnma rm d a b)) s (fun x => x.f3 rm d a b (fun m p q r => fmaX m p.neg q r))

/-- HADD2 (R222). -/
def execHadd2 (rm : BitVec 3) (d a b : Reg) (s : State) : Out :=
  issueG (Instr.sig (.hadd2 rm d a b)) s (fun x => x.packed .fp16 rm d a b (fun m p q _ => addX m p q))

/-- HMUL2 (R222). -/
def execHmul2 (rm : BitVec 3) (d a b : Reg) (s : State) : Out :=
  issueG (Instr.sig (.hmul2 rm d a b)) s (fun x => x.packed .fp16 rm d a b (fun _ p q _ => mulX p q))

/-- HFMA2 (R222). -/
def execHfma2 (rm : BitVec 3) (d a b : Reg) (s : State) : Out :=
  issueG (Instr.sig (.hfma2 rm d a b)) s (fun x => x.packed .fp16 rm d a b (fun m p q r => fmaX m p q r))

/-- BADD2 (R222). -/
def execBadd2 (rm : BitVec 3) (d a b : Reg) (s : State) : Out :=
  issueG (Instr.sig (.badd2 rm d a b)) s (fun x => x.packed .bf16 rm d a b (fun m p q _ => addX m p q))

/-- BMUL2 (R222). -/
def execBmul2 (rm : BitVec 3) (d a b : Reg) (s : State) : Out :=
  issueG (Instr.sig (.bmul2 rm d a b)) s (fun x => x.packed .bf16 rm d a b (fun _ p q _ => mulX p q))

/-- BFMA2 (R222). -/
def execBfma2 (rm : BitVec 3) (d a b : Reg) (s : State) : Out :=
  issueG (Instr.sig (.bfma2 rm d a b)) s (fun x => x.packed .bf16 rm d a b (fun m p q r => fmaX m p q r))

/-! Major 0x0C. -/

/-- FMIN (R223). -/
def execFmin (d a b : Reg) (s : State) : Out :=
  issueG (Instr.sig (.fmin d a b)) s (fun x => x.mm d a b false false)

/-- FMAX (R223). -/
def execFmax (d a b : Reg) (s : State) : Out :=
  issueG (Instr.sig (.fmax d a b)) s (fun x => x.mm d a b true false)

/-- FMIN_NAN (R223). -/
def execFminNan (d a b : Reg) (s : State) : Out :=
  issueG (Instr.sig (.fminNan d a b)) s (fun x => x.mm d a b false true)

/-- FMAX_NAN (R223). -/
def execFmaxNan (d a b : Reg) (s : State) : Out :=
  issueG (Instr.sig (.fmaxNan d a b)) s (fun x => x.mm d a b true true)

/-- HMIN2 (R223). -/
def execHmin2 (d a b : Reg) (s : State) : Out :=
  issueG (Instr.sig (.hmin2 d a b)) s (fun x => x.mm2 .fp16 d a b false)

/-- HMAX2 (R223). -/
def execHmax2 (d a b : Reg) (s : State) : Out :=
  issueG (Instr.sig (.hmax2 d a b)) s (fun x => x.mm2 .fp16 d a b true)

/-- BMIN2 (R223). -/
def execBmin2 (d a b : Reg) (s : State) : Out :=
  issueG (Instr.sig (.bmin2 d a b)) s (fun x => x.mm2 .bf16 d a b false)

/-- BMAX2 (R223). -/
def execBmax2 (d a b : Reg) (s : State) : Out :=
  issueG (Instr.sig (.bmax2 d a b)) s (fun x => x.mm2 .bf16 d a b true)

/-- FABS (R224). -/
def execFabs (d a : Reg) (s : State) : Out :=
  issueG (Instr.sig (.fabs d a)) s (fun x => x.un d a (fun w => w &&& 0x7FFF_FFFF#32))

/-- FNEG (R224). -/
def execFneg (d a : Reg) (s : State) : Out :=
  issueG (Instr.sig (.fneg d a)) s (fun x => x.un d a (fun w => w ^^^ 0x8000_0000#32))

/-- FCLASS (R224). -/
def execFclass (d a : Reg) (s : State) : Out :=
  issueG (Instr.sig (.fclass d a)) s (fun x => x.un d a fclassW)

/-- FCMP_EQ (R225). -/
def execFcmpEq (p : BitVec 3) (a b : Reg) (s : State) : Out :=
  issueG (Instr.sig (.fcmpEq p a b)) s (fun x => x.fcmp p a b true (fun u v => u.eq v))

/-- FCMP_NE (R225). -/
def execFcmpNe (p : BitVec 3) (a b : Reg) (s : State) : Out :=
  issueG (Instr.sig (.fcmpNe p a b)) s (fun x => x.fcmp p a b true (fun u v => !(u.eq v)))

/-- FCMP_LT (R225). -/
def execFcmpLt (p : BitVec 3) (a b : Reg) (s : State) : Out :=
  issueG (Instr.sig (.fcmpLt p a b)) s (fun x => x.fcmp p a b false (fun u v => u.lt v))

/-- FCMP_LE (R225). -/
def execFcmpLe (p : BitVec 3) (a b : Reg) (s : State) : Out :=
  issueG (Instr.sig (.fcmpLe p a b)) s (fun x => x.fcmp p a b false (fun u v => u.lt v || u.eq v))

/-- FCMP_UN (R225). -/
def execFcmpUn (p : BitVec 3) (a b : Reg) (s : State) : Out :=
  issueG (Instr.sig (.fcmpUn p a b)) s (fun x => x.fcmp p a b true (fun u v => u.isNan || v.isNan))

/-! Major 0x0D. -/

/-- RCP (R227). -/
def execRcp (d a : Reg) (s : State) : Out :=
  issueG (Instr.sig (.rcp d a)) s (fun x => x.sfu d a (rcpF (x.mode 0) x.g.ftz))

/-- RSQ (R227). -/
def execRsq (d a : Reg) (s : State) : Out :=
  issueG (Instr.sig (.rsq d a)) s (fun x => x.sfu d a (rsqF x.g.ftz))

/-- SQRT (R227). -/
def execSqrt (d a : Reg) (s : State) : Out :=
  issueG (Instr.sig (.sqrt d a)) s (fun x => x.sfu d a (sqrtF (x.mode 0) x.g.ftz))

/-- EXP2 (R227). -/
def execExp2 (d a : Reg) (s : State) : Out :=
  issueG (Instr.sig (.exp2 d a)) s (fun x => x.sfu d a (exp2F x.g.ftz))

/-- LOG2 (R227). -/
def execLog2 (d a : Reg) (s : State) : Out :=
  issueG (Instr.sig (.log2 d a)) s (fun x => x.sfu d a (log2F x.g.ftz))

/-- SINPI (R227). -/
def execSinpi (d a : Reg) (s : State) : Out :=
  issueG (Instr.sig (.sinpi d a)) s (fun x => x.sfu d a (sinpiF x.g.ftz))

/-- COSPI (R227). -/
def execCospi (d a : Reg) (s : State) : Out :=
  issueG (Instr.sig (.cospi d a)) s (fun x => x.sfu d a (cospiF x.g.ftz))

/-- TANH (R227). -/
def execTanh (d a : Reg) (s : State) : Out :=
  issueG (Instr.sig (.tanh d a)) s (fun x => x.sfu d a (tanhF x.g.ftz))

/-- SIGM (R227). -/
def execSigm (d a : Reg) (s : State) : Out :=
  issueG (Instr.sig (.sigm d a)) s (fun x => x.sfu d a (sigmF x.g.ftz))

/-! Major 0x0E. -/

/-- CVT (R229). -/
def execCvt (rm : BitVec 3) (d a : Reg) (src : BitVec 3) (dst : BitVec 4) (s : State) : Out :=
  issueG (Instr.sig (.cvt rm d a src dst)) s (fun x => x.cvt rm d a (CT.ofCode src.toNat) (CT.ofCode dst.toNat) false)

/-- CVT_SAT (R229). -/
def execCvtSat (rm : BitVec 3) (d a : Reg) (src : BitVec 3) (dst : BitVec 4) (s : State) : Out :=
  issueG (Instr.sig (.cvtSat rm d a src dst)) s (fun x => x.cvt rm d a (CT.ofCode src.toNat) (CT.ofCode dst.toNat) true)

/-- CVT_PK (R230). -/
def execCvtPk (rm : BitVec 3) (d a : Reg) (src : BitVec 3) (dst : BitVec 4) (s : State) : Out :=
  issueG (Instr.sig (.cvtPk rm d a src dst)) s (fun x => x.cvtPk rm d a (CT.ofCode src.toNat) (CT.ofCode dst.toNat))

/-- CVT_XI (R231). -/
def execCvtXi (rm : BitVec 3) (d a : Reg) (src : BitVec 3) (dst : BitVec 4) (s : State) : Out :=
  issueG (Instr.sig (.cvtXi rm d a src dst)) s (fun x => x.cvtPk rm d a (.int (CT.ofXi src.toNat)) (CT.ofCode dst.toNat))

/-! Major 0x0F. -/

/-- MXSCALE (R234). -/
def execMxscale (d a b : Reg) (s : State) : Out :=
  issueG (Instr.sig (.mxscale d a b)) s (fun x => x.g.wr d x.lanes (x.mxWord a (x.g.rd b 0)))

/-- MXPACK (R235). -/
def execMxpack (d a b : Reg) (s : State) : Out :=
  issueG (Instr.sig (.mxpack d a b)) s (fun x => x.binF d a b (mxPackW x.g.daz))

/-! Majors 0x12 and 0x13: no core implements them; a word that passes the other checks takes the trap with cause
UNIMPL in `issue` (R175, R481). -/

/-- DADD (R175). -/
def execDadd (rm : BitVec 3) (d a b : Reg) (s : State) : Out :=
  issue (Instr.sig (.dadd rm d a b)) s (fun _ _ => .trap 2)

/-- DSUB (R175). -/
def execDsub (rm : BitVec 3) (d a b : Reg) (s : State) : Out :=
  issue (Instr.sig (.dsub rm d a b)) s (fun _ _ => .trap 2)

/-- DMUL (R175). -/
def execDmul (rm : BitVec 3) (d a b : Reg) (s : State) : Out :=
  issue (Instr.sig (.dmul rm d a b)) s (fun _ _ => .trap 2)

/-- DDIV (R175). -/
def execDdiv (rm : BitVec 3) (d a b : Reg) (s : State) : Out :=
  issue (Instr.sig (.ddiv rm d a b)) s (fun _ _ => .trap 2)

/-- DFMA (R175). -/
def execDfma (rm : BitVec 3) (d a b : Reg) (s : State) : Out :=
  issue (Instr.sig (.dfma rm d a b)) s (fun _ _ => .trap 2)

/-- DFMS (R175). -/
def execDfms (rm : BitVec 3) (d a b : Reg) (s : State) : Out :=
  issue (Instr.sig (.dfms rm d a b)) s (fun _ _ => .trap 2)

/-- DFNMA (R175). -/
def execDfnma (rm : BitVec 3) (d a b : Reg) (s : State) : Out :=
  issue (Instr.sig (.dfnma rm d a b)) s (fun _ _ => .trap 2)

end Sys2Proof.Machine
end

