-- ==== Sys2Proof/Machine/Lanes.lean ====
section
/-! DEFINITION. Instructions across lanes, majors 0x10 and 0x11 (R116, R236 to R238). -/
namespace Sys2Proof.Machine

/-- A destination from one value of the whole set. -/
def Iss.all (x : Iss) (d : Reg) (w : Word) : Grp := x.g.wr d x.lanes (fun _ => w)

/-- The width of the group. -/
def Iss.width (x : Iss) : Nat := x.g.width

/-- One level of the balanced tree of R116. -/
def treeLevel (f : Nat → Nat → Nat × Nat) : List (Option Nat) → List (Option Nat) × Nat
  | some a :: some b :: r => let v := f a b; let t := treeLevel f r; (some v.1 :: t.1, v.2 ||| t.2)
  | some a :: none :: r => let t := treeLevel f r; (some a :: t.1, t.2)
  | none :: some b :: r => let t := treeLevel f r; (some b :: t.1, t.2)
  | none :: none :: r => let t := treeLevel f r; (none :: t.1, t.2)
  | [a] => ([a], 0)
  | [] => ([], 0)

/-- The root of the tree and the flags of its nodes. -/
def treeRoot (f : Nat → Nat → Nat × Nat) : Nat → List (Option Nat) → Nat × Nat
  | 0, l => (((l.headD none).getD 0), 0)
  | n + 1, l => let t := treeLevel f l; let r := treeRoot f n t.1; (r.1, t.2 ||| r.2)

/-- The leaves of R116: DAZ applies, inactive lanes are empty. -/
def Iss.leaves (x : Iss) (a : Reg) : List (Option Nat) :=
  (List.range x.width).map (fun l =>
    if x.act.getLsbD l then
      let c := (x.g.rd a l).toNat
      some (if x.g.daz && fld c 23 8 == 0 then fld c 31 1 * 2 ^ 31 else c)
    else none)

/-- A tree reduction into a destination. -/
def Iss.tree (x : Iss) (d a : Reg) (f : Nat → Nat → Nat × Nat) : Grp :=
  let r := treeRoot f 6 (x.leaves a)
  (x.all d (BitVec.ofNat 32 r.1)).raise r.2

/-- A fold over the active lanes' values, from the lowest. -/
def Iss.fold (x : Iss) (a : Reg) (f : Word → Word → Word) : Word :=
  match x.lanes with
  | [] => 0
  | l :: r => r.foldl (fun w j => f w (x.g.rd a j)) (x.g.rd a l)

/-- The sum of the active lanes' values that a test admits. -/
def Iss.sumWhere (x : Iss) (a : Reg) (p : Nat → Bool) : Word :=
  (x.lanes.filter p).foldl (fun w j => w + x.g.rd a j) 0

/-- A lane permutation by an s operand or per-lane operand: source lane of each active lane. -/
def Iss.perm (x : Iss) (d a : Reg) (f : Nat → Nat) : Grp := x.g.wr d x.lanes (fun l => x.g.rd a (f l))

/-! Major 0x10. -/

/-- SLIDEUP (R237). -/
def execSlideup (d a b : Reg) (s : State) : Out :=
  issueG (Instr.sig (.slideup d a b)) s (fun x => 
    let k := (x.g.rd b 0).toNat
    x.g.wr d (x.lanes.filter (fun l => decide (k ≤ l))) (fun l => x.g.rd a (l - k)))

/-- SLIDEDN (R237). -/
def execSlidedn (d a b : Reg) (s : State) : Out :=
  issueG (Instr.sig (.slidedn d a b)) s (fun x => 
    let k := (x.g.rd b 0).toNat
    x.g.wr d (x.lanes.filter (fun l => decide (l + k < x.width))) (fun l => x.g.rd a (l + k)))

/-- SHUF (R237). -/
def execShuf (d a b : Reg) (s : State) : Out :=
  issueG (Instr.sig (.shuf d a b)) s (fun x => x.perm d a (fun l => (x.g.rd b l).toNat % x.width))

/-- XSHUF (R237). -/
def execXshuf (d a b : Reg) (s : State) : Out :=
  issueG (Instr.sig (.xshuf d a b)) s (fun x => x.perm d a (fun l => l ^^^ ((x.g.rd b l).toNat % x.width)))

/-- BCAST (R237). -/
def execBcast (d a b : Reg) (s : State) : Out :=
  issueG (Instr.sig (.bcast d a b)) s (fun x => x.perm d a (fun _ => (x.g.rd b 0).toNat % x.width))

/-- ROT (R237). -/
def execRot (d a b : Reg) (s : State) : Out :=
  issueG (Instr.sig (.rot d a b)) s (fun x => x.perm d a (fun l => (l + x.width - (x.g.rd b 0).toNat % x.width) % x.width))

/-- VTOS (R237). -/
def execVtos (d a b : Reg) (s : State) : Out :=
  issueG (Instr.sig (.vtos d a b)) s (fun x => x.all d (x.g.rd a ((x.g.rd b 0).toNat % x.width)))

/-- FIRST (R237). -/
def execFirst (d a : Reg) (s : State) : Out :=
  issueG (Instr.sig (.first d a)) s (fun x => x.all d (x.g.rd a x.low))

/-! Major 0x11. -/

/-- RADD (R238). -/
def execRadd (d a : Reg) (s : State) : Out :=
  issueG (Instr.sig (.radd d a)) s (fun x => x.all d (x.fold a (· + ·)))

/-- RMIN_S (R238). -/
def execRminS (d a : Reg) (s : State) : Out :=
  issueG (Instr.sig (.rminS d a)) s (fun x => x.all d (x.fold a (fun u v => if v.slt u then v else u)))

/-- RMAX_S (R238). -/
def execRmaxS (d a : Reg) (s : State) : Out :=
  issueG (Instr.sig (.rmaxS d a)) s (fun x => x.all d (x.fold a (fun u v => if u.slt v then v else u)))

/-- FRADD (R116). -/
def execFradd (d a : Reg) (s : State) : Out :=
  issueG (Instr.sig (.fradd d a)) s (fun x => 
    x.tree d a (fun u v =>
      rounded .fp32 (x.mode 0) x.g.ftz (addX (x.mode 0) (FF.fp32.decode u) (FF.fp32.decode v))))

/-- FRMAX (R116). -/
def execFrmax (d a : Reg) (s : State) : Out :=
  issueG (Instr.sig (.frmax d a)) s (fun x => x.tree d a (minmaxF .fp32 false true false))

/-- BALLOT (R238). -/
def execBallot (d : Reg) (a : BitVec 3) (s : State) : Out :=
  issueG (Instr.sig (.ballot d a)) s (fun x => x.g.wr2 d x.lanes (fun _ => x.g.pr a.toNat &&& x.act))

/-- ANY (R238). -/
def execAnyOf (d a : BitVec 3) (s : State) : Out :=
  issueG (Instr.sig (.anyOf d a)) s (fun x => x.g.pw d.toNat x.act (if x.g.pr a.toNat &&& x.act = 0 then 0 else x.act))

/-- ALL (R238). -/
def execAllOf (d a : BitVec 3) (s : State) : Out :=
  issueG (Instr.sig (.allOf d a)) s (fun x => x.g.pw d.toNat x.act (if x.g.pr a.toNat &&& x.act = x.act then x.act else 0))

/-- PSCAN_EX (R238). -/
def execPscanEx (d a : Reg) (s : State) : Out :=
  issueG (Instr.sig (.pscanEx d a)) s (fun x => x.g.wr d x.lanes (fun l => x.sumWhere a (fun j => decide (j < l))))

/-- PSCAN_IN (R238). -/
def execPscanIn (d a : Reg) (s : State) : Out :=
  issueG (Instr.sig (.pscanIn d a)) s (fun x => x.g.wr d x.lanes (fun l => x.sumWhere a (fun j => decide (j ≤ l))))

/-- MATCH (R238). -/
def execMatchEq (d a : Reg) (s : State) : Out :=
  issueG (Instr.sig (.matchEq d a)) s (fun x => 
    x.g.wr2 d x.lanes (fun l => maskOf (x.lanes.filter (fun j => x.g.rd a j == x.g.rd a l))))

end Sys2Proof.Machine
end

