-- ==== Sys2Proof/Machine/Control.lean ====
section
/-! DEFINITION. Branches, path control, indirect transfers and the special instructions, majors 0x30 to 0x33 (R42 to
R44, R184, R185, R200 to R206), but for EXIT (Machine/Gang.lean). -/
namespace Sys2Proof.Machine

/-- The target of a branch (R171, R200). -/
def Iss.target (x : Iss) (off : BitVec 20) : DWord := x.p.pc + BitVec.ofInt 64 (4 * branchOff x.p.hints off)

/-- The address that a word offset of major 0x31 names (R202). -/
def Iss.offTarget (x : Iss) (imm : BitVec 9) : DWord := x.p.pc + BitVec.ofInt 64 (4 * (immOf x.p.hints imm).toInt)

/-- PATHSTACK_OVF, DIVERGED_BARRIER and a misaligned transfer (R39, R46, R168), whose fault reports no capability.
DEDUCED: notes/assumptions/94.md. -/
def pathOvf : Fail := ⟨0x10, 0, 0⟩
def diverged : Fail := ⟨0x11, 0, 0⟩
def misfetch (t : DWord) : Fail := ⟨0x04, 4, t.toNat⟩

/-- A per-lane transfer: split with the taken lanes (R42). -/
def Iss.splitTo (x : Iss) (s : State) (g : Grp) (taken target fpc : DWord) : Res :=
  match g.split (s.genOf g) x.b taken target fpc with
  | none => .fault (x.failPlain pathOvf x.low)
  | some g => .done (s.putU x.u g)

/-- A uniform branch under a test (R200). -/
def Iss.uniBranch (x : Iss) (s : State) (off : BitVec 20) (c : Bool) : Res :=
  if c then .goto s x.g (x.target off) else .retire s x.g

/-- p0 in the active lanes. -/
def Iss.p0 (x : Iss) : DWord := x.g.pr 0 &&& x.act

/-- The active lanes whose pair in a v register equals the lowest lane's (R43). -/
def Iss.sameTarget (x : Iss) (a : Reg) : DWord :=
  maskOf (x.lanes.filter (fun l => x.g.rd2 a l == x.g.rd2 a x.low))

/-- JMPR and RET (R203): a transfer to the pair of a register; the lanes that do not transfer execute it again, from
the first hint of its sequence (R43, R177). DEDUCED: notes/assumptions/79.md and 94.md. -/
def Iss.jump (x : Iss) (s : State) (a : Reg) : Res :=
  let t := x.g.rd2 a x.low
  if fld t.toNat 0 2 ≠ 0 then .fault (x.failPlain (misfetch t) x.low)
  else if a.isV then x.splitTo s x.g (x.sameTarget a) t x.p.rewound.pc
  else .goto s x.g t

/-- CALLR (R203): the return address goes to the lanes that transfer. DEDUCED: notes/assumptions/79.md and 94.md. -/
def Iss.callr (x : Iss) (s : State) (d a : Reg) : Res :=
  let t := x.g.rd2 a x.low
  if fld t.toNat 0 2 ≠ 0 then .fault (x.failPlain (misfetch t) x.low)
  else if a.isV then
    let m := x.sameTarget a
    x.splitTo s (x.g.wr2 d (lanesOf x.width m) (fun _ => x.p.pc + 4)) m t x.p.rewound.pc
  else .goto s (x.g.wr2 d x.lanes (fun _ => x.p.pc + 4)) t

/-- PYIELD (R202): the sibling issues next, or an acceptable record takes the slot. -/
def Iss.pyield (x : Iss) (s : State) : Grp :=
  let gen := s.genOf x.g
  let g := x.g.goTo gen x.b (x.p.pc + 4)
  if eligible (g.slot (!x.b)) then { g with next := some (!x.b) }
  else match g.slot x.b with
    | none => g
    | some y =>
        if y.pc = x.p.pc + 4 ∧ y.link = x.p.link ∧ y.mask = x.p.mask then (g.swap gen x.b).giveWay gen x.b else g

/-- %mstat (R309): NARROW, the closed batches not ended, and the saturated fallback count. -/
def State.mstat (s : State) (u : Nat) (g : Grp) : Word :=
  let narrow : Nat := match unitDie u with
    | some d => if look false s.narrow d then 2 ^ 31 else 0
    | none => 0
  BitVec.ofNat 32 (narrow + (g.closed.length % 4096) * 2 ^ 16 + min g.fallback 0xFFFF)

/-- The special register of a number in a lane (R185). -/
def State.special (s : State) (x : Iss) (n l : Nat) : Word :=
  let v (k : Nat) : Word := BitVec.ofNat 32 k
  match n with
  | 0 => v l
  | 1 => v x.g.gidx
  | 2 => v x.g.gx
  | 3 => v x.g.gy
  | 4 => v x.g.gz
  | 5 => v x.g.width
  | 6 => x.g.mode
  | 7 => x.g.status
  | 8 => x.g.stoch
  | 9 => if x.b then 1 else 0
  | 10 => v x.g.role
  | 11 => s.mstat x.u x.g
  | 12 => v (l / 8)
  | 16 => x.g.x.word
  | 17 => x.g.x.op
  | 18 => x.g.x.fn
  | 19 => x.g.x.rd
  | 20 => x.g.x.ra
  | 21 => x.g.x.rb
  | 22 => x.g.x.imm
  | 23 => x.g.x.hints
  | 24 => x.g.x.hw.getD 0 0
  | 25 => x.g.x.hw.getD 1 0
  | 26 => x.g.x.hw.getD 2 0
  | 27 => x.g.x.hw.getD 3 0
  | 28 => x.g.x.pc.extractLsb' 0 32
  | 29 => x.g.x.pc.extractLsb' 32 32
  | _ => x.g.x.cause

/-- SWR (R99 to R102, R7). -/
def Grp.swr (g : Grp) (n : Nat) (w : Word) : Grp :=
  match n with
  | 6 => if modeOk w then { g with mode := w } else g
  | 7 => if fld w.toNat 6 26 = 0 then { g with status := w } else g
  | _ => { g with stoch := w }

/-- The issuing path changed in its slot. -/
def Iss.setPath (x : Iss) (f : Path → Path) : Grp := x.g.setSlot x.b ((x.g.slot x.b).map f)

/-- XRET (R184): only in the handler; the mark is cleared. A thread at level U is in no handler (R450). -/
def Iss.xret (x : Iss) (s : State) (skip : Bool) : Res :=
  if x.p.hnd && !(isControl x.u && x.g.level == .user) then
    .goto s (x.setPath (fun p => { p with hnd := false }))
      (if skip then x.g.x.pc + 4 else x.g.x.pc - BitVec.ofNat 64 (4 * fld x.g.x.hints.toNat 0 3))
  else .trap 0

/-- The cycle count of the executing core (R206). -/
def State.clockOf (s : State) (u : Nat) : DWord :=
  BitVec.ofNat 64 (Config.freeClock (unitCore u) + if isControl u then s.ctlNow else s.now)

/-- BRA (R200). -/
def execBra (o : BitVec 20) (s : State) : Out :=
  issue (sigBra o) s (fun x s => .goto s x.g (x.target o))

/-- BRP (R42, R200). -/
def execBrp (p : BitVec 3) (o : BitVec 20) (s : State) : Out :=
  issue (sigBrp p o) s (fun x s => x.splitTo s x.g (x.g.pr p.toNat) (x.target o) (x.p.pc + 4))

/-- BRN (R42, R200). -/
def execBrn (p : BitVec 3) (o : BitVec 20) (s : State) : Out :=
  issue (sigBrn p o) s (fun x s => x.splitTo s x.g (~~~(x.g.pr p.toNat)) (x.target o) (x.p.pc + 4))

/-- BRALL (R200). -/
def execBrall (o : BitVec 20) (s : State) : Out :=
  issue (sigBrall o) s (fun x s => x.uniBranch s o (x.p0 == x.act))

/-- BRANY (R200). -/
def execBrany (o : BitVec 20) (s : State) : Out :=
  issue (sigBrany o) s (fun x s => x.uniBranch s o (x.p0 != 0))

/-- BRNONE (R200). -/
def execBrnone (o : BitVec 20) (s : State) : Out :=
  issue (sigBrnone o) s (fun x s => x.uniBranch s o (x.p0 == 0))

/-- BRANCH_CALL (R200). -/
def execBranchCall (o : BitVec 20) (s : State) : Out :=
  issue (sigBranchCall o) s (fun x s => .goto s (x.g.wr2 126#7 x.lanes (fun _ => x.p.pc + 4)) (x.target o))

/-- REC (R202). -/
def execRecMark (imm : BitVec 9) (s : State) : Out :=
  issue (sigRecMark imm) s (fun x s => .retire s (x.setPath (fun p => { p with nrpc := some (x.offTarget imm) })))

/-- PATH (R202). -/
def execPath (a : Reg) (imm : BitVec 9) (s : State) : Out :=
  issue (sigPath a imm) s (fun x s => 
    x.splitTo s x.g (maskWhere x.width (fun l => x.g.rd a l != 0)) (x.offTarget imm) (x.p.pc + 4))

/-- PYIELD (R202). -/
def execPyield (s : State) : Out :=
  issue sigPyield s (fun x s => .done (s.putU x.u (x.pyield s)))

/-- RET (R203). -/
def execRet (a : Reg) (s : State) : Out :=
  issue (sigRet a) s (fun x s => x.jump s a)

/-- JMPR (R203). -/
def execJmpr (a : Reg) (s : State) : Out :=
  issue (sigJmpr a) s (fun x s => x.jump s a)

/-- CALLR (R203). -/
def execCallr (d a : Reg) (s : State) : Out :=
  issue (sigCallr d a) s (fun x s => x.callr s d a)

/-- SRD (R204). -/
def execSrd (d n : Reg) (s : State) : Out :=
  issue (sigSrd d n) s (fun x s => .retire s (x.g.wr d x.lanes (s.special x n.toNat)))

/-- SWR (R204). -/
def execSwr (a n : Reg) (s : State) : Out :=
  issue (sigSwr a n) s (fun x s => .retire s (x.g.swr n.toNat (x.g.rd a 0)))

/-- XRET_RETRY (R184). -/
def execXretRetry (s : State) : Out :=
  issue sigXretRetry s (fun x s => x.xret s false)

/-- XRET_SKIP (R184). -/
def execXretSkip (s : State) : Out :=
  issue sigXretSkip s (fun x s => x.xret s true)

/-- NOP (R204). -/
def execNop (s : State) : Out :=
  issue sigNop s (fun x s => .retire s x.g)

/-- BRK (R180). -/
def execBrk (code : Reg) (s : State) : Out :=
  issue (sigBrk code) s (fun _ _ => .trap 4)

/-- CLOCK (R206). -/
def execClock (d : Reg) (s : State) : Out :=
  issue (sigClock d) s (fun x s => .retire s (x.g.wr2 d x.lanes (fun _ => s.clockOf x.u)))

/-- ROLE (R57). -/
def execRole (r : BitVec 2) (s : State) : Out :=
  issue (sigRole r) s (fun x s => .retire s { x.g with role := r.toNat })

end Sys2Proof.Machine
end

