-- ==== Sys2Proof/Machine/Capab.lean ====
section
/-! DEFINITION. Capability and sealing instructions, majors 0x28 and 0x29 (R65, R69, R73, R75, R207 to R209). -/
namespace Sys2Proof.Machine

/-- A q destination from a capability. -/
def Iss.toQ (x : Iss) (d : BitVec 4) (c : Cap) : Grp := x.g.qw d.toNat c

/-- The q source of an instruction. -/
def Iss.qs (x : Iss) (q : BitVec 4) : Cap := x.g.qr q.toNat

/-- A uniform s destination. -/
def Iss.toS (x : Iss) (d : Reg) (n : Nat) : Grp := x.g.wr d x.lanes (fun _ => BitVec.ofNat 32 n)

/-- A uniform pair destination. -/
def Iss.toPair (x : Iss) (d : Reg) (n : Nat) : Grp := x.g.wr2 d x.lanes (fun _ => BitVec.ofNat 64 n)

/-- A capability into the quads of lanes (R208). -/
def Grp.quadLanes (g : Grp) (d : Reg) (c : Cap) : List Nat → Grp
  | [] => g
  | l :: ls => Grp.quadLanes (g.quadW d l c) d c ls

/-- CINVOKE (R75); an entry that arrived from a peer names code there (R87). DEDUCED: notes/assumptions/20.md and 94.md. -/
def Iss.invoke (x : Iss) (s : State) (d q : BitVec 4) : Res :=
  let c := x.qs q
  if !x.g.reconverged then .trap 0
  else match objCheck c 7 pEXEC with
    | .error f => .fault (x.fail f x.low c q.toNat)
    | .ok base =>
        let t : DWord := BitVec.ofNat 64 c.cursor
        if c.cursor % 4 ≠ 0 then .fault (x.failPlain (misfetch t) x.low)
        else .goto s { x.toQ d (cseale (x.g.pcc.withCursor (x.p.pc + 4).toNat)) with
          pcc := c.withOtype 0 true
          pccAt := s.farOf 7 x.g.vd base } t

/-- CSETB (R65). -/
def execCsetb (d : BitVec 4) (a : Reg) (q : BitVec 4) (s : State) : Out :=
  issueG (sigCsetb d a q) s (fun x => x.toQ d (setb (x.qs q) (x.g.rd2 a 0).toNat false))

/-- CSETBX (R65). -/
def execCsetbx (d : BitVec 4) (a : Reg) (q : BitVec 4) (s : State) : Out :=
  issueG (sigCsetbx d a q) s (fun x => x.toQ d (setb (x.qs q) (x.g.rd2 a 0).toNat true))

/-- CANDP (R207). -/
def execCandp (d : BitVec 4) (a : Reg) (q : BitVec 4) (s : State) : Out :=
  issueG (sigCandp d a q) s (fun x => x.toQ d ((x.qs q).withPerms (fld (x.g.rd a 0).toNat 1 15 * 2)))

/-- CINC (R207). -/
def execCinc (d : BitVec 4) (a : Reg) (q : BitVec 4) (s : State) : Out :=
  issueG (sigCinc d a q) s (fun x => x.toQ d ((x.qs q).withCursor ((x.qs q).cursor + (x.g.rd2 a 0).toNat)))

/-- CSETA (R207). -/
def execCseta (d : BitVec 4) (a : Reg) (q : BitVec 4) (s : State) : Out :=
  issueG (sigCseta d a q) s (fun x => x.toQ d ((x.qs q).withCursor (x.g.rd2 a 0).toNat))

/-- CGETB (R207). -/
def execCgetb (d : Reg) (q : BitVec 4) (s : State) : Out :=
  issueG (sigCgetb d q) s (fun x => x.toPair d (wrap 64 (x.qs q).base))

/-- CGETB_CUR (R207). -/
def execCgetbCur (d : Reg) (q : BitVec 4) (s : State) : Out :=
  issueG (sigCgetbCur d q) s (fun x => x.toPair d (x.qs q).cursor)

/-- CGETL (R207). -/
def execCgetl (d : Reg) (q : BitVec 4) (s : State) : Out :=
  issueG (sigCgetl d q) s (fun x => x.toPair d (wrap 64 ((x.qs q).top - (x.qs q).base)))

/-- CGETP (R207). -/
def execCgetp (d : Reg) (q : BitVec 4) (s : State) : Out :=
  issueG (sigCgetp d q) s (fun x => x.toS d (x.qs q).perms)

/-- CGETO (R207). -/
def execCgeto (d : Reg) (q : BitVec 4) (s : State) : Out :=
  issueG (sigCgeto d q) s (fun x => x.toS d (x.qs q).otype)

/-- CGETT (R207). -/
def execCgett (d : Reg) (q : BitVec 4) (s : State) : Out :=
  issueG (sigCgett d q) s (fun x => x.toS d (if (x.qs q).tag then 1 else 0))

/-- CMOV (R208). -/
def execCmov (d q : BitVec 4) (s : State) : Out :=
  issueG (sigCmov d q) s (fun x => x.toQ d (x.qs q))

/-- CMOV_TO_LANES (R208). -/
def execCmovToLanes (d : Reg) (q : BitVec 4) (s : State) : Out :=
  issueG (sigCmovToLanes d q) s (fun x => x.g.quadLanes d (x.qs q) x.lanes)

/-- CMOV_FROM_LANE (R208). -/
def execCmovFromLane (d : BitVec 4) (a : Reg) (s : State) : Out :=
  issueG (sigCmovFromLane d a) s (fun x => x.toQ d (x.g.quad a x.low))

/-- CCLR (R207). -/
def execCclr (d : BitVec 4) (s : State) : Out :=
  issueG (sigCclr d) s (fun x => x.toQ d Cap.null)

/-- CTSTSUB (R207). -/
def execCtstsub (d : Reg) (a q : BitVec 4) (s : State) : Out :=
  issueG (sigCtstsub d a q) s (fun x => x.toS d (if subCap (x.qs a) (x.qs q) then 1 else 0))

/-- CSEAL (R73). -/
def execCseal (d a q : BitVec 4) (s : State) : Out :=
  issueG (sigCseal d a q) s (fun x => x.toQ d (Sys2Proof.Machine.cseal (x.qs a) (x.qs q)))

/-- CUNSEAL (R73). -/
def execCunseal (d a q : BitVec 4) (s : State) : Out :=
  issueG (sigCunseal d a q) s (fun x => x.toQ d (Sys2Proof.Machine.cunseal (x.qs a) (x.qs q)))

/-- CSEALE (R75). -/
def execCseale (d q : BitVec 4) (s : State) : Out :=
  issueG (sigCseale d q) s (fun x => x.toQ d (Sys2Proof.Machine.cseale (x.qs q)))

/-- CINVOKE (R75). -/
def execCinvoke (d q : BitVec 4) (s : State) : Out := issue (sigCinvoke d q) s (fun x s => x.invoke s d q)

end Sys2Proof.Machine
end

