-- ==== Sys2Proof/Machine/Access.lean ====
section
/-! DEFINITION. Accesses of lanes to global memory: the checks of all lanes first (R121, R248), tiles that are being
regrown (R323), locked granules (R145), transactions (R143, R146, R258), and then the accesses (R147, R156). -/
namespace Sys2Proof.Machine

/-! Regrow requests (R323 to R329). -/

/-- Is a path of a group still at an address, with a lane: in a slot, or deferred? -/
def Grp.standsAt (g : Grp) (lane : Nat) (pc : DWord) : Bool :=
  let at_ (x : Option Path) : Bool := x.any (fun p => p.pc == pc && p.mask.getLsbD lane)
  at_ g.slotA || at_ g.slotB || g.stack.any (fun e => match e.2 with
    | .deferred q mask _ _ _ _ => q == pc && mask.getLsbD lane
    | .join .. => false)

/-- Does a waiter still wait: its group, resident or saved, is still at its access? -/
def State.stillWaits (s : State) (w : Nat × Bool × Nat × DWord) : Bool :=
  (find s.units w.1).any (fun g => g.standsAt w.2.2.1 w.2.2.2)
    || s.saved.any (fun e => e.2.units.any (fun x => x.1 == w.1 && x.2.standsAt w.2.2.1 w.2.2.2))

/-- The first waiting group of a request, or of the request that it serves (R327). -/
def State.firstWaiter (s : State) : Nat → Nat → Option (Nat × Bool × Nat × DWord)
  | 0, _ => none
  | n + 1, d => match find s.regrows d with
      | none => none
      | some r => (r.waiters.find? s.stillWaits).orElse (fun _ => r.parent.bind (fun p => s.firstWaiter n p))

/-- A request fails by a cause that the dispatcher detects: one context fault REGROW, once (R327). -/
def State.regrowFail (s : State) (desc cause : Nat) : State :=
  match find s.regrows desc, s.tiles.find? (fun t => t.desc == desc) with
  | some r, some t =>
      let first := s.firstWaiter 4 desc
      let at_ := first.getD (0, false, 0, 0)
      let hit := first.isSome
      let f : FaultInfo := s.inRegrow (some desc)
        { code := cause, detail := 0, addr := BitVec.ofNat 64 t.descVa, pc := at_.2.2.2,
          core := if hit then unitCore at_.1 else 0, slot := if hit then unitSlot at_.1 else 0, slotB := at_.2.1,
          lane := at_.2.2.1, unit := first.map (·.1) }
      if r.failed.isSome then s else ({ s with regrows := put s.regrows desc { r with failed := some cause } }).ctxFault r.ctx f
  | _, _ => s

/-- A request is opened for a DROPPED tile by a context, or by the one that registered it (R323). -/
def State.regrowOpen (s : State) (t : Tile) (ctx : Option Nat) (first : Option (Nat × Bool × Nat × DWord)) : State :=
  if tileState s t.desc = 1 then
    { s.setTileState t.desc 2 with
      regrows := put s.regrows t.desc { ctx := (ctx.orElse (fun _ => t.ctx)).getD 0, waiters := first.toList } }
  else
    match find s.regrows t.desc with
    | some r => { s with regrows := put s.regrows t.desc { r with
        waiters := r.waiters ++ first.toList.filter (fun w => !(r.waiters.contains w)) } }
    | none => s

/-- Is a tile a source of the recipe of another (R326)? -/
def State.isSource (s : State) (desc : Nat) (t : Tile) : Bool :=
  match find s.regrows desc with
  | some r => r.pins.contains t.desc
  | none => false

/-- What accesses that meet tiles being regrown do (R323, R326): none, when nothing is met; otherwise the state with the
requests opened, while the access waits. `own`: the tile whose regrow launch makes the access. -/
def State.meetTiles (s : State) (own : Option Nat) (ctx : Option Nat) (first : Option (Nat × Bool × Nat × DWord))
    (pls : List Place) : Option State :=
  let ts := (pls.flatMap s.meets).filter (fun t => !(own == some t.desc && tileState s t.desc == 2))
  match ts with
  | [] => none
  | t :: r =>
      some ((t :: r).foldl (fun u t =>
        match own with
        | some d => if u.isSource d t then u.regrowOpen t ctx first else u.regrowFail d 0x45
        | none => u.regrowOpen t ctx first) s)

/-! The lanes of an access. -/

/-- The transaction of a lane set, and its state. -/
def Grp.setTxn (g : Grp) (l : Nat) (t : Txn) : Grp := { g with txn := store {} g.txn l t }
def Grp.isOpen (g : Grp) (l : Nat) : Bool := (g.txnOf l).state == .opened
def Grp.isDoomed (g : Grp) (l : Nat) : Bool := (g.txnOf l).state != .opened && (g.txnOf l).state != .none

/-- An OPEN lane is doomed with a cause; its buffered stores go (R258). A serialised one keeps its locks until its
transaction ends (R145). -/
def Grp.doom (g : Grp) (cause l : Nat) : Grp :=
  if g.isOpen l then g.setTxn l { g.txnOf l with state := .doomed cause, writes := [] } else g

/-- Lanes whose instruction is excluded in a transaction (R258). -/
def Grp.forbid (g : Grp) (ls : List Nat) : Grp := ls.foldl (fun g l => g.doom 3 l) g

/-- What an access asks of every lane: the capability and its q register, the size, the leaf bits, the permissions and
offset of a lane, whether a lane's access must be aligned to its size, a check between `cap_check` and translation, and
whether a lane stores a tag (R66, R121, R248, R253). -/
structure Ask where
  c : Cap
  q : Nat
  size : Nat
  need : Need
  perm : Nat → Nat
  off : Nat → Int
  natural : Nat → Bool := fun _ => true
  mid : Nat → Option Fail := fun _ => none
  tagged : Nat → Bool := fun _ => false
  /-- A transactional store, whose commit needs R and W (R421). DEDUCED: notes/assumptions/89.md. -/
  commit : Nat → Bool := fun _ => false

/-- The checks and translations of one lane, in their order. -/
def Iss.place (x : Iss) (s : State) (k : Ask) (l : Nat) : Except FaultInfo LaneAt :=
  match capCheck k.c (k.off l) k.size (k.perm l) with
  | .error f => .error (x.fail f l k.c k.q)
  | .ok va =>
      if k.natural l && va % k.size != 0 then .error (x.fail ⟨0x04, k.size, va⟩ l k.c k.q)
      else match k.mid l with
        | some f => .error (x.fail f l k.c k.q)
        | none =>
            match locateLoad s { x.ag with lane := l } k.c
                (if k.commit l then { k.need with r := true, w := true } else k.need) va k.size with
            | .error f => .error (x.failPlain f l)
            | .ok pl => if k.tagged l && !pl.tagcap then .error (x.fail ⟨0x05, 0, va⟩ l k.c k.q) else .ok ⟨l, pl⟩

/-- Every lane's checks and translations, before any access: the places, or the lowest failing lane's fault (R121,
R248). -/
def Iss.places (x : Iss) (s : State) (k : Ask) : List Nat → Except FaultInfo (List LaneAt)
  | [] => .ok []
  | l :: ls =>
      match x.place s k l with
      | .error f => .error f
      | .ok a =>
          match Iss.places x s k ls with
          | .error f => .error f
          | .ok r => .ok (a :: r)

/-- The granules of a place (R121). -/
def Place.granules (p : Place) : List Nat := (p.keys.map (· / 16)).eraseDups

/-- Does a lane's serialised transaction hold a granule locked (R145)? -/
def Grp.holdsLock (g : Grp) (l k : Nat) : Bool :=
  (g.txnOf l).serial && ((g.txnOf l).granules.contains k || ((g.txnOf l).reads.map (·.1)).contains k)

/-- Is a granule locked by a serialised transaction of another lane (R145)? -/
def State.lockedFor (s : State) (g : Grp) (l k : Nat) : Bool := s.locked.contains k && !(g.holdsLock l k)

/-- Is a granule locked by a lane that no lane of the path is? A lane of the path itself cannot wait for it: both are
ended by the same TEND. DEDUCED: notes/assumptions/28.md. -/
def Iss.lockedOut (x : Iss) (s : State) (k : Nat) : Bool :=
  s.locked.contains k && !((lanesOf x.g.width x.p.mask).any (fun l => x.g.holdsLock l k))

/-- Must the access wait (R145, R323, R400)? The state then holds the requests it opens, and the wait says for what.
`txn`: the accesses of OPEN lanes are transactional, and meet a lock with a conflict. `made`: the accesses performed, where
one counts for several lanes. -/
def Iss.gate (x : Iss) (s : State) (txn : Bool) (as : List LaneAt) (made : List LaneAt := as) : Option (State × Wait) :=
  let plain := as.filter (fun a => !(txn && x.g.isOpen a.lane))
  if plain.any (fun a => a.pl.granules.any (x.lockedOut s)) then some (s, .other)
  else match s.meetTiles x.g.regrow x.g.ctx (some (x.u, x.b, x.low, x.p.pc)) (made.map (·.pl)) with
    | some t => some (t, .internal)
    | none => (s.unserved x.ag (made.map (·.pl))).map (fun t => (t, .other))

/-- The 128 bits of a granule. -/
def State.granule (s : State) (k : Nat) : BitVec 128 := BitVec.ofNat 128 (s.rn (16 * k) 16)

/-- A serialised lane locks the granules it touches first (R145). -/
def State.lock (s : State) (t : Txn) (ks : List Nat) : State :=
  if t.serial then { s with locked := s.locked ++ ks.filter (fun k => !(s.locked.contains k)) } else s

/-- A transactional load enters the read set with the value read, or dooms the lane (R143, R258); the group, the state and
the value. A granule read again with another value is held with both (R144, R160). -/
def txnLoad (s : State) (g : Grp) (a : LaneAt) : State × Grp × Nat :=
  let t := g.txnOf a.lane
  let ks := a.pl.granules
  let hit := t.hit || ks.any (s.lockedFor g a.lane)
  let reads := t.reads ++ (ks.map (fun k => (k, s.granule k))).filter (fun e => !(t.reads.contains e))
  if 8 < ((reads.map (·.1)).eraseDups).length then (s, g.doom 2 a.lane, s.rkeys a.pl.keys)
  else if a.pl.peer.isSome then (s, g.doom 4 a.lane, s.rkeys a.pl.keys)
  else (s.lock t ks, g.setTxn a.lane { t with
    reads := reads, hit := hit, pages := t.pages ++ a.pl.pages }, s.seen t a.pl.keys)

/-- A transactional store is buffered, or dooms the lane (R143, R258). -/
def txnStore (s : State) (g : Grp) (a : LaneAt) (bs : List Byte) : State × Grp :=
  let t := g.txnOf a.lane
  let ks := a.pl.granules
  let hit := t.hit || ks.any (s.lockedFor g a.lane)
  let gs := t.granules ++ ks.filter (fun k => !(t.granules.contains k))
  if 4 < gs.length then (s, g.doom 2 a.lane)
  else if a.pl.peer.isSome then (s, g.doom 4 a.lane)
  else (s.lock t ks, g.setTxn a.lane { t with
    writes := (a.pl.keys.zip bs).foldl (fun w e => put w e.1 e.2) t.writes, granules := gs, hit := hit, pages := t.pages ++ a.pl.pages })

/-- Every lane's load in turn: the state, the group, and the value of each lane. -/
def loadLanes : State → Grp → List LaneAt → State × Grp × List (Nat × Nat)
  | s, g, [] => (s, g, [])
  | s, g, a :: r =>
      let t : State × Grp × Nat := if g.isOpen a.lane then txnLoad s g a else (s, g, s.rkeys a.pl.keys)
      let u := loadLanes t.1 t.2.1 r
      (u.1, u.2.1, (a.lane, t.2.2) :: u.2.2)

/-- Every lane's store in ascending order: the highest lane's bytes stay (R147). -/
def storeLanes (bytes : Nat → List Byte) : State → Grp → List LaneAt → State × Grp
  | s, g, [] => (s, g)
  | s, g, a :: r =>
      let t : State × Grp :=
        if g.isOpen a.lane then txnStore s g a (bytes a.lane)
        else if g.isDoomed a.lane then (s, g)
        else (s.wkeys a.pl.keys (bytes a.lane), g)
      storeLanes bytes t.1 t.2 r

/-- The caches see the accesses of lanes. -/
def State.touchLanes (s : State) (ag : Ag) (write : Bool) (as : List LaneAt) : State :=
  s.touchAll ag write (as.map (·.pl))

/-! Part of an instruction's accesses in a step (R121, R146, R159). -/

/-- A part of a place: the bytes in one granule. -/
def Place.inGranule (p : Place) (k : Nat) : Place := { p with keys := p.keys.filter (fun x => x / 16 == k) }

/-- The pieces of a lane's access, with the bytes of a value that lie in each. -/
def LaneAt.pieces (a : LaneAt) (v : Nat) : List Piece :=
  a.pl.granules.map (fun k =>
    let off := a.pl.keys.findIdx (fun x => x / 16 == k)
    ⟨⟨a.lane, a.pl.inGranule k⟩, off, v >>> (8 * off)⟩)

/-- The pieces that a step makes of those left, and the rest. A store's pieces in one granule go together (R147). -/
def pickPieces (store : Bool) (ps : List Nat) (left : List Piece) : List Piece × List Piece :=
  let chosen := ps.filterMap (fun n => left[n]?)
  let gs := chosen.flatMap (fun e => e.at_.pl.granules)
  left.partition (fun e => chosen.contains e || (store && e.at_.pl.granules.any gs.contains))

/-- Some pieces of an LD are read: the state, the group, and the values. -/
def readPieces : State → Grp → List Piece → State × Grp × List (Nat × Nat × Nat)
  | s, g, [] => (s, g, [])
  | s, g, e :: r =>
      let t : State × Grp × Nat := if g.isOpen e.at_.lane then txnLoad s g e.at_ else (s, g, s.rkeys e.at_.pl.keys)
      let u := readPieces t.1 t.2.1 r
      (u.1, u.2.1, (e.at_.lane, e.off, t.2.2) :: u.2.2)

/-- Some pieces of a store are made, in ascending lane order. -/
def writePieces : State → Grp → List Piece → State × Grp
  | s, g, [] => (s, g)
  | s, g, e :: r =>
      let t : State × Grp := storeLanes (fun _ => leBytes e.v e.at_.pl.keys.length) s g [e.at_]
      writePieces t.1 t.2 r

/-- The places of a uniform access are the lowest lane's: it is performed once, and counts for each active lane (R146,
R248). -/
def onePlace (perLane : Bool) (as : List LaneAt) : List LaneAt :=
  if perLane then as
  else match as with
    | [] => []
    | a :: r => a :: r.map (fun b => { b with pl := a.pl })

/-- The accesses that are performed of those that count for lanes. -/
def performedOf (perLane : Bool) (as : List LaneAt) : List LaneAt := if perLane then as else as.take 1

/-- Pieces of the lowest lane, for each active lane (R146). -/
def Iss.forLanes (x : Iss) (perLane : Bool) (ps : List Piece) : List Piece :=
  if perLane then ps else ps.flatMap (fun e => x.lanes.map (fun l => { e with at_ := { e.at_ with lane := l } }))

/-- An LD or ST goes on with the pieces that the step makes; it is complete when none is left. Pieces that would wait now
are left. -/
def Iss.goOn (x : Iss) (s : State) (pt : Progress) : Res :=
  let c := pickPieces (pt.land == .store) (s.part.getD (List.range pt.left.length)) pt.left
  let perLane := match pt.land with
    | .load d _ _ => d.isV
    | .store => true
  match x.gate s true ((x.forLanes perLane c.1).map (·.at_)) (c.1.map (·.at_)) with
  | some t => .part t.1 x.g pt
  | none =>
  match pt.land with
  | .store =>
      let r := writePieces s x.g c.1
      let t := r.1.touchLanes x.ag true (c.1.map (·.at_))
      if c.2.isEmpty then .retire t r.2 else .part t r.2 { pt with left := c.2 }
  | .load d regs sx =>
      let r := readPieces s x.g (x.forLanes perLane c.1)
      let t := r.1.touchLanes x.ag false (c.1.map (·.at_))
      let got := pt.got ++ r.2.2
      if c.2.isEmpty then
        .retire t (r.2.1.wrRun d x.lanes (fun l k => landWord got sx (if d.isV then l else x.low) k) regs)
      else .part t r.2.1 { pt with left := c.2, got := got }

/-- The offset of a lane (R171, R248). -/
def Iss.memOff (x : Iss) (o : Reg) (d5 : BitVec 5) (size : Nat) (l : Nat) : Int :=
  (x.g.off o l).toInt + dispOf x.p.hints d5 size

/-- LOAD or STORE, with ATOMIC in an open transaction (R248). -/
def Iss.txnPerm (x : Iss) (p l : Nat) : Nat := if x.g.isOpen l then p ||| pATOMIC else p

/-- The lane whose value a destination receives: its own, or for an s register the lowest active lane's (R248). -/
def Iss.valLane (x : Iss) (d : Reg) (l : Nat) : Nat := if d.isV then l else x.low

/-- A register word of a loaded value: word `k`, sign-extended from `sx` bits when it is not 0. -/
def extWord (sx v k : Nat) : Word := if sx = 0 then BitVec.ofNat 32 (v >>> (32 * k)) else word (sint sx v)

/-- LD (R248): size, registers of the run, and the bits it sign-extends from. -/
def Iss.ld (x : Iss) (s : State) (d o : Reg) (q : BitVec 4) (d5 : BitVec 5) (size regs sx : Nat) : Res :=
  match x.p.part with
  | some pt => x.goOn s pt
  | none =>
      let c := x.qs q
      let k : Ask :=
        { c := c, q := q.toNat, size := size, need := { r := true }, perm := x.txnPerm pLOAD,
          off := x.memOff o d5 size, natural := x.g.isOpen }
      match x.places s k x.lanes with
      | .error f => .fault f
      | .ok ps =>
          let as := onePlace d.isV ps
          let made := performedOf d.isV as
          match x.gate s true as made with
          | some t => .wait t.1 t.2
          | none =>
              match s.part with
              | some _ => x.goOn s { w := x.w, left := made.flatMap (fun a => a.pieces 0), land := .load d regs sx }
              | none =>
                  let r := loadLanes s x.g as
                  .retire (r.1.touchLanes x.ag false made)
                    (r.2.1.wrRun d x.lanes (fun l k => extWord sx (look 0 r.2.2 (x.valLane d l)) k) regs)

/-- Word `k` of a value. -/
def wordAt (v k : Nat) : Word := BitVec.ofNat 32 (v >>> (32 * k))

/-- The run of registers as one number. -/
def Grp.runVal (g : Grp) (d : Reg) (l : Nat) : Nat → Nat
  | 0 => 0
  | n + 1 => (g.rd d l).toNat + 2 ^ 32 * Grp.runVal g (Reg.plus d 1) l n

/-- ST (R248). -/
def Iss.st (x : Iss) (s : State) (d o : Reg) (q : BitVec 4) (d5 : BitVec 5) (size regs : Nat) : Res :=
  match x.p.part with
  | some pt => x.goOn s pt
  | none =>
      let c := x.qs q
      let k : Ask :=
        { c := c, q := q.toNat, size := size, need := { w := true }, perm := x.txnPerm pSTORE,
          off := x.memOff o d5 size, natural := x.g.isOpen, commit := x.g.isOpen }
      match x.places s k x.lanes with
      | .error f => .fault f
      | .ok ps =>
          let as := onePlace (d.isV || o.isV) ps
          let made := performedOf (d.isV || o.isV) as
          match x.gate s true as made with
          | some t => .wait t.1 t.2
          | none =>
              match s.part with
              | some _ =>
                  x.goOn s { w := x.w, left := as.flatMap (fun a => a.pieces (x.g.runVal d a.lane regs)), land := .store }
              | none =>
                  let r := storeLanes (fun l => leBytes (x.g.runVal d l regs) size) s x.g as
                  .retire (r.1.touchLanes x.ag true made) r.2

/-! Atomics (R127 to R129, R254 to R256). -/

/-- The lanes that make a request: each active lane, or one for a uniform form (R173, R256). -/
def Iss.reqLanes (x : Iss) (perLane : Bool) : List Nat := if perLane then x.lanes else [x.low]

/-- Requests in ascending lane order: `f lane m` gives the new value, or none for no write (R70, R128). The values read
come back by lane. -/
def atomLanes (size : Nat) (f : Nat → Nat → Option Nat) :
    State → List LaneAt → State × List (Nat × Nat)
  | s, [] => (s, [])
  | s, a :: r =>
      let m := s.rkeys a.pl.keys
      let s := match f a.lane m with
        | some v => s.wkeys a.pl.keys (leBytes v size)
        | none => s
      let u := atomLanes size f s r
      (u.1, (a.lane, m) :: u.2)

/-- The group after an instruction that no transaction may hold: the cause of an OPEN lane is REMOTE when its access touched
another module, else FORBIDDEN (R143, R258). -/
def Iss.excluded (x : Iss) (perLane : Bool) (as : List LaneAt) : Grp :=
  x.lanes.foldl (fun g l =>
    g.doom (if as.any (fun a => (a.lane == l || !perLane) && a.pl.peer.isSome) then 4 else 3) l) x.g

/-- The group after an instruction that touches another module: the OPEN lanes that do, or all of a uniform access's, are
doomed with REMOTE (R143, R258). -/
def Iss.remote (x : Iss) (perLane : Bool) (as : List LaneAt) : Grp :=
  x.lanes.foldl (fun g l =>
    if as.any (fun a => (a.lane == l || !perLane) && a.pl.peer.isSome) then g.doom 4 l else g) x.g

/-- A returning atomic: size, registers of the result, and the new value from operand run and memory. -/
def Iss.atom (x : Iss) (s : State) (d a : Reg) (q : BitVec 4) (size regs : Nat) (f : Nat → Nat → Option Nat) : Res :=
  let c := x.qs q
  let ls := x.reqLanes (d.isV || a.isV)
  let k : Ask :=
    { c := c, q := q.toNat, size := size, need := { r := true, w := true },
      perm := fun _ => pATOMIC ||| pSTORE ||| pLOAD, off := fun l => (x.g.off a l).toInt }
  match x.places s k ls with
  | .error e => .fault e
  | .ok as =>
      match x.gate s false as with
      | some t => .wait t.1 t.2
      | none =>
          let r := atomLanes size f s as
          .retire (r.1.touchLanes x.ag true as) (((x.excluded (d.isV || a.isV) as).wrRun d x.lanes (fun l k => wordAt (look 0 r.2 (x.valLane d l)) k) regs))

/-- Requests of one address and its place, in ascending lane order. -/
def groupPlaces : List LaneAt → List (Place × List Nat)
  | [] => []
  | a :: r =>
      let g := groupPlaces r
      if g.any (fun e => e.1.keys == a.pl.keys) then
        g.map (fun e => if e.1.keys == a.pl.keys then (e.1, a.lane :: e.2) else e)
      else (a.pl, [a.lane]) :: g

/-- Operands combined on the way in a tree of open shape and leaf order (R110, R129): two of the values, chosen freely,
become one, until one is left. DESIGN CHOICE: notes/assumptions/18.md. -/
def combine (f : Nat → Nat → Nat) : Nat → State → List Nat → State × Nat
  | 0, s, l => (s, l.headD 0)
  | n + 1, s, l =>
      if l.length ≤ 1 then (s, l.headD 0)
      else
        let i := s.freeVal % l.length
        let a := l.getD i 0
        let r := l.eraseIdx i
        let j := Config.freeNat (s.free + 1) % r.length
        let b := r.getD j 0
        combine f n s.draw.draw (f a b :: r.eraseIdx j)

/-- Non-returning reductions, address by address. -/
def redPlaces (f : Nat → Nat → Nat) (v : Nat → Nat) : State → List (Place × List Nat) → State
  | s, [] => s
  | s, e :: r =>
      let c := combine f (e.2.length + 1) s (s.rkeys e.1.keys :: e.2.map v)
      redPlaces f v (c.1.wkeys e.1.keys (leBytes c.2 4)) r

/-- A non-returning reduction: `v` the operand of a lane, `f` the combination. -/
def Iss.red (x : Iss) (s : State) (perLane : Bool) (a : Reg) (q : BitVec 4) (v : Nat → Nat) (f : Nat → Nat → Nat) : Res :=
  let c := x.qs q
  let k : Ask :=
    { c := c, q := q.toNat, size := 4, need := { r := true, w := true },
      perm := fun _ => pATOMIC ||| pSTORE, off := fun l => (x.g.off a l).toInt }
  match x.places s k (x.reqLanes perLane) with
  | .error e => .fault e
  | .ok as =>
      match x.gate s false as with
      | some t => .wait t.1 t.2
      | none => .retire ((redPlaces f v s (groupPlaces as)).touchLanes x.ag true as) (x.excluded perLane as)

/-- FP32 addition in the bank unit: RNE, subnormals kept, no flag (R110). -/
def bankAdd (f : FF) (a b : Nat) : Nat := (rounded f .rne false (addX .rne (f.decode a) (f.decode b))).1

/-- Each BF16 element added (R110). -/
def bankAdd2 (a b : Nat) : Nat :=
  bankAdd .bf16 (fld a 0 16) (fld b 0 16) + 2 ^ 16 * bankAdd .bf16 (fld a 16 16) (fld b 16 16)

/-- Minimum and maximum of 32-bit values read signed. -/
def minSN (a b : Nat) : Nat := if sint 32 b < sint 32 a then b else a
def maxSN (a b : Nat) : Nat := if sint 32 a < sint 32 b then b else a

/-! Capability loads and stores (R251 to R253). -/

/-- The capability holder of major 0x1B: a v quad per lane, or q0 to q15. -/
def Iss.holder (x : Iss) (d : Reg) (l : Nat) : Cap := if d.isV then x.g.quad d l else x.g.qr (d.toNat - 96)

/-- Capabilities written to their holders. -/
def Grp.holdLanes (g : Grp) (d : Reg) : List (Nat × Cap) → Grp
  | [] => g
  | (l, c) :: r => Grp.holdLanes (if d.isV then g.quadW d l c else g.qw (d.toNat - 96) c) d r

/-- The granule's tag that a load returns (R71, R143, R252). -/
def ldcTag (s : State) (g : Grp) (c : Cap) (a : LaneAt) : Bool :=
  let k := a.pl.keys.headD 0
  s.tagR k && c.has pLOADCAP && a.pl.tagcap && !(g.isOpen a.lane && (g.txnOf a.lane).granules.contains (k / 16))

/-- LDC (R252). The values of a uniform form come from the lowest lane. -/
def Iss.ldc (x : Iss) (s : State) (d o : Reg) (q : BitVec 4) (d5 : BitVec 5) : Res :=
  let c := x.qs q
  let k : Ask :=
    { c := c, q := q.toNat, size := 16, need := { r := true }, perm := x.txnPerm pLOAD,
      off := x.memOff o d5 16 }
  match x.places s k x.lanes with
  | .error e => .fault e
  | .ok ps =>
      let as := onePlace d.isV ps
      match x.gate s true as (performedOf d.isV as) with
      | some t => .wait t.1 t.2
      | none =>
          let r := loadLanes s x.g as
          let got := as.map (fun a =>
            (a.lane, s.swept x.g.vd ⟨BitVec.ofNat 128 (look 0 r.2.2 a.lane), ldcTag s x.g c a⟩))
          .retire (r.1.touchLanes x.ag false (performedOf d.isV as)) (r.2.1.holdLanes d (if d.isV then got else got.take 1))

/-- The permission checks of STC on a tagged capability, in the order of R253. -/
def stcBad (c v : Cap) : Option Fail :=
  if !v.tag then none
  else if !(c.has pSTORECAP) then some ⟨0x03, 11, 0⟩
  else if !(v.has pGLOBAL) && !(c.has pSTORELOCAL) then some ⟨0x03, 10, 0⟩
  else none

/-- The capabilities stored in ascending lane order; a doomed lane's store is discarded (R258). -/
def stcLanes (vd : Nat) (v : Nat → Cap) : State → Grp → List LaneAt → State
  | s, _, [] => s
  | s, g, a :: r =>
      let s := if g.isDoomed a.lane then s
        else
          let c := s.swept vd (v a.lane)
          let s := s.wkeys a.pl.keys (leBytes c.bits.toNat 16)
          if c.tag then s.tagW (a.pl.keys.headD 0) true else s
      stcLanes vd v s g r

/-- STC (R253). DEDUCED: notes/assumptions/17.md. -/
def Iss.stc (x : Iss) (s : State) (d o : Reg) (q : BitVec 4) (d5 : BitVec 5) : Res :=
  let c := x.qs q
  let k : Ask :=
    { c := c, q := q.toNat, size := 16, need := { w := true }, perm := fun _ => pSTORE,
      off := x.memOff o d5 16, mid := fun l => stcBad c (x.holder d l), tagged := fun l => (x.holder d l).tag }
  match x.places s k x.lanes with
  | .error e => .fault e
  | .ok as =>
      match x.gate s false as with
      | some t => .wait t.1 t.2
      | none => .retire ((stcLanes x.g.vd (x.holder d) s x.g as).touchLanes x.ag true as) (x.excluded (d.isV || o.isV) as)

end Sys2Proof.Machine
end

