-- ==== Sys2Proof/Machine/Scratch.lean ====
section
/-! DEFINITION. Scratch accesses of groups: the checks of R122, the races of R164 to R167, LDS and STS (R249, R250), the
scratch forms of LDC and STC (R252, R253), and CVTQ (R114, R233). -/
namespace Sys2Proof.Machine

/-- A gang changed. -/
def State.modGang (s : State) (n : Nat) (f : Gang → Gang) : State :=
  match find s.gangs n with
  | none => s
  | some k => { s with gangs := put s.gangs n (f k) }

/-- One lane's scratch access: lane, offset, and the bytes to store, if it stores. -/
structure SAcc where
  lane : Nat
  off : Int
  deriving DecidableEq, Repr

/-- Is a store of the issuing path a release store (R165)? DEDUCED: notes/assumptions/27.md. -/
def Iss.relStore (x : Iss) : Bool := x.p.mask &&& ~~~x.g.relLanes == 0

/-- The access as the race check sees it. -/
def Iss.acc (x : Iss) (off size : Nat) (write : Bool) (n : Nat) : Acc :=
  ⟨.grp x.g.gidx, n, off, off + size, write, write && x.relStore⟩

/-- Does a lane's access break R122? -/
def Iss.scrOut (x : Iss) (s : State) (size : Nat) (a : SAcc) : Bool :=
  match x.g.gang.bind (fun n => find s.gangs n) with
  | none => true
  | some k => decide (a.off < 0) || !(scrOk k a.off.toNat size)

/-- What a lane's access races with (R166, R167). -/
def Iss.scrRaces (x : Iss) (s : State) (size : Nat) (write : Bool) (a : SAcc) : List (Bool × Nat × Nat) :=
  match x.g.gang.bind (fun n => find s.gangs n) with
  | none => []
  | some k =>
      let c := x.acc a.off.toNat size write 0
      (k.race.against (look [] k.race.clk x.g.gidx) c).map (racePair c)

/-- Does a lane's read meet an uncorrectable error of its scratch (R23)? -/
def Iss.scrErr (x : Iss) (s : State) (size : Nat) (a : SAcc) : Bool :=
  s.errAt 1 (scrKey (x.g.gang.getD 0) a.off.toNat) size

/-- The fault of a scratch access of lanes: SCRATCH_BOUNDS when any lane breaks R122, at the lowest such lane (R250); else a
race, at the lowest byte of the instruction (R167) and its lowest racing lane; else an uncorrectable error that a lane
reads. DESIGN CHOICE: notes/assumptions/82.md. -/
def Iss.scrFault (x : Iss) (s : State) (size : Nat) (write : Bool) (as : List SAcc) : Option FaultInfo :=
  match as.find? (x.scrOut s size) with
  | some a => some (x.failPlain ⟨0x0D, 0, wrap 64 a.off⟩ a.lane)
  | none =>
      match as.find? (fun a => !(x.scrRaces s size write a).isEmpty) with
      | some a =>
          let r := raceReport (as.flatMap (x.scrRaces s size write))
          some (x.failPlain ⟨0x0C, r.2, r.1⟩ a.lane)
      | none =>
          if write then none
          else (as.find? (x.scrErr s size)).map (fun a => x.failPlain ⟨0x18, 1, a.off.toNat⟩ a.lane)

/-- The release stores still readable after bytes are written (R165). -/
def cutRels (lo hi : Nat) (rs : List (Nat × Nat × Clock)) : List (Nat × Nat × Clock) :=
  rs.flatMap (fun r =>
    if hi ≤ r.1 ∨ r.2.1 ≤ lo then [r]
    else (if r.1 < lo then [(r.1, lo, r.2.2)] else []) ++ (if hi < r.2.1 then [(hi, r.2.1, r.2.2)] else []))

/-- Accesses of one instruction of a group enter the race state; `lds`: its reads may return a release store's value, as only
those of LDS and WAITA do (R165). -/
def Race.note (r : Race) (g : Nat) (lds : Bool) (as : List Acc) : Race :=
  let own : Clock := look [] r.clk g
  let n := Clock.get own (.grp g) + 1
  let seen : Clock := as.foldl (fun c a =>
    if a.write || !lds then c
    else r.rels.foldl (fun c e => if e.1 < a.hi ∧ a.lo < e.2.1 then Clock.join c e.2.2 else c) c) (look [] r.pend g)
  let rels := as.foldl (fun rs a =>
    if a.write then cutRels a.lo a.hi rs ++ (if a.rel then [(a.lo, a.hi, own)] else []) else rs) r.rels
  { r with
    log := r.log ++ as.map (fun a => { a with n := n })
    clk := put r.clk g (Clock.set own (.grp g) n)
    pend := store [] r.pend g seen
    rels := rels }

/-- The accesses of an instruction are noted. -/
def Iss.scrNote (x : Iss) (s : State) (size : Nat) (write : Bool) (as : List SAcc) (lds : Bool := false) : State :=
  match x.g.gang with
  | none => s
  | some n => if as.isEmpty then s else s.modGang n (fun k =>
      { k with race := k.race.note x.g.gidx lds (as.map (fun a => x.acc a.off.toNat size write 0)) })

/-- The group after a scratch access of the path. -/
def Iss.scrG (x : Iss) (g : Grp) : Grp := { g with relLanes := g.relLanes &&& ~~~x.p.mask }

/-- The gang's number (0 for a control-core thread, whose accesses all fail). -/
def Iss.gangNo (x : Iss) : Nat := x.g.gang.getD 0

/-- The displacement of an I-format scratch access: sext32(imm9), or HI:imm9 (R171, R249).
DEDUCED: notes/assumptions/21.md. -/
def scrDisp (hs : List Word) (imm9 : BitVec 9) : Int :=
  match hint? hs 0 with
  | none => imm9.toInt
  | some hi => ((hi * 512 + imm9.toNat : Nat) : Int)

/-- Each active lane's access of an I-format word; once for a uniform form (R173, R250). -/
def Iss.scrAccs (x : Iss) (perLane : Bool) (a : Reg) (disp : Int) : List SAcc :=
  (x.reqLanes perLane).map (fun l => ⟨l, ((x.g.off a l).toNat : Int) + disp⟩)

/-- LDS (R250). -/
def Iss.lds (x : Iss) (s : State) (d a : Reg) (imm : BitVec 9) (size regs : Nat) : Res :=
  let as := x.scrAccs d.isV a (scrDisp x.p.hints imm)
  match x.scrFault s size false as with
  | some f => .fault f
  | none =>
      let vs := as.map (fun c => (c.lane, s.scrR x.gangNo c.off.toNat size))
      .retire (x.scrNote s size false as true)
        ((x.scrG x.g).wrRun d x.lanes (fun l k => wordAt (look 0 vs (x.valLane d l)) k) regs)

/-- The stores of an instruction in ascending lane order (R147). -/
def State.scrLanes (s : State) (gang size : Nat) (v : Nat → Nat) : List SAcc → State
  | [] => s
  | c :: r => State.scrLanes (s.scrW gang c.off.toNat size (v c.lane)) gang size v r

/-- STS (R250). -/
def Iss.sts (x : Iss) (s : State) (d a : Reg) (imm : BitVec 9) (size regs : Nat) : Res :=
  let as := x.scrAccs (d.isV || a.isV) a (scrDisp x.p.hints imm)
  match x.scrFault s size true as with
  | some f => .fault f
  | none =>
      .retire ((x.scrNote s size true as).scrLanes x.gangNo size (fun l => x.g.runVal d l regs) as) (x.scrG x.g)

/-- The accesses of a scratch form of major 0x1B (R251). -/
def Iss.capAccs (x : Iss) (d o : Reg) (d5 : BitVec 5) : List SAcc :=
  (x.reqLanes d.isV).map (fun l => ⟨l, ((x.g.off o l).toNat : Int) + dispOf x.p.hints d5 16⟩)

/-- LDC.L (R252). -/
def Iss.ldcLoc (x : Iss) (s : State) (d o : Reg) (d5 : BitVec 5) : Res :=
  let as := x.capAccs d o d5
  match x.scrFault s 16 false as with
  | some f => .fault f
  | none =>
      .retire (x.scrNote s 16 false as)
        ((x.scrG x.g).holdLanes d (as.map (fun c => (c.lane, s.swept x.g.vd (s.scrCap x.gangNo c.off.toNat)))))

/-- The capabilities of an instruction stored in ascending lane order. -/
def State.scrCaps (s : State) (gang vd : Nat) (v : Nat → Cap) : List SAcc → State
  | [] => s
  | c :: r => State.scrCaps (s.scrCapW gang c.off.toNat (s.swept vd (v c.lane))) gang vd v r

/-- STC.L (R253). -/
def Iss.stcLoc (x : Iss) (s : State) (d o : Reg) (d5 : BitVec 5) : Res :=
  let as := x.capAccs d o d5
  match x.scrFault s 16 true as with
  | some f => .fault f
  | none => .retire ((x.scrNote s 16 true as).scrCaps x.gangNo x.g.vd (x.holder d) as) (x.scrG x.g)

/-! CVTQ (R114, R115, R233). -/

/-- Is a control word of CVTQ legal? -/
def cvtqOk (w : Word) : Bool :=
  fld w.toNat 23 9 == 0 && fld w.toNat 20 3 != 7 && fld w.toNat 19 1 == 0 && decide (fld w.toNat 16 3 ≤ 3)

/-- Is a value an outlier of a threshold? -/
def outlier (t x : FV) : Bool :=
  x.isNan || t.lt (match x with
    | .fin _ m e => .fin false m e
    | .inf _ => .inf false
    | y => y)

/-- CVTQ. -/
def Iss.cvtq (x : Iss) (s : State) (d a b : Reg) : Res :=
  let ctl := x.g.rd (Reg.plus b 2) 0
  let k := (x.g.rd (Reg.plus b 1) 0).toNat
  if !(cvtqOk ctl) then .trap 0
  else if k % 4 ≠ 0 then .fault (x.failPlain ⟨0x0D, 0, k⟩ x.low)
  else
    let dst : CT := CT.ofCode (if fld ctl.toNat 16 3 = 3 then 10 else 3 + fld ctl.toNat 16 3)
    let t := FF.fp32.operand x.g.daz (x.g.rd b 0).toNat
    let v (l : Nat) : FV := FF.fp32.operand x.g.daz (x.g.rd a l).toNat
    let outs := x.lanes.filter (fun l => outlier t (v l))
    let as : List SAcc := outs.mapIdx (fun n l => ⟨l, ((k + 4 * n : Nat) : Int)⟩)
    match x.scrFault s 4 true as with
    | some f => .fault f
    | none =>
        let entry (l : Nat) : Nat :=
          (fld ctl.toNat 0 16 + l) % 65536 * 65536 + (roundFV .bf16 .rne false false (v l)).1
        let code (l : Nat) : Int × Nat :=
          if outs.contains l then (0, 0)
          else convert (.float .fp32) dst (x.mode 0) (satOf x.g x.p.hints) x.g.ftz x.g.daz false (x.g.rd a l).toNat
        let g := x.g.wr d x.lanes (fun l => BitVec.ofNat 32 (wrap dst.width (code l).1))
        let g := g.raise (x.lanes.foldl (fun f l => f ||| (code l).2) 0)
        let g := g.pw (fld ctl.toNat 20 3) x.act (maskOf outs)
        let g := g.wr (Reg.plus b 1) x.lanes (fun _ => BitVec.ofNat 32 (k + 4 * outs.length))
        .retire ((x.scrNote s 4 true as).scrLanes x.gangNo 4 entry as) (if outs.isEmpty then g else x.scrG g)

/-! The instructions. -/

/-- LDS_W (R250). -/
def execLdsW (d a : Reg) (i : BitVec 9) (s : State) : Out :=
  issue (Instr.sig (.ldsW d a i)) s (fun x s => x.lds s d a i 4 1)

/-- LDS_D (R250). -/
def execLdsD (d a : Reg) (i : BitVec 9) (s : State) : Out :=
  issue (Instr.sig (.ldsD d a i)) s (fun x s => x.lds s d a i 8 2)

/-- LDS_Q (R250). -/
def execLdsQ (d a : Reg) (i : BitVec 9) (s : State) : Out :=
  issue (Instr.sig (.ldsQ d a i)) s (fun x s => x.lds s d a i 16 4)

/-- LDS_H (R250). -/
def execLdsH (d a : Reg) (i : BitVec 9) (s : State) : Out :=
  issue (Instr.sig (.ldsH d a i)) s (fun x s => x.lds s d a i 2 1)

/-- STS_W (R250). -/
def execStsW (d a : Reg) (i : BitVec 9) (s : State) : Out :=
  issue (Instr.sig (.stsW d a i)) s (fun x s => x.sts s d a i 4 1)

/-- STS_D (R250). -/
def execStsD (d a : Reg) (i : BitVec 9) (s : State) : Out :=
  issue (Instr.sig (.stsD d a i)) s (fun x s => x.sts s d a i 8 2)

/-- STS_Q (R250). -/
def execStsQ (d a : Reg) (i : BitVec 9) (s : State) : Out :=
  issue (Instr.sig (.stsQ d a i)) s (fun x s => x.sts s d a i 16 4)

/-- STS_H (R250). -/
def execStsH (d a : Reg) (i : BitVec 9) (s : State) : Out :=
  issue (Instr.sig (.stsH d a i)) s (fun x s => x.sts s d a i 2 1)

/-- LDC_L (R252). -/
def execLdcL (d o : Reg) (i : BitVec 5) (s : State) : Out :=
  issue (Instr.sig (.ldcL d o i)) s (fun x s => x.ldcLoc s d o i)

/-- STC_L (R253). -/
def execStcL (d o : Reg) (i : BitVec 5) (s : State) : Out :=
  issue (Instr.sig (.stcL d o i)) s (fun x s => x.stcLoc s d o i)

/-- CVTQ (R114, R233). -/
def execCvtq (d a b : Reg) (s : State) : Out := issue (Instr.sig (.cvtq d a b)) s (fun x s => x.cvtq s d a b)

end Sys2Proof.Machine
end

