-- ==== Sys2Proof/Machine/Txn.lean ====
section
/-! DEFINITION. Transactions, major 0x1D (R143 to R145, R257 to R260). -/
namespace Sys2Proof.Machine

/-- The key of a VD's partition for the serial token (R145); 31 for an agent of no partition. -/
def State.serialKey (s : State) (vd : Nat) : Nat := (s.partOfVd vd).getD 31

/-- The failure count of a lane (R145). -/
def Grp.failsOf (g : Grp) (l : Nat) : Nat := look 0 g.fails l
def Grp.setFails (g : Grp) (l n : Nat) : Grp := { g with fails := store 0 g.fails l n }

/-- Granules that a transaction has touched. -/
def Txn.touched (t : Txn) : List Nat := t.reads.map (·.1) ++ t.granules

/-- The serialised transaction of a lane ends: its locks and its token are let go (R145, R260). -/
def State.endSerial (s : State) (u : Nat) (g : Grp) (l : Nat) : State :=
  let t := g.txnOf l
  if t.serial then
    { s with
      locked := s.locked.filter (fun k => !(t.touched.contains k))
      serial := s.serial.filter (fun e => !(e.2 == (u, l))) }
  else s

/-- TBEG (R145, R258): the state and the group, or none while the token is held by a lane of another path.
DEDUCED: notes/assumptions/28.md. -/
def Iss.tbeg (x : Iss) (s : State) : Res :=
  let key := s.serialKey x.g.vd
  let want := x.lanes.filter (fun l => (x.g.txnOf l).state == .none && decide (16 ≤ x.g.failsOf l))
  let held := find s.serial key
  let mine := match held with
    | some (u, l) => u == x.u && x.p.mask.getLsbD l
    | none => false
  if !want.isEmpty && held.isSome && !mine then .wait s .other
  else
    let ser : Option Nat := if held.isSome then none else want.head?
    let g := x.lanes.foldl (fun g l =>
      match (g.txnOf l).state with
      | .none => g.setTxn l { state := .opened, serial := ser == some l }
      | .opened => g.doom 3 l
      | .doomed _ => g.setTxn l { g.txnOf l with state := .doomed 3 }) x.g
    match ser with
    | none => .retire s g
    | some l => .retire { s with serial := put s.serial key (x.u, l) } g

/-- Do the transactions of two lanes conflict (R144)? -/
def txnMeet (a b : Txn) : Bool :=
  a.granules.any (fun k => b.touched.contains k) || b.granules.any (fun k => a.touched.contains k)

/-- The lanes that survive the conflicts among the lanes of the path, ascending (R144). -/
def txnWinners (g : Grp) : List Nat → List Nat → List Nat
  | won, [] => won
  | won, l :: r =>
      txnWinners g (if won.any (fun w => txnMeet (g.txnOf w) (g.txnOf l)) then won else won ++ [l]) r

/-- Granules locked by the serialised lanes of the path itself. -/
def Iss.ownLocks (x : Iss) (s : State) : List Nat :=
  (x.lanes.filter (fun l => (x.g.txnOf l).serial)).flatMap (fun l => (x.g.txnOf l).touched.filter s.locked.contains)

/-- Does the transaction of an OPEN lane validate (R144, R145, R160): every granule still holds each value that the lane has
read of it, its 128 data bits; the tag is not compared. DESIGN CHOICE: notes/assumptions/83.md. -/
def Iss.valid (x : Iss) (s : State) (l : Nat) : Bool :=
  let t := x.g.txnOf l
  t.reads.all (fun e => s.granule e.1 == e.2)
    && (t.serial || (!t.hit && !(t.touched.any (x.ownLocks s).contains)))

/-- The buffered stores of a lane are made, clearing tags (R70, R144). -/
def State.commitTxn (s : State) (t : Txn) : State :=
  t.writes.foldl (fun s e => (s.wb e.1 e.2).tagW e.1 false) s

/-- The cause that a lane receives at TEND (R259). -/
def Iss.tendCause (x : Iss) (s : State) (won : List Nat) (l : Nat) : Nat :=
  match (x.g.txnOf l).state with
  | .none => 6
  | .doomed c => c
  | .opened => if won.contains l && x.valid s l then 0 else 1

/-- The failure count after a cause (R145). -/
def failsNext (n c : Nat) : Nat := if c = 1 then n + 1 else 0

/-- The place of the granules that a lane's transaction has read, and of the bytes that it would write. -/
def Txn.place (t : Txn) : Place :=
  ⟨t.reads.map (fun e => 16 * e.1) ++ t.writes.map (·.1), false, none, []⟩

/-- TEND (R144, R145, R259): waits while a commit would touch a granule that another path's transaction has locked, or would
read or write a tile that is not there (R323). -/
def Iss.tend (x : Iss) (s : State) (d : Reg) : Res :=
  let opens := x.lanes.filter x.g.isOpen
  let ser := opens.filter (fun l => (x.g.txnOf l).serial)
  let won := txnWinners x.g ser (opens.filter (fun l => !((x.g.txnOf l).serial)))
  let cause (l : Nat) : Nat := x.tendCause s won l
  let commits := x.lanes.filter (fun l => cause l == 0)
  let foreign := s.locked.filter (fun k => !((x.ownLocks s).contains k))
  match s.meetTiles x.g.regrow x.g.ctx (some (x.u, x.b, x.low, x.p.pc)) (won.map (fun l => (x.g.txnOf l).place)) with
  | some t => .wait t .internal
  | none =>
  if commits.any (fun l => (x.g.txnOf l).touched.any foreign.contains) then .wait s .other
  else
    let s1 := commits.foldl (fun s l => s.commitTxn (x.g.txnOf l)) s
    let s2 := x.lanes.foldl (fun s l => s.endSerial x.u x.g l) s1
    let g := x.lanes.foldl (fun g l => (g.setTxn l {}).setFails l (failsNext (x.g.failsOf l) (cause l))) x.g
    .retire s2 (g.wr d x.lanes (fun l => BitVec.ofNat 32 (cause l)))

/-- TABT (R260). -/
def Iss.tabt (x : Iss) (s : State) : Res :=
  .retire (x.lanes.foldl (fun s l => s.endSerial x.u x.g l) s)
    (x.lanes.foldl (fun g l => (g.setTxn l {}).setFails l 0) x.g)

/-- The number of a transaction state (R260). -/
def txnCode : TxnState → Nat
  | .none => 0
  | .opened => 1
  | .doomed _ => 2

/-- TBEG (R258). -/
def execTbeg (s : State) : Out := issue (Instr.sig .tbeg) s (fun x s => x.tbeg s)

/-- TEND (R259). -/
def execTend (d : Reg) (s : State) : Out := issue (Instr.sig (.tend d)) s (fun x s => x.tend s d)

/-- TABT (R260). -/
def execTabt (s : State) : Out := issue (Instr.sig .tabt) s (fun x s => x.tabt s)

/-- TTEST (R260). -/
def execTtest (d : Reg) (s : State) : Out :=
  issue (Instr.sig (.ttest d)) s (fun x s =>
    .retire s (x.g.wr d x.lanes (fun l => BitVec.ofNat 32 (txnCode (x.g.txnOf l).state))))

end Sys2Proof.Machine
end

