-- ==== Sys2Proof/Machine/Objects.lean ====
section
/-! DEFINITION. Kernel objects as the dispatcher and the instructions read them: live objects (R354), regions and their
effective values (R33, R34, R359), contexts (R35, R388), timelines (R133, R134), and the fields of a launch record
(R366). -/
namespace Sys2Proof.Machine

/-- The live object of an otype that a VD's capability with this base names (R354, R355). -/
def State.obj? (s : State) (otype vd base : Nat) : Option Obj :=
  let ok (o : Obj) : Bool := o.otype == otype && o.va == base
  (s.objs.find? (fun o => ok o && o.vd == vd)).orElse
    (fun _ => s.objs.find? (fun o => ok o && s.partOfVd o.vd == s.partOfVd vd))

/-! Regions. -/

/-- The 512 bits of an RCB (R359). -/
def State.rcb (s : State) (o : Obj) : Nat := s.rn o.pa 64

/-- A region and its ancestors, the region first (R33). -/
def State.lineage (s : State) : Nat → Obj → List Obj
  | 0, _ => []
  | n + 1, o =>
      let p := s.capAt (o.pa + 16)
      o :: (if p.tag then
              match s.obj? 6 o.vd (wrap 64 p.base) with
              | some q => s.lineage n q
              | none => []
            else [])

/-- The lineage of the region at a base. -/
def State.regionLine (s : State) (vd base : Nat) : List Obj :=
  match s.obj? 6 vd base with
  | none => []
  | some o => s.lineage 8 o

/-- The effective value of a field: the explicit one of the nearest ancestor (R33). -/
def State.effective (s : State) (ls : List Obj) (inh lo w : Nat) : Nat :=
  match ls.find? (fun o => !(bit (s.rcb o) inh)) with
  | none => 0
  | some o => fld (s.rcb o) lo w

def State.effPrio (s : State) (ls : List Obj) : Nat := s.effective ls 343 348 4
def State.effClass (s : State) (ls : List Obj) : Nat := s.effective ls 341 345 3

/-- The context root of a region (R35). -/
def State.rootOf (s : State) (ls : List Obj) : Option Obj := ls.find? (fun o => !(bit (s.rcb o) 342))

/-- The explicit fault endpoint of a context root (R35). -/
def State.faultEp (s : State) (o : Obj) : Cap := s.capAt o.pa

/-! Contexts. -/

/-- A number for a new context: the lowest of 0 to 4,095 that no context has, else that of a dead one (R388). -/
def State.freeCtx (s : State) : Nat :=
  match (List.range 4096).find? (fun k => (find s.ctxs k).isNone) with
  | some k => k
  | none => ((s.ctxs.find? (fun e => e.2.state == .dead)).map (·.1)).getD (freshKey s.ctxs)

/-- The number of the context with a root, if it has one. -/
def State.ctxNo (s : State) (vd root : Nat) : Option Nat :=
  (s.ctxs.find? (fun e => e.2.vd == vd && e.2.root == root)).map (·.1)

/-- The context with a root: numbered when it is first met; one that was killed begins anew (R388;
notes/assumptions/12.md). -/
def State.openCtx (s : State) (vd root : Nat) : State × Nat :=
  match s.ctxNo vd root with
  | some n =>
      (s.modCtx n (fun c => if c.state = .dead then { vd := c.vd, root := c.root, seq := c.seq } else c), n)
  | none =>
      let n := s.freeCtx
      ({ s with ctxs := put s.ctxs n { vd := vd, root := root } }, n)

/-- Does a context run? -/
def State.ctxRuns (s : State) (n : Nat) : Bool :=
  match find s.ctxs n with
  | none => false
  | some c => c.state == .running

/-! Timelines: COMPLETED is the low half of the granule, ISSUED the high half (R133). -/

def State.tlDone (s : State) (k : Nat) : Nat := s.rn k 8
def State.tlIssued (s : State) (k : Nat) : Nat := s.rn (k + 8) 8

/-- COMPLETED := max(COMPLETED, v) (R134). -/
def State.tlRaise (s : State) (k v : Nat) : State := s.wn k 8 (max (s.tlDone k) v)

/-- The permissions of a timeline (R133). -/
def pTL : Nat := pATOMIC ||| pLOAD ||| pSTORE

/-! Launch records (R366). -/

/-- A granule of the record with its tag. -/
def Launch.cap (l : Launch) (i : Nat) : Cap := ⟨l.bits.extractLsb' (128 * i) 128, l.tags.getLsbD i⟩
def Launch.fld (l : Launch) (lo w : Nat) : Nat := Sys2Proof.Machine.fld l.bits.toNat lo w

def Launch.entry (l : Launch) : Cap := l.cap 0
def Launch.regionCap (l : Launch) : Cap := l.cap 1
def Launch.aspaceCap (l : Launch) : Cap := l.cap 2
def Launch.sched (l : Launch) : Cap := l.cap 3
def Launch.qInit (l : Launch) (i : Nat) : Cap := l.cap (4 + i)
def Launch.pred (l : Launch) (i : Nat) : Cap := l.cap (20 + i)
def Launch.predicate (l : Launch) : Cap := l.cap 24
def Launch.compl (l : Launch) : Cap := l.cap 25
def Launch.statusCap (l : Launch) : Cap := l.cap 26
def Launch.place (l : Launch) (i : Nat) : Cap := l.cap (27 + i)
def Launch.phasemem (l : Launch) : Cap := l.cap 46
def Launch.pathmem (l : Launch) : Cap := l.cap 47
def Launch.pv (l : Launch) (i : Nat) : Nat := l.fld (4480 + 64 * i) 64
def Launch.cval (l : Launch) : Nat := l.fld 4736 64
def Launch.dx (l : Launch) : Nat := l.fld 4800 32 + 1
def Launch.dy (l : Launch) : Nat := l.fld 4832 32 + 1
def Launch.dz (l : Launch) : Nat := l.fld 4864 32 + 1
def Launch.weight (l : Launch) (i : Nat) : Nat := l.fld (4896 + 8 * i) 8
def Launch.sInit (l : Launch) (i : Nat) : Word := l.bits.extractLsb' (4992 + 32 * (i - 4)) 32

/-- The number of gangs (R32). -/
def Launch.gangs (l : Launch) : Nat := l.dx * l.dy * l.dz

/-- Is a capability the null one (R62)? -/
def Cap.isNull (c : Cap) : Bool := c == Cap.null

/-- The agent of the dispatcher acting in a launch's address space. -/
def Launch.ag (l : Launch) : Ag := { vd := l.vd, aspace := l.aspace }

/-- The key of a timeline or word that a launch names, through the translation in force (R367). -/
def State.keyOf (s : State) (ag : Ag) (va size : Nat) : Option Nat :=
  match locate s ag { r := true } va size with
  | .error _ => none
  | .ok p => p.keys.head?

/-- The predecessor pairs of a launch: number, timeline and value (R50). -/
def State.preds (s : State) (l : Launch) : List (Nat × Option Nat × Nat) :=
  ((List.range 4).filter (fun i => !(l.pred i).isNull)).map (fun i =>
    (i, s.keyOf l.ag (l.pred i).cursor 16, l.pv i))

/-- Does a timeline read at least a value (R51)? -/
def State.reached (s : State) (p : Option Nat × Nat) : Bool :=
  match p.1 with
  | none => false
  | some k => decide (p.2 ≤ s.tlDone k)

/-- Is a launch ready (R51)? -/
def State.ready (s : State) (l : Launch) : Bool := (s.preds l).all (fun p => s.reached p.2)

/-- Has every gang of a launch executed LEARLY or exited (R52)? -/
def Launch.isEarly (l : Launch) : Bool := decide (l.gangs ≤ l.learly.length)

/-- The launch whose completion pair a predecessor pair names (R52). -/
def State.completer (s : State) (k v : Nat) : Option (Nat × Launch) :=
  s.launches.find? (fun e => !e.2.compl.isNull && e.2.cval == v && s.keyOf e.2.ag e.2.compl.cursor 16 == some k)

/-- Startable early: each predecessor is complete or in the early state, and there is no predicate (R52, R55). -/
def State.earlyOk (s : State) (l : Launch) : Bool :=
  l.predicate.isNull && (s.preds l).all (fun p => s.reached p.2 ||
    match p.2.1 with
    | none => false
    | some k => match s.completer k p.2.2 with
        | none => false
        | some (_, m) => m.isEarly)

/-- A launch changed. -/
def State.modLaunch (s : State) (n : Nat) (f : Launch → Launch) : State :=
  match find s.launches n with
  | none => s
  | some l => { s with launches := put s.launches n (f l) }

/-- The partition of a launch. -/
def State.partOf (s : State) (l : Launch) : Option Nat := s.partOfVd l.vd

/-- The gangs of a launch that are resident, and those saved. -/
def State.residents (s : State) (n : Nat) : List (Nat × Gang) := s.gangs.filter (fun e => e.2.launch == some n)
def State.savedOf (s : State) (n : Nat) : List (Nat × Saved) := s.saved.filter (fun e => e.2.gang.launch == some n)

end Sys2Proof.Machine
end

