-- ==== Sys2Proof/Machine/Launch.lean ====
section
/-! DEFINITION. Launches: submission (R214, R367, R373), readiness and queues (R376, R377), placement (R378 to R381),
phase records (R369, R370), dispatch (R56, R48) and completion (R51, R54, R162). -/
namespace Sys2Proof.Machine

/-! Loft-handle capabilities at a boundary of their context (R431). -/

/-- A handle record with the tags of revoked capabilities cleared. -/
def State.sweepHandle (s : State) (vd : Nat) (h : Handle) : Handle :=
  { h with
    backTag := (s.swept vd ⟨h.bits.extractLsb' 128 128, h.backTag⟩).tag
    ctrTag := (s.swept vd ⟨h.bits.extractLsb' 256 128, h.ctrTag⟩).tag }

/-- The handles that a context holds on a core. -/
def State.sweepHandles (s : State) (core vd : Nat) (ctx : Option Nat) : State :=
  { s with handles := s.handles.map (fun (e : Nat × Handle) =>
      if e.1 / 64 = core ∧ e.2.holder.isSome ∧ e.2.holder = ctx then (e.1, s.sweepHandle vd e.2) else e) }

/-! Kernels (R187, R190). -/

/-- The footprint of one group (R36). -/
def Kern.footprint (k : Kern) : Nat := k.vregs * 4 * k.width

/-- The limits of R187 and R190 on a kernel's declarations; carried scratch lies in `.scratch`, and carried registers are
in rising order. DESIGN CHOICE: notes/assumptions/11.md. -/
def Kern.ok (k : Kern) : Bool :=
  (k.width == 16 || k.width == 32 || k.width == 64) && decide (1 ≤ k.groups) && decide (k.groups ≤ 16)
    && decide (k.width * k.groups ≤ 1024) && k.vregs % 8 == 0 && decide (8 ≤ k.vregs) && decide (k.vregs ≤ 96)
    && decide (k.carryV.length ≤ 16) && k.carryV.all (fun r => decide (r < k.vregs)) && decide (k.carryV.Pairwise (· < ·))
    && k.carryS.all (fun r => r.1 % 16 == 0 && r.2 % 16 == 0 && decide (r.1 + r.2 ≤ k.scratch))
    && decide (k.carryS.foldl (fun n r => n + r.2) 0 ≤ 4096)
    && k.scratch % 16 == 0 && decide (k.scratch ≤ 360448) && decide (1 ≤ k.pathstack) && decide (k.pathstack ≤ 65535)
    && decide (k.crib ≤ 524288) && decide (k.cribN ≤ 32) && decide (k.footprint ≤ 761856)
    && (match k.handler with
        | none => true
        | some h => decide (k.text.1 ≤ h.toNat) && decide (h.toNat < k.text.2))

/-- The kernel that the loader has accepted at an entry capability in an address space (R190): the one it is known by,
or, met for the first time, what the loader made of it, a free value (notes/assumptions/11.md). -/
def State.kernelAt (s : State) (root : Nat) (e : Cap) : State × Option Kern :=
  match s.kernels.find? (fun k => k.1 == root && k.2.entry.toNat == e.cursor) with
  | some k => (s, some k.2)
  | none =>
      match Config.freeKernel s.free with
      | none => (s.draw, none)
      | some k =>
          let k := { k with entry := BitVec.ofNat 64 e.cursor, text := (wrap 64 e.base, wrap 64 e.top) }
          if k.ok then ({ s.draw with kernels := (root, k) :: s.kernels }, some k) else (s.draw, none)

/-- Does one gang fit a core's user share (R19, R37, R190)? -/
def Kern.gangOk (k : Kern) : Bool :=
  decide (k.groups ≤ 63) && decide (k.groups * k.footprint ≤ 761856) && decide (k.scratch ≤ 360448)
    && decide (k.crib ≤ 524288) && decide (k.cribN ≤ 32)

/-! Submission. -/

/-- Is an extent translated with the leaf bits of a use, page by page (R367, R421)? -/
def State.mapped (s : State) (ag : Ag) (need : Need) (va len : Nat) : Bool :=
  (List.range (len / 2 ^ 16 + 2)).all (fun i =>
    let a := if i = 0 then va else (va / 2 ^ 16 + i) * 2 ^ 16
    if va + len ≤ a ∧ i ≠ 0 then true
    else match s.peerOf ag.vd a with
      | some _ => true
      | none => match translate s ag need a with
          | .ok _ => true
          | .error _ => false)

/-- A data capability of the record passes its check (R367). -/
def capOk (c : Cap) (size perm : Nat) : Bool :=
  match capCheck c 0 size perm with
  | .ok _ => true
  | .error _ => false

def objOk (c : Cap) (otype perm : Nat) : Bool :=
  match objCheck c otype perm with
  | .ok _ => true
  | .error _ => false

/-- PATHMEM's base and length (R367, R368). DEDUCED: notes/assumptions/13.md. -/
def Launch.pathBase (l : Launch) : Nat := wrap 64 l.pathmem.base
def Launch.pathLen (l : Launch) : Nat := (l.pathmem.top - l.pathmem.base).toNat

/-- The checks of R214 and R367 on a record whose kernel, region and address space are known, COMPL and STATUS apart. -/
def State.recordOk (s : State) (l : Launch) : Bool :=
  let pm := pLOAD ||| pSTORE
  let ph := pLOAD ||| pSTORE ||| pLOADCAP ||| pSTORECAP
  l.fld 4960 32 == 0
    && (List.range 4).all (fun i => !(l.pred i).isNull || l.pv i == 0)
    && (List.range 8).all (fun i => !(l.place i).isNull || l.weight i == 0)
    && decide (l.gangs ≤ 2 ^ 32)
    && (l.sched.isNull || objOk l.sched 3 pSPAWN)
    && (List.range 4).all (fun i => (l.pred i).isNull
        || (capOk (l.pred i) 16 pTL && (l.pred i).cursor % 16 == 0 && s.mapped l.ag { r := true } (l.pred i).cursor 16))
    && (l.predicate.isNull || s.mapped l.ag { r := true } l.predicate.cursor 8)
    && capOk l.pathmem 0 pm && decide (32 * l.kern.pathstack ≤ l.pathLen)
    && s.mapped l.ag { r := true, w := true } l.pathBase l.pathLen
    && (l.phasemem.isNull || (capOk l.phasemem 0 ph
        && s.mapped l.ag { r := true, w := true } l.phasemem.cursor (l.phasemem.top - l.phasemem.cursor).toNat))
    && l.kern.gangOk

/-- Can the launch report its completion: COMPL and STATUS pass their checks (R133, R367)? -/
def Launch.reports (l : Launch) : Bool :=
  (l.compl.isNull || (capOk l.compl 16 pTL && l.compl.cursor % 16 == 0))
    && (l.statusCap.isNull || capOk l.statusCap 4 pSTORE)

/-- Its completion writes have translations at submission (R367). -/
def State.reportsMapped (s : State) (l : Launch) : Bool :=
  (l.compl.isNull || s.mapped l.ag { r := true, w := true } l.compl.cursor 16)
    && (l.statusCap.isNull || s.mapped l.ag { w := true } l.statusCap.cursor 4)

/-- The address space that an object names (R363). -/
def State.aspaceOf (s : State) (o : Obj) : ASpace :=
  let n := s.rn o.pa 16
  .tables (fld n 12 44 * 4096) (bit n 71) (fld n 64 7) (fld n 72 16)

/-- ROOT of an address space. -/
def ASpace.root : ASpace → Nat
  | .boot | .none => 0
  | .tables r _ _ _ => r

/-- The next launch number of a VD (R214). -/
def State.nextLaunchNo (s : State) (vd : Nat) : Nat := (look 0 s.launchNo vd + 1) % 2 ^ 32

/-- Launches of a partition submitted and not complete (R373). -/
def State.launchCount (s : State) (part : Option Nat) : Nat := (s.launches.filter (fun e => s.partOf e.2 == part)).length

/-- Is a launch counted against a region: the region is in its lineage (R34)? -/
def State.inSubtree (s : State) (l : Launch) (o : Obj) : Bool :=
  (s.regionLine l.vd l.region).any (fun x => x.va == o.va && x.vd == o.vd)

/-- Would one more launch of a lineage exceed a LAUNCHES budget (R34, R359)? -/
def State.launchesFull (s : State) (ls : List Obj) : Bool :=
  ls.any (fun o => !(bit (s.rcb o) 344)
    && decide (fld (s.rcb o) 352 16 ≤ (s.launches.filter (fun e => s.inSubtree e.2 o)).length))

/-- Must a submission wait: the dispatcher is full, or a budget of the region's lineage is used up (R34, R373)?
DEDUCED: notes/assumptions/29.md. -/
def State.intakeFull (s : State) (vd : Nat) (region : Cap) : Bool :=
  decide (65536 ≤ s.launchCount (s.partOfVd vd))
    || (objOk region 6 pSPAWN && s.launchesFull (s.regionLine vd (wrap 64 region.base)))

/-- The granule tags of a record as it arrives: marked capabilities untagged (R88). -/
def State.recordTags (s : State) (vd : Nat) (bits : BitVec 6144) (tags : BitVec 48) : BitVec 48 :=
  BitVec.ofNat 48 ((List.range 48).foldl (fun n i =>
    n + (if (s.swept vd ⟨bits.extractLsb' (128 * i) 128, tags.getLsbD i⟩).tag then 2 ^ i else 0)) 0)

/-- The level of a launch's groups: K where its kernel is a service one (R17, R348). Who submits it makes no difference.
DESIGN CHOICE: notes/assumptions/37.md. -/
def Launch.serviceLevel (l : Launch) : Level :=
  if Config.serviceKernel l.aspace.root l.entry.cursor then .kernel else .user

/-- Can work of a VD begin: it is not being reset (R466), nor in HANDOVER-PENDING (R462)? -/
def Vd.runs (v : Vd) : Bool := !v.resetting && v.hstate != 2

/-- A record is submitted for a VD (R214, R367, R466): the state, and the launch's number. A record whose ASPACE names no
space has none, and nothing is written for it (R367). -/
def State.submit (s : State) (vd : Nat) (bits : BitVec 6144) (tags0 : BitVec 48) : State × Nat :=
  let no := s.nextLaunchNo vd
  let s0 := { s with launchNo := store 0 s.launchNo vd no }
  let tags := s0.recordTags vd bits tags0
  let l0 : Launch :=
    { vd := vd, num := no, ctx := 0, bits := bits, tags := tags, kern := bootKern, aspace := .none, region := 0 }
  let region := s0.obj? 6 vd (wrap 64 l0.regionCap.base)
  let space := s0.obj? 4 vd (wrap 64 l0.aspaceCap.base)
  let objs := (s.vd? (match region with
    | some o => o.vd
    | none => vd)).runs && objOk l0.regionCap 6 pSPAWN && objOk l0.aspaceCap 4 pSPAWN
  let l1 : Launch :=
    { l0 with
      region := wrap 64 l0.regionCap.base
      vd := match region with
        | some o => o.vd
        | none => vd
      aspace := match space with
        | some o => s0.aspaceOf o
        | none => .none }
  let e := l1.entry
  let entryOk := e.tag && e.otype == 0 && e.has pEXEC
  let kr := if objs && region.isSome && space.isSome && entryOk then s0.kernelAt l1.aspace.root e else (s0, none)
  let s1 := kr.1
  let id := s1.ticket
  let add (s : State) (l : Launch) : State := { s.tick with launches := put s.launches id l }
  let drop := !l1.reports
  match kr.2, (s1.rootOf (s1.regionLine l1.vd l1.region)) with
  | some k, some root =>
      let l2 := { l1 with kern := k, level := l1.serviceLevel }
      if drop then (s1, no)
      else if s1.recordOk l2 && s1.reportsMapped l2 then
        let r := s1.openCtx root.vd root.va
        (add r.1 { l2 with ctx := r.2, toGo := List.range l2.gangs }, no)
      else (add s1 { l2 with state := .done 4 }, no)
  | _, _ => if drop then (s1, no) else (add s1 { l1 with state := .done 4 }, no)

/-! Queues (R376). -/

/-- The queue of a launch. -/
def Launch.queue (l : Launch) : Nat := 8 * l.pclass + l.prio / 2

/-- Launches in a partition's queue that still have gangs to dispatch. -/
def State.inQueue (s : State) (part q : Nat) : List (Nat × Launch) :=
  s.launches.filter (fun e => e.2.state == .queued && s.partOf e.2 == some part && e.2.queue == q && !e.2.toGo.isEmpty)

/-- The oldest of some launches. -/
def oldest : List (Nat × Launch) → Option (Nat × Launch)
  | [] => none
  | e :: r => match oldest r with
      | none => some e
      | some f => if f.2.ticket < e.2.ticket then some f else some e

/-- The head of a queue (R376). -/
def State.head (s : State) (part q : Nat) : Option (Nat × Launch) := oldest (s.inQueue part q)

/-- Is a launch the head of its queue? -/
def State.isHead (s : State) (n : Nat) (l : Launch) : Bool :=
  match s.partOf l with
  | none => false
  | some p => (s.head p l.queue).map (·.1) == some n

/-- A policy's DISPATCH that ended in REJECT no longer binds (R384). -/
def State.stir (s : State) (part : Option Nat) : State :=
  match part with
  | none => s
  | some p => { s with parts := s.parts.map (fun e => if e.1 = p then (e.1, { e.2 with rejected := false }) else e) }

/-- A core gains capacity: a REJECT of its partition binds no longer (R384). -/
def State.gained (s : State) (core : Nat) : State := s.stir (s.partOfDie (core / 64))

/-- Marks that are not served are cleared: those cores keep their work, and the groups that had halted for them go on
(R395). -/
def State.clearMarks (s : State) (p : Mark → Bool) : State :=
  let cs := (s.marks.filter (fun e => p e.2)).map (·.1)
  cs.foldl (fun (t : State) c => t.gained c) { s with
    marks := s.marks.filter (fun e => !(p e.2))
    units := s.units.map (fun e => if !(isControl e.1) && cs.contains (unitCore e.1) then (e.1, { e.2 with vacate := false }) else e) }

/-! Placement (R378, R379). -/

/-- Hop distance in the die mesh. -/
def hops (a b : Nat) : Nat :=
  (max (a / 10) (b / 10) - min (a / 10) (b / 10)) + (max (a % 10) (b % 10) - min (a % 10) (b % 10))

/-- The scores that one placement entry adds. -/
def State.scoreOf (s : State) (l : Launch) (dies : List Nat) (i : Nat) (sc : Sparse Nat) : Sparse Nat :=
  let c := l.place i
  let lo := (c.base / 65536).toNat
  let n := if c.top ≤ c.base then 0 else min (2 ^ 20) ((c.top - 65536 * lo + 65535) / 65536).toNat
  (List.range n).foldl (fun sc u =>
    match translate s l.ag {} ((lo + u) * 65536) with
    | .error _ => sc
    | .ok x => if dies.contains x.home then store 0 sc x.home (min (look 0 sc x.home + l.weight i) (2 ^ 32 - 1)) else sc) sc

/-- The placement count of a launch. -/
def State.scores (s : State) (l : Launch) (dies : List Nat) : Sparse Nat :=
  (List.range 8).foldl (fun sc i => if (l.place i).isNull then sc else s.scoreOf l dies i sc) []

/-- Gangs resident on a core. -/
def State.onCore (s : State) (c : Nat) : List (Nat × Gang) := s.gangs.filter (fun e => e.2.core == c)

/-- The kernel of a resident gang, from one of its groups. -/
def State.gangUnits (s : State) (g : Gang) : List (Nat × Grp) :=
  g.units.filterMap (fun u => u.bind (fun u => (find s.units u).map (fun x => (u, x))))

/-- Free user slots of a core: the last one is the regrow reserve (R19, R37). DEDUCED: notes/assumptions/22.md. -/
def State.freeSlots (s : State) (c : Nat) : List Nat := (List.range 63).filter (fun k => (find s.units (64 * c + k)).isNone)

/-- Register file, scratch, and reservation records that ordinary gangs use on a core. -/
def State.coreUse (s : State) (c : Nat) : Nat × Nat × Nat :=
  ((s.onCore c).filter (fun e => e.2.regrow.isNone)).foldl (fun a e =>
    (a.1 + (s.gangUnits e.2).foldl (fun n x => n + x.2.kern.footprint) 0, a.2.1 + e.2.scratch, a.2.2 + e.2.cribN)) (0, 0, 0)

/-- The lowest place in a core's crib where an allotment fits (R283). -/
def State.cribFit (s : State) (c len : Nat) : Option Nat :=
  let held := (s.onCore c).map (fun e => (e.2.cribBase, e.2.cribLen))
  let starts := 0 :: held.map (fun r => r.1 + r.2)
  let ok (b : Nat) : Bool := decide (b + len ≤ 524288)
    && held.all (fun r => r.2 == 0 || decide (b + len ≤ r.1) || decide (r.1 + r.2 ≤ b))
  let fits := starts.filter ok
  fits.foldl (fun m b => match m with
    | none => some b
    | some x => some (min x b)) none

/-- The VD of a core's work: of its user groups, or of commands that a gang has left unfinished (R123, R381). Those of a saved
gang are in its image (R444). -/
def State.coreWork (s : State) (c : Nat) : Option Nat :=
  ((s.units.find? (fun e => decide (e.1 < 81920) && unitCore e.1 == c && e.2.level == .user)).map (fun e => e.2.vd)).orElse
    (fun _ => (s.cmds.find? (fun e => e.2.core == c && !e.2.finished && e.2.ctx.isSome && decide (e.2.unit < 81920)
      && (e.2.gang.bind (fun n => find s.saved n)).isNone
      && (match find s.units e.2.unit with
        | some g => g.level == .user
        | none => true))).map (fun e => e.2.vd))

/-- Is a core of a partition a user core, of an ONLINE die (R17, R474)? -/
def State.userCore (s : State) (part c : Nat) : Bool :=
  decide (c < 1280) && c % 64 != 0 && s.partOfDie (c / 64) == some part && s.online (c / 64)

/-- Is a core the service core of a die of the partition, lent to the VD (R410)? -/
def State.lentCore (s : State) (part c vd : Nat) : Bool :=
  let r := (s.sysR 0x0210 (c / 64) 0 0).toNat
  decide (c < 1280) && c % 64 == 0 && s.partOfDie (c / 64) == some part && s.online (c / 64) && bit r 63 && fld r 0 7 == vd
    && !(s.lendOff.contains (c / 64))

/-- Is a core a service core of the partition, of an ONLINE die (R17, R474)? -/
def State.serviceCore (s : State) (part c : Nat) : Bool :=
  decide (c < 1280) && c % 64 == 0 && s.partOfDie (c / 64) == some part && s.online (c / 64)

/-- Could a core hold a gang of a kernel for a VD and a context (R19, R37, R123, R283, R381, R445)? A service gang is
there beside the lent work of a VD (R410). -/
def State.holds (s : State) (c vd ctx : Nat) (k : Kern) (level : Level := .user) : Bool :=
  let u := s.coreUse c
  decide (k.groups ≤ (s.freeSlots c).length) && decide (u.1 + k.groups * k.footprint ≤ 761856)
    && decide (u.2.1 + k.scratch ≤ 360448) && decide (u.2.2 + k.cribN ≤ 32) && (s.cribFit c k.crib).isSome
    && (level == .kernel || (match s.coreWork c with
        | none => true
        | some v => v == vd))
    && (look [] s.quarantine c).all (fun e => e.1 == ctx || (find s.saved e.2.1).isSome)

/-- The region whose work a gang is: its launch's, or the root of the context that a regrow launch serves (R34, R325). -/
def State.workRegion (s : State) (g : Gang) : Option (Nat × Nat) :=
  match g.launch.bind (fun n => find s.launches n) with
  | some l => some (l.vd, l.region)
  | none => (g.regrow.bind (fun d => find s.regrows d)).bind (fun r => (find s.ctxs r.ctx).map (fun c => (c.vd, c.root)))

/-- May the CORES budgets of a region's lineage take work on a core: one more, or one of those in use (R34)? A budget below
current use stops every placement (R359). -/
def State.budgetOk (s : State) (vd region c : Nat) : Bool :=
  (s.regionLine vd region).all (fun o => bit (s.rcb o) 344 ||
    let used := ((s.gangs.filter (fun e => match s.workRegion e.2 with
      | none => false
      | some w => (s.regionLine w.1 w.2).any (fun x => x.va == o.va && x.vd == o.vd))).map (fun e => e.2.core)).eraseDups
    let max := fld (s.rcb o) 368 16
    decide (used.length < max) || (used.contains c && used.length == max))

def State.coresOk (s : State) (l : Launch) (c : Nat) : Bool := s.budgetOk l.vd l.region c

/-- Can a core hold a gang of the launch, marks of other launches respected (R381, R384, R393)? -/
def State.couldHold (s : State) (n : Nat) (l : Launch) (c : Nat) : Bool :=
  (match s.partOf l with
    | none => false
    | some p => if l.level = .kernel then s.serviceCore p c else s.userCore p c || s.lentCore p c l.vd)
  && s.holds c l.vd l.ctx l.kern l.level
  && (match find s.marks c with
      | none => true
      | some m => m.launch == n)

/-- Does a gang of the launch fit on a core, the CORES budgets included (R34, R380)? -/
def State.fitsOn (s : State) (n : Nat) (l : Launch) (c : Nat) : Bool := s.couldHold n l c && s.coresOk l c

/-- Can some core of the dies in its order hold a gang of the launch (R384)? -/
def State.somewhere (s : State) (n : Nat) (l : Launch) : Bool :=
  l.order.any (fun d => (List.range 64).any (fun i => s.couldHold n l (64 * d + i)))

/-- When each head became the head (R388); one that some core can hold then is due no PRESSURE decision (R384). -/
def State.fixHeads (s : State) : State :=
  { s with launches := s.launches.map (fun e =>
      let head := s.isHead e.1 e.2
      (e.1, { e.2 with
        headAt := if head then some (e.2.headAt.getD s.ctlNow) else none
        asked := head && (if e.2.headAt.isNone then s.somewhere e.1 e.2 else e.2.asked) })) }

/-- A launch joins the tail of its queue. -/
def State.enqueue (s : State) (n : Nat) : State :=
  match find s.launches n with
  | none => s
  | some l => ((s.modLaunch n (fun l => { l with state := .queued, ticket := s.ticket, headAt := none })).tick.stir
      (s.partOf l)).fixHeads

/-- Groups of a launch that hold a path stack: those of its resident gangs, and those of its saved gangs, whose stacks stay
in PATHMEM (R368, R394, R444). -/
def State.pathUsers (s : State) (n : Nat) : List Grp :=
  (s.residents n).flatMap (fun e => (s.gangUnits e.2).map (·.2)) ++ (s.savedOf n).flatMap (fun e => e.2.units.map (·.2))

/-- Path stacks left in PATHMEM (R368). DEDUCED: notes/assumptions/13.md. DEDUCED: notes/assumptions/23.md. -/
def State.pathRoom (s : State) (n : Nat) (l : Launch) : Bool :=
  decide ((s.pathUsers n).length + l.kern.groups ≤ l.pathLen / (32 * l.kern.pathstack))

/-- The core with the most free slots among some in rising order, the lowest of them (R381). -/
def State.mostFree (s : State) (cs : List Nat) : Option Nat :=
  cs.foldl (fun m c => match m with
    | none => some c
    | some x => if (s.freeSlots x).length < (s.freeSlots c).length then some c else some x) none

/-- The core of a die that the gang goes to (R381). -/
def State.dieCore (s : State) (n : Nat) (l : Launch) (d : Nat) : Option Nat :=
  s.mostFree (((List.range 64).map (64 * d + ·)).filter (fun c => (find s.marks c).isNone && s.fitsOn n l c))

/-- The core that the next gang goes to (R379 to R381), if one can hold it. -/
def State.whereTo (s : State) (n : Nat) (l : Launch) : Option Nat :=
  if s.pathRoom n l then l.order.findSome? (s.dieCore n l) else none

/-- The die order of a launch (R379). -/
def State.dieOrder (s : State) (n : Nat) (l : Launch) (dies : List Nat) (sc : Sparse Nat) : List Nat :=
  let score (d : Nat) : Nat := if sc.isEmpty then (((List.range 64).map (64 * d + ·)).filter (s.fitsOn n l)).length
    else look 0 sc d
  let best := dies.foldl (fun m d => match m with
    | none => some d
    | some b => if score b < score d then some d else some b) none
  match best with
  | none => []
  | some b => (List.range 20).flatMap (fun h => dies.filter (fun d => hops b d == h))

/-- The best die of a launch and its score. -/
def Launch.best (l : Launch) : Nat := l.order.headD 0
def Launch.bestScore (l : Launch) : Nat := look 0 l.scores l.best

/-- LAUNCH_READY, the queueing: effective values read once, the placement count, and the queue (R33, R362, R376, R378). -/
def State.makeQueueable (s : State) (n : Nat) (l : Launch) (early : Bool) : State :=
  let ls := s.regionLine l.vd l.region
  let sc := match s.obj? 3 l.vd (wrap 64 l.sched.base) with
    | some o => if l.sched.isNull then 0 else s.rn o.pa 16
    | none => 0
  let prio := if bit sc 8 then fld sc 0 4 else s.effPrio ls
  let pclass := if bit sc 7 then fld sc 4 3 else s.effClass ls
  let dies := match s.partOf l with
    | none => []
    | some p => s.diesOf p
  let counts := s.scores l dies
  (s.modLaunch n (fun l => { l with
    prio := prio, pclass := pclass, scores := counts, order := s.dieOrder n l dies counts, early := early,
    born := s.ticket })).enqueue n

/-- The place of the predicate word of a conditional launch: none where the launch is rejected (R55). -/
def State.predicatePlace (s : State) (l : Launch) : Option Place :=
  match capCheck l.predicate 0 8 pLOAD with
  | .error _ => none
  | .ok va =>
      if va % 8 ≠ 0 then none
      else match locate s l.ag { r := true } va 8 with
        | .error _ => none
        | .ok p => some p

/-- The predicate word. -/
def State.predicateWord (s : State) (l : Launch) : Option Nat := (s.predicatePlace l).map (fun p => s.rkeys p.keys)

/-- Accesses that the dispatcher makes for a launch wait for tiles that are being regrown, and for the arbiters (R323, R398):
none when they are made. -/
def State.dispatchWaits (s : State) (l : Launch) (pls : List Place) : Option State :=
  (s.meetTiles none (some l.ctx) none pls).orElse (fun _ => s.unserved l.ag pls)

/-- Has a launch that was queued early no gang started yet, and a predecessor that cannot be read (R367)? -/
def State.predGone (s : State) (l : Launch) : Bool :=
  l.state == .queued && l.early && l.phase == 0 && l.toGo.length == l.gangs && (s.preds l).any (fun p => p.2.1.isNone)

/-- LAUNCH_READY (R51, R52, R55, R376). -/
def State.launchReady (s : State) (n : Nat) : State :=
  match find s.launches n with
  | none => s
  | some l =>
      if s.predGone l then s.modLaunch n (fun l => { l with state := .done 4, toGo := [] })
      else if l.state ≠ .waiting then s
      else if l.aborted.isSome then s.modLaunch n (fun l => { l with state := .done 2 })
      else if (s.preds l).any (fun p => p.2.1.isNone) then s.modLaunch n (fun l => { l with state := .done 4 })
      else if s.ready l then
        if l.predicate.isNull then s.makeQueueable n l false
        else match s.dispatchWaits l (s.predicatePlace l).toList, s.predicateWord l with
          | some t, _ => t
          | none, none => s.modLaunch n (fun l => { l with state := .done 4 })
          | none, some 0 => s.modLaunch n (fun l => { l with state := .done 1 })
          | none, some _ => (s.touchAll l.ag false (s.predicatePlace l).toList).makeQueueable n l false
      else if s.earlyOk l then s.makeQueueable n l true
      else s

/-! Phase records (R369, R370). -/

/-- Bytes of a phase record. -/
def Kern.recordLen (k : Kern) : Nat :=
  let n := 64 + k.groups * (512 + 4 * k.carryV.length * k.width) + k.carryS.foldl (fun n r => n + r.2) 0
  (n + 63) / 64 * 64

/-- The width code of R369. -/
def widthCode (w : Nat) : Nat := if w = 64 then 2 else if w = 32 then 1 else 0

/-- The header of a gang's record. -/
def recordHeader (l : Launch) (n phase : Nat) : Nat :=
  let k := l.kern
  widthCode k.width * 2 ^ 4 + k.groups * 2 ^ 6 + k.carryV.length * 2 ^ 11
    + (k.carryS.foldl (fun n r => n + r.2) 0) * 2 ^ 16 + (n % l.dx) * 2 ^ 320 + (n / l.dx % l.dy) * 2 ^ 352
    + (n / (l.dx * l.dy)) * 2 ^ 384 + l.num * 2 ^ 416 + phase * 2 ^ 448

/-- A number as so many granules without tags. -/
def granulesOf (x : Nat) : Nat → List Cap
  | 0 => []
  | n + 1 => ⟨BitVec.ofNat 128 x, false⟩ :: granulesOf (x / 2 ^ 128) n

/-- The aligned quads that lie in the carry set, in order (R370). -/
def Kern.carryQuads (k : Kern) : List Nat :=
  (List.range 24).filter (fun q => (List.range 4).all (fun i => k.carryV.contains (4 * q + i)))

/-- The words of the carried registers of a group, as one number. -/
def carriedWords (k : Kern) (g : Grp) : Nat :=
  wordsNum (k.carryV.flatMap (fun r => (List.range k.width).map (fun l => look 0 g.v (64 * r + l))))

/-- The block of a group that has executed BAR.L, or of one that has ended (R370). -/
def State.recordBlock (s : State) (k : Kern) (g : Option Grp) : List Cap :=
  match g with
  | none => granulesOf 0 (32 + k.carryV.length * k.width / 4)
  | some g =>
      let flags := (List.range 4).foldl (fun n j => match k.carryQuads[j]? with
        | none => n
        | some q => n + (maskWhere k.width (fun l => (s.swept g.vd ⟨(g.quad (BitVec.ofNat 7 (4 * q)) l).bits,
            look false g.vf (64 * q + l)⟩).tag)).toNat * 2 ^ (64 * j)) 0
      let txd := (maskWhere k.width (fun l => (look {} g.txn l).state != .none)).toNat
      let low := g.liveMask.toNat + txd * 2 ^ 64 + flags * 2 ^ 128 + g.mode.toNat * 2 ^ 384 + g.status.toNat * 2 ^ 416
        + g.stoch.toNat * 2 ^ 448
      let pc : Nat := ((g.slotA.orElse (fun _ => g.slotB)).map (fun p => (p.pc + 4).toNat)).getD 0
      granulesOf low 4 ++ (List.range 16).map (fun i => s.swept g.vd (g.qr i))
        ++ granulesOf (wordsNum ((List.range 32).map (fun i => look 0 g.s i))) 8
        ++ [s.swept g.vd g.pcc] ++ granulesOf pc 3
        ++ granulesOf (carriedWords k g) (k.carryV.length * k.width / 4)

/-- The whole record of a gang, as granules. -/
def State.recordOf (s : State) (l : Launch) (gid : Nat) (g : Gang) (phase : Nat) : List Cap :=
  let blocks := g.units.flatMap (fun u => s.recordBlock l.kern (u.bind (fun u => find s.units u)))
  let scr := l.kern.carryS.flatMap (fun r => (List.range (r.2 / 16)).map (fun i =>
    s.swept l.vd (s.scrCap gid (r.1 + 16 * i))))
  let body := granulesOf (recordHeader l g.index phase) 4 ++ blocks ++ scr
  body ++ granulesOf 0 (l.kern.recordLen / 16 - body.length)

/-- The places of granules from an address on, or the failure of the first that has none. -/
def placesFrom (s : State) (ag : Ag) (need : Need) (va : Nat) : Nat → Except Fail (List Place)
  | 0 => .ok []
  | n + 1 =>
      match locate s ag need va 16 with
      | .error f => .error f
      | .ok p => match placesFrom s ag need (va + 16) n with
          | .error f => .error f
          | .ok r => .ok (p :: r)

/-- Granules written at places, with the tags that the memory can hold. -/
def State.putCaps (s : State) (ag : Ag) : List Place → List Cap → State
  | p :: ps, c :: cs =>
      let s := (s.touch ag true p).wkeys p.keys (leBytes c.bits.toNat 16)
      let k := p.keys.headD 0
      State.putCaps (if c.tag && p.tagcap && k % 16 == 0 then s.tagW k true else s) ag ps cs
  | _, _ => s

/-- Granules read from places. -/
def State.getCaps (s : State) : List Place → List Cap
  | [] => []
  | p :: ps =>
      let k := p.keys.headD 0
      ⟨BitVec.ofNat 128 (s.rkeys p.keys), s.tagR k && p.tagcap && k % 16 == 0⟩ :: State.getCaps s ps

/-- The address of a gang's record (R369). -/
def Launch.recordVa (l : Launch) (n : Nat) : Nat := l.phasemem.cursor + n * l.kern.recordLen

/-! Dispatch. -/

/-- The index of a gang in three dimensions. -/
def Launch.gangX (l : Launch) (n : Nat) : Nat := n % l.dx
def Launch.gangY (l : Launch) (n : Nat) : Nat := n / l.dx % l.dy
def Launch.gangZ (l : Launch) (n : Nat) : Nat := n / (l.dx * l.dy)

/-- The registers that a group of a launch starts with under numbers of its own: CURVD of a service group is its launch's VD
until a batch comes (R349). DESIGN CHOICE: notes/assumptions/37.md. -/
def Launch.ownRegs (l : Launch) : Sparse DWord :=
  if l.level = .kernel then store 0 [] 0x0002 (BitVec.ofNat 64 l.vd) else []

/-- What a group holds at every phase start: v0, the lane index within the gang (R48, R56). -/
def freshGrp (l : Launch) (lid gid n g : Nat) : Grp :=
  let w := l.kern.width
  { width := w, level := l.level, vd := l.vd, ctx := some l.ctx, aspace := l.aspace, kern := l.kern, launch := some lid,
    gang := some gid, gidx := g, gx := l.gangX n, gy := l.gangY n, gz := l.gangZ n, pcc := l.entry, own := l.ownRegs,
    v := (List.range w).foldl (fun m k => store 0 m k (BitVec.ofNat 32 (g * w + k))) [] }

/-- The entry state of a group (R56). -/
def entryGrp (l : Launch) (lid gid n g : Nat) : Grp :=
  let f := freshGrp l lid gid n g
  let s0 := ((((f.wrS 0 (BitVec.ofNat 32 f.gx)).wrS 1 (BitVec.ofNat 32 f.gy)).wrS 2 (BitVec.ofNat 32 f.gz)).wrS 3
    (BitVec.ofNat 32 g))
  let s1 := (List.range 28).foldl (fun x i => x.wrS (i + 4) (l.sInit (i + 4))) s0
  let s2 := (List.range 16).foldl (fun x i => x.qw i (l.qInit i)) s1
  { s2 with slotA := some { pc := l.kern.entry, mask := widthMask f.width } }

/-- A group restored from its block, its capabilities with the tags that the launch's VD lets stand (R48, R370, R430); none
where its live-lane mask is 0. Its one path goes on in slot A. DESIGN CHOICE: notes/assumptions/93.md. -/
def restoredGrp (s : State) (l : Launch) (lid gid n g : Nat) (blk : List Cap) : Option Grp :=
  let num (i c : Nat) : Nat := ((blk.drop i).take c).foldr (fun x a => x.bits.toNat + 2 ^ 128 * a) 0
  let low := num 0 4
  let live : DWord := BitVec.ofNat 64 low
  if live = 0 then none
  else
    let w := l.kern.width
    let f := freshGrp l lid gid n g
    let regs := num 20 8
    let f := (List.range 32).foldl (fun x i => x.wrS i (BitVec.ofNat 32 (regs >>> (32 * i)))) f
    let f := (List.range 16).foldl (fun x i => x.qw i (s.swept l.vd (blk.getD (4 + i) Cap.null))) f
    let cw := num 32 (l.kern.carryV.length * w / 4)
    let f := (List.range l.kern.carryV.length).foldl (fun x j =>
      (List.range w).foldl (fun y k =>
        y.wrV (l.kern.carryV.getD j 0) k (BitVec.ofNat 32 (cw >>> (32 * (j * w + k))))) x) f
    let vf := (List.range l.kern.carryQuads.length).foldl (fun m j =>
      (List.range w).foldl (fun m k =>
        let q := l.kern.carryQuads.getD j 0
        store false m (64 * q + k)
          (s.swept l.vd ⟨(f.quad (BitVec.ofNat 7 (4 * q)) k).bits, bit low (128 + 64 * j + k)⟩).tag) m) f.vf
    let txn := (List.range w).foldl (fun m k => if bit low (64 + k) then put m k { state := .doomed 5 } else m) []
    some { f with
      vf := vf
      txn := txn
      mode := BitVec.ofNat 32 (fld low 384 32)
      status := BitVec.ofNat 32 (fld low 416 32)
      stoch := BitVec.ofNat 32 (fld low 448 32)
      pcc := s.swept l.vd (blk.getD 28 Cap.null)
      pccAt := s.farOf 7 l.vd (wrap 64 (blk.getD 28 Cap.null).base)
      slotA := some { pc := BitVec.ofNat 64 (blk.getD 29 Cap.null).bits.toNat, mask := live } }

/-- Is a crib byte of a core, a handle, or a loft byte one of a service gang's that is resident there (R410)? -/
def State.serviceGangs (s : State) (c : Nat) : List Gang :=
  ((s.onCore c).filter (fun e => (s.gangUnits e.2).any (fun x => x.2.level == .kernel))).map (·.2)

def State.serviceHandle (s : State) (c : Nat) (h : Handle) : Bool :=
  h.holder.isSome && (s.serviceGangs c).any (fun g => (s.gangUnits g).any (fun x => x.2.ctx == h.holder))

/-- A core's crib, loft and handles are cleared; what its service gangs hold stays (R123, R297, R410). -/
def State.clearCore (s : State) (c : Nat) : State :=
  let gs := s.serviceGangs c
  let hs := s.handles.filter (fun e => e.1 / 64 == c && s.serviceHandle c e.2)
  let keepLoft (k : Nat) : Bool := hs.any (fun e =>
    let f (lo n : Nat) : Nat := Sys2Proof.Machine.fld e.2.bits.toNat lo n
    decide (k / 2 ^ 17 % 128 < f 44 8)
      && ((decide (f 0 17 ≤ k % 2 ^ 17) && decide (k % 2 ^ 17 < f 0 17 + 256 * f 34 10))
        || (decide (f 17 17 ≤ k % 2 ^ 17) && decide (k % 2 ^ 17 < f 17 17 + 32 * f 34 10))))
  { s with
    crib := s.crib.filter (fun e => e.1 / 2 ^ 19 != c || gs.any (fun g =>
      decide (g.cribBase ≤ e.1 % 2 ^ 19) && decide (e.1 % 2 ^ 19 < g.cribBase + g.cribLen)))
    loft := s.loft.filter (fun e => e.1 / 2 ^ 24 != c || keepLoft (e.1 % 2 ^ 24))
    handles := s.handles.filter (fun e => e.1 / 64 != c || s.serviceHandle c e.2) }

/-- A core passes to a VD: crib, loft and handles of another VD's work are cleared first (R123, R297). -/
def State.claimCore (s : State) (c vd : Nat) : State :=
  if find s.coreVd c = some vd then s else { s.clearCore c with coreVd := put s.coreVd c vd }

/-- Numbers of a launch's path stacks that no group of it holds (R368). -/
def State.freePaths (s : State) (lid : Nat) (l : Launch) : List Nat :=
  (List.range (l.pathLen / (32 * l.kern.pathstack))).filter (fun i =>
    (s.pathUsers lid).all (fun g => g.pathNo != i))

/-- The entries of a core's quarantine buffer go into the gang images that they belong to, before the core is given to other
work (R445). -/
def State.moveQuarantine (s : State) (c : Nat) : State :=
  let es := (look [] s.quarantine c).filter (fun (e : Nat × Nat × Late) => (find s.saved e.2.1).isSome)
  if es.isEmpty then s
  else { s with
    saved := s.saved.map (fun (e : Nat × Saved) =>
      (e.1, { e.2 with quar := e.2.quar ++ (es.filter (fun y => y.2.1 == e.1)).map (fun y => y.2.2) }))
    quarantine := store [] s.quarantine c ((look [] s.quarantine c).filter (fun e => !(es.contains e))) }

/-- A gang takes its place on a core: slots, scratch and crib allotment (R31, R122, R283). -/
def State.seat (s : State) (lid : Nat) (l : Launch) (c n : Nat) (gs : List (Option Grp)) : State :=
  let gid := s.ticket
  let slots := s.freeSlots c
  let paths := s.freePaths lid l
  let us : List (Option Nat × Option Grp) := gs.mapIdx (fun i g => match g with
    | none => (none, none)
    | some x => (some (64 * c + slots.getD i 0), some { x with pathNo := paths.getD i 0 }))
  let gang : Gang :=
    { launch := some lid, index := n, core := c, units := us.map (·.1), phase := l.phase, scratch := l.kern.scratch,
      cribBase := (s.cribFit c l.kern.crib).getD 0, cribLen := l.kern.crib, cribN := l.kern.cribN }
  let s := ((if l.level = .kernel then s else s.claimCore c l.vd).moveQuarantine c).tick
  let s := { s with
    gangs := put s.gangs gid gang
    units := us.foldl (fun m e => match e with
      | (some u, some g) => put m u g
      | _ => m) s.units }
  s.modLaunch lid (fun l => { l with toGo := l.toGo.erase n, resume := l.resume.erase n })

/-- After a gang has been dispatched: a launch whose last gang it was leaves its queue (R376). -/
def State.dispatched (s : State) (lid : Nat) : State :=
  match find s.launches lid with
  | none => s
  | some l =>
      let s := if l.toGo.isEmpty then
          (s.modLaunch lid (fun l => { l with state := .running, accepted := false })).clearMarks (fun m => m.launch == lid)
        else s
      (s.stir (s.partOf l)).fixHeads

/-- A gang of the first phase starts on a core (R56); what its record holds arrives with marked capabilities untagged
(R88). -/
def State.startGang (s : State) (lid : Nat) (l : Launch) (c n : Nat) : State :=
  let l := { l with tags := s.recordTags l.vd l.bits l.tags }
  ((s.seat lid l c n ((List.range l.kern.groups).map (fun g => some (entryGrp l lid s.ticket n g)))).dispatched lid)

/-- The scratch ranges carried in a record are put back, with the tags that the VD's partition lets stand (R48, R430). -/
def State.restoreScr (s : State) (vd gid : Nat) : List (Nat × Nat) → List Cap → State
  | [], _ => s
  | (off, len) :: r, cs =>
      let s := (List.range (len / 16)).foldl (fun s i =>
        s.scrCapW gid (off + 16 * i) (s.swept vd (cs.getD i Cap.null))) s
      State.restoreScr s vd gid r (cs.drop (len / 16))

/-- A BOUNDS fault of a context at a phase record (R370). -/
def recordFault (va : Nat) (pc : DWord) : FaultInfo := { code := 0x04, detail := 0x44, addr := BitVec.ofNat 64 va, pc := pc }

/-- Does a group's block set no reserved bit and hold no reserved value (R7, R99, R100, R370)? -/
def blockOk (blk : List Cap) : Bool :=
  let g (i : Nat) : Nat := (blk.getD i Cap.null).bits.toNat
  fld (g 3) 96 32 == 0 && fld (g 3) 38 26 == 0 && fld (g 3) 6 26 == 0
    && (fld (g 0) 0 64 == 0 || modeOk (BitVec.ofNat 32 (fld (g 3) 0 32)))
    && fld (g 29) 64 64 == 0 && g 30 == 0 && g 31 == 0

/-- A gang continues from its phase record on a core (R48, R370); a record that disagrees, or sets a reserved bit, raises
the fault of R370. -/
def State.resumeGang (s : State) (lid : Nat) (l : Launch) (c n : Nat) : State :=
  let va := l.recordVa n
  let bad (s : State) : State := s.ctxFault l.ctx (recordFault va (((find s.ctxs l.ctx).map (·.lastPc)).getD 0))
  match placesFrom s l.ag { r := true } va (l.kern.recordLen / 16) with
  | .error _ => bad s
  | .ok ps =>
      match s.dispatchWaits l ps with
      | some t => t
      | none =>
      let cs := s.getCaps ps
      let s := s.touchAll l.ag false ps
      let head := (cs.take 4).foldr (fun x a => x.bits.toNat + 2 ^ 128 * a) 0
      let per := 32 + l.kern.carryV.length * l.kern.width / 4
      if head ≠ recordHeader l n l.phase
          ∨ !((List.range l.kern.groups).all (fun g => blockOk ((cs.drop (4 + per * g)).take per))) then bad s
      else
        let gs := (List.range l.kern.groups).map (fun g =>
          restoredGrp s l lid s.ticket n g ((cs.drop (4 + per * g)).take per))
        let gid := s.ticket
        ((s.seat lid l c n gs).restoreScr l.vd gid l.kern.carryS (cs.drop (4 + per * l.kern.groups))).dispatched lid

/-- A gang chosen among some, in any order (R380). -/
def pickGang (s : State) (ns : List Nat) : Option Nat := ns[s.freeVal % ns.length]?

/-- May the dispatcher pass gangs of a launch (R380, R435)? -/
def State.passes (s : State) (n : Nat) (l : Launch) : Bool :=
  l.state == .queued && l.accepted && l.aborted.isNone && s.isHead n l && s.ctxRuns l.ctx

/-- A service gang that cannot be made resident takes the service cores back from lent work: they are marked for it, and
lending ends (R410). -/
def State.reclaim (s : State) (n : Nat) (l : Launch) : State :=
  match l.level, s.partOf l with
  | .kernel, some p =>
      let cs := ((s.diesOf p).map (64 * ·)).filter (fun c => s.serviceCore p c && (s.coreWork c).isSome
        && (find s.marks c).isNone)
      { s with
        marks := cs.foldl (fun m c => put m c ⟨n, s.now⟩) s.marks
        lendOff := s.lendOff ++ (cs.map (· / 64)).filter (fun d => !(s.lendOff.contains d)) }
  | _, _ => s

/-- GANG_DISPATCH or PHASE_START: one gang of an accepted head, of those that start or of those that continue. A service
launch at the head that fits nowhere takes lent cores back, accepted or not (R410). -/
def State.dispatchOne (s : State) (n : Nat) (cont : Bool) : State :=
  match find s.launches n with
  | none => s
  | some l =>
      if s.predGone l then s.launchReady n
      else if l.level = .kernel ∧ l.state = .queued ∧ s.isHead n l ∧ !(s.somewhere n l) then
        (s.reclaim n l).modLaunch n (fun l => { l with accepted := false })
      else if !(s.passes n l) then s
      else match s.whereTo n l with
        | none => if s.somewhere n l then s else s.modLaunch n (fun l => { l with accepted := false })
        | some c =>
            match pickGang s (l.toGo.filter (fun g => l.resume.contains g == cont)) with
            | none => s
            | some g => if cont then s.draw.resumeGang n l c g else s.draw.startGang n l c g

/-! Completion (R51, R54, R162). -/

/-- Has all work of a launch ended: gangs, engine commands and matrix batches (R162)? -/
def State.launchIdle (s : State) (n : Nat) : Bool :=
  (s.residents n).isEmpty && (s.savedOf n).isEmpty
    && s.cmds.all (fun e => e.2.launch != some n || e.2.finished)

/-- The status that a launch completes with now, if it does (R51, R54). -/
def State.endStatus (s : State) (n : Nat) (l : Launch) : Option Nat :=
  if !(s.launchIdle n) then none
  else match l.state with
    | .done c => some c
    | _ =>
        if l.aborted.isSome then some 2
        else if l.toGo.isEmpty && l.retired.isEmpty && l.exited == l.gangs then some 0 else none

/-- Launches that name a completion pair as a predecessor are aborted (R54). DEDUCED: notes/assumptions/24.md. -/
def State.abortSuccessors (s : State) (k v : Nat) : State :=
  { s with launches := s.launches.map (fun e =>
      match (s.preds e.2).find? (fun p => p.2 == (some k, v)) with
      | none => e
      | some p => (e.1, { e.2 with
          aborted := some (e.2.aborted.getD p.1), toGo := [], retired := [], resume := [] })) }

/-- LAUNCH_COMPLETION (R51, R54, R162). -/
def State.launchComplete (s : State) (n : Nat) : State :=
  match find s.launches n with
  | none => s
  | some l =>
      match s.endStatus n l with
      | none => s
      | some st =>
          let place (c : Cap) (need : Need) (n : Nat) : List Place := if c.isNull then []
            else match locate s l.ag need c.cursor n with
              | .ok p => [p]
              | .error _ => []
          let pls := place l.statusCap { w := true } 4 ++ place l.compl { r := true, w := true } 16
          if pls.any (fun p => p.granules.any s.locked.contains) then s
          else match s.dispatchWaits l pls with
          | some t => t
          | none =>
          let s := match locate s l.ag { w := true } l.statusCap.cursor 4 with
            | .error _ => s
            | .ok p => if l.statusCap.isNull then s else (s.touch l.ag true p).wkeys p.keys (leBytes st 4)
          let s := if l.compl.isNull then s else
            match locate s l.ag { r := true, w := true } l.compl.cursor 16 with
            | .error _ => s
            | .ok p =>
                let k := p.keys.headD 0
                let s := (s.touch l.ag true p).tlRaise k l.cval
                if st = 2 ∨ st = 3 ∨ st = 4 then s.abortSuccessors k l.cval else s
          (({ s with launches := del s.launches n } : State).clearMarks (fun m => m.launch == n)).fixHeads

/-- LAUNCH_READY (R376). -/
def execLaunchReady (n : Nat) (s : State) : Out := .next (s.launchReady n)

/-- LAUNCH_COMPLETION (R162). -/
def execLaunchCompletion (n : Nat) (s : State) : Out := .next (s.launchComplete n)

end Sys2Proof.Machine
end

