-- ==== Sys2Proof/Machine/Gang.lean ====
section
/-! DEFINITION. Gangs at barriers and at their end: BAR.G (R45), BAR.L and BAR.L.YIELD (R46 to R49, R369), EXIT (R42,
R205, R308), and what the dispatcher does as gangs retire and exit (R376, R377). -/
namespace Sys2Proof.Machine

/-- Scratch of a gang is released (R122), once no unfinished command of it is left. -/
def State.freeScratch (s : State) (gid : Nat) : State :=
  if s.cmds.any (fun e => e.2.gang == some gid && !e.2.finished) then s
  else
    { s with
      scr := s.scr.filter (fun e => e.1 / 2 ^ 19 != gid)
      scrTags := s.scrTags.filter (fun e => e.1 / 2 ^ 15 != gid) }

/-- A gang has left a core: the core gains capacity (R384), and a service core that the last lent work has left loses its
user state, while its service gangs keep theirs (R123, R410). -/
def State.left (s : State) (core : Nat) : State :=
  let t := s.gained core
  if core % 64 = 0 ∧ (t.coreWork core).isNone then { t.clearCore core with coreVd := del t.coreVd core } else t

/-- A gang leaves its core: units, reservations and scratch are released (R122, R123). -/
def State.dropGang (s : State) (gid : Nat) (k : Gang) : State :=
  (State.freeScratch { s with
    gangs := del s.gangs gid
    units := k.units.foldl (fun m u => match u with
      | some u => del m u
      | none => m) s.units } gid).left k.core

/-- Has a gang matrix operations that have not ended (R308)? -/
def State.matrixBusy (s : State) (gid : Nat) : Bool := s.ops.any (fun e => e.2.gang == gid)

/-! The gang barrier (R45, R165). -/

/-- The clock that the arriving groups of a gang have after a barrier; a group that has exited arrives nowhere. -/
def Race.joined (r : Race) (live : List Nat) : Race :=
  let all : Clock := (r.clk.filter (fun e => live.contains e.1)).foldl (fun c e => Clock.join c e.2) []
  { r with clk := live.foldl (fun m g => store [] m g all) r.clk }

/-- The indices of a gang's groups that have not ended. -/
def Gang.live (k : Gang) : List Nat := (List.range k.units.length).filter (fun i => (k.units.getD i none).isSome)

/-- The OPEN lanes that completed a barrier of a generation are doomed with FORBIDDEN (R258, R268). -/
def Grp.barDone (g : Grp) (gen : Nat) : Grp :=
  let at_ (x : Option Path) : DWord := match x with
    | some p => if p.wait = some (.barrier gen) then p.mask else 0
    | none => 0
  let m := g.stack.foldl (fun a e => match e.2 with
    | .deferred _ mask _ bar _ _ => if bar = some gen then a ||| mask else a
    | .join .. => a) (at_ g.slotA ||| at_ g.slotB)
  g.forbid (lanesOf g.width m)

/-- Has every lane of the gang that has not exited arrived? -/
def State.barrierFull (s : State) (k : Gang) : Bool := (s.gangUnits k).all (fun e => e.2.atBarrier k.gen)

/-- Does some path or record of the gang wait at its barrier? -/
def Grp.waitsAt (g : Grp) (gen : Nat) : Bool :=
  let at_ (x : Option Path) : Bool := match x with
    | some p => p.wait == some (.barrier gen)
    | none => false
  at_ g.slotA || at_ g.slotB || g.stack.any (fun e => match e.2 with
    | .deferred _ _ _ bar _ _ => bar == some gen
    | _ => false)

/-- BAR.G completes, if every lane has arrived. -/
def State.barrierCheck (s : State) (gid : Nat) : State :=
  match find s.gangs gid with
  | none => s
  | some k =>
      if s.barrierFull k && (s.gangUnits k).any (fun e => e.2.waitsAt k.gen) then
        { s with
          units := (s.gangUnits k).foldl (fun m e => put m e.1 ((e.2.barDone k.gen).release (k.gen + 1))) s.units
          gangs := put s.gangs gid { k with gen := k.gen + 1, race := k.race.joined k.live } }
      else s

/-- BAR.G. A thread, which is in no gang, waits for nobody. DEDUCED: notes/assumptions/25.md. -/
def Iss.barG (x : Iss) (s : State) : Res :=
  match x.g.gang with
  | none => .retire s (x.g.forbid x.lanes)
  | some gid =>
      let gen := s.genOf x.g
      let t := s.putU x.u (x.g.setSlot x.b ((x.g.slot x.b).map (fun p => { p with wait := some (.barrier gen) })))
      match find t.gangs gid with
      | none => .retire s (x.g.forbid x.lanes)
      | some k => if t.barrierFull k then .done (t.barrierCheck gid) else .wait t (.barrier gen)

/-! The launch as gangs retire and exit. -/

/-- When every gang of a launch has retired at its barrier or exited, those that retired are queued for the next phase
(R46, R377). -/
def State.phaseCheck (s : State) (lid : Nat) : State :=
  match find s.launches lid with
  | none => s
  | some l =>
      if l.toGo.isEmpty && !l.retired.isEmpty && (s.residents lid).isEmpty && (s.savedOf lid).isEmpty then
        (s.modLaunch lid (fun l => { l with
          phase := l.phase + 1, toGo := l.retired, resume := l.retired, retired := [] })).enqueue lid
      else s

/-- A gang of a launch has exited (R43, R52). -/
def State.gangExited (s : State) (k : Gang) : State :=
  match k.launch with
  | none => s
  | some lid =>
      let s := s.modLaunch lid (fun l => { l with
        exited := l.exited + 1
        learly := if l.learly.contains k.index then l.learly else k.index :: l.learly })
      (s.phaseCheck lid).stir ((find s.launches lid).bind (fun l => s.partOf l))

/-- A regrow gang has exited (R326). -/
def State.regrowExited (s : State) (k : Gang) : State :=
  match k.regrow with
  | none => s
  | some d =>
      let s := if k.regrown then s else s.regrowFail d 0x43
      match find s.regrows d with
      | none => s
      | some r => { s with regrows := put s.regrows d { r with left := r.left - 1 } }

/-- After a group has ended: its unit goes, and with the last one its gang (R43). -/
def State.groupEnded (s : State) (u gid gidx : Nat) : State :=
  match find s.gangs gid with
  | none => { s with units := del s.units u }
  | some k =>
      let k := { k with units := setNth k.units gidx none }
      let s := { s with units := del s.units u, gangs := put s.gangs gid k }
      if k.units.all (·.isNone) then ((s.dropGang gid k).gangExited k).regrowExited k
      else (s.barrierCheck gid).gained k.core

/-! EXIT. -/

/-- Would the path's exit end the last group of its gang? -/
def Iss.lastOut (x : Iss) (s : State) (g : Grp) : Bool :=
  g.ended && match x.g.gang.bind (fun n => find s.gangs n) with
    | none => false
    | some k => (List.range k.units.length).all (fun i => i == x.g.gidx || (k.units.getD i none).isNone)

/-- EXIT (R42, R205). -/
def Iss.exitLanes (x : Iss) (s : State) : Res :=
  let ls := lanesOf x.width x.p.mask
  let s1 := ls.foldl (fun s l => s.endSerial x.u x.g l) s
  let g := (ls.foldl (fun g l => g.setTxn l {}) x.g).exitPath (s.genOf x.g) x.b
  match x.g.gang with
  | none => .done (s1.putU x.u g)
  | some gid =>
      if x.lastOut s g && s.matrixBusy gid then .wait s .other
      else if g.ended then .done (s1.groupEnded x.u gid x.g.gidx)
      else .done ((s1.putU x.u g).barrierCheck gid)

/-! The launch barrier. -/

/-- Has every group of the gang but one reached the barrier? -/
def State.launchBarFull (s : State) (k : Gang) (u : Nat) (yield : Bool) : Bool :=
  (s.gangUnits k).all (fun e => e.1 == u || (e.2.reconverged &&
    ((e.2.slotA.orElse (fun _ => e.2.slotB)).bind (fun p => p.wait)) == some (.launchBar yield)))

/-- The places of the gang's phase record, or the fault of R369. -/
def Iss.recordPlaces (x : Iss) (s : State) (l : Launch) (k : Gang) : Except FaultInfo (List Place) :=
  if l.phasemem.isNull then .error (x.failPlain ⟨0x04, 0x44, 0⟩ x.low)
  else
    let va := l.recordVa k.index
    match capCheck l.phasemem ((k.index * l.kern.recordLen : Nat) : Int) l.kern.recordLen pSTORE with
    | .error _ => .error (x.failPlain ⟨0x04, 0x44, wrap 64 va⟩ x.low)
    | .ok va =>
        match placesFrom s x.ag { w := true } va (l.kern.recordLen / 16) with
        | .error f => .error (x.failPlain f x.low)
        | .ok ps => .ok ps

/-- A gang retires through its phase record, in a phase number (R46, R47). -/
def State.retireGang (s : State) (x : Iss) (gid : Nat) (l : Launch) (k : Gang) (phase : Nat) (ps : List Place) : State :=
  let s := s.sweepHandles k.core l.vd (some l.ctx)
  let rec_ := s.recordOf l gid k phase
  let t := s.putCaps x.ag ps rec_
  (k.units.foldl (fun t u => match u with
    | some u => match find t.units u with
        | some g => (t.unlock g).freeToken u
        | none => t
    | none => t) t).dropGang gid k

/-- A group that continues in place with the state of R48 and R49, as a retirement and restore would leave it; it keeps its
path stack, and acts for the launch's VD again. -/
def State.renewed (s : State) (gid : Nat) (g : Grp) : Grp :=
  let k := g.kern
  let lane0 := (List.range k.width).foldl (fun m l =>
    store 0 m l (BitVec.ofNat 32 (g.gidx * k.width + l))) ([] : Sparse Word)
  let v := k.carryV.foldl (fun m r => (List.range k.width).foldl (fun m l =>
    store 0 m (64 * r + l) (look 0 g.v (64 * r + l))) m) lane0
  let vf := k.carryQuads.foldl (fun m q => (List.range k.width).foldl (fun m l =>
    store false m (64 * q + l) (s.swept g.vd (g.quad (BitVec.ofNat 7 (4 * q)) l)).tag) m) ([] : Sparse Bool)
  let txn := g.txn.filterMap (fun e => if e.2.state = .none then none
    else some (e.1, ({ state := .doomed 5 } : Txn)))
  let l := g.launch.bind (fun n => find s.launches n)
  { width := g.width, level := g.level, vd := (l.map (fun (l : Launch) => l.vd)).getD g.vd, ctx := g.ctx, aspace := g.aspace,
    kern := k, launch := g.launch, pathNo := g.pathNo, pccAt := g.pccAt, gang := some gid, gidx := g.gidx, gx := g.gx, gy := g.gy, gz := g.gz, pcc := s.swept g.vd g.pcc, v := v, vf := vf,
    s := g.s, q := (List.range 16).foldl (fun m i => store Cap.null m i (s.swept g.vd (g.qr i))) [],
    mode := g.mode, status := g.status, stoch := g.stoch, txn := txn, own := (l.map Launch.ownRegs).getD [], regrow := g.regrow,
    slotA := (g.slotA.orElse (fun _ => g.slotB)).map (fun p => { pc := p.pc + 4, mask := p.mask }) }

/-- Ranges of one gang's scratch under another's number, with the tags that no mark of the VD's partition clears (R430). -/
def State.carryScr (s : State) (vd old new : Nat) (rs : List (Nat × Nat)) : State :=
  rs.foldl (fun s r => (List.range (r.2 / 16)).foldl (fun t i =>
    t.scrCapW new (r.1 + 16 * i) (s.swept vd (s.scrCap old (r.1 + 16 * i)))) s) s

/-- A gang resumes in place (R49): the next phase's scratch and race state are new. -/
def State.resumeHere (s : State) (gid : Nat) (k : Gang) : State :=
  let us := s.gangUnits k
  let new := s.ticket
  let carry : List (Nat × Nat) := match us with
    | [] => []
    | e :: _ => e.2.kern.carryS
  let s : State := us.foldl (fun (t : State) e => (t.unlock e.2).freeToken e.1) s.tick
  let s := s.carryScr ((us.head?.map (fun e => e.2.vd)).getD 0) gid new carry
  let s : State := match us with
    | [] => s
    | e :: _ => s.sweepHandles k.core e.2.vd e.2.ctx
  { s with
    units := us.foldl (fun m (e : Nat × Grp) => put m e.1 (s.renewed new e.2)) s.units
    gangs := put (del s.gangs gid) new { k with gen := 0, res := [], race := {} } }.freeScratch gid

/-- The launch after a gang of it has retired at BAR.L (R46). -/
def State.gangRetired (s : State) (lid n : Nat) : State :=
  let s := s.modLaunch lid (fun l => if l.aborted.isSome then l else { l with retired := l.retired ++ [n] })
  (s.phaseCheck lid).stir ((find s.launches lid).bind (fun l => s.partOf l))

/-- The launch after a gang of it has retired at BAR.L.YIELD: the gang waits for no other (R49). -/
def State.gangYielded (s : State) (lid n : Nat) : State :=
  match find s.launches lid with
  | none => s
  | some l =>
      let s := s.modLaunch lid (fun l => if l.aborted.isSome then l else { l with toGo := l.toGo ++ [n], resume := l.resume ++ [n] })
      if l.state = .running ∧ l.aborted.isNone then s.enqueue lid else s

/-- BAR.L and BAR.L.YIELD. On a core that is not marked, BAR.L.YIELD resumes in place; R49 leaves the choice to the
dispatcher. DESIGN CHOICE: notes/assumptions/84.md. A thread is in no gang: BAR.L finds no phase record, BAR.L.YIELD nothing to wait for. -/
def Iss.barL (x : Iss) (s : State) (yield : Bool) : Res :=
  if !x.g.reconverged then .fault (x.failPlain diverged x.low)
  else
    let nul : FaultInfo := x.failPlain ⟨0x04, 0x44, 0⟩ x.low
    match x.g.gang.bind (fun gid => (find s.gangs gid).map (fun k => (gid, k))) with
    | none => if yield then .retire s (x.g.forbid x.lanes) else .fault nul
    | some (gid, k) =>
        let l? := k.launch.bind (fun n => (find s.launches n).map (fun l => (n, l)))
        let ps : Except FaultInfo (List Place) := match l? with
          | none => .error nul
          | some (_, l) => x.recordPlaces s l k
        let ready := s.launchBarFull k x.u yield && !(s.matrixBusy gid)
        let t := s.putU x.u (x.g.setSlot x.b ((x.g.slot x.b).map (fun p => { p with wait := none })))
        match l?, ps with
        | some (lid, l), .ok ps =>
            if !ready then .wait t (.launchBar yield)
            else if yield then
              if (find s.marks k.core).isSome then .done ((t.retireGang x gid l k k.phase ps).gangYielded lid k.index)
              else .done (t.resumeHere gid k)
            else .done ((t.retireGang x gid l k (k.phase + 1) ps).gangRetired lid k.index)
        | _, .error f =>
            if !yield then .fault f else if ready then .done (t.resumeHere gid k) else .wait t (.launchBar yield)
        | none, .ok _ => .fault nul

/-- BAR.G (R45). -/
def execBarG (s : State) : Out := issue (Instr.sig .barG) s (fun x s => x.barG s)

/-- BAR.L (R46, R369). -/
def execBarL (s : State) : Out := issue (Instr.sig .barL) s (fun x s => x.barL s false)

/-- BAR.L.YIELD (R49). -/
def execBarLYield (s : State) : Out := issue (Instr.sig .barLYield) s (fun x s => x.barL s true)

/-- EXIT (R205). -/
def execExit (s : State) : Out := issue sigExit s (fun x s => x.exitLanes s)

end Sys2Proof.Machine
end

