-- ==== Sys2Proof/Machine/Sync.lean ====
section
/-! DEFINITION. SYNC, major 0x1E, but for the barriers: FENCE, waits on arrival objects, timelines, words and batches,
LEARLY, LWAITP, YIELD and TLREAD (R261 to R268). -/
namespace Sys2Proof.Machine

/-- The race state of the issuing group's gang changed. -/
def Iss.modRace (x : Iss) (s : State) (f : Race → Race) : State :=
  s.modGang x.gangNo (fun k => { k with race := f k.race })

/-- Knowledge added to the group's clock (R165). -/
def Race.learn (g : Nat) (c : Clock) (r : Race) : Race := { r with clk := store [] r.clk g (Clock.join (look [] r.clk g) c) }

/-- FENCE (R152, R262): release fences mark their lanes, acquire fences take what the group's reads returned (R165). -/
def Iss.fence (x : Iss) (s : State) (o sc : Nat) : Res :=
  if sc = 0 then .retire s x.g
  else
    let g := if 2 ≤ o then { x.g with relLanes := x.g.relLanes ||| x.p.mask } else x.g
    if o = 2 then .retire s g
    else .retire (x.modRace s (fun r => Race.learn x.g.gidx (look [] r.pend x.g.gidx) r)) g

/-- SCRATCH_BOUNDS of an offset (R122), or none. -/
def Iss.scrRange (x : Iss) (s : State) (off size lane : Nat) : Option FaultInfo :=
  match x.g.gang.bind (fun n => find s.gangs n) with
  | none => some (x.failPlain ⟨0x0D, 0, off⟩ lane)
  | some k => if scrOk k off size then none else some (x.failPlain ⟨0x0D, 0, off⟩ lane)

/-- WAITPH (R263). -/
def Iss.waitph (x : Iss) (s : State) (a : Reg) (ph : Bool) : Res :=
  let off := (x.g.rd a 0).toNat
  match x.scrRange s off 8 x.low with
  | some f => .fault f
  | none =>
      if bit (s.scrR x.gangNo off 8) 63 == ph then
        .retire (x.modRace s (fun r => match r.arrs.find? (fun e => e.1 == off) with
          | none => r
          | some e => Race.learn x.g.gidx e.2.2 r)) (x.scrG x.g)
      else .wait s .internal

/-- The place of a timeline of the issuing path (R133). -/
def Iss.timeline (x : Iss) (s : State) (q : BitVec 4) (need : Need) : Except FaultInfo LaneAt :=
  x.place s { c := x.qs q, q := q.toNat, size := 16, need := need, perm := fun _ => pTL, off := fun _ => 0 } x.low

/-- The target of the 32-bit form (R264): the value near M that is congruent to it. -/
def nearTarget (m v : Nat) : Int :=
  let lo : Int := (m : Int) - 2 ^ 31 + 1
  lo + ((v : Int) - lo) % 2 ^ 32

/-- What the group learns of commands up to a number on a timeline (R165). -/
def State.cmdClock (s : State) (gang tl : Nat) (n : Int) : Clock :=
  s.cmds.foldl (fun c e =>
    if e.2.gang = some gang ∧ e.2.tl = tl ∧ (e.2.seq : Int) ≤ n then
      Clock.join c (Clock.set e.2.clk (.cmd e.1 (e.2.engine == .crib)) e.2.accs)
    else c) []

/-- The target that a blocked path's instruction has taken (R264). -/
def Iss.target? (x : Iss) : Option Nat :=
  match x.p.wait with
  | some (.timelines [(_, n)]) => some n
  | _ => none

/-- What an instruction goes on waiting for that already waits for a timeline. -/
def Iss.keepWait (x : Iss) (w : Wait) : Wait :=
  match x.p.wait with
  | some (.timelines ps) => .timelines ps
  | _ => w

/-- TLWAIT (R264). Its translation is not kept while it waits (R424). -/
def Iss.tlwait (x : Iss) (s : State) (q : BitVec 4) (target : State → Nat → Int) : Res :=
  match x.timeline s q { r := true } with
  | .error f => .fault f
  | .ok a =>
      match x.gate s false [a] with
      | some t => .wait t.1 (x.keepWait t.2)
      | none =>
          let k := a.pl.keys.headD 0
          let n : Int := match x.target? with
            | some n => n
            | none => target s k
          let t := s.touch x.ag false a.pl
          if n ≤ s.tlDone k then
            .retire (x.modRace t (Race.learn x.g.gidx (s.cmdClock x.gangNo k n))) (x.remote false [a])
          else .wait t (.timelines [((x.qs q).cursor, n.toNat)])

/-- Lanes that have read a differing word in earlier reads of the same WAITA, and the release clocks they took. -/
def Iss.differed (x : Iss) : DWord × Clock :=
  match x.p.wait with
  | some (.words m _ c) => (m, c)
  | _ => (0, [])

/-- Lanes that have read a differing word, these reads among them. -/
def Iss.differing (x : Iss) (b : Reg) (vs : List (Nat × Nat)) : DWord :=
  x.differed.1 ||| maskOf ((vs.filter (fun e => e.2 != (x.g.rd b e.1).toNat)).map (·.1))

/-- WAITA on scratch (R265). -/
def Iss.waitaScr (x : Iss) (s : State) (a b : Reg) : Res :=
  let ls := x.reqLanes ((a.isV && a != 127#7) || b.isV)
  match ls.findSome? (fun l => x.scrRange s (x.g.off a l).toNat 4 l) with
  | some f => .fault f
  | none =>
      let vs := ls.map (fun l => (l, s.scrR x.gangNo (x.g.off a l).toNat 4))
      let m := x.differing b vs
      let new := ls.filter (fun l => m.getLsbD l && !(x.differed.1.getLsbD l))
      let rels := match x.g.gang.bind (fun n => find s.gangs n) with
        | some k => k.race.rels
        | none => []
      let clk := new.foldl (fun c l => rels.foldl (fun c e =>
        if e.1 < (x.g.off a l).toNat + 4 ∧ (x.g.off a l).toNat < e.2.1 then Clock.join c e.2.2 else c) c) x.differed.2
      if ls.all (fun l => m.getLsbD l) then
        .retire (x.modRace s (fun r => { r with pend := store [] r.pend x.g.gidx (Clock.join (look [] r.pend x.g.gidx) clk) }))
          (x.scrG x.g)
      else .wait s (.words m false clk)

/-- WAITA on global memory; its offset register is read as it stands, without a sign (R265).
DESIGN CHOICE: notes/assumptions/95.md. -/
def Iss.waitaMem (x : Iss) (s : State) (q : BitVec 4) (a b : Reg) : Res :=
  let ls := x.reqLanes ((a.isV && a != 127#7) || b.isV)
  let k : Ask :=
    { c := x.qs q, q := q.toNat, size := 4, need := { r := true }, perm := fun _ => pLOAD,
      off := fun l => (x.g.off a l).toNat }
  match x.places s k ls with
  | .error f => .fault f
  | .ok as =>
      match x.gate s false as with
      | some t => .wait t.1 t.2
      | none =>
          let t := s.touchLanes x.ag false as
          let m := x.differing b (as.map (fun a => (a.lane, s.rkeys a.pl.keys)))
          if ls.all (fun l => m.getLsbD l) then .retire t (x.remote ((a.isV && a != 127#7) || b.isV) as) else .wait t (.words m true [])

/-- MFENCE (R266, R308). -/
def Iss.mfence (x : Iss) (s : State) (d : Reg) : Res :=
  if 256 ≤ x.g.closed.length then .wait s .internal
  else
    let n := (x.g.batchNo + 1) % 65536
    .retire s { x.toS d n with batchNo := n, closed := x.g.closed ++ [n] }

/-- MWAIT (R266): batch `n` and every earlier one that has not ended. -/
def Iss.mwait (x : Iss) (s : State) (a : Reg) : Res :=
  let n := (x.g.rd a 0).toNat % 65536
  let c := x.g.batchNo
  if (c + 65536 - n) % 65536 < 32768 ∧ x.g.closed.any (fun b => decide ((n + 65536 - b) % 65536 < 32768)) then
    .wait s .internal
  else .retire s x.g

/-- LEARLY (R52, R267). -/
def Iss.learly (x : Iss) (s : State) : State :=
  match x.g.gang.bind (fun n => find s.gangs n) with
  | none => s
  | some k => match k.launch with
      | none => s
      | some n => s.modLaunch n (fun l => { l with
          learly := if l.learly.contains k.index then l.learly else k.index :: l.learly })

/-- LWAITP (R53, R54). -/
def Iss.lwaitp (x : Iss) (s : State) : Res :=
  match x.g.launch.bind (fun n => find s.launches n) with
  | none => .retire s x.g
  | some l => match l.aborted with
      | some k => .fault (x.failPlain ⟨0x12, k, 0⟩ x.low)
      | none =>
          let open_ := (s.preds l).filter (fun p => !(s.reached p.2))
          if open_.isEmpty then .retire s x.g
          else if open_.any (fun p => p.2.1.isNone) then .wait s .external
          else .wait s (.timelines (open_.map (fun p => ((l.pred p.1).cursor, p.2.2))))

/-- TLREAD (R267). -/
def Iss.tlread (x : Iss) (s : State) (d : Reg) (q : BitVec 4) : Res :=
  match x.timeline s q { r := true } with
  | .error f => .fault f
  | .ok a =>
      match x.gate s false [a] with
      | some t => .wait t.1 t.2
      | none =>
          .retire (s.touch x.ag false a.pl)
            ({ x with g := x.remote false [a] }.toPair d (s.tlDone (a.pl.keys.headD 0)))

/-- FENCE (R262). -/
def execFence (o : BitVec 3) (sc : BitVec 2) (s : State) : Out :=
  issue (Instr.sig (.fence o sc)) s (fun x s => x.fence s o.toNat sc.toNat)

/-- WAITPH (R263). -/
def execWaitph (a : Reg) (p : BitVec 1) (s : State) : Out :=
  issue (Instr.sig (.waitph a p)) s (fun x s => x.waitph s a (p == 1#1))

/-- TLWAIT (R264). -/
def execTlwait (a : Reg) (q : BitVec 4) (s : State) : Out :=
  issue (Instr.sig (.tlwait a q)) s (fun x s =>
    x.tlwait s q (fun t k => nearTarget (max (t.tlIssued k) (t.tlDone k)) (x.g.rd a 0).toNat))

/-- TLWAIT.W (R264). -/
def execTlwaitW (a : Reg) (q : BitVec 4) (s : State) : Out :=
  issue (Instr.sig (.tlwaitW a q)) s (fun x s => x.tlwait s q (fun _ _ => (x.g.rd2 a 0).toNat))

/-- WAITA, scratch (R265). -/
def execWaita (a b : Reg) (s : State) : Out :=
  issue (Instr.sig (.waita a b)) s (fun x s => x.waitaScr s a b)

/-- WAITA, global (R265). -/
def execWaitaGlobal (q : BitVec 4) (a b : Reg) (s : State) : Out :=
  issue (Instr.sig (.waitaGlobal q a b)) s (fun x s => x.waitaMem s q a b)

/-- MFENCE (R266). -/
def execMfence (d : Reg) (s : State) : Out := issue (Instr.sig (.mfence d)) s (fun x s => x.mfence s d)

/-- MWAIT (R266). -/
def execMwait (a : Reg) (s : State) : Out := issue (Instr.sig (.mwait a)) s (fun x s => x.mwait s a)

/-- LEARLY (R267). -/
def execLearly (s : State) : Out := issue (Instr.sig .learly) s (fun x s => .retire (x.learly s) x.g)

/-- LWAITP (R53). -/
def execLwaitp (s : State) : Out := issue (Instr.sig .lwaitp) s (fun x s => x.lwaitp s)

/-- YIELD (R267). -/
def execYield (s : State) : Out := issue (Instr.sig .yield) s (fun x s => .retire s { x.g with yieldTo := s.now + 8 })

/-- TLREAD (R267). -/
def execTlread (d : Reg) (q : BitVec 4) (s : State) : Out :=
  issue (Instr.sig (.tlread d q)) s (fun x s => x.tlread s d q)

end Sys2Proof.Machine
end

