-- ==== Sys2Proof/Machine/Hints.lean ====
section
/-! DEFINITION. The hint words of major 0x3F (R176 to R178): each joins the pending sequence of its path. -/
namespace Sys2Proof.Machine

/-- A hint is pending: the path advances past it without the check of R42 (R177). -/
def Iss.pend (x : Iss) (s : State) (stall : Nat) : Res :=
  .done (s.putU x.u (x.setPath (fun p =>
    { p with pc := p.pc + 4, hints := p.hints ++ [x.w], wait := none, stall := max p.stall stall })))

/-- IMM (R178). -/
def execImm (h : BitVec 23) (s : State) : Out := issue (sigImm h) s (fun x s => x.pend s 0)

/-- GUARD (R179). -/
def execGuard (p : BitVec 3) (n : BitVec 1) (s : State) : Out := issue (sigGuard p n) s (fun x s => x.pend s 0)

/-- SCHED (R178): the path waits STALL core cycles before its hinted instruction. -/
def execSched (st : BitVec 4) (y : BitVec 1) (r : BitVec 3) (s : State) : Out :=
  issue (sigSched st y r) s (fun x s => x.pend s (s.now + st.toNat))

/-- RMODE (R178). -/
def execRmode (rm : BitVec 3) (t : BitVec 2) (s : State) : Out := issue (sigRmode rm t) s (fun x s => x.pend s 0)

/-- CHAINOP (R179). -/
def execChainop (a b : BitVec 11) (s : State) : Out := issue (sigChainop a b) s (fun x s => x.pend s 0)

/-- OFFHI (R171). -/
def execOffhi (h : BitVec 23) (s : State) : Out := issue (sigOffhi h) s (fun x s => x.pend s 0)

/-- MATX (R299). -/
def execMatx (k : BitVec 10) (start : BitVec 7) (strm : BitVec 2) (s : State) : Out :=
  issue (sigMatx k start strm) s (fun x s => x.pend s 0)

end Sys2Proof.Machine
end

