-- ==== Sys2Proof/Machine/Records.lean ====
section
/-! DEFINITION. Records of the matrix engine and the tiles as engines read them: crib reservations (R284, R285), loft
handles (R291 to R293), tile descriptors (R139, R140), collective groups (R470). -/
namespace Sys2Proof.Machine

/-! Formats (R140, R281). -/

/-- The type of an element of a FORMAT code; MX codes give their element type. -/
def CT.ofFormat (f : Nat) : CT :=
  match f with
  | 0 => .float .fp32
  | 1 => .float .fp16
  | 2 => .float .bf16
  | 3 | 10 => .float .e4m3
  | 4 | 11 => .float .e5m2
  | 5 | 9 => .float .e2m1
  | 6 | 12 => .int ⟨8, true⟩
  | 7 => .int ⟨16, true⟩
  | _ => .int ⟨32, true⟩

def isMx (f : Nat) : Bool := decide (9 ≤ f) && decide (f ≤ 12)

/-- Elements of a chunk of 256 bytes (R117). -/
def chunkElems (f : Nat) : Nat := 2048 / (CT.ofFormat f).width

/-- The MX block length of a BLK bit (R96), and the blocks of a chunk. -/
def blkLen (b : Bool) : Nat := if b then 16 else 32
def blocksPer (f : Nat) (b : Bool) : Nat := chunkElems f / blkLen b

/-- Formats that A and B may have, and their C format (R281). -/
def matrixFormat (f : Nat) : Bool := [1, 2, 3, 4, 6, 9, 10, 11, 12].contains f
def cFormat (f : Nat) : Nat := if f = 6 then 8 else 0

/-- May formats of A and B be paired (R281)? -/
def paired (a b : Nat) : Bool :=
  (a == b && matrixFormat a) || ([10, 11].contains a && [10, 11].contains b) || ([3, 4].contains a && [3, 4].contains b)

/-! Crib reservations (R284). -/

def resBase (r : BitVec 128) : Nat := fld r.toNat 0 20
def resLen (r : BitVec 128) : Nat := fld r.toNat 20 20
def resStride (r : BitVec 128) : Nat := fld r.toNat 40 20
def resSoff (r : BitVec 128) : Nat := fld r.toNat 60 20
def resFormat (r : BitVec 128) : Nat := fld r.toNat 80 4
def resBlk (r : BitVec 128) : Bool := bit r.toNat 84
def resIsC (r : BitVec 128) : Bool := bit r.toNat 85
def resValid (r : BitVec 128) : Bool := bit r.toNat 86

/-- Is a record image accepted by CRES, in an allotment of so many bytes (R284, R287)? -/
def resOk (r : BitVec 128) (allot : Nat) : Bool :=
  let f := resFormat r
  fld r.toNat 87 41 == 0
    && (if resIsC r then (f == 0 || f == 8) && !(resBlk r) && resSoff r == 0
        else matrixFormat f && (isMx f || (!(resBlk r) && resSoff r == 0)))
    && resStride r % 16 == 0 && resLen r % 16 == 0 && decide (16 ≤ resLen r) && decide (resLen r ≤ 524288)
    && resBase r % 16 == 0 && decide (resBase r + resLen r ≤ allot) && decide (resSoff r < resLen r)

/-- A gang's reservation record. -/
def Gang.resOf (k : Gang) (n : Nat) : BitVec 128 := look 0 k.res n

/-- The key of a crib byte of a core. -/
def cribKey (core at_ : Nat) : Nat := core * 2 ^ 19 + at_

def State.cribR (s : State) (core at_ n : Nat) : Nat := leRead (fun a => look 0 s.crib (cribKey core a)) at_ n

def State.cribW (s : State) (core at_ : Nat) : List Byte → State
  | [] => s
  | b :: r => State.cribW { s with crib := store 0 s.crib (cribKey core at_) b } core (at_ + 1) r

/-! Loft handles (R291 to R293). -/

def hBase (h : Handle) : Nat := fld h.bits.toNat 0 17
def hSoff (h : Handle) : Nat := fld h.bits.toNat 17 17
def hKch (h : Handle) : Nat := fld h.bits.toNat 34 10
def hN (h : Handle) : Nat := fld h.bits.toNat 44 8
def hExpert (h : Handle) : Nat := fld h.bits.toNat 52 16
def hFormat (h : Handle) : Nat := fld h.bits.toNat 68 4
def hBlk (h : Handle) : Bool := bit h.bits.toNat 72
def hState (h : Handle) : Nat := fld h.bits.toNat 73 2
def hBack (h : Handle) : Cap := ⟨h.bits.extractLsb' 128 128, h.backTag⟩
def hCtr (h : Handle) : Cap := ⟨h.bits.extractLsb' 256 128, h.ctrTag⟩

/-- STATE written. -/
def Handle.setState (h : Handle) (st : Nat) : Handle :=
  { h with bits := (h.bits &&& ~~~(3#384 <<< 73)) ||| (BitVec.ofNat 384 (st % 4) <<< 73) }

/-- Element bytes and scale bytes of a column, and CB (R293). -/
def hElems (h : Handle) : Nat := 256 * hKch h
def hScales (h : Handle) : Nat := if isMx (hFormat h) then hKch h * blocksPer (hFormat h) (hBlk h) else 0
def hColumn (h : Handle) : Nat := (hElems h + hScales h + 15) / 16 * 16

/-- The checks of LHSET on a record (R293, R294). -/
def handleOk (h : Handle) : Bool :=
  let f := hFormat h
  fld h.bits.toNat 75 53 == 0 && matrixFormat f && (isMx f || !(hBlk h))
    && decide (1 ≤ hN h) && decide (hN h ≤ 128) && decide (1 ≤ hKch h) && decide (hKch h ≤ 512)
    && hBase h % 256 == 0 && decide (hBase h + hElems h ≤ 131072)
    && (if isMx f then decide (hSoff h + hScales h ≤ 131072) else hSoff h == 0)

/-- The handle of a core. -/
def State.handle (s : State) (core n : Nat) : Handle := look default s.handles (64 * core + n)
def State.setHandle (s : State) (core n : Nat) (h : Handle) : State :=
  { s with handles := store default s.handles (64 * core + n) h }

/-- Does the record of a handle hold an uncorrectable error: it lies in the loft (R23)? Its places there follow those of the
slices. DESIGN CHOICE: notes/assumptions/19.md. -/
def State.handleErr (s : State) (core n : Nat) : Bool := s.errAt 3 (2 ^ 45 + 64 * (64 * core + n)) 48

/-- Are there operations on the loft path of a handle that have not ended (R295), those in gang images aside (R444)? -/
def State.loftBusy (s : State) (core n : Nat) : Bool :=
  s.ops.any (fun e => !e.2.czero && e.2.core == core && e.2.handle == n && !e.2.streamed && (find s.saved e.2.gang).isNone)

/-- The key of a loft byte. -/
def loftKey (core slice at_ : Nat) : Nat := core * 2 ^ 24 + slice * 2 ^ 17 + at_

def State.loftR (s : State) (core slice at_ n : Nat) : Nat :=
  leRead (fun a => look 0 s.loft (loftKey core slice a)) at_ n

def State.loftW (s : State) (core slice at_ : Nat) : List Byte → State
  | [] => s
  | b :: r => State.loftW { s with loft := store 0 s.loft (loftKey core slice at_) b } core slice (at_ + 1) r

/-! Tile descriptors (R139, R140). -/

/-- A descriptor as read: its 512 bits and the tags of its capabilities. -/
structure Desc where
  bits : Nat
  base : Cap
  recipe : Cap
  deriving DecidableEq, Repr

def State.descAt (s : State) (k : Nat) : Desc := ⟨s.rn k 64, s.capAt k, s.capAt (k + 48)⟩

def Desc.format (d : Desc) : Nat := fld d.bits 220 4
def Desc.cls (d : Desc) : Nat := fld d.bits 216 4
def Desc.state (d : Desc) : Nat := fld d.bits 212 4
def Desc.blk (d : Desc) : Bool := bit d.bits 211
def Desc.stride (d : Desc) : Nat := fld d.bits 224 32
def Desc.cols (d : Desc) : Nat := fld d.bits 256 32
def Desc.rows (d : Desc) : Nat := fld d.bits 288 32
def Desc.version (d : Desc) : Nat := fld d.bits 320 64

/-- Element bytes of a row, scale bytes, and the whole extent of the storage. -/
def Desc.rowBytes (d : Desc) : Nat := (d.cols * (CT.ofFormat d.format).width + 7) / 8
def Desc.scaleBytes (d : Desc) : Nat := if isMx d.format then d.rows * (d.cols / blkLen d.blk) else 0
def Desc.extent (d : Desc) : Nat :=
  if isMx d.format then d.rows * d.stride + d.scaleBytes else (d.rows - 1) * d.stride + d.rowBytes

/-- The checks of R140. BASE is looked at for tag, seal and bounds, and not for permissions.
DESIGN CHOICE: notes/assumptions/85.md. -/
def Desc.ok (d : Desc) : Bool :=
  decide (d.format ≤ 12) && decide (d.cls ≤ 1) && decide (d.state ≤ 3) && fld d.bits 128 83 == 0
    && decide (1 ≤ d.rows) && decide (1 ≤ d.cols)
    && (!(isMx d.format) || d.cols % blkLen d.blk == 0)
    && d.stride % 16 == 0 && decide (d.rowBytes ≤ d.stride)
    && d.base.tag && d.base.otype == 0
    && decide (d.base.base ≤ d.base.cursor) && decide ((d.base.cursor : Int) + d.extent ≤ d.base.top)

/-! Collective groups (R470). -/

/-- COUNT of a group object; that of one at a peer is a free value (R87). -/
def State.groupCount (s : State) (pa : Nat) : Nat :=
  if pa < 2 ^ 60 then fld (s.rn pa 8) 0 7 else 1 + Config.freePick 0 pa % 64
def State.groupEntry (s : State) (pa i : Nat) : Nat := s.rn (s.objAt pa (64 + 16 * i)) 16
def entrySt (e : Nat) : Nat := fld e 16 2
def entryModule (e : Nat) : Nat := fld e 8 6
def entryVd (e : Nat) : Nat := fld e 0 7

/-- MODNUM (R454). -/
def State.modNum (s : State) : Nat := fld (s.sysR 0x0407 0 0 0).toNat 0 6

/-- The rank of a VD of this module in a group (R471). -/
def State.rankOf (s : State) (pa vd : Nat) : Option Nat :=
  (List.range (s.groupCount pa)).find? (fun i =>
    entryModule (s.groupEntry pa i) == s.modNum && entryVd (s.groupEntry pa i) == vd)

end Sys2Proof.Machine
end

