-- ==== Sys2Proof/Machine/Engine.lean ====
section
/-! DEFINITION. Engine commands as they run (R130 to R138): their accesses to memory, scratch and crib, one piece at a
time in an order that is open, arrival objects, completion and timelines, and the faults they meet on the way. -/
namespace Sys2Proof.Machine

/-- What a part of a command's work ends in: done, held back, or stopped by a fault (R132). -/
inductive Eng (α : Type) where
  | ok (s : State) (c : Cmd) (x : α)
  | wait (s : State) (c : Cmd)
  | fail (s : State) (c : Cmd) (f : Fail)

def Eng.bind {α β : Type} (e : Eng α) (f : State → Cmd → α → Eng β) : Eng β :=
  match e with
  | .ok s c x => f s c x
  | .wait s c => .wait s c
  | .fail s c e => .fail s c e

/-- The agent of a command's accesses to memory. -/
def Cmd.ag (c : Cmd) (id : Nat) : Ag :=
  { vd := c.vd, aspace := c.aspace, ctx := c.ctx, core := some c.core, who := 2 ^ 41 + id }

/-- The agent of its scratch accesses (R164). -/
def Cmd.who (c : Cmd) (id : Nat) : Who := .cmd id (c.engine == .crib)

/-- A scratch access of a command that touches some runs of bytes, by first byte and length: the race check, and its place in
the record of the phase (R165, R167). What it writes is no release store's any longer. -/
def engScr (s : State) (id : Nat) (c : Cmd) (runs : List (Nat × Nat)) (write : Bool) : Eng Unit :=
  match c.gang.bind (fun g => (find s.gangs g).map (fun k => (g, k))) with
  | none => .ok s c ()
  | some (g, k) =>
      let as : List Acc := runs.map (fun r => ⟨c.who id, c.accs + 1, r.1, r.1 + r.2, write, false⟩)
      match as.flatMap (fun a => (k.race.against c.clk a).map (racePair a)) with
      | [] =>
          match if write then none else runs.find? (fun r => s.errAt 1 (scrKey g r.1) r.2) with
          | some r => .fail s c ⟨0x18, 1, r.1⟩
          | none => .ok (s.modGang g (fun k => { k with race := { k.race with
              log := k.race.log ++ as
              rels := if write then as.foldl (fun rs a => cutRels a.lo a.hi rs) k.race.rels else k.race.rels } }))
              { c with accs := c.accs + 1 } ()
      | xs => let r := raceReport xs
              .fail s c ⟨0x0C, r.2, r.1⟩

/-- The place of an access to memory: translated, not locked, meeting no tile that is being regrown, and served by the
arbiters; the tile of `skip` is the command's own (R323, R400). -/
def engPlace (s : State) (id : Nat) (c : Cmd) (need : Need) (va n : Nat) (skip : Option Nat) : Eng Place :=
  match locate s (c.ag id) need va n with
  | .error f => .fail s c f
  | .ok pl =>
      if pl.granules.any s.locked.contains then .wait s c
      else match (if skip.isSome && (s.meets pl).all (fun t => some t.desc == skip) then none
          else s.meetTiles c.regrow c.ctx none [pl]) with
        | some t => .wait t c
        | none => match s.unserved (c.ag id) [pl] with
            | some t => .wait t c
            | none => .ok s c pl

/-- A read of up to 16 bytes of memory or scratch. -/
def engRead (s : State) (id : Nat) (c : Cmd) (l : Loc) (n : Nat) : Eng Nat :=
  match l with
  | .mem va => (engPlace s id c { r := true } va n none).bind (fun s c pl =>
      .ok (s.touch (c.ag id) false pl) c (s.rkeys pl.keys))
  | .scr off => (engScr s id c [(off, n)] false).bind (fun s c _ => .ok s c (s.scrR (c.gang.getD 0) off n))
  | _ => .ok s c 0

/-- A write of up to 16 bytes of memory or scratch, clearing tags (R70). -/
def engWrite (s : State) (id : Nat) (c : Cmd) (l : Loc) (n v : Nat) : Eng Unit :=
  match l with
  | .mem va => (engPlace s id c { w := true } va n none).bind (fun s c pl =>
      .ok ((s.wkeys pl.keys (leBytes v n)).touch (c.ag id) true pl) c ())
  | .scr off => (engScr s id c [(off, n)] true).bind (fun s c _ => .ok (s.scrW (c.gang.getD 0) off n v) c ())
  | _ => .ok s c ()

/-- A 32-bit or 64-bit non-returning add at an address, which is naturally aligned (R121, R129). -/
def engAdd (s : State) (id : Nat) (c : Cmd) (va n v : Nat) : Eng Unit :=
  if va % n ≠ 0 then .fail s c ⟨0x04, n, va⟩
  else (engPlace s id c { r := true, w := true } va n none).bind (fun s c pl =>
    .ok ((s.wkeys pl.keys (leBytes (s.rkeys pl.keys + v) n)).touch (c.ag id) true pl) c ())

/-- A place some bytes on. -/
def Loc.plus (l : Loc) (k : Nat) : Loc :=
  match l with
  | .mem va => .mem (va + k)
  | .scr off => .scr (off + k)
  | .crib a => .crib (a + k)
  | .loft h a => .loft h (a + k)
  | .out a => .out (a + k)

/-- The address of a place, and the place of its space at an address. -/
def Loc.num : Loc → Nat
  | .mem va => va
  | .scr off => off
  | .crib a => a
  | .loft _ a => a
  | .out a => a

def Loc.withNum (l : Loc) (n : Nat) : Loc :=
  match l with
  | .mem _ => .mem n
  | .scr _ => .scr n
  | .crib _ => .crib n
  | .loft h _ => .loft h n
  | .out _ => .out n

/-- The granule of a place. -/
def Loc.granule (l : Loc) : Loc := l.withNum (16 * (l.num / 16))

/-- A run of bytes read from memory or scratch, 16 at a time. -/
def engRun (id : Nat) (l : Loc) (n : Nat) : Nat → State → Cmd → Eng (List Byte)
  | 0, s, c => .ok s c []
  | f + 1, s, c =>
      if n = 0 then .ok s c []
      else
        let m := min 16 n
        (engRead s id c l m).bind (fun s c v =>
          (engRun id (l.plus m) (n - m) f s c).bind (fun s c r => .ok s c (leBytes v m ++ r)))

/-! The image of a loft handle (R293). -/

/-- 16 bytes of a column image: column, offset in it, and the bytes that the loft holds of them. -/
def imageAt (h : Handle) (i : Nat) : Nat × Nat × Nat :=
  let o := 16 * i % hColumn h
  (16 * i / hColumn h, o, if o < hElems h then 16 else min 16 (hElems h + hScales h - o))

/-- The slice offset of an offset in a column image. -/
def sliceOff (h : Handle) (o : Nat) : Nat := if o < hElems h then hBase h + o else hSoff h + (o - hElems h)

/-- Granules of a handle's image. -/
def imageLen (h : Handle) : Nat := hN h * hColumn h / 16

/-! Granules read and written (R132). -/

/-- The runs of bytes that the rows of a command take of a granule of scratch (R167). -/
def Cmd.takes (c : Cmd) (off : Nat) : List (Nat × Nat) :=
  let of_ (rows len : Nat) (src : Nat) (step : Nat) : List (Nat × Nat) :=
    (List.range rows).filterMap (fun r =>
      let lo := max off (src + r * step)
      let hi := min (off + 16) (src + r * step + len)
      if lo < hi then some (lo, hi - lo) else none)
  match c.body with
  | .move rows len (.scr a) _ ss _ _ _ _ => of_ rows len a ss
  | .tilest _ _ rows rb _ scales soff ss _ => of_ rows rb soff ss ++ of_ 1 scales (soff + rows * ss) 0
  | _ => []

/-- A granule of a source is read, once for the command: `lo` to `hi` are the bytes of it wanted first. The bytes that pad a
loft column are a free value. -/
def engGet (s : State) (id : Nat) (c : Cmd) (g : Loc) (lo hi : Nat) : Eng Unit :=
  if c.got.any (fun e => e.1 == g) then .ok s c ()
  else match g with
  | .mem va =>
      match engPlace s id c { r := true } va 16 none with
      | .ok s c pl => .ok (s.touch (c.ag id) false pl)
          { c with got := (g, s.rkeys pl.keys, s.tagR (pl.keys.headD 0) && pl.tagcap) :: c.got } ()
      | .wait s c => .wait s c
      | .fail s c f => .fail s c { f with addr := va + lo }
  | .scr off =>
      (engScr s id c (c.takes off) false).bind (fun s c _ =>
        .ok s { c with got := (g, s.scrR (c.gang.getD 0) off 16, s.scrTag (c.gang.getD 0) off) :: c.got } ())
  | .crib a =>
      if s.errAt 2 (cribKey c.core (a + lo)) (hi - lo) then .fail s c ⟨0x18, 2, a + lo⟩
      else .ok s { c with got := (g, s.cribR c.core a 16, false) :: c.got } ()
  | .loft h a =>
      let r := s.handle c.core h
      let p := imageAt r (a / 16)
      if s.errAt 3 (loftKey c.core p.1 (sliceOff r p.2.1)) p.2.2 then .fail s c ⟨0x18, 3, a⟩
      else
        let v := s.loftR c.core p.1 (sliceOff r p.2.1) p.2.2
        let pad := s.freeVal % 2 ^ (8 * (16 - p.2.2))
        .ok s.draw { c with got := (g, v + 2 ^ (8 * p.2.2) * pad, false) :: c.got } ()
  | .out _ => .ok s c ()

/-- The granules of a run, with the bytes of each that it takes. -/
def runGranules (l : Loc) (n : Nat) : List (Loc × Nat × Nat) :=
  if n = 0 then []
  else (List.range ((l.num + n + 15) / 16 - l.num / 16)).map (fun j =>
    let g := 16 * (l.num / 16 + j)
    (l.withNum g, l.num - g, min 16 (l.num + n - g)))

/-- Some granules read in turn. -/
def engGets (id : Nat) : List (Loc × Nat × Nat) → State → Cmd → Eng Unit
  | [], s, c => .ok s c ()
  | e :: r, s, c => (engGet s id c e.1 e.2.1 e.2.2).bind (fun s c _ => engGets id r s c)

/-- A byte of a source that has been read, and a number of some bytes. -/
def Cmd.gotByte (c : Cmd) (l : Loc) : Byte :=
  match c.got.find? (fun e => e.1 == l.granule) with
  | some e => BitVec.ofNat 8 (e.2.1 >>> (8 * (l.num % 16)))
  | none => 0
def Cmd.gotN (c : Cmd) (l : Loc) (n : Nat) : Nat := leRead (fun a => c.gotByte (l.withNum a)) l.num n

/-- The runs of bytes at rising offsets from a place on. -/
def byteRuns (off : Nat) : List Nat → List (Nat × Nat)
  | [] => []
  | i :: r => match byteRuns off r with
      | (lo, n) :: t => if lo = off + i + 1 then (off + i, n + 1) :: t else (off + i, 1) :: (lo, n) :: t
      | [] => [(off + i, 1)]

/-- Bytes of a granule of a destination written as one access, with a tag or clearing tags (R70, R132). -/
def engPatch (s : State) (id : Nat) (c : Cmd) (g : Loc) (bs : List (Nat × Byte)) (tag : Bool) (skip : Option Nat) : Eng Unit :=
  match bs.head? with
  | some a =>
      match g with
      | .mem va =>
          match engPlace s id c { w := true } va 16 skip with
          | .ok s c pl =>
              let s1 := bs.foldl (fun s b => (s.wb (pl.keys.getD b.1 0) b.2).tagW (pl.keys.getD b.1 0) false) s
              let s2 := if tag && pl.tagcap then s1.tagW (pl.keys.headD 0) true else s1
              .ok (s2.touch (c.ag id) true pl) c ()
          | .wait s c => .wait s c
          | .fail s c f => .fail s c { f with addr := va + a.1 }
      | .scr off =>
          (engScr s id c (byteRuns off (bs.map (·.1))) true).bind (fun s c _ =>
            let s := bs.foldl (fun s b => s.scrWb (c.gang.getD 0) (off + b.1) [b.2]) s
            .ok (if tag then s.scrTagW (c.gang.getD 0) off true else s) c ())
      | .crib at_ => .ok (bs.foldl (fun s b => s.cribW c.core (at_ + b.1) [b.2]) s) c ()
      | .loft h at_ =>
          if s.loftBusy c.core h then .wait s c
          else
            let r := s.handle c.core h
            let p := imageAt r (at_ / 16)
            .ok (bs.foldl (fun s b =>
              if b.1 < p.2.2 then s.loftW c.core p.1 (sliceOff r p.2.1 + b.1) [b.2] else s) s) c ()
      | .out _ => .ok s c ()
  | none => .ok s c ()

/-- A run of bytes on its way: from where, to where, how many. -/
structure Seg where
  src : Loc
  dst : Loc
  len : Nat
  deriving DecidableEq, Repr

/-- The part of a run that lies in a granule of its destination. -/
def Seg.clip (e : Seg) (g : Loc) : Option Seg :=
  let lo := max g.num e.dst.num
  let hi := min (g.num + 16) (e.dst.num + e.len)
  if e.dst.withNum 0 = g.withNum 0 ∧ lo < hi then some ⟨e.src.plus (lo - e.dst.num), e.dst.withNum lo, hi - lo⟩ else none

/-- The granules that runs are written to. -/
def segDests (es : List Seg) : List Loc := (es.flatMap (fun e => (runGranules e.dst e.len).map (·.1))).eraseDups

/-! The stream unit (R241 to R243). -/

/-- Element bytes of a FORMAT code. -/
def elemBytes (f : Nat) : Nat := (CT.ofFormat f).width / 8

/-- One operation on FP32 codes. -/
def chainStep (opc t x : Nat) : Nat :=
  let d (a : Nat) : FV := FF.fp32.decode a
  let r (v : FV × Nat) : Nat := (rounded .fp32 .rne false v).1
  match opc with
  | 1 => r (addX .rne (d t) (d x))
  | 2 => r (addX .rne (d t) (d x).neg)
  | 3 => r (mulX (d t) (d x))
  | 4 => (minmaxF .fp32 false true false t x).1
  | 5 => (minmaxF .fp32 false false false t x).1
  | 6 => (minmaxF .fp32 false true false t 0).1
  | 7 => (exp2F false (d t)).1
  | 8 => (rcpF .rne false (d t)).1
  | 9 => (rsqF false (d t)).1
  | 10 => (tanhF false (d t)).1
  | 11 => (sigmF false (d t)).1
  | 12 => t % 2 ^ 31
  | 13 => if t < 2 ^ 31 then t + 2 ^ 31 else t - 2 ^ 31
  | _ => r (mulX (d t) (d (sigmF false (d t)).1))

/-- An element read and converted to FP32. -/
def toFp32 (f x : Nat) : Nat := (convert (CT.ofFormat f) (.float .fp32) .rne false false false false x).1.toNat

/-- One element of a CHAIN, from its sources' codes. -/
def chainElem (ops : List (Nat × Nat)) (ks : List Word) (a b : Nat) : Nat :=
  ops.foldl (fun t o => chainStep o.1 t (match o.2 with
    | 0 => b
    | 5 => a
    | k => (ks.getD (k - 1) 0).toNat)) a

/-- Does an operation select SRC1? -/
def usesSrc1 (ops : List (Nat × Nat)) : Bool := ops.any (fun o => o.2 == 0 && decide (o.1 ≤ 5))

/-! DRAIN (R311, R312). -/

/-- The bin of a drained value. -/
def sieveBin (base : Int) (x : FV) : Nat :=
  match x with
  | .fin _ m e => if m = 0 then 0 else (max 0 (min 31 ((ilog2 m : Int) + e - base + 16))).toNat
  | _ => 31

/-- Output bits of an element, and element formats of OFMT. -/
def drainWidth (ofmt : Nat) : Nat := (CT.ofFormat ofmt).width
def drainRowBytes (ofmt ncol : Nat) : Nat := (ncol * drainWidth ofmt + 7) / 8

/-- The elements of an output row, packed, and its scales. -/
def drainRow (ofmt : Nat) (blk sat : Bool) (xs : List Nat) : Nat × List Byte :=
  let pack (vs : List Nat) (w : Nat) : Nat := vs.foldr (fun v a => v % 2 ^ w + 2 ^ w * a) 0
  if ofmt = 0 ∨ ofmt = 8 then (pack xs 32, [])
  else if ofmt = 9 then
    let n := blkLen blk
    let fv := xs.map (FF.fp32.decode)
    let scales := (List.range (xs.length / n)).map (fun j => mxScale ((fv.drop (j * n)).take n) .e2m1)
    let codes := fv.mapIdx (fun i v =>
      let x := scales.getD (i / n) 255
      let zero := ((fv.drop (i / n * n)).take n).all (fun y => y.isZero)
      if x = 255 ∨ zero then 0 else (mxElem .e2m1 x v).1)
    (pack codes 4, scales.map (BitVec.ofNat 8))
  else
    (pack (xs.map (fun x => wrap (drainWidth ofmt)
      (convert (.float .fp32) (CT.ofFormat ofmt) .rne sat false false false x).1)) (drainWidth ofmt), [])

/-- The elements that a DRAIN reads of row `k`: their place in the crib, and their codes once they are read. -/
def drainRun (cbase stride row0 col0 k : Nat) : Loc := .crib (cbase + (row0 + k) * stride + 4 * col0)
def Cmd.drainXs (c : Cmd) (cbase stride row0 col0 ncol k : Nat) : List Nat :=
  (List.range ncol).map (fun j => c.gotN ((drainRun cbase stride row0 col0 k).plus (4 * j)) 4)

/-- The counts of a DRAIN whose rows have been read. -/
def Cmd.drainCounts (c : Cmd) : Sparse Nat :=
  match c.body with
  | .drain cbase stride row0 rows col0 ncol _ _ _ _ _ (some (base, _)) =>
      ((List.range rows).flatMap (fun k => c.drainXs cbase stride row0 col0 ncol k)).foldl (fun m x =>
        let b := sieveBin base (FF.fp32.decode x)
        store 0 m b (look 0 m b + 1)) []
  | _ => []

/-! REGROUP (R275). -/

/-- The tokens of each entry, from the buffer: (expert, choice, token) in order. -/
def regroupEntries (c : Cmd) (k e t : Nat) : List (Nat × Nat × Nat) :=
  ((List.range (t * k)).map (fun i => (leRead (fun j => c.buf.getD j 0) (2 * i) 2, i % k, i / k))).filter
    (fun x => decide (x.1 < e))

/-- The tokens of one expert. -/
def regroupOf (c : Cmd) (k e t x : Nat) : List (Nat × Nat × Nat) := (regroupEntries c k e t).filter (fun y => y.1 == x)

/-! The runs of a command, its output, and its adds. -/

/-- The runs of bytes that a command writes (R271, R273, R275, R277, R279, R243, R311); those of the loft by the handle's
record as it stands at each piece. DESIGN CHOICE: notes/assumptions/96.md. -/
def Cmd.segs (s : State) (c : Cmd) : List Seg :=
  match c.body with
  | .move rows len src dst ss ds _ _ _ => (List.range rows).map (fun r => ⟨src.plus (r * ss), dst.plus (r * ds), len⟩)
  | .tilest _ base rows rb stride scales soff ss _ =>
      (List.range rows).map (fun r => ⟨.scr (soff + r * ss), .mem (base + r * stride), rb⟩)
        ++ [⟨.scr (soff + rows * ss), .mem (base + rows * stride), scales⟩]
  | .tileld _ _ rows rb _ scales soff ss _ =>
      if c.status = 1 then []
      else (List.range rows).map (fun r => ⟨.out (r * rb), .scr (soff + r * ss), rb⟩)
        ++ [⟨.out (rows * rb), .scr (soff + rows * ss), scales⟩]
  | .regroup k e bcap t _ bucket counts _ =>
      (List.range e).map (fun x =>
          ⟨.out (4 * bcap * x), .mem (bucket + 4 * bcap * x), 4 * min bcap (regroupOf c k e t x).length⟩)
        ++ [⟨.out (4 * bcap * e), .mem counts, 4 * e⟩]
  | .loftld fills => fills.map (fun f => ⟨.mem f.2, .loft f.1 0, 16 * imageLen (s.handle c.core f.1)⟩)
  | .loftev h dst => match dst with
      | some va => [⟨.loft h 0, .mem va, 16 * imageLen (s.handle c.core h)⟩]
      | none => []
  | .coll _ _ _ _ _ _ _ dst _ => [⟨.out 0, .mem dst, c.buf.length⟩]
  | .chain _ _ count dst _ _ dt _ _ _ => [⟨.out 0, .mem dst, count * elemBytes dt⟩]
  | .drain _ _ _ rows _ ncol ofmt ms blk _ dst _ =>
      let rb := drainRowBytes ofmt ncol
      (List.range rows).map (fun k => ⟨.out (k * rb), dst.plus (k * ms), rb⟩)
        ++ [⟨.out (rows * rb), dst.plus (rows * ms), if ofmt = 9 then rows * (ncol / blkLen blk) else 0⟩]

/-- What must be read for a part of a run: its source, or what its output is computed from. -/
def Cmd.needs (c : Cmd) (e : Seg) : List (Loc × Nat × Nat) :=
  match e.src, c.body with
  | .out o, .chain ops _ _ _ src0 src1 dt t0 t1 _ =>
      let w := elemBytes dt
      let i := o / w
      let n := (o + e.len - 1) / w + 1 - i
      runGranules (.mem (src0 + i * elemBytes t0)) (n * elemBytes t0)
        ++ (if usesSrc1 ops then runGranules (.mem (src1 + i * elemBytes t1)) (n * elemBytes t1) else [])
  | .out o, .drain cbase stride row0 rows col0 ncol ofmt _ blk _ _ _ =>
      let rb := drainRowBytes ofmt ncol
      let sb := ncol / blkLen blk
      let k := if o < rows * rb then o / rb else (o - rows * rb) / sb
      let n := if o < rows * rb then 1 else (o - rows * rb + e.len - 1) / sb + 1 - k
      (List.range n).flatMap (fun i => runGranules (drainRun cbase stride row0 col0 (k + i)) (4 * ncol))
  | .out _, _ => []
  | l, _ => runGranules l e.len

/-- A byte of a command's output. -/
def Cmd.outByte (c : Cmd) (o : Nat) : Byte :=
  match c.body with
  | .chain ops ks _ _ src0 src1 dt t0 t1 sat =>
      let i := o / elemBytes dt
      let x := chainElem ops ks (toFp32 t0 (c.gotN (.mem (src0 + i * elemBytes t0)) (elemBytes t0)))
        (if usesSrc1 ops then toFp32 t1 (c.gotN (.mem (src1 + i * elemBytes t1)) (elemBytes t1)) else 0)
      BitVec.ofNat 8 ((convert (.float .fp32) (CT.ofFormat dt) .rne sat false false true x).1.toNat
        >>> (8 * (o % elemBytes dt)))
  | .drain cbase stride row0 rows col0 ncol ofmt _ blk sat _ _ =>
      let rb := drainRowBytes ofmt ncol
      let sb := ncol / blkLen blk
      let row (k : Nat) : Nat × List Byte := drainRow ofmt blk sat (c.drainXs cbase stride row0 col0 ncol k)
      if o < rows * rb then BitVec.ofNat 8 ((row (o / rb)).1 >>> (8 * (o % rb)))
      else (row ((o - rows * rb) / sb)).2.getD ((o - rows * rb) % sb) 0
  | .regroup k e bcap t _ _ _ _ =>
      let w := o / 4
      let v := if w < bcap * e then
          match (regroupOf c k e t (w / bcap))[w % bcap]? with
          | some (_, kk, tt) => kk * 2 ^ 29 + tt
          | none => 0
        else (regroupOf c k e t (w - bcap * e)).length
      BitVec.ofNat 8 (v >>> (8 * (o % 4)))
  | _ => c.buf.getD o 0

/-- A byte of a run's source. -/
def Cmd.srcByte (c : Cmd) (l : Loc) : Byte :=
  match l with
  | .out o => c.outByte o
  | l => c.gotByte l

/-- The tag that a whole granule takes along (R70). -/
def Cmd.pieceTag (c : Cmd) (s : State) (e : Seg) : Bool :=
  match c.body with
  | .move _ _ _ _ _ _ srcTag dstTag dstLocal =>
      match c.got.find? (fun x => x.1 == e.src) with
      | some x =>
          let q := s.swept c.vd ⟨BitVec.ofNat 128 x.2.1, x.2.2⟩
          e.len == 16 && q.tag && srcTag && dstTag && (q.has pGLOBAL || dstLocal)
      | none => false
  | _ => false

/-- The tile whose storage a TILEST may write though it is dropped: its own, under AON (R141, R323). -/
def Cmd.ownTile (c : Cmd) (s : State) : Option Nat :=
  match c.body with
  | .tilest d _ _ _ _ _ _ _ aon => if aon && tileState s d == 1 then some d else none
  | _ => none

/-- The non-returning adds of a command: address, bytes, operand. DRAIN's follow its reads (R275, R312). -/
def Cmd.adds (s : State) (c : Cmd) : List (Nat × Nat × Nat) :=
  match c.body with
  | .regroup k e _ t _ _ _ (some b) =>
      ((List.range e).map (fun x => (b + 8 * x, 8, (regroupOf c k e t x).length))).filter (fun a => a.2.2 != 0)
  | .drain _ _ _ _ _ _ _ _ _ _ _ (some (_, some b)) =>
      if c.did.length < (segDests (c.segs s)).length then []
      else c.counts.map (fun n => (b + 4 * n.1, 4, n.2))
  | _ => []

/-! Collectives (R279, R470 to R472). -/

/-- Members of a collective that have a command here: rank, command. DEDUCED: notes/assumptions/73.md. -/
def collMembers (s : State) (group collid : Nat) : List (Nat × Nat × Cmd) :=
  s.cmds.filterMap (fun e => match e.2.body with
    | .coll g i _ _ _ _ _ _ _ =>
        if g = group ∧ i = collid ∧ e.2.pos = 0 ∧ !e.2.finished ∧ e.2.ctx.isSome then
          (s.rankOf g e.2.vd).map (fun r => (r, e.1, e.2))
        else none
    | _ => none)

/-- The parameters that members must agree on. -/
def collShape (c : Cmd) : Nat × Nat × Nat × Nat :=
  match c.body with
  | .coll _ _ op fmt count root _ _ _ => (op, fmt, count, root)
  | _ => (0, 0, 0, 0)

def collSrc (c : Cmd) : Nat :=
  match c.body with
  | .coll _ _ _ _ _ _ src _ _ => src
  | _ => 0

/-- SRC of every rank: a local member's bytes, a remote one's free values. -/
def collGather (bytes : Nat) (ms : List (Nat × Nat × Cmd)) : List Nat → State → Cmd → Eng (List (Nat × List Byte))
  | [], s, c => .ok s c []
  | r :: rs, s, c =>
      match ms.find? (fun m => m.1 == r) with
      | some m =>
          match engRun m.2.1 (.mem (collSrc m.2.2)) bytes (bytes / 16 + 2) s m.2.2 with
          | .ok s _ bs => (collGather bytes ms rs s c).bind (fun s c t => .ok s c ((r, bs) :: t))
          | .wait s _ => .wait s c
          | .fail s d f => if d.unit = c.unit ∧ d.seq = c.seq ∧ d.tl = c.tl then .fail s c f else .wait s c
      | none =>
          let bs := (List.range bytes).map (fun i => BitVec.ofNat 8 (Config.freeNat (s.free + i)))
          (collGather bytes ms rs { s with free := s.free + bytes } c).bind (fun s c t => .ok s c ((r, bs) :: t))

/-- One element over the ranks (R132, R279). -/
def collElem (op fmt : Nat) (xs : List Nat) : Nat :=
  let ct := CT.ofFormat fmt
  let f (a b : Nat) : Nat × Nat :=
    match ct with
    | .float t =>
        if op = 0 then ((rounded t .rne false (addX .rne (t.decode a) (t.decode b))).1, 0)
        else minmaxF t false (op == 1) false a b
    | .int _ => (if op = 0 then (a + b) % 2 ^ 32 else if op = 1 then maxSN a b else minSN a b, 0)
  (treeRoot f 6 (xs.map some)).1

/-- The bytes that every member receives. -/
def collResult (op fmt count root : Nat) (src : List (Nat × List Byte)) : List Byte :=
  let w := elemBytes fmt
  let of_ (r : Nat) : List Byte := look [] src r
  if op = 3 then of_ root
  else if op = 4 then src.flatMap (·.2)
  else (List.range count).flatMap (fun i =>
    leBytes (collElem op fmt (src.map (fun e => leRead (fun j => e.2.getD j 0) (i * w) w))) w)

/-- The members' commands go on to their writes with a status and bytes. -/
def collSettle (s : State) (ms : List (Nat × Nat × Cmd)) (status : Nat) (buf : List Byte) : State :=
  { s with cmds := ms.foldl (fun m e => put m e.2.1 { e.2.2 with pos := 1, status := status, buf := buf }) s.cmds }

/-- A module of a collective that does not respond, or none (R59, R132, R457): the fault of the command that meets it. -/
def collLost (s : State) (c : Cmd) (group : Nat) : Option Fail :=
  let at_ : Nat := match c.body with
    | .coll _ _ _ _ _ _ _ _ stat => stat
    | _ => 0
  if 2 ^ 60 ≤ group then (if s.lost.contains (group / 2 ^ 60 - 1) then some ⟨0x19, 0, group % 2 ^ 60⟩ else none)
  else if (List.range (s.groupCount group)).any (fun i =>
      let m := entryModule (s.groupEntry group i)
      m != s.modNum && s.lost.contains m) then some ⟨0x19, 0, at_⟩
  else none

/-- Ranks for members here of a group object at a peer, no two alike; which ones is a free value (R87). -/
def farRanks (group : Nat) : List Nat → List (Nat × Cmd) → List (Nat × Nat × Cmd)
  | r :: rs, m :: ms =>
      let l := r :: rs
      let x := l.getD (Config.freePick group m.2.vd % l.length) r
      (x, m.1, m.2) :: farRanks group (l.erase x) ms
  | _, _ => []

/-- The first stage of a COLL on a group object at a peer: when it is done, with which code, the ranks of the members here, and
what the other ranks send are free values, the same for the members here (R87, R279). -/
def collFar (s : State) (id : Nat) (c : Cmd) (group collid op fmt count root : Nat) : Eng Unit :=
  if s.freeVal % 2 = 0 then .wait s.draw c
  else
    let bytes := count * elemBytes fmt
    match s.draw.pay (c.ag id) (4, 0, ceilDiv bytes 256) with
    | .error t => .wait t c
    | .ok s =>
        let here := s.cmds.filter (fun e => match e.2.body with
          | .coll g i _ _ _ _ _ _ _ => g == group && i == collid && e.2.pos == 0 && !e.2.finished && e.2.ctx.isSome
          | _ => false)
        let n := s.groupCount group
        let ms := farRanks group (List.range n) here
        let st := if here.all (fun m => collShape m.2 == (op, fmt, count, root)) then s.freeVal % 3 else 2
        let all := here.map (fun m => (0, m.1, m.2))
        if st = 0 then
          (collGather bytes ms (List.range n) s.draw c).bind (fun s c src =>
            let buf := collResult op fmt count root src
            .ok (collSettle s all 0 buf) { c with pos := 1, status := 0, buf := buf } ())
        else .ok (collSettle s.draw all st []) { c with pos := 1, status := st } ()

/-- The first stage of a COLL: the members meet. -/
def collBegin (s : State) (id : Nat) (c : Cmd) (group collid op fmt count root : Nat) : Eng Unit :=
  match collLost s c group with
  | some f => .fail s c f
  | none =>
  if 2 ^ 60 ≤ group then collFar s id c group collid op fmt count root
  else
  let n := s.groupCount group
  let me (st : Nat) : Eng Unit := .ok s { c with pos := 1, status := st } ()
  match s.rankOf group c.vd with
  | none => me 2
  | some _ =>
      if (List.range n).any (fun i => entrySt (s.groupEntry group i) != 1) then me 1
      else
        let ms := collMembers s group collid
        let absent := (List.range n).filter (fun r => !(ms.any (fun m => m.1 == r)))
        let away := absent.all (fun r => entryModule (s.groupEntry group r) != s.modNum)
        if !away || (!absent.isEmpty && s.freeVal % 2 == 0) then .wait (if away then s.draw else s) c
        else
          let agree := ms.all (fun m => collShape m.2.2 == (op, fmt, count, root))
            && (absent.isEmpty || Config.freeNat (s.free + 1) % 2 == 0)
          let s := if absent.isEmpty then s else s.draw.draw
          match (if absent.isEmpty then .ok s else s.pay (c.ag id) (4, 0, ceilDiv (count * elemBytes fmt) 256)) with
          | .error t => .wait t c
          | .ok s =>
          if !agree then .ok (collSettle s ms 2 []) { c with pos := 1, status := 2 } ()
          else
            (collGather (count * elemBytes fmt) ms (List.range n) s c).bind (fun s c src =>
              let buf := collResult op fmt count root src
              .ok (collSettle s ms 0 buf) { c with pos := 1, status := 0, buf := buf } ())

/-- Every COLL of a group that has not completed is aborted (R472). -/
def State.abortColls (s : State) (group : Nat) : State :=
  { s with cmds := s.cmds.map (fun e => match e.2.body with
      | .coll g _ _ _ _ _ _ _ _ =>
          if g = group ∧ !e.2.finished then (e.1, { e.2 with pos := 1, status := 1, buf := [], did := [] }) else e
      | _ => e) }

/-! The whole command. -/

/-- Has a command a first stage of its own? -/
def CmdBody.staged : CmdBody → Bool
  | .tilest _ _ _ _ _ _ _ _ aon => aon
  | .tileld .. | .regroup .. | .coll .. => true
  | _ => false

/-- The number of pieces of a command: granules to write, and adds. -/
def State.total (s : State) (c : Cmd) : Nat := (segDests (c.segs s)).length + (c.adds s).length

/-- Does a TILELD hold a tile (R141)? One whose context was killed never completes (R443) and holds it on.
DEDUCED: notes/assumptions/97.md. -/
def State.tileldHolds (s : State) (desc : Nat) : Bool :=
  s.cmds.any (fun e => match e.2.body with
    | .tileld d _ _ _ _ _ _ _ _ => d == desc && !e.2.finished && decide (4 ≤ e.2.held.getD 0)
    | _ => false)

/-- The bytes of a tile in order: elements row by row, then scales. -/
def tileBytes (id : Nat) (base rb stride scales at_ : Nat) : Nat → State → Cmd → Eng (List Byte)
  | 0, s, c => engRun id (.mem at_) scales (scales / 16 + 2) s c
  | n + 1, s, c =>
      (engRun id (.mem base) rb (rb / 16 + 2) s c).bind (fun s c a =>
        (tileBytes id (base + stride) rb stride scales at_ n s c).bind (fun s c b => .ok s c (a ++ b)))

/-- Is a granule of a descriptor that holds its STATE or VERSION locked by a serialised transaction (R145)? -/
def State.descLocked (s : State) (desc : Nat) : Bool :=
  s.locked.contains ((desc + 26) / 16) || s.locked.contains ((desc + 40) / 16)

/-- The first stage of a command (R141, R142, R275, R279). -/
def cmdBegin (s : State) (id : Nat) (c : Cmd) : Eng Unit :=
  match c.body with
  | .tilest d _ _ _ _ _ _ _ _ =>
      let v := tileVersion s d
      if v % 2 = 1 ∨ s.tileldHolds d ∨ s.descLocked d then .wait s c
      else .ok (s.setTileVersion d (v + 1)) { c with pos := 1, held := some (v + 1) } ()
  | .tileld d base rows rb stride scales _ _ _ =>
      let st := tileState s d
      if s.descLocked d then .wait s c
      else if st = 3 then .ok s { c with pos := 1, status := 1 } ()
      else if tileVersion s d % 2 = 1 then .wait s { c with held := some (min 4 (c.held.getD 0 + 1)) }
      else
        (tileBytes id base rb stride scales (base + rows * stride) rows s c).bind (fun s c bs =>
          .ok s { c with pos := 1, buf := bs } ())
  | .regroup k _ _ t tok _ _ _ =>
      (engRun id (.mem tok) (2 * t * k) (2 * t * k / 16 + 2) s c).bind (fun s c bs => .ok s { c with pos := 1, buf := bs } ())
  | .coll g i op fmt count root _ _ _ => collBegin s id c g i op fmt count root
  | _ => .ok s { c with pos := 1 } ()

/-- One piece of a command: an add, or a granule of its destination with what it must read for it; the bytes counted. Where
rows overlap, the one whose bytes stay is open (R271). DESIGN CHOICE: notes/assumptions/30.md. -/
def cmdPiece (s : State) (id : Nat) (c : Cmd) (k : Nat) : Eng Nat :=
  let es := c.segs s
  match (segDests es)[k]? with
  | none =>
      match (c.adds s)[k - (segDests es).length]? with
      | none => .ok s c 0
      | some a => (engAdd s id c a.1 a.2.1 a.2.2).bind (fun s c _ => .ok s c 0)
  | some g =>
      let ps := es.filterMap (fun e => e.clip g)
      let ps := ps.rotateLeft (Config.freePick s.free g.num % ps.length)
      (engGets id (ps.flatMap c.needs) s c).bind (fun s c _ =>
        let bs : List (Nat × Byte) := (List.range 16).filterMap (fun i =>
          (ps.find? (fun e => decide (e.dst.num ≤ g.num + i) && decide (g.num + i < e.dst.num + e.len))).map (fun e =>
            (i, c.srcByte (e.src.plus (g.num + i - e.dst.num)))))
        let tag := match ps with
          | e :: _ => c.pieceTag s e
          | [] => false
        (engPatch s id c g bs tag (c.ownTile s)).bind (fun s c _ => .ok s c (ps.foldl (fun n e => n + e.len) 0)))

/-- The arrival object after `b` bytes (R137). Its reserved bit 31 is kept as it is, and the count goes on: R7 leaves to
the record's own chapter what becomes of a record with a reserved bit set, and R136 and R137 state nothing. What is left
over after a flip is taken modulo 2^31, the width of its field. DESIGN CHOICE: notes/assumptions/81.md. -/
def arrival (w b : Nat) : Nat × Bool :=
  let ex := fld w 32 31
  let ar := fld w 0 31
  let rest := fld w 31 1 * 2 ^ 31 + ex * 2 ^ 32
  if ex ≠ 0 ∧ ex ≤ ar + b then ((ar + b - ex) % 2 ^ 31 + rest + (1 - fld w 63 1) * 2 ^ 63, true)
  else (min (ar + b) 0x7FFF_FFFF + rest + fld w 63 1 * 2 ^ 63, false)

/-- `b` bytes of a command are counted into its arrival object; the clock of what was written goes with them: what precedes
the command, and its accesses of scratch where it writes there (R138, R165). -/
def State.arrive (s : State) (id : Nat) (c : Cmd) (b : Nat) : State :=
  match c.arrive, c.gang.bind (fun g => (find s.gangs g).map (fun _ => g)) with
  | some off, some g =>
      if b = 0 then s
      else
        let r := arrival (s.scrR g off 8) b
        let mine : Clock := match c.body with
          | .move _ _ _ (.crib _) _ _ _ _ _ => c.clk
          | _ => Clock.set c.clk (c.who id) c.accs
        (s.scrW g off 8 r.1).modGang g (fun k => { k with race := { k.race with
          rels := cutRels off (off + 8) k.race.rels
          arrs := k.race.arrs.map (fun e =>
            if e.1 = off then
              let n := Clock.join e.2.1 mine
              (off, n, if r.2 then n else e.2.2)
            else e) } })
  | _, _ => s

/-- The next thing a command does: its first stage, or one of the pieces left. -/
def cmdMove (s : State) (id : Nat) (c : Cmd) (pick : Nat) : Eng Unit :=
  if c.body.staged && c.pos == 0 then cmdBegin s id c
  else
    match ((List.range (s.total c)).filter (fun k => !(c.did.contains k)))[pick]? with
    | none => .ok s c ()
    | some k => (cmdPiece s id c k).bind (fun s c b =>
        let d := { c with did := k :: c.did }
        .ok (s.arrive id c b)
          (if d.did.length = (segDests (d.segs s)).length then { d with counts := d.drainCounts } else d) ())

/-- Pieces left. -/
def State.pending (s : State) (c : Cmd) : Nat :=
  (if c.body.staged && c.pos == 0 then 1 else 0) + (s.total c - c.did.length)

/-- All that is left, the lowest piece first. -/
def cmdRest (id : Nat) : Nat → State → Cmd → Eng Unit
  | 0, s, c => .ok s c ()
  | n + 1, s, c =>
      if s.pending c = 0 then .ok s c ()
      else (cmdMove s id c 0).bind (fun s c _ => cmdRest id n s c)

/-- The counts of a DRAIN go into the group's bins in one step (R312); once its gang's phase has ended there are no such bins,
and they go nowhere. DESIGN CHOICE: notes/assumptions/98.md. -/
def State.sieveAdd (s : State) (c : Cmd) : State :=
  match find s.units c.unit with
  | none => s
  | some g =>
      if g.gang = c.gang then s.putU c.unit { g with bins := c.counts.foldl (fun m e =>
        store 0 m e.1 (look 0 m e.1 + BitVec.ofNat 32 e.2)) g.bins }
      else s

/-- The state of a handle that a completion changes: it is still the command's context's, it stands where the completion
finds it, and no other fill of it is under way (R295). -/
def State.handleMoves (s : State) (id : Nat) (c : Cmd) (h src dst : Nat) : State :=
  let r := s.handle c.core h
  let other := s.cmds.any (fun e => e.1 != id && e.2.core == c.core && !e.2.finished && (match e.2.body with
    | .loftld fills => fills.any (fun f => f.1 == h)
    | _ => false))
  if hState r = src ∧ r.holder = c.ctx ∧ !other then s.setHandle c.core h (r.setState dst) else s

/-- What a command does last, before it is complete. -/
def cmdEnd (s : State) (id : Nat) (c : Cmd) : Eng Unit :=
  match c.body with
  | .tilest d _ _ _ _ _ _ _ aon =>
      if !aon then .ok s c ()
      else if s.descLocked d then .wait s c
      else .ok ((s.setTileVersion d (c.held.getD 1 + 1)).setTileState d 0) c ()
  | .tileld _ _ _ _ _ _ _ _ so =>
      (engWrite s id c (.scr so) 4 c.status).bind (fun s c _ => .ok (s.arrive id c 4) c ())
  | .loftld fills => .ok (fills.foldl (fun s f => s.handleMoves id c f.1 1 2) s) c ()
  | .loftev h _ => if s.loftBusy c.core h then .wait s c else .ok (s.handleMoves id c h 2 0) c ()
  | .coll g _ _ _ _ _ _ _ stat =>
      engWrite s id c (.mem stat) 8 (c.status + s.groupCount g * 2 ^ 16)
  | .drain _ _ _ _ _ _ _ _ _ _ _ (some _) => .ok (s.sieveAdd c) c ()
  | _ => .ok s c ()

/-! Events. -/

/-- Commands of a timeline that are not complete. -/
def State.openOn (s : State) (tl : Nat) : List (Nat × Cmd) := s.cmds.filter (fun e => e.2.tl == tl && !e.2.finished)

/-- COMPLETED advances to the number of each command that is complete with every one of a smaller number, once (R134). -/
def State.advance (s : State) (tl : Nat) : State :=
  let low := (s.openOn tl).map (fun e => e.2.seq)
  let ok (c : Cmd) : Bool := c.tl == tl && c.finished && !c.told && low.all (fun n => decide (c.seq < n))
  let t := (s.cmds.filter (fun e => ok e.2)).foldl (fun (t : State) e => t.tlRaise tl e.2.seq) s
  { t with cmds := t.cmds.map (fun e => if ok e.2 then (e.1, { e.2 with told := true }) else e) }

/-- Completed commands are kept while their gang may wait on them, or while an earlier one is not complete. -/
def State.pruneCmds (s : State) : State :=
  { s with cmds := s.cmds.filter (fun e => !e.2.finished
      || (match e.2.gang with
        | none => false
        | some g => (find s.gangs g).isSome || s.saved.any (fun x => x.1 == g))
      || (s.openOn e.2.tl).any (fun f => decide (f.2.seq < e.2.seq))) }

/-- A fault of a command: a context fault of its context (R59, R132). -/
def Cmd.info (c : Cmd) (id : Nat) (f : Fail) : FaultInfo :=
  { code := f.code, detail := f.detail, addr := BitVec.ofNat 64 f.addr, pc := c.pc, core := unitCore c.unit,
    slot := unitSlot c.unit, slotB := c.slotB, lane := c.lane, unit := some (2 ^ 20 + id) }

/-- May a command go on? -/
def Cmd.live (c : Cmd) : Bool := !c.finished && !c.stopped && !c.lost && c.ctx.isSome

/-- A collective pauses for every member while one member's COLL is stopped (R436). -/
def State.collPaused (s : State) (c : Cmd) : Bool :=
  match c.body with
  | .coll g i _ _ _ _ _ _ _ => s.cmds.any (fun e => match e.2.body with
      | .coll h j _ _ _ _ _ _ _ => g == h && i == j && e.2.stopped && !e.2.finished && e.2.ctx.isSome
      | _ => false)
  | _ => false

/-- The end of a part of a command's work. -/
def State.cmdDone (id : Nat) : Eng Unit → State
  | .ok s c _ => { s with cmds := put s.cmds id c }
  | .wait s c => { s with cmds := put s.cmds id c }
  | .fail s c f =>
      if f.code = noAnswer then { s.dropped f.detail with cmds := put s.cmds id { c with lost := true } }
      else (({ s with cmds := put s.cmds id { c with stopped := true } }).cacheFault (c.ag id) (c.info id f)).ctxFault
        (c.ctx.getD 0) (s.inRegrow c.regrow (c.info id f))

/-! A command stops (R436): it reads nothing more, and what it has read it writes. -/

/-- Has everything been read that a part of a run is written from? -/
def Cmd.hasRead (c : Cmd) (e : Seg) : Bool := (c.needs e).all (fun n => c.got.any (fun x => x.1 == n.1))

/-- A granule of the destination with the bytes whose sources have been read. -/
def cmdKnown (s : State) (id : Nat) (c : Cmd) (g : Loc) : Eng Unit :=
  let ps := (c.segs s).filterMap (fun e => e.clip g)
  let ps := ps.rotateLeft (Config.freePick s.free g.num % ps.length)
  engPatch s id c g ((List.range 16).filterMap (fun i =>
    (ps.find? (fun e => decide (e.dst.num ≤ g.num + i) && decide (g.num + i < e.dst.num + e.len))).bind (fun e =>
      let x : Seg := ⟨e.src.plus (g.num + i - e.dst.num), g.withNum (g.num + i), 1⟩
      if c.hasRead x then some (i, c.srcByte x.src) else none))) false (c.ownTile s)

/-- One granule of the destination as its command stops. -/
def cmdFlushOne (s : State) (id : Nat) (c : Cmd) (k : Nat) : State × Cmd :=
  match (segDests (c.segs s))[k]? with
  | none => (s, c)
  | some g =>
      if c.did.contains k then (s, c)
      else if ((c.segs s).filterMap (fun e => e.clip g)).all c.hasRead then
        match cmdPiece s id c k with
        | .ok s c b =>
            let d := { c with did := k :: c.did }
            (s.arrive id c b, if d.did.length = (segDests (d.segs s)).length then { d with counts := d.drainCounts } else d)
        | _ => (s, c)
      else match cmdKnown s id c g with
        | .ok s c _ => (s, c)
        | _ => (s, c)

/-- A piece of a command with granules of its sources that have come late (R445): it is written, and counted. -/
def State.landPiece (s : State) (id k : Nat) (got : List (Loc × Nat × Bool)) : State :=
  match find s.cmds id with
  | none => s
  | some c =>
      if c.finished then s
      else
        let r := cmdFlushOne s id { c with got := got ++ c.got } k
        { r.1 with cmds := put r.1.cmds id r.2 }

/-- Is a piece of a command one that a stop may find in flight: it writes scratch, and is not yet done? Which of them are is
free (R436, R445). DESIGN CHOICE: notes/assumptions/42.md. -/
def Cmd.inFlight (c : Cmd) (s : State) (k : Nat) : Bool :=
  !(c.did.contains k) && (match (segDests (c.segs s))[k]? with
    | some (.scr _) => Config.freePick s.free k % 2 == 1
    | _ => false)

/-- The reads for a piece of a command are in flight at its stop, if the core has room for them. -/
def State.sendPiece (s : State) (id : Nat) (c : Cmd) (k : Nat) : State :=
  match (segDests (c.segs s))[k]?, c.gang with
  | some g, some gid =>
      match engGets id (((c.segs s).filterMap (fun e => e.clip g)).flatMap c.needs) s { c with got := [] } with
      | .ok t d _ =>
          if s.flightRoom c.core (16 * d.got.length) then
            { t with flight := t.flight ++ [(c.core, gid, Late.piece id k d.got)] }
          else s
      | _ => s
  | _, _ => s

/-- A command stops: the granules it has read are written, and some of its reads are in flight; a collective only pauses
(R436). -/
def State.stopCmd (s : State) (id : Nat) : State :=
  match find s.cmds id with
  | none => s
  | some c =>
      if !c.live || c.engine == .coll || (c.body.staged && c.pos == 0) then
        { s with cmds := put s.cmds id { c with stopped := true } }
      else
        let ks := List.range (segDests (c.segs s)).length
        let r := ks.foldl (fun (r : State × Cmd) k => cmdFlushOne r.1 id r.2 k) (s, c)
        let t := (ks.filter (r.2.inFlight r.1)).foldl (fun (t : State) k => t.sendPiece id r.2 k) r.1
        { t with free := t.free + 1, cmds := put t.cmds id { r.2 with stopped := true } }

/-- ARRIVAL_UPDATE: a piece of a command, chosen among those left, is written and counted (R132, R137). -/
def State.arrivalUpdate (s : State) (id : Nat) : State :=
  match find s.cmds id with
  | none => s
  | some c =>
      if !c.live || s.collPaused c then s
      else
        let n := s.total c - c.did.length
        State.cmdDone id (cmdMove s.draw id c (s.freeVal % n))

/-- ENGINE_COMMAND_COMPLETE: what is left is done, and the command is complete (R132, R134), unless a serialised transaction
holds its timeline (R145). -/
def State.cmdComplete (s : State) (id : Nat) : State :=
  match find s.cmds id with
  | none => s
  | some c =>
      if !c.live || s.collPaused c || s.locked.contains (c.tl / 16) then s
      else
        let first := if c.body.staged && c.pos == 0 then cmdBegin s id c else .ok s c ()
        match first.bind (fun s c _ => (cmdRest id (s.total c + 33) s c).bind (fun s c _ => cmdEnd s id c)) with
        | .ok s c _ =>
            let s := { s with cmds := put s.cmds id { c with finished := true, buf := [], got := [] } }
            let s := (s.advance c.tl).modCtx (c.ctx.getD 0) (fun k => { k with deadlock := 0 })
            let s := match c.gang with
              | none => s
              | some g => if (find s.gangs g).isNone && !(s.saved.any (fun x => x.1 == g)) then
                  (s.freeScratch g).left c.core
                else s
            s.pruneCmds
        | e => State.cmdDone id e

/-- ENGINE_FAULT: the command's next access meets an uncorrectable error of one of the units it passes, or whatever it
meets by itself (R59, R132). DESIGN CHOICE: notes/assumptions/19.md. -/
def State.engineFault (s : State) (id : Nat) : State :=
  match find s.cmds id, [1, 2, 3, 5, 6, 8][s.freeVal % 12]? with
  | some c, some unit =>
      if c.live then
        State.cmdDone id (.fail s.draw c ⟨0x18, unit, Config.freeNat (s.free + 1) % 2 ^ 57⟩)
      else s
  | _, _ => s.draw.arrivalUpdate id

/-- ARRIVAL_UPDATE (R137). -/
def execArrivalUpdate (cmd : Nat) (s : State) : Out := .next (s.arrivalUpdate cmd)

/-- ENGINE_COMMAND_COMPLETE (R134). -/
def execEngineCommandComplete (cmd : Nat) (s : State) : Out := .next (s.cmdComplete cmd)

/-- ENGINE_FAULT (R132). -/
def execEngineFault (cmd : Nat) (s : State) : Out := .next (s.engineFault cmd)

end Sys2Proof.Machine
end

