-- ==== Sys2Proof/Machine/Command.lean ====
section
/-! DEFINITION. The issue of engine commands (R131, R134, R269): COPY to COLL of major 0x1F (R270 to R279), CHAIN
(R239 to R245), CLD and CST (R288), DRAIN (R310, R311). -/
namespace Sys2Proof.Machine

/-- A command accepted: its engine and body, its arrival object, and what its issue changes besides. -/
structure Plan where
  engine : Engine
  body : CmdBody
  arrive : Option Nat := none
  post : State → State := fun s => s
  /-- The leaves that gave a place which the command keeps, its timeline's aside (R423). -/
  pages : List (Nat × Nat × Nat) := []

/-- What the checks of an issue end in. -/
abbrev Checked (α : Type) := Except Res α

/-- DETAIL 0x42: a parameter block that breaks its table (R60, R269). -/
def Iss.blockBad (x : Iss) (off : Nat) : Res := .fault (x.failPlain ⟨0x04, 0x42, off⟩ x.low)

/-- A block's capability over an extent; `len` 0 leaves the bounds unchecked (R269 step 4). -/
def Iss.blockCap (x : Iss) (c : Cap) (off : Int) (len perm : Nat) (k : Nat → Checked Plan) : Checked Plan :=
  match if len = 0 then capCheckNoBounds c perm else capCheck c off len perm with
  | .error f => .error (.fault (x.fail f x.low c 15))
  | .ok va => k va

/-- A scratch extent inside the gang's scratch (R122). -/
def Iss.blockScr (x : Iss) (s : State) (off len : Nat) (k : Checked Plan) : Checked Plan :=
  let bad : Checked Plan := .error (.fault (x.failPlain ⟨0x0D, 0, off⟩ x.low))
  match x.g.gang.bind (fun n => find s.gangs n) with
  | none => bad
  | some g => if len = 0 ∨ off + len ≤ g.scratch then k else bad

/-- An arrival object: 8-byte aligned, inside the gang's scratch (R122, R136). -/
def Iss.blockArrive (x : Iss) (s : State) (off : Nat) (k : Checked Plan) : Checked Plan :=
  match x.scrRange s off 8 x.low with
  | some f => .error (.fault f)
  | none => k

/-- Bytes from the start of row 0 to the end of the last row. -/
def extent (rows len stride : Nat) : Nat := if rows = 0 ∨ len = 0 then 0 else (rows - 1) * stride + len

/-- The block is read as scratch accesses of the group (R131, R164): the fault, or its bytes. -/
def Iss.readBlock (x : Iss) (s : State) (off size : Nat) : Except FaultInfo State :=
  match x.g.gang.bind (fun n => find s.gangs n) with
  | none => .error (x.failPlain ⟨0x0D, 0, off⟩ x.low)
  | some k =>
      if off % 16 ≠ 0 ∨ k.scratch < off + size then .error (x.failPlain ⟨0x0D, 0, off⟩ x.low)
      else
        match k.race.against (look [] k.race.clk x.g.gidx) (x.acc off size false 0) with
        | [] =>
            if s.errAt 1 (scrKey x.gangNo off) size then .error (x.failPlain ⟨0x18, 1, off⟩ x.low)
            else .ok (s.modGang x.gangNo (fun k => { k with race := k.race.note x.g.gidx false [x.acc off size false 0] }))
        | xs => let r := raceReport (xs.map (racePair (x.acc off size false 0)))
                .error (x.failPlain ⟨0x0C, r.2, r.1⟩ x.low)

/-- The command joins its engine with its number on the timeline (R134). -/
def Iss.enter (x : Iss) (s : State) (pl : Place) (n : Nat) (p : Plan) : State :=
  let k := pl.keys.headD 0
  let id := s.ticket
  let gang := x.gangNo
  let clk : Clock := match find s.gangs gang with
    | none => []
    | some g => look [] g.race.clk x.g.gidx
  let c : Cmd :=
    { engine := p.engine, unit := x.u, slotB := x.b, lane := x.low, pc := x.p.pc, gang := x.g.gang, core := unitCore x.u,
      ctx := x.g.ctx, vd := x.g.vd, aspace := x.g.aspace, launch := x.g.launch, tl := k, pages := pl.pages ++ p.pages, seq := n, arrive := p.arrive,
      body := p.body, regrow := x.g.regrow, clk := clk }
  let s := (s.touch x.ag true pl).wn (k + 8) 8 n
  let s := { s.tick with cmds := put s.cmds id c }
  match p.arrive with
  | none => s
  | some off => s.modGang gang (fun g => { g with race := { g.race with
      arrs := if g.race.arrs.any (fun e => e.1 == off) then g.race.arrs else g.race.arrs ++ [(off, [], [])] } })

/-- R269: the block, the timeline's capability, the fields and capabilities, and then the sequence number. -/
def Iss.command (x : Iss) (s : State) (d a : Reg) (q : BitVec 4) (size : Nat) (pair : Bool)
    (plan : State → Nat → Nat → (Nat → Cap) → Checked Plan) : Res :=
  let off := (x.g.rd a 0).toNat
  match x.readBlock s off size with
  | .error f => .fault f
  | .ok s1 =>
      match capCheck (x.qs q) 0 16 pTL with
      | .error f => .fault (x.fail f x.low (x.qs q) q.toNat)
      | .ok _ =>
          match plan s off (s.scrR x.gangNo off size) (fun i => s.scrCap x.gangNo (off + 16 * i)) with
          | .error r => r
          | .ok p =>
              match x.timeline s q { r := true, w := true } with
              | .error f => .fault f
              | .ok at_ =>
                  match x.gate s false [at_] with
                  | some t => .wait t.1 t.2
                  | none =>
                      let k := at_.pl.keys.headD 0
                      let last := s.tlIssued k
                      let held := s.cmds.filter (fun e => e.2.tl == k && e.2.engine == p.engine
                        && (if p.engine = .coll then e.2.core / 64 == unitCore x.u / 64 else e.2.core == unitCore x.u)
                        && !e.2.finished && e.2.ctx.isSome && (e.2.gang.bind (fun n => find s.saved n)).isNone)
                      if last = 2 ^ 64 - 1 then
                        .fault (x.failPlain ⟨0x04, 0x45, (x.qs q).cursor⟩ x.low)
                      else if 256 ≤ held.length then .wait s .internal
                      else
                        let n := last + 1
                        let g := x.scrG (x.excluded false [at_])
                        .retire (p.post (x.enter s1 at_.pl n p))
                          (if pair then g.wr2 d x.lanes (fun _ => BitVec.ofNat 64 n)
                            else g.wr d x.lanes (fun _ => BitVec.ofNat 32 n))

/-! The COPY family (R270, R271). -/

/-- Rows, length and strides of the block. -/
def copyRows (b : Nat) : Nat := fld b 352 32
def copyLen (b : Nat) : Nat := fld b 256 32
def copySs (b : Nat) : Nat := fld b 288 32
def copyDs (b : Nat) : Nat := fld b 320 32

/-- COPY. Its scratch extent is looked at before its source's capability: each form takes its fields in the order of its
table. DESIGN CHOICE: notes/assumptions/99.md. -/
def Iss.planCopy (x : Iss) (s : State) (off b : Nat) (cap : Nat → Cap) : Checked Plan :=
  let rows := copyRows b
  let len := copyLen b
  if fld b 416 96 ≠ 0 ∨ fld b 32 96 ≠ 0 ∨ fld b 384 32 % 8 ≠ 0 then .error (x.blockBad off)
  else
    x.blockScr s (fld b 0 32) (extent rows len (copyDs b))
      (x.blockCap (cap 1) 0 (extent rows len (copySs b)) pLOAD (fun va =>
        x.blockArrive s (fld b 384 32)
          (.ok { engine := .copy, arrive := some (fld b 384 32),
                 body := .move (if len = 0 then 0 else rows) len (.mem va) (.scr (fld b 0 32)) (copySs b) (copyDs b)
                   ((cap 1).has pLOADCAP) true true })))

/-- COPYG. -/
def Iss.planCopyg (x : Iss) (off b : Nat) (cap : Nat → Cap) : Checked Plan :=
  let rows := copyRows b
  let len := copyLen b
  if fld b 384 128 ≠ 0 then .error (x.blockBad off)
  else
    x.blockCap (cap 0) 0 (extent rows len (copyDs b)) pSTORE (fun vd =>
      x.blockCap (cap 1) 0 (extent rows len (copySs b)) pLOAD (fun vs =>
        .ok { engine := .copy,
              body := .move (if len = 0 then 0 else rows) len (.mem vs) (.mem vd) (copySs b) (copyDs b)
                ((cap 1).has pLOADCAP) ((cap 0).has pSTORECAP) ((cap 0).has pSTORELOCAL) }))

/-- COPYS. -/
def Iss.planCopys (x : Iss) (s : State) (off b : Nat) (cap : Nat → Cap) : Checked Plan :=
  let rows := copyRows b
  let len := copyLen b
  if fld b 384 128 ≠ 0 ∨ fld b 160 96 ≠ 0 then .error (x.blockBad off)
  else
    x.blockCap (cap 0) 0 (extent rows len (copyDs b)) pSTORE (fun vd =>
      x.blockScr s (fld b 128 32) (extent rows len (copySs b))
        (.ok { engine := .copy,
               body := .move (if len = 0 then 0 else rows) len (.scr (fld b 128 32)) (.mem vd) (copySs b) (copyDs b)
                 true ((cap 0).has pSTORECAP) ((cap 0).has pSTORELOCAL) }))

/-! Tiles (R272, R273). -/

/-- The descriptor through DESC: its place and contents, checked under R140. -/
def Iss.blockDesc (x : Iss) (s : State) (c : Cap) (perm : Nat) (need : Need) (k : Place → Nat → Desc → Checked Plan) : Checked Plan :=
  match capCheck c 0 64 perm with
  | .error f => .error (.fault (x.fail f x.low c 15))
  | .ok va =>
      if va % 64 ≠ 0 then .error (.fault (x.failPlain ⟨0x04, 0x43, va⟩ x.low))
      else match locate s x.ag need va 64 with
        | .error f => .error (.fault (x.failPlain f x.low))
        | .ok pl => match x.gate s false [⟨x.low, pl⟩] with
            | some t => .error (.wait t.1 t.2)
            | none =>
                let dk := pl.keys.headD 0
                let d := s.descAt dk
                if !d.ok then .error (.fault (x.failPlain ⟨0x04, 0x43, va⟩ x.low)) else k pl dk d

/-- TILEST. -/
def Iss.planTilest (x : Iss) (s : State) (off b : Nat) (cap : Nat → Cap) : Checked Plan :=
  let aon := bit b 256
  if fld b 257 127 ≠ 0 ∨ fld b 192 64 ≠ 0 ∨ fld b 160 32 % 16 ≠ 0 ∨ fld b 128 32 % 16 ≠ 0 then .error (x.blockBad off)
  else
    x.blockDesc s (cap 0) (pLOAD ||| pSTORE ||| (if aon then pATOMIC else 0)) { r := true, w := aon } (fun pl dk d =>
      if fld b 160 32 < d.rowBytes then .error (x.blockBad off)
      else
        let ss := fld b 160 32
        x.blockScr s (fld b 128 32) (if isMx d.format then d.rows * ss + d.scaleBytes else extent d.rows d.rowBytes ss)
          (.ok { engine := .copy,
                 body := .tilest dk d.base.cursor d.rows d.rowBytes d.stride d.scaleBytes (fld b 128 32) ss aon,
                 post := fun s => s.touch x.ag false pl, pages := pl.pages }))

/-- TILELD. STATOFF may be any offset whose four bytes lie in scratch. DESIGN CHOICE: notes/assumptions/99.md. -/
def Iss.planTileld (x : Iss) (s : State) (off b : Nat) (cap : Nat → Cap) : Checked Plan :=
  if fld b 256 128 ≠ 0 ∨ fld b 160 32 % 16 ≠ 0 ∨ fld b 128 32 % 16 ≠ 0 then .error (x.blockBad off)
  else
    x.blockDesc s (cap 0) pLOAD { r := true } (fun pl dk d =>
      if fld b 160 32 < d.rowBytes then .error (x.blockBad off)
      else
        let ss := fld b 160 32
        x.blockScr s (fld b 128 32) (if isMx d.format then d.rows * ss + d.scaleBytes else extent d.rows d.rowBytes ss)
          (x.blockArrive s (fld b 192 32)
            (x.blockScr s (fld b 224 32) 4
              (.ok { engine := .copy, arrive := some (fld b 192 32),
                     body := .tileld dk d.base.cursor d.rows d.rowBytes d.stride d.scaleBytes (fld b 128 32) ss
                       (fld b 224 32),
                     post := fun s => s.touch x.ag false pl, pages := pl.pages }))))

/-! REGROUP (R274). -/

def Iss.planRegroup (x : Iss) (off b : Nat) (cap : Nat → Cap) : Checked Plan :=
  let k := fld b 592 4
  let e := fld b 576 16
  let bc := fld b 544 32
  let t := fld b 512 32
  if fld b 596 44 ≠ 0 ∨ k = 0 ∨ 8 < k ∨ e = 0 ∨ 2 ^ 29 < t then .error (x.blockBad off)
  else
    x.blockCap (cap 0) 0 (2 * t * k) pLOAD (fun tok =>
      x.blockCap (cap 1) 0 (4 * e * bc) pSTORE (fun bucket =>
        x.blockCap (cap 2) 0 (4 * e) pSTORE (fun counts =>
          let body (cnt : Option Nat) : Plan := { engine := .regroup, body := .regroup k e bc t tok bucket counts cnt }
          if (cap 3).isNull then .ok (body none)
          else x.blockCap (cap 3) ((cap 3).base - (cap 3).cursor) (8 * e) (pATOMIC ||| pSTORE) (fun c => .ok (body (some c))))))

/-! Loft commands (R276, R277, R291, R296). -/

/-- DETAIL 0x40: a handle refused (R60). -/
def Iss.handleBad (x : Iss) (h : Nat) : Res := .fault (x.failPlain ⟨0x04, 0x40, h⟩ x.low)

/-- The handle is held by the context, not PINNED; a LOADING one makes the command wait. -/
def Iss.blockHandle (x : Iss) (s : State) (h : Nat) (k : Handle → Checked Plan) : Checked Plan :=
  let r := s.handle (unitCore x.u) h
  if r.holder.isNone ∨ r.holder ≠ x.g.ctx then .error (x.handleBad h)
  else if s.handleErr (unitCore x.u) h then .error (.fault (x.failPlain ⟨0x18, 3, h⟩ x.low))
  else if hState r = 3 then .error (x.handleBad h)
  else if hState r = 1 then .error (.wait s .internal)
  else k r

/-- An entry of a loft image: handle number, and its record. -/
def imageEntry (s : State) (pa i : Nat) : Nat × Handle :=
  let at_ := s.objAt pa (64 + 64 * i)
  let e := s.rn at_ 64
  (fld e 0 6, ⟨BitVec.ofNat 384 (e >>> 128), s.tagR (at_ + 48), s.tagR (at_ + 32), none⟩)

/-- The entries of an image in order: every one is checked as LHSET and LOFTLD check it (R296). -/
def Iss.blockImage (x : Iss) (s : State) (pa : Nat) : List Nat → (List (Nat × Nat × Handle) → Checked Plan) → Checked Plan
  | [], k => k []
  | i :: r, k =>
      let e := imageEntry s pa i
      let hn := e.1
      let h : Handle := {
        e.2.setState 0 with
        backTag := (s.swept x.g.vd (hBack e.2)).tag, ctrTag := (s.swept x.g.vd (hCtr e.2)).tag, holder := x.g.ctx }
      let old := s.handle (unitCore x.u) hn
      if old.holder.isSome ∧ old.holder ≠ x.g.ctx then .error (x.handleBad hn)
      else if hState old = 3 then .error (x.handleBad hn)
      else if hState old = 1 ∨ s.loftBusy (unitCore x.u) hn then .error (.wait s .internal)
      else if !(handleOk h) then .error (x.handleBad hn)
      else x.blockCap (hBack h) 0 (hN h * hColumn h) (pLOFT ||| pLOAD) (fun va =>
        x.blockImage s pa r (fun t => k ((hn, va, h) :: t)))

/-- LOFTLD. -/
def Iss.planLoftld (x : Iss) (s : State) (off b : Nat) (cap : Nat → Cap) : Checked Plan :=
  let core := unitCore x.u
  if fld b 135 121 ≠ 0 then .error (x.blockBad off)
  else if bit b 134 then
    match objCheck (cap 0) 9 pLOFT with
    | .error f => .error (.fault (x.fail f x.low (cap 0) 15))
    | .ok base =>
        match s.obj? 9 x.g.vd base with
        | none => .error (.fault (x.failPlain ⟨0x09, 0, base⟩ x.low))
        | some o =>
            x.blockImage s o.pa (List.range (fld (s.rn o.pa 8) 0 7)) (fun es =>
              .ok { engine := .loft, body := .loftld (es.map (fun e => (e.1, e.2.1))),
                    post := fun s => es.foldl (fun s e => s.setHandle core e.1 (e.2.2.setState 1)) s })
  else
    let hn := fld b 128 6
    x.blockHandle s hn (fun h =>
      x.blockCap (cap 0) 0 (hN h * hColumn h) (pLOFT ||| pLOAD) (fun va =>
        .ok { engine := .loft, body := .loftld [(hn, va)], post := fun s => s.setHandle core hn (h.setState 1) }))

/-- LOFTEV. -/
def Iss.planLoftev (x : Iss) (s : State) (off b : Nat) (cap : Nat → Cap) : Checked Plan :=
  if fld b 134 122 ≠ 0 then .error (x.blockBad off)
  else
    let hn := fld b 128 6
    x.blockHandle s hn (fun h =>
      if (cap 0).isNull then .ok { engine := .loft, body := .loftev hn none }
      else x.blockCap (cap 0) 0 (hN h * hColumn h) pSTORE (fun va => .ok { engine := .loft, body := .loftev hn (some va) }))

/-! COLL (R278). -/

/-- COLL. A BROADCAST whose ROOT is no rank of the group is refused as a block out of its limits, once the group is known.
DESIGN CHOICE: notes/assumptions/99.md. -/
def Iss.planColl (x : Iss) (s : State) (off b : Nat) (cap : Nat → Cap) : Checked Plan :=
  let root := fld b 616 16
  let fmt := fld b 612 4
  let op := fld b 608 4
  let count := fld b 512 64
  let bytes := count * elemBytes fmt
  if fld b 632 8 ≠ 0 ∨ 4 < op ∨ !([0, 1, 2, 8].contains fmt) ∨ 2 ^ 40 < count ∨ (op ≠ 3 ∧ root ≠ 0) ∨ (cap 3).cursor % 8 ≠ 0 then
    .error (x.blockBad off)
  else
    match objCheck (cap 0) 8 pSEND with
    | .error f => .error (.fault (x.fail f x.low (cap 0) 15))
    | .ok base =>
        match ((s.obj? 8 x.g.vd base).map (·.pa)).orElse (fun _ =>
            (s.farOf 8 x.g.vd base).map (fun m => peerKey m base)) with
        | none => .error (.fault (x.failPlain ⟨0x09, 0, base⟩ x.low))
        | some pa =>
            let n := s.groupCount pa
            if op = 3 ∧ n ≤ root then .error (x.blockBad off)
            else
              x.blockCap (cap 1) 0 bytes pLOAD (fun src =>
                x.blockCap (cap 2) 0 (if op = 4 then n * bytes else bytes) pSTORE (fun dst =>
                  x.blockCap (cap 3) 0 8 pSTORE (fun stat =>
                    .ok { engine := .coll, body := .coll pa (fld b 576 32) op fmt count root src dst stat })))

/-! CHAIN (R239 to R244). -/

/-- The operations that the pending hints name, in order (R179). -/
def chainOps (hs : List Word) (n : Nat) : List (Nat × Nat) :=
  (((chainPays hs).flatMap (fun p => [fld p 11 11, fld p 0 11])).take n).map (fun o => (fld o 6 5, fld o 3 3))

def Iss.planChain (x : Iss) (n off b : Nat) (cap : Nat → Cap) : Checked Plan :=
  let ops := chainOps x.p.hints n
  let count := fld b 384 64
  let dt := fld b 456 4
  let t1 := fld b 452 4
  let t0 := fld b 448 4
  let okT (t : Nat) : Bool := [0, 1, 2, 3, 4, 6, 8].contains t
  if fld b 480 32 ≠ 0 ∨ fld b 461 19 ≠ 0 ∨ !(okT dt) ∨ !(okT t1) ∨ !(okT t0) ∨ 2 ^ 40 < count then .error (x.blockBad off)
  else
    let ks := (List.range 4).map (fun i => BitVec.ofNat 32 (fld b (512 + 32 * i) 32))
    let body (dst src0 src1 : Nat) : Plan :=
      { engine := .stream, body := .chain ops ks count dst src0 src1 dt t0 t1 (bit b 460) }
    x.blockCap (cap 0) 0 (count * elemBytes dt) pSTORE (fun dst =>
      x.blockCap (cap 1) 0 (count * elemBytes t0) pLOAD (fun src0 =>
        if usesSrc1 ops then
          x.blockCap (cap 2) 0 (count * elemBytes t1) pLOAD (fun src1 => .ok (body dst src0 src1))
        else .ok (body dst src0 0)))

/-! CLD and CST (R288). -/

/-- DETAIL 0x41: a reservation refused (R60). -/
def Iss.resBad (x : Iss) (n : Nat) : Res := .fault (x.failPlain ⟨0x04, 0x41, n⟩ x.low)

/-- A move between a reservation and memory or scratch. -/
def Iss.planCrib (x : Iss) (s : State) (load : Bool) (off b : Nat) (cap : Nat → Cap) : Checked Plan :=
  let space := bit b 293
  let n := fld b 288 5
  let roff := fld b 224 32
  let rows := fld b 192 32
  let rb := fld b 160 32
  let ms := fld b 128 32
  let counts := load || space
  match x.g.gang.bind (fun m => find s.gangs m) with
  | none => .error (x.blockBad off)
  | some k =>
      if fld b 294 90 ≠ 0 ∨ k.cribN ≤ n ∨ (!counts ∧ fld b 256 32 ≠ 0) ∨ roff % 16 ≠ 0 ∨ rb % 16 ≠ 0
          ∨ (space ∧ fld b 32 96 ≠ 0) then .error (x.blockBad off)
      else
        let r := k.resOf n
        let len := extent rows rb ms
        let rlen := extent rows rb (resStride r)
        let resOk : Bool := resValid r && (rlen == 0 || decide (roff + rlen ≤ resLen r))
        let at_ : Loc := .crib (k.cribBase + resBase r + roff)
        let go (mem : Loc) : Checked Plan :=
          let plan : Plan :=
            { engine := .crib, arrive := if counts then some (fld b 256 32) else none,
              body := if load then .move (if rb = 0 then 0 else rows) rb mem at_ ms (resStride r) false false false
                else .move (if rb = 0 then 0 else rows) rb at_ mem (resStride r) ms false false false }
          if counts then x.blockArrive s (fld b 256 32) (.ok plan) else .ok plan
        if !resOk then .error (x.resBad n)
        else if space then x.blockScr s (fld b 0 32) len (go (.scr (fld b 0 32)))
        else x.blockCap (cap 0) 0 len (if load then pLOAD else pSTORE) (fun va => go (.mem va))

/-! DRAIN (R310, R311). -/

def Iss.planDrain (x : Iss) (s : State) (off b : Nat) (cap : Nat → Cap) : Checked Plan :=
  let sieve := bit b 299
  let blk := bit b 298
  let space := bit b 297
  let ofmt := fld b 293 4
  let n := fld b 288 5
  let tid := fld b 240 16
  let ncol := fld b 232 8
  let col0 := fld b 224 8
  let rows := fld b 192 32
  let row0 := fld b 160 32
  let ms := fld b 128 32
  let rb := drainRowBytes ofmt ncol
  match x.g.gang.bind (fun m => find s.gangs m) with
  | none => .error (x.blockBad off)
  | some k =>
      if fld b 301 211 ≠ 0 ∨ !([0, 2, 3, 4, 8, 9].contains ofmt) ∨ k.cribN ≤ n ∨ ncol = 0 ∨ 128 < col0 + ncol
          ∨ ms % 16 ≠ 0 ∨ ms < rb ∨ (!space ∧ fld b 256 32 ≠ 0) ∨ (space ∧ fld b 32 96 ≠ 0)
          ∨ (ofmt = 9 ∧ ncol % blkLen blk ≠ 0) then .error (x.blockBad off)
      else
        let r := k.resOf n
        let last := (row0 + rows - 1) * resStride r + 4 * (col0 + ncol)
        if !(resValid r) ∨ !(resIsC r) ∨ (rows ≠ 0 ∧ resLen r < last) then .error (x.resBad n)
        else if (resFormat r = 8) ≠ (ofmt = 8) then .error (x.blockBad off)
        else if sieve ∧ resFormat r = 8 then .error (x.blockBad off)
        else
          let scales := if ofmt = 9 then rows * (ncol / blkLen blk) else 0
          let len := if rows = 0 then 0 else if ofmt = 9 then rows * ms + scales else extent rows rb ms
          let ctr := x.g.sieveCap
          let go (dst : Loc) (sv : Option (Int × Option Nat)) : Checked Plan :=
            let plan : Plan :=
              { engine := .crib, arrive := if space then some (fld b 256 32) else none,
                body := .drain (k.cribBase + resBase r) (resStride r) row0 rows col0 ncol ofmt ms blk (bit b 300) dst sv }
            if space then x.blockArrive s (fld b 256 32) (.ok plan) else .ok plan
          let withSieve (dst : Loc) : Checked Plan :=
            if !sieve then go dst none
            else
              let base := sint 8 x.g.sieveBase
              if ctr.isNull then go dst (some (base, none))
              else x.blockCap ctr (128 * tid : Nat) 128 (pATOMIC ||| pSTORE) (fun va => go dst (some (base, some va)))
          if space then x.blockScr s (fld b 0 32) len (withSieve (.scr (fld b 0 32)))
          else x.blockCap (cap 0) 0 len pSTORE (fun va => withSieve (.mem va))

/-- COPY (R271). -/
def execCopy (d a : Reg) (q : BitVec 4) (s : State) : Out :=
  issue (Instr.sig (.copy d a q)) s (fun x s => x.command s d a q 64 false x.planCopy)

/-- COPYG (R271). -/
def execCopyg (d a : Reg) (q : BitVec 4) (s : State) : Out :=
  issue (Instr.sig (.copyg d a q)) s (fun x s => x.command s d a q 64 false (fun _ => x.planCopyg))

/-- COPYS (R271). -/
def execCopys (d a : Reg) (q : BitVec 4) (s : State) : Out :=
  issue (Instr.sig (.copys d a q)) s (fun x s => x.command s d a q 64 false x.planCopys)

/-- TILEST (R273). -/
def execTilest (d a : Reg) (q : BitVec 4) (s : State) : Out :=
  issue (Instr.sig (.tilest d a q)) s (fun x s => x.command s d a q 48 false x.planTilest)

/-- TILELD (R273). -/
def execTileld (d a : Reg) (q : BitVec 4) (s : State) : Out :=
  issue (Instr.sig (.tileld d a q)) s (fun x s => x.command s d a q 48 false x.planTileld)

/-- REGROUP (R275). -/
def execRegroup (d a : Reg) (q : BitVec 4) (s : State) : Out :=
  issue (Instr.sig (.regroup d a q)) s (fun x s => x.command s d a q 80 false (fun _ => x.planRegroup))

/-- LOFTLD (R277). -/
def execLoftld (d a : Reg) (q : BitVec 4) (s : State) : Out :=
  issue (Instr.sig (.loftld d a q)) s (fun x s => x.command s d a q 32 false x.planLoftld)

/-- LOFTEV (R277). -/
def execLoftev (d a : Reg) (q : BitVec 4) (s : State) : Out :=
  issue (Instr.sig (.loftev d a q)) s (fun x s => x.command s d a q 32 false x.planLoftev)

/-- COLL (R279). -/
def execColl (d a : Reg) (q : BitVec 4) (s : State) : Out :=
  issue (Instr.sig (.coll d a q)) s (fun x s => x.command s d a q 80 false x.planColl)

/-- CHAIN (R243). -/
def execChain (fn : BitVec 3) (d a : Reg) (q : BitVec 4) (s : State) : Out :=
  issue (Instr.sig (.chain fn d a q)) s (fun x s => x.command s d a q 80 true (fun _ => x.planChain (fn.toNat + 1)))

/-- CLD (R288). -/
def execCld (d a : Reg) (q : BitVec 4) (s : State) : Out :=
  issue (Instr.sig (.cld d a q)) s (fun x s => x.command s d a q 48 false (fun s => x.planCrib s true))

/-- CST (R288). -/
def execCst (d a : Reg) (q : BitVec 4) (s : State) : Out :=
  issue (Instr.sig (.cst d a q)) s (fun x s => x.command s d a q 48 false (fun s => x.planCrib s false))

/-- DRAIN (R311). -/
def execDrain (d a : Reg) (q : BitVec 4) (s : State) : Out :=
  issue (Instr.sig (.drain d a q)) s (fun x s => x.command s d a q 64 false x.planDrain)

end Sys2Proof.Machine
end

