-- ==== Sys2Proof/Machine/Matrix.lean ====
section
/-! DEFINITION. The matrix engine (R117 to R119, R281 to R309): reservations, masks, the MMA family and its octet
operations, fused sets, passes and their results, batches. -/
namespace Sys2Proof.Machine

/-! Sums (R117 to R119). -/

/-- The value of an element as the array reads it; an integer element of MXINT8 counts in units of 2^-6. -/
def matElem (f x : Nat) : FV :=
  match CT.ofFormat f with
  | .float t => t.decode x
  | .int _ => let i := sint 8 x
              .fin (decide (i < 0)) i.natAbs (-6)

/-- The exact sum of products; a zero sum is −0 only when every product is −0 (R117, R118). The product of a negative
MXINT8 element and a zero one counts as −0. DESIGN CHOICE: notes/assumptions/86.md. -/
def exactSum (ps : List FV) : FV :=
  if ps.any FV.isNan then .nan false
  else
    let pos := ps.any (fun p => p == .inf false)
    let neg := ps.any (fun p => p == .inf true)
    if pos && neg then .nan false
    else if pos then .inf false
    else if neg then .inf true
    else
      let low := ps.foldl (fun (e : Int) p => match p with
        | .fin _ _ x => min e x
        | _ => e) 0
      let sum := ps.foldl (fun (a : Int) p => match p with
        | .fin n m x => let v : Int := (m * 2 ^ (x - low).toNat : Nat)
                        if n then a - v else a + v
        | _ => a) 0
      if sum = 0 then .fin (ps.all FV.sign) 0 0 else .fin (decide (sum < 0)) sum.natAbs low

/-- One leaf: L products, scaled by the blocks' scales, rounded (R117). -/
def leaf (f : Nat × Nat) (rz : Bool) (xa xb : Nat) (a b : List Nat) : Nat :=
  if xa = 255 ∨ xb = 255 then 0x7FC00000
  else
    let s := exactSum ((a.zip b).map (fun p => (mulX (matElem f.1 p.1) (matElem f.2 p.2)).1))
    let s := match s with
      | .fin n m e => .fin n m (e + xa + xb - 254)
      | v => v
    (roundFV .fp32 (if rz then .rz else .rne) false false s).1

/-- Elements of a leaf without scales, or of an MX block. -/
def leafLen (f : Nat) (blk : Bool) : Nat := if isMx f then blkLen blk else if f = 3 ∨ f = 4 then 32 else 8

/-- The tree over a chunk's leaves. DEDUCED: notes/assumptions/76.md. -/
def chunkTree (leaves : List Nat) : Nat := (treeRoot (fun a b => (bankAdd .fp32 a b, 0)) 6 (leaves.map some)).1

/-- One element of C after a chunk. -/
def accumulate (f : Nat × Nat) (blk rz first : Bool) (xa xb : List Nat) (a b : List Nat) (c : Nat) : Nat :=
  if f.1 = 6 then
    let sum := (a.zip b).foldl (fun (t : Int) p => t + sint 8 p.1 * sint 8 p.2) 0
    wrap 32 (if first then sum else (c : Int) + sum)
  else
    let n := leafLen f.1 blk
    let t := chunkTree ((List.range (a.length / n)).map (fun j =>
      leaf f rz (xa.getD j 127) (xb.getD j 127) ((a.drop (j * n)).take n) ((b.drop (j * n)).take n)))
    if first then t else bankAdd .fp32 c t

/-- Elements of 256 packed bytes. -/
def unpack (f v : Nat) : List Nat :=
  (List.range (chunkElems f)).map (fun i => fld v (i * (CT.ofFormat f).width) (CT.ofFormat f).width)

/-! Operands (R285, R293). -/

/-- A of an operation: the elements and the scales of a row's chunk. -/
def State.aChunk (s : State) (o : MOp) (row c : Nat) : List Nat × List Nat :=
  let f := resFormat o.ares
  let base := o.cbase + resBase o.ares
  let w := (CT.ofFormat f).width
  if o.t then
    ((List.range (chunkElems f)).map (fun i =>
      s.cribR o.core (base + (c * chunkElems f + i) * resStride o.ares + row * w / 8) (w / 8)), [])
  else
    let ch := resStride o.ares / 256
    let nb := blocksPer f (resBlk o.ares)
    (unpack f (s.cribR o.core (base + row * resStride o.ares + 256 * c) 256),
      if isMx f then (List.range nb).map (fun j => s.cribR o.core (base + resSoff o.ares + (row * ch + c) * nb + j) 1)
      else [])

/-- B of an operation from the loft. -/
def State.bLoft (s : State) (o : MOp) (n c : Nat) : List Nat × List Nat :=
  let h := o.hrec
  let nb := blocksPer (hFormat h) (hBlk h)
  (unpack (hFormat h) (s.loftR o.core n (hBase h + 256 * c) 256),
    if isMx (hFormat h) then (List.range nb).map (fun j => s.loftR o.core n (hSoff h + c * nb + j) 1) else [])

/-- The agent of an operation's accesses to memory. -/
def MOp.ag (o : MOp) : Ag :=
  { vd := o.vd, aspace := o.aspace, ctx := o.ctx, core := some o.core, who := 2 ^ 42 + o.core }

/-- The place of an operation's access to memory: not locked, meeting no tile that is being regrown, and served by the
arbiters (R145, R323, R400); otherwise the state in which the pass waits. -/
def State.opPlace (s : State) (o : MOp) (need : Need) (va n : Nat) : Except (Sum State Fail) Place :=
  match locate s o.ag need va n with
  | .error e => .error (.inr e)
  | .ok pl =>
      if pl.granules.any s.locked.contains then .error (.inl s)
      else match s.meetTiles o.regrow o.ctx none [pl] with
        | some t => .error (.inl t)
        | none => match s.unserved o.ag [pl] with
            | some t => .error (.inl t)
            | none => .ok pl

/-- What a streamed read ends in. -/
inductive Streamed where
  | ok (s : State) (bs : List Byte)
  | wait (s : State)
  | fail (f : Fail)

/-- Bytes of the column image in memory, as an engine reads them (R301). -/
def streamRun (o : MOp) : Nat → Nat → Nat → State → Streamed
  | 0, _, _, s => .ok s []
  | f + 1, va, n, s =>
      if n = 0 then .ok s []
      else
        let m := min n (16 - va % 16)
        match s.opPlace o { r := true } va m with
        | .error (.inr e) => .fail e
        | .error (.inl t) => .wait t
        | .ok pl =>
            match streamRun o f (va + m) (n - m) (s.touch o.ag false pl) with
            | .ok t r => .ok t (leBytes (s.rkeys pl.keys) m ++ r)
            | e => e

/-- B of an operation from its column image, column by column: elements and scales. -/
def State.bStream (o : MOp) (c : Nat) : List Nat → State → Except (Sum State Fail) (State × List (Nat × List Nat × List Nat))
  | [], s => .ok (s, [])
  | n :: ns, s =>
      let h := o.hrec
      let nb := blocksPer (hFormat h) (hBlk h)
      let at_ := (hBack h).cursor + n * hColumn h
      match streamRun o 32 (at_ + 256 * c) 256 s with
      | .wait t => .error (.inl t)
      | .fail e => .error (.inr e)
      | .ok s bs =>
          match streamRun o 8 (at_ + hElems h + c * nb) (if isMx (hFormat h) then nb else 0) s with
          | .wait t => .error (.inl t)
          | .fail e => .error (.inr e)
          | .ok s xs =>
              match State.bStream o c ns s with
              | .error e => .error e
              | .ok (s, r) =>
                  .ok (s, (n, unpack (hFormat h) (leRead (fun i => bs.getD i 0) 0 256), xs.map (·.toNat)) :: r)

/-! Issue (R299, R300, R304). -/

/-- Chunk range: start and count, with the MATX hint (R299). -/
def chunkRange (hs : List Word) (ares : BitVec 128) (t : Bool) : Nat × Nat :=
  let m := (hint? hs 6).getD 0
  let st := fld m 6 7
  let cnt := fld m 13 10
  let all := if t then resLen ares / resStride ares / chunkElems (resFormat ares) else resStride ares / 256
  (st, if cnt = 0 then all - st else cnt)

/-- STRM of the MATX hint. -/
def strmOf (hs : List Word) : Nat := fld ((hint? hs 6).getD 0) 4 2

/-- Rows of octet `k` that are live. -/
def Iss.liveRows (x : Iss) (k : Nat) : BitVec 8 := (x.p.mask &&& x.g.rowMask).extractLsb' (8 * k) 8

/-- Step 1 of R300 for an octet: the number of the reservation at fault. -/
def recordsBad (cn an : Nat) (c a : BitVec 128) (h : Handle) (t : Bool) (s k oct : Nat) : Option Nat :=
  let f := resFormat a
  let w := (CT.ofFormat f).width
  let row := 8 * oct + 7
  let ext :=
    if t then decide (((s + k) * chunkElems f - 1) * resStride a + (row + 1) * w / 8 ≤ resLen a)
    else resStride a % 256 == 0 && decide (row * resStride a + 256 * (s + k) ≤ resLen a)
      && (!(isMx f) || decide (resSoff a + (row * (resStride a / 256) + s + k) * blocksPer f (resBlk a) ≤ resLen a))
  if !(resValid c) || !(resIsC c) then some cn
  else if !(resValid a) || resIsC a then some an
  else if !(paired f (hFormat h)) || (isMx f && resBlk a != hBlk h) || (t && isMx f) || k == 0 then some an
  else if resFormat c != cFormat f then some cn
  else if !ext then some an
  else if resLen c < row * resStride c + 4 * hN h then some cn
  else none

/-- The operation of an octet, or what R300 raises. -/
def Iss.formOct (x : Iss) (s : State) (gid : Nat) (k : Gang) (cn an : Nat) (z t rz forced expert : Bool) (hn oct : Nat) :
    Except Res MOp :=
  let cr := k.resOf cn
  let ar := k.resOf an
  let core := unitCore x.u
  let h := s.handle core hn
  let rng := chunkRange x.p.hints ar t
  let strm := strmOf x.p.hints
  match recordsBad cn an cr ar h t rng.1 rng.2 oct with
  | some n => .error (.fault (x.failPlain ⟨0x04, 0x41, n⟩ x.low))
  | none =>
      if h.holder.isNone ∨ h.holder ≠ x.g.ctx ∨ hKch h < rng.1 + rng.2 then
        .error (.fault (x.failPlain ⟨0x04, 0x40, hn⟩ x.low))
      else if s.handleErr core hn then .error (.fault (x.failPlain ⟨0x18, 3, hn⟩ x.low))
      else
        let streamed := forced || strm == 1 || !(decide (2 ≤ hState h))
        match if streamed then capCheck (hBack h) 0 (hN h * hColumn h) pLOAD else .ok 0 with
        | .error f => .error (.fault (x.fail f x.low (hBack h) 15))
        | .ok _ =>
            let ctr := hCtr h
            let adds := expert && strm != 2 && !ctr.isNull
            match if adds then capCheck ctr (ctr.base - ctr.cursor + (8 * hExpert h : Nat)) 8 (pATOMIC ||| pSTORE)
              else .ok 0 with
            | .error f => .error (.fault (x.fail f x.low ctr 15))
            | .ok va =>
                .ok
                  { unit := x.u, gang := gid, core := core, ctx := x.g.ctx, vd := x.g.vd, aspace := x.g.aspace,
                    pc := x.p.pc, slotB := x.b, lane := x.low, batch := (x.g.batchNo + 1) % 65536, regrow := x.g.regrow,
                    octet := oct, live := x.liveRows oct, cols := x.g.colMask, cres := cr, ares := ar, cnum := cn,
                    cbase := k.cribBase, handle := hn, hrec := h, s := rng.1, k := rng.2, z := z, t := t, rz := rz,
                    streamed := streamed, ctr := if adds then some va else none }

/-- The operations of every issuing octet, or the first failure. -/
def Iss.formAll (x : Iss) (s : State) (gid : Nat) (k : Gang) (cn an : Nat) (z t rz forced expert : Bool)
    (handle : Nat → Nat) : List Nat → Except Res (List MOp)
  | [] => .ok []
  | o :: os =>
      match x.formOct s gid k cn an z t rz forced expert (handle o) o with
      | .error e => .error e
      | .ok m => match x.formAll s gid k cn an z t rz forced expert handle os with
          | .error e => .error e
          | .ok r => .ok (m :: r)

/-- May two operations be in one set (R305)? -/
def fuses (a b : MOp) : Bool :=
  !a.czero && !b.czero && a.handle == b.handle && a.ctx == b.ctx && a.streamed == b.streamed && a.s == b.s && a.k == b.k
    && resFormat a.ares == resFormat b.ares && resBlk a.ares == resBlk b.ares && a.t == b.t && a.rz == b.rz
    && a.hrec.bits == b.hrec.bits
    && !(a.unit == b.unit && a.gang == b.gang && a.cnum == b.cnum && a.octet == b.octet)

/-- The operations of a set. -/
def State.setOps (s : State) (n : Nat) : List (Nat × MOp) := s.ops.filter (fun e => e.2.set == n && !e.2.done)

/-- Must two operations be applied in issue order: one group's on one C reservation (R163, R305)? -/
def ordered (a b : MOp) : Bool := a.unit == b.unit && a.gang == b.gang && a.cnum == b.cnum

/-- An operation joins an open set of its core, or opens one (R305); it joins none that opened before the set of an earlier
operation that it must follow, so that no two sets wait for each other. DESIGN CHOICE: notes/assumptions/31.md. -/
def State.joinSet (s : State) (o : MOp) : State :=
  let id := s.ticket
  match s.sets.find? (fun e => e.2.core == o.core && e.2.closed.isNone && decide (s.now < e.2.openedAt + 8)
      && (s.setOps e.1).all (fun p => !p.2.stopped)
      && s.ops.all (fun p => p.2.done || !(ordered p.2 o) || decide (p.2.set ≤ e.1))
      && decide ((s.setOps e.1).length < 16) && !o.czero && (s.setOps e.1).all (fun p => fuses p.2 o)) with
  | some e => { s.tick with ops := put s.ops id { o with set := e.1 } }
  | none => { s.tick with
      ops := put s.ops id { o with set := id }
      sets := put s.sets id { core := o.core, openedAt := s.now, closed := if o.czero then some id else none } }

/-- Is an operation on a core, and not in the image of a saved gang (R444)? -/
def State.opHere (s : State) (o : MOp) : Bool := (find s.saved o.gang).isNone

/-- Octet operations of a core that have not ended (R304). -/
def State.octets (s : State) (core : Nat) : Nat :=
  (s.ops.filter (fun e => e.2.core == core && !e.2.czero && s.opHere e.2)).length

/-- Octet operations of a gang that have not ended. -/
def State.gangOctets (s : State) (gid : Nat) : Nat := (s.ops.filter (fun e => e.2.gang == gid && !e.2.czero)).length

/-- The MMA family (R300). -/
def Iss.mma (x : Iss) (s : State) (cn an : BitVec 5) (z t rz forced expert : Bool) (handle : Nat → Nat) : Res :=
  match x.g.gang.bind (fun n => (find s.gangs n).map (fun k => (n, k))) with
  | none => .retire s x.g
  | some (gid, k) =>
      let octs := (List.range (x.g.width / 8)).filter (fun o => x.liveRows o != 0)
      match x.formAll s gid k cn.toNat an.toNat z t rz forced expert handle octs with
      | .error r => r
      | .ok ms =>
          if 256 < s.octets (unitCore x.u) + ms.length then .wait s .internal
          else
            let auto := if forced || strmOf x.p.hints == 1 then 0 else (ms.filter (fun m => m.streamed)).length
            let b := (x.g.batchNo + 1) % 65536
            .retire (ms.foldl State.joinSet s) { x.g with fbBatch := store 0 x.g.fbBatch b (look 0 x.g.fbBatch b + auto) }

/-- The handle that an s register names (R291). -/
def Iss.handleOf (x : Iss) (b : Reg) (l : Nat) : Nat := fld (x.g.rd b l).toNat 0 6

/-! Reservations and masks (R287, R289, R290). -/

/-- CRES. -/
def Iss.cres (x : Iss) (s : State) (c : BitVec 5) (a : Reg) : Res :=
  let r := x.g.rd4 a 0
  match x.g.gang.bind (fun n => find s.gangs n) with
  | none => .retire s x.g
  | some k =>
      if resOk r k.cribLen then
        .retire (s.modGang x.gangNo (fun k => { k with res := store 0 k.res c.toNat (r ||| (1#128 <<< 86)) })) x.g
      else .fault (x.failPlain ⟨0x04, 0x41, c.toNat⟩ x.low)

/-- CREL. -/
def Iss.crel (x : Iss) (s : State) (c : BitVec 5) : State :=
  s.modGang x.gangNo (fun k => { k with res := store 0 k.res c.toNat (k.resOf c.toNat &&& ~~~(1#128 <<< 86)) })

/-- CZERO: a matrix operation of its own (R289). -/
def Iss.czero (x : Iss) (s : State) (c : BitVec 5) : Res :=
  match x.g.gang.bind (fun n => (find s.gangs n).map (fun k => (n, k))) with
  | none => .retire s x.g
  | some (gid, k) =>
      let r := k.resOf c.toNat
      if !(resValid r) then .fault (x.failPlain ⟨0x04, 0x41, c.toNat⟩ x.low)
      else
        .retire (s.joinSet
          { unit := x.u, gang := gid, core := unitCore x.u, ctx := x.g.ctx, vd := x.g.vd, aspace := x.g.aspace,
            pc := x.p.pc, slotB := x.b, lane := x.low, batch := (x.g.batchNo + 1) % 65536, regrow := x.g.regrow,
            czero := true, cres := r, cnum := c.toNat, cbase := k.cribBase, k := 1 }) x.g

/-! Passes (R302, R305, R306). -/

/-- Word of the crib as the array sees it: results still on the way come first. -/
def State.cribSeen (s : State) (core at_ : Nat) : Nat :=
  match (s.results.filter (fun r => r.core == core)).reverse.findSome? (fun r => find r.cells at_) with
  | some w => w.toNat
  | none => s.cribR core at_ 4

/-- The cells that one operation's pass over a chunk computes. -/
def State.passCells (s : State) (o : MOp) (c : Nat) (b : List (Nat × List Nat × List Nat)) : List (Nat × Word) :=
  let f := (resFormat o.ares, hFormat o.hrec)
  ((List.range 8).filter (fun i => o.live.getLsbD i)).flatMap (fun i =>
    let r := 8 * o.octet + i
    let a := s.aChunk o r c
    b.filterMap (fun e =>
      if o.cols.getLsbD e.1 then
        let at_ := o.cbase + resBase o.cres + r * resStride o.cres + 4 * e.1
        some (at_, BitVec.ofNat 32 (accumulate f (resBlk o.ares) o.rz (o.z && c == o.s) a.2 e.2.2 a.1 e.2.1
          (s.cribSeen o.core at_)))
      else none))

/-- A fault at the instruction of a matrix operation (R301). -/
def MOp.info (o : MOp) (f : Fail) : FaultInfo :=
  { code := f.code, detail := f.detail, addr := BitVec.ofNat 64 f.addr, pc := o.pc, core := o.core,
    slot := unitSlot o.unit, slotB := o.slotB, lane := o.lane, unit := some (2 ^ 40 + o.core) }

/-- Is a set held back by an earlier operation of one of its groups on the same C reservation (R305)? -/
def State.setBlocked (s : State) (n : Nat) : Bool :=
  (s.setOps n).any (fun e => s.ops.any (fun p =>
    decide (p.1 < e.1) && p.2.set != n && !p.2.done && ordered p.2 e.2))

/-- The set whose pass is next on a core; the sets of a context that has halted are kept, and those of others run (R435,
R436). -/
def State.nextSet (s : State) (core : Nat) : Option (Nat × MSet) :=
  let cs := s.sets.filter (fun e => e.2.core == core && e.2.closed.isSome && (s.setOps e.1).all (fun p => !p.2.stopped))
  match cs.find? (fun e => decide (0 < e.2.passes)) with
  | some e => some e
  | none => (cs.filter (fun e => !(s.setBlocked e.1))).foldl (fun m e => match m with
      | none => some e
      | some f => if e.2.closed.getD 0 < f.2.closed.getD 0 then some e else some f) none

/-- The pass of one operation over a chunk: its result is on the way (R306). -/
def State.passOne (s : State) (id : Nat) (o : MOp) (c : Nat) (b : List (Nat × List Nat × List Nat)) (last : Bool) : State :=
  let cells :=
    if o.czero then (List.range (resLen o.cres / 4)).map (fun i => (o.cbase + resBase o.cres + 4 * i, (0 : Word)))
    else s.passCells o c b
  { s with
    results := s.results ++ [⟨o.core, id, cells, last⟩]
    ops := if last then put s.ops id { o with done := true } else s.ops }

/-- The first uncorrectable error in what an operation's pass over a chunk reads of the crib and the loft (R23, R59). -/
def State.passErr (s : State) (o : MOp) (c : Nat) : Option Fail :=
  let f := resFormat o.ares
  let nb := blocksPer f (resBlk o.ares)
  let a := o.cbase + resBase o.ares
  let rows := (List.range 8).filterMap (fun i => if o.live.getLsbD i then some (8 * o.octet + i) else none)
  let crib : List (Nat × Nat) :=
    if o.czero then []
    else rows.flatMap (fun r =>
      (o.cbase + resBase o.cres + r * resStride o.cres, 4 * hN o.hrec) ::
        (if o.t then (List.range (chunkElems f)).map (fun i => (a + (c * chunkElems f + i) * resStride o.ares + r, 1))
        else (a + r * resStride o.ares + 256 * c, 256) ::
          (if isMx f then [(a + resSoff o.ares + (r * (resStride o.ares / 256) + c) * nb, nb)] else [])))
  let loft : List (Nat × Nat × Nat) :=
    if o.czero || o.streamed then []
    else (List.range (hN o.hrec)).flatMap (fun n => [(n, hBase o.hrec + 256 * c, 256),
      (n, hSoff o.hrec + c * nb, if isMx f then nb else 1)])
  match crib.find? (fun e => s.errAt 2 (cribKey o.core e.1) e.2) with
  | some e => some ⟨0x18, 2, e.1⟩
  | none => (loft.find? (fun e => s.errAt 3 (loftKey o.core e.1 e.2.1) e.2.2)).map (fun e => ⟨0x18, 3, e.2.1⟩)

/-- The expert counters' adds of a set whose last pass starts, once each; a counter is naturally aligned (R121, R302). -/
def passAdds : List (Nat × MOp) → State → Except (Sum State (MOp × Fail × State)) State
  | [], s => .ok s
  | (id, o) :: r, s =>
      match o.ctr with
      | none => passAdds r s
      | some va =>
          match if va % 8 = 0 then s.opPlace o { r := true, w := true } va 8 else .error (.inr ⟨0x04, 8, va⟩) with
          | .error (.inr e) => .error (.inr (o, e, s))
          | .error (.inl t) => .error (.inl t)
          | .ok pl =>
              let t := (s.wkeys pl.keys (leBytes (s.rkeys pl.keys + popcount 8 o.live.toNat) 8)).touch o.ag true pl
              passAdds r { t with ops := put t.ops id { o with ctr := none } }

/-- The operations of a gang leave the sets that they share with others: they go on in sets of their own, which stand where
the shared ones stood (R444). -/
def State.splitSets (s : State) (gid : Nat) : State :=
  let mine := ((s.ops.filter (fun e => e.2.gang == gid && !e.2.done)).map (fun e => e.2.set)).eraseDups
  mine.foldl (fun (t : State) n =>
    if (t.setOps n).all (fun e => e.2.gang == gid) then t
    else match find t.sets n with
      | none => t
      | some st => { t.tick with
          sets := put t.sets t.ticket st
          ops := t.ops.map (fun (e : Nat × MOp) =>
            if e.2.gang = gid ∧ e.2.set = n ∧ !e.2.done then (e.1, { e.2 with set := t.ticket }) else e) }) s

/-- The sets of a gang's operations on another core. -/
def State.moveSets (s : State) (gid core : Nat) : State :=
  let mine := (s.ops.filter (fun e => e.2.gang == gid && !e.2.done)).map (fun e => e.2.set)
  { s with sets := s.sets.map (fun (e : Nat × MSet) => if mine.contains e.1 then (e.1, { e.2 with core := core }) else e) }

/-- PASS: one chunk of every operation of the next closed set, unless its context has stopped. -/
def State.pass (s : State) (core : Nat) : State :=
  match s.nextSet core with
  | none => s
  | some (n, st) =>
      let os := s.setOps n
      match os with
      | [] => { s with sets := del s.sets n }
      | (_, o) :: _ =>
          if os.any (fun e => e.2.stopped) then s
          else
            let c := o.s + st.passes
            let last := st.passes + 1 == o.k
            let cols := List.range (hN o.hrec)
            let halt (s : State) (o : MOp) (f : Fail) : State :=
              let s := { s with ops := s.ops.map (fun (e : Nat × MOp) => if e.2.set = n then (e.1, { e.2 with stopped := true }) else e) }
              if f.code = noAnswer then s.dropped f.detail
              else s.ctxFault (o.ctx.getD 0) (s.inRegrow o.regrow (o.info f))
            match os.findSome? (fun e => (s.passErr e.2 c).map (fun f => (e.2, f))) with
            | some (o, f) => halt s o f
            | none =>
            let b : Except (Sum State Fail) (State × List (Nat × List Nat × List Nat)) :=
              if o.czero then .ok (s, [])
              else if o.streamed then State.bStream o c cols s
              else .ok (s, cols.map (fun n => (n, s.bLoft o n c)))
            match b with
            | .error (.inl t) => t
            | .error (.inr f) => halt s o f
            | .ok (t, b) =>
                match if last then passAdds os t else .ok t with
                | .error (.inl t) => t
                | .error (.inr (o, f, t)) => halt t o f
                | .ok t =>
                    let t := (t.setOps n).foldl (fun t e => t.passOne e.1 e.2 c b last) t
                    { t with sets := if last then del t.sets n else put t.sets n { st with passes := st.passes + 1 } }

/-- Every result of a core that is on its way is written (R306, R436). -/
def State.landResults (s : State) (core : Nat) : Nat → State
  | 0 => s
  | n + 1 => match s.results.find? (fun r => r.core == core) with
      | none => s
      | some r =>
          let t := r.cells.foldl (fun s e => s.cribW core e.1 (leBytes e.2.toNat 4)) { s with results := s.results.erase r }
          State.landResults (if r.last then { t with ops := del t.ops r.op } else t) core n

/-- CRIB_RESULT_WRITE: the oldest result on the way is written; an operation whose last one it was has ended. -/
def State.resultWrite (s : State) (core : Nat) : State :=
  match s.results.find? (fun r => r.core == core) with
  | none => s
  | some r =>
      let s := { s with results := s.results.erase r }
      let s := r.cells.foldl (fun s e => s.cribW core e.1 (leBytes e.2.toNat 4)) s
      if r.last then { s with ops := del s.ops r.op } else s

/-- FUSED_SET_CLOSE (R305). -/
def State.closeSet (s : State) (n : Nat) : State :=
  match find s.sets n with
  | none => s
  | some st =>
      if st.closed.isNone && (decide (16 ≤ (s.setOps n).length) || decide (st.openedAt + 8 ≤ s.now)) then
        { s.tick with sets := put s.sets n { st with closed := some s.ticket } }
      else s

/-- BATCH_END: the group's oldest closed batch ends when every operation up to it has (R308, R309). -/
def State.batchEnd (s : State) (u : Nat) : State :=
  match find s.units u with
  | none => s
  | some g =>
      match g.closed with
      | [] => s
      | b :: r =>
          if s.ops.any (fun e => e.2.unit == u && some e.2.gang == g.gang && decide ((b + 65536 - e.2.batch) % 65536 < 32768))
          then s
          else
            let s := s.putU u { g with closed := r, fallback := g.fallback + look 0 g.fbBatch b, fbBatch := del g.fbBatch b }
            s.modCtx (g.ctx.getD 0) (fun k => { k with deadlock := 0 })

/-- MMA (R302). -/
def execMma (c a : BitVec 5) (b : Reg) (z : BitVec 1) (s : State) : Out :=
  issue (Instr.sig (.mma c a b z)) s (fun x s => x.mma s c a false false (z == 1#1) false false (fun _ => x.handleOf b 0))

/-- MMA.Z (R302). -/
def execMmaZ (c a : BitVec 5) (b : Reg) (z : BitVec 1) (s : State) : Out :=
  issue (Instr.sig (.mmaZ c a b z)) s (fun x s => x.mma s c a true false (z == 1#1) false false (fun _ => x.handleOf b 0))

/-- MMA.T (R302). -/
def execMmaT (c a : BitVec 5) (b : Reg) (z : BitVec 1) (s : State) : Out :=
  issue (Instr.sig (.mmaT c a b z)) s (fun x s => x.mma s c a false true (z == 1#1) false false (fun _ => x.handleOf b 0))

/-- MMAS (R302). -/
def execMmas (c a : BitVec 5) (b : Reg) (z : BitVec 1) (s : State) : Out :=
  issue (Instr.sig (.mmas c a b z)) s (fun x s => x.mma s c a false false (z == 1#1) true false (fun _ => x.handleOf b 0))

/-- MMAX: octet `k` names its handle in lane 8k (R303). -/
def execMmax (c a : BitVec 5) (b : Reg) (z : BitVec 1) (s : State) : Out :=
  issue (Instr.sig (.mmax c a b z)) s (fun x s =>
    x.mma s c a false false (z == 1#1) false true (fun k => x.handleOf b (8 * k)))

/-- CRES (R287). -/
def execCres (c : BitVec 5) (a : Reg) (s : State) : Out := issue (Instr.sig (.cres c a)) s (fun x s => x.cres s c a)

/-- CREL (R287). -/
def execCrel (c : BitVec 5) (s : State) : Out := issue (Instr.sig (.crel c)) s (fun x s => .retire (x.crel s c) x.g)

/-- CZERO (R289). -/
def execCzero (c : BitVec 5) (s : State) : Out := issue (Instr.sig (.czero c)) s (fun x s => x.czero s c)

/-- MROW (R290). -/
def execMrow (a : Reg) (s : State) : Out := issueG (Instr.sig (.mrow a)) s (fun x => { x.g with rowMask := x.g.rd2 a 0 })

/-- MCOL (R290). -/
def execMcol (a : Reg) (s : State) : Out := issueG (Instr.sig (.mcol a)) s (fun x => { x.g with colMask := x.g.rd4 a 0 })

/-- SIEVE.RD (R313). -/
def execSieveRd (d a : Reg) (s : State) : Out :=
  issueG (Instr.sig (.sieveRd d a)) s (fun x =>
    x.g.wr d x.lanes (fun l => look 0 x.g.bins ((x.g.rd a l).toNat % 32)))

/-- SIEVE.CLR (R313). -/
def execSieveClr (s : State) : Out := issueG (Instr.sig .sieveClr) s (fun x => { x.g with bins := [] })

/-- SIEVE.CFG (R313). -/
def execSieveCfg (a : Reg) (q : BitVec 4) (s : State) : Out :=
  issueG (Instr.sig (.sieveCfg a q)) s (fun x =>
    { x.g with sieveBase := (x.g.rd a 0).toNat % 256, sieveCap := x.qs q })

/-- FUSED_SET_CLOSE (R305). -/
def execFusedSetClose (n : Nat) (s : State) : Out := .next (s.closeSet n)

/-- PASS (R306). -/
def execPass (core : Nat) (s : State) : Out := .next (s.pass core)

/-- CRIB_RESULT_WRITE (R306). -/
def execCribResultWrite (core : Nat) (s : State) : Out := .next (s.resultWrite core)

/-- BATCH_END (R308). -/
def execBatchEnd (u : Nat) (s : State) : Out := .next (s.batchEnd u)

end Sys2Proof.Machine
end

