-- ==== Sys2Proof/Machine/Loft.lean ====
section
/-! DEFINITION. Loft handles, major 0x23 (R291 to R297). -/
namespace Sys2Proof.Machine

/-- The handle of an instruction, when its context holds it. -/
def Iss.held (x : Iss) (s : State) (a : Reg) (k : Nat → Handle → Res) : Res :=
  let n := x.handleOf a 0
  let h := s.handle (unitCore x.u) n
  if h.holder.isNone ∨ h.holder ≠ x.g.ctx then x.handleBad n
  else if s.handleErr (unitCore x.u) n then .fault (x.failPlain ⟨0x18, 3, n⟩ x.low)
  else k n h

/-- Three granules of scratch at an offset (R294). -/
def Iss.three (x : Iss) (b : Reg) : List SAcc :=
  (List.range 3).map (fun i => ⟨x.low, (((x.g.rd b 0).toNat + 16 * i : Nat) : Int)⟩)

/-- LHSET. -/
def Iss.lhset (x : Iss) (s : State) (a b : Reg) : Res :=
  let n := x.handleOf a 0
  let core := unitCore x.u
  let h := s.handle core n
  let as := x.three b
  if h.holder.isSome ∧ h.holder ≠ x.g.ctx then x.handleBad n
  else if hState h = 3 then x.handleBad n
  else match x.scrFault s 16 false as with
    | some f => .fault f
    | none =>
        let cs := as.map (fun c => s.swept x.g.vd (s.scrCap x.gangNo c.off.toNat))
        let bits := (cs.foldr (fun c n => c.bits.toNat + 2 ^ 128 * n) 0)
        let r : Handle := ⟨BitVec.ofNat 384 bits, (cs.getD 2 Cap.null).tag, (cs.getD 1 Cap.null).tag, x.g.ctx⟩
        if !(handleOk r) then x.handleBad n
        else if hState h = 1 ∨ s.loftBusy core n then .wait s .internal
        else .retire ((x.scrNote s 16 false as).setHandle core n (r.setState 0)) (x.scrG x.g)

/-- LHSET.REL. -/
def Iss.lhrel (x : Iss) (s : State) (a : Reg) : Res :=
  x.held s a (fun n h =>
    if hState h = 3 then x.handleBad n
    else if hState h = 1 ∨ s.loftBusy (unitCore x.u) n then .wait s .internal
    else .retire (s.setHandle (unitCore x.u) n { h.setState 0 with holder := none }) x.g)

/-- LHGET. -/
def Iss.lhget (x : Iss) (s : State) (a b : Reg) : Res :=
  x.held s a (fun _ h =>
    let as := x.three b
    match x.scrFault s 16 true as with
    | some f => .fault f
    | none =>
        let c (i : Nat) (t : Bool) : Cap := s.swept x.g.vd ⟨h.bits.extractLsb' (128 * i) 128, t⟩
        let at_ (i : Nat) : Nat := (x.g.rd b 0).toNat + 16 * i
        let t := x.scrNote s 16 true as
        .retire (((t.scrCapW x.gangNo (at_ 0) (c 0 false)).scrCapW x.gangNo (at_ 1) (c 1 h.backTag)).scrCapW x.gangNo
          (at_ 2) (c 2 h.ctrTag)) (x.scrG x.g))

/-- LHPIN. -/
def Iss.lhpin (x : Iss) (s : State) (a : Reg) : Res :=
  x.held s a (fun n h =>
    match hState h with
    | 0 => x.handleBad n
    | 1 => .wait s .internal
    | _ => .retire (s.setHandle (unitCore x.u) n (h.setState 3)) x.g)

/-- LHUNPIN. -/
def Iss.lhunpin (x : Iss) (s : State) (a : Reg) : Res :=
  x.held s a (fun n h =>
    .retire (if hState h = 3 then s.setHandle (unitCore x.u) n (h.setState 2) else s) x.g)

/-- LHSET (R294). -/
def execLhset (a b : Reg) (s : State) : Out := issue (Instr.sig (.lhset a b)) s (fun x s => x.lhset s a b)

/-- LHSET.REL (R294). -/
def execLhsetRel (a : Reg) (s : State) : Out := issue (Instr.sig (.lhsetRel a)) s (fun x s => x.lhrel s a)

/-- LHGET (R294). -/
def execLhget (a b : Reg) (s : State) : Out := issue (Instr.sig (.lhget a b)) s (fun x s => x.lhget s a b)

/-- LHPIN (R294). -/
def execLhpin (a : Reg) (s : State) : Out := issue (Instr.sig (.lhpin a)) s (fun x s => x.lhpin s a)

/-- LHUNPIN (R294). -/
def execLhunpin (a : Reg) (s : State) : Out := issue (Instr.sig (.lhunpin a)) s (fun x s => x.lhunpin s a)

end Sys2Proof.Machine
end

