-- ==== Sys2Proof/Machine/Ipc.lean ====
section
/-! DEFINITION. Messages: endpoints, replies, notifications (R76 to R82, R210 to R212, R466), SVC batches as they end
(R83, R84, R371, R372), and the instructions of major 0x2A. -/
namespace Sys2Proof.Machine

/-! Info words (R78). -/

def msgWords (info : Nat) : Nat := min 8 (fld info 20 4)
def msgCaps (info : Nat) : Nat := min 4 (fld info 24 3)

def infoWord (status : Nat) (call : Bool) (c n badge : Nat) : Word :=
  BitVec.ofNat 32 (status * 2 ^ 28 + (if call then 2 ^ 27 else 0) + c * 2 ^ 24 + n * 2 ^ 20 + badge)

/-- The number of an endpoint or notification: the physical address of the live object, the place of one at a peer, or a
number of its own. Where a capability's bits name a live object here and one at a peer, which one is meant is free.
DESIGN CHOICE: notes/assumptions/59.md. -/
def State.objId (s : State) (otype vd base : Nat) : Nat :=
  match s.obj? otype vd base, s.farOf otype vd base with
  | some o, none => o.pa
  | some o, some m => if Config.freePick s.free base % 2 = 0 then o.pa else peerKey m base
  | none, some m => peerKey m base
  | none, none => 2 ^ 58 + base

/-- The peer at which an endpoint or notification lies, by its number (R87). -/
def farModule (id : Nat) : Option Nat := if id < 2 ^ 60 then none else some (id / 2 ^ 60 - 1)

/-- A capability as it leaves for a peer: a sealed token, if it is tagged and GLOBAL and its otype may travel; otherwise
untagged (R86). -/
def Cap.sealedOut (c : Cap) : Cap :=
  if c.tag && c.has pGLOBAL && ([0, 1, 2, 7, 8].contains c.otype || decide (256 ≤ c.otype)) then c else ⟨c.bits, false⟩

/-- A frame of a VD leaves for a peer through the Furrow queue: in a round that starts now, or it waits for its own
(R398, R400, R401). Its sender does not wait for it. -/
def State.sendOut (s : State) (vd : Nat) (f : Frame) : State :=
  let r : Req := ⟨4, 0, vd, 1, s.ticket, .frame f⟩
  let ws := s.waiting 4 0
  let c := s.classOf (ws ++ [r]) r
  if c = 3 ∨ ws.any (fun x => decide (s.classOf ws x ≤ c)) then s.request 4 0 vd 1 (.frame f)
  else { s.charge c r with sent := f :: s.sent }

/-- OPEN lanes of a list are doomed for touching another module (R143, R258). -/
def Grp.abroad (g : Grp) (ls : List Nat) : Grp := ls.foldl (fun g l => g.doom 4 l) g

/-- A message whose capabilities a mark has met since they were placed in it arrives with their tags clear (R88). -/
def State.freshMsg (s : State) (vd : Nat) (m : Msg) : Msg := { m with caps := m.caps.map (s.swept vd) }

/-- A message from a group's registers. A waiting sender's info word and badge are those of its issue, its words and
capabilities those of its registers when the transfer is made. DEDUCED: notes/assumptions/35.md. -/
def State.message (s : State) (g : Grp) (ctl : Bool) (info badge : Nat) : Msg :=
  { badge := badge
    words := (List.range (msgWords info)).map (fun i => if ctl then look 0 g.v (64 * i) else look 0 g.s i)
    caps := (List.range (msgCaps info)).map (fun i => s.swept g.vd (g.qr i).sent) }

/-- The registers of a receiver (R78, R211): words, capabilities, q4, and the info word in sd, written last.
DEDUCED: notes/assumptions/34.md. -/
def Grp.takeMsg (g : Grp) (ctl : Bool) (m : Msg) (q4 : Cap) (rd : Nat) (status : Nat := 0) : Grp :=
  let g := (List.range 8).foldl (fun g i =>
    if ctl then g.wrV i 0 (m.words.getD i 0) else g.wrS i (m.words.getD i 0)) g
  let g := (List.range 4).foldl (fun g i => g.qw i (m.caps.getD i Cap.null)) g
  (g.qw 4 q4).wrS rd (infoWord status m.reply.isSome m.caps.length m.words.length m.badge)

/-- A service gang's CURVD follows the batch that it receives (R349, R371). -/
def Grp.curvd (g : Grp) (vd : Option Nat) : Grp :=
  match vd with
  | none => g
  | some v => { g.ownW 0x0002 (BitVec.ofNat 64 v) with vd := v }

/-- A waiting path completes its instruction: its group's registers change, and it goes on at the next word. OPEN lanes
are doomed (R258): all of the path's, or those given. -/
def State.complete (s : State) (u : Nat) (b : Bool) (f : Grp → Grp) (lanes : Option (List Nat) := none) : State :=
  match find s.units u with
  | none => s
  | some g =>
      match g.slot b with
      | none => s
      | some p =>
          let g := (f g).forbid (lanes.getD (lanesOf g.width p.mask))
          (s.putU u (g.goTo (s.genOf g) b (p.pc + 4))).noteRetire ⟨u, b, g, p, 0⟩

/-- The path of an instruction that waits for the hardware's answer. -/
def Iss.caller (x : Iss) : Caller := ⟨x.u, x.g.gang, x.low⟩

/-- A waiting instruction completes with a status in sd, if its path is in a slot. -/
def State.answerCaller (s : State) (c : Caller) (rd st : Nat) : Option State :=
  match find s.units c.unit with
  | none => none
  | some g =>
      let here (b : Bool) : Bool := g.gang == c.gang
        && (g.slot b).any (fun p => p.mask.getLsbD c.lane && p.wait == some .other)
      if here false then some (s.complete c.unit false (fun g => g.wrS rd (BitVec.ofNat 32 st)))
      else if here true then some (s.complete c.unit true (fun g => g.wrS rd (BitVec.ofNat 32 st)))
      else none

/-! Replies (R79). -/

/-- The capability of a reply: otype 1, SEND only, 4 bytes long, where an endpoint's has 65,536 (R355).
DESIGN CHOICE: notes/assumptions/33.md. -/
def replyBits (base : Nat) : Cap :=
  ⟨BitVec.ofNat 128 ((base <<< 64) + (pSEND <<< 48) + (1 <<< 36) + (2 <<< 30) + ((base / 4 % 2 ^ 15) <<< 15) + 1), true⟩

/-- The reply that a capability names. -/
def State.replyOf (s : State) (c : Cap) : Option (Nat × Reply) :=
  if c.top - c.base = 4 then s.replies.find? (fun e => decide ((e.2.base : Int) = c.base)) else none

/-- A new reply capability; which address it shows is a free value in its upper bits.
DESIGN CHOICE: notes/assumptions/33.md. -/
def State.newReply (s : State) (whom : ReplyTo) (server : Option Nat) : State × Nat :=
  let n := freshKey s.replies
  let base := 4 * ((s.freeVal % 2 ^ 15) * 2 ^ 40 + n % 2 ^ 40)
  ({ s.draw with replies := put s.replies n { dest := whom, server := server, base := base } }, n)

/-- The capability of a reply. -/
def State.replyCap (s : State) (n : Option Nat) : Cap :=
  match n.bind (fun n => find s.replies n) with
  | none => Cap.null
  | some r => replyBits r.base

/-- The VD of the batch that a reply belongs to. -/
def State.batchVd (s : State) (n : Option Nat) : Option Nat :=
  match (n.bind (fun n => find s.replies n)).map (fun (r : Reply) => r.dest) with
  | some (ReplyTo.batch id) => (find s.batches id).map (fun b => b.vd)
  | _ => none

/-- The key of a host slot. -/
def slotKey (vd slot : Nat) : Nat := 16 * vd + slot

/-- The context that receives a CALL is the one that serves it; a host slot's status follows (R467). -/
def State.serve (s : State) (n : Option Nat) (ctx : Option Nat) (vd : Option Nat) : State :=
  match n.bind (fun n => (find s.replies n).map (fun r => (n, r))) with
  | none => s
  | some (n, r) =>
      let t : State := { s with replies := put s.replies n { r with server := ctx, vd := vd } }
      match r.dest with
      | .hostSlot vd k => { t with slots := put t.slots (slotKey vd k) { look {} t.slots (slotKey vd k) with status := 2 } }
      | _ => t

/-! SVC batches as they end (R83, R84, R371). -/

/-- Every lane of a batch receives a status, with results that the manual does not give. -/
def State.batchStatus (s : State) (b : Batch) (lanes : List Nat) (st : Nat) : State :=
  let r (l i : Nat) : Word := BitVec.ofNat 32 (Config.freeNat (s.free + 3 * l + i))
  let s := { s with free := s.free + 192 }
  s.complete b.unit b.slotB (lanes := some lanes) (fun g => lanes.foldl (fun g l =>
    (((g.wrV b.rd l (BitVec.ofNat 32 st)).wrV (b.rd + 1) l (r l 0)).wrV (b.rd + 2) l (r l 1)).wrV (b.rd + 3) l (r l 2)) g)

/-- Does the path of a batch still sleep in it? -/
def State.asleep (s : State) (id : Nat) (b : Batch) : Bool :=
  ((find s.units b.unit).bind (fun g => (g.slot b.slotB).bind (fun p => p.wait))) == some (.service id)

/-- A batch leaves with a status in every lane; a reply to it finds no caller (R79, R372). -/
def State.svcEnd (s : State) (id : Nat) (st : Nat) : State :=
  match find s.batches id with
  | none => s
  | some b =>
      let s := { s with
        batches := del s.batches id
        replies := s.replies.map (fun (e : Nat × Reply) => if e.2.dest = ReplyTo.batch id then (e.1, { e.2 with live := false }) else e)
        reqs := s.reqs.filter (fun (r : Req) => r.what != ReqWhat.batch id) }
      if s.asleep id b then s.batchStatus b (b.entries.map Prod.fst) st else s

/-- The place of a record slot of a die (R371). -/
def State.slotAt (s : State) (die slot : Nat) : Nat :=
  fld (s.sysR 0x0010 die 0 0).toNat 21 35 * 2 ^ 21 + 4096 * slot

/-- A served batch is delivered: each entry's reply words go into its lane, and the slot is free (R371). -/
def State.batchDone (s : State) (id : Nat) : State :=
  match find s.batches id with
  | none => s
  | some b =>
      let at_ := s.slotAt b.die (b.slot.getD 0)
      let w (i k : Nat) : Word := BitVec.ofNat 32 (s.openRn (at_ + 64 + 48 * i + 32 + 4 * k) 4)
      let t := { s with batches := del s.batches id }
      if s.asleep id b then
        t.complete b.unit b.slotB (lanes := some (b.entries.map Prod.fst)) (fun g => ((b.entries.map Prod.fst).mapIdx (fun i l => (i, l))).foldl (fun g e =>
          (List.range 4).foldl (fun g k => g.wrV (b.rd + k) e.2 (w e.1 k)) g) g)
      else t

/-! Host slots (R467). -/

/-- The reply area is written, and then the status. -/
def State.slotReply (s : State) (vd slot status : Nat) (m : Msg) : State :=
  let k := slotKey vd slot
  let info := infoWord status false 0 m.words.length 0
  { s with slots := store {} s.slots k { look {} s.slots k with
      status := 3, reply := info :: (List.range 8).map (fun i => m.words.getD i 0) } }

/-- A reply by an agent of a VD is delivered (R79, R211, R341). -/
def State.answer (s : State) (vd n : Nat) (r : Reply) (m : Msg) : State × Bool :=
  let t := { s with replies := put s.replies n { r with live := false } }
  match r.dest with
  | .path u b =>
      match ((find s.units u).bind (fun g => g.slot b)).bind (fun p => p.wait) with
      | some (.calling k rd) =>
          if k = n then (t.complete u b (fun g => g.takeMsg (isControl u) m Cap.null rd), true) else (t, false)
      | _ => (t, false)
  | .handler c =>
      let a := match m.words with
        | [] => 0
        | w :: _ => if w.toNat ≤ 2 then w.toNat else 0
      (t.modCtx c (fun k => if k.reply = some n then { k with act := some (a, true), reply := none } else k), true)
  | .batch id => (t.batchDone id, true)
  | .hostSlot vd k => (t.slotReply vd k 0 m, true)
  | .peer p id => (t.sendOut vd (.reply p id 0 m.words (m.caps.map Cap.sealedOut)), true)

/-! Endpoints (R77). -/

/-- A party at an endpoint. -/
structure Party where
  u : Nat
  b : Bool
  ticket : Nat
  wait : Wait
  deriving DecidableEq, Repr

/-- Every path that waits in a slot of a unit that runs: a halt takes a party out of its queue (R82). -/
def State.parties (s : State) : List (Nat × Bool × Wait) :=
  (s.units.filter (fun e => !e.2.stopped)).flatMap (fun e => [false, true].filterMap (fun b =>
    ((e.2.slot b).bind (fun p => p.wait)).map (fun w => (e.1, b, w))))

/-- The earliest of some parties. -/
def firstParty : List Party → Option Party
  | [] => none
  | p :: r => match firstParty r with
      | none => some p
      | some q => if q.ticket < p.ticket then some q else some p

/-- The head of the receivers' queue. -/
def State.receiver (s : State) (ep : Nat) : Option Party :=
  firstParty (s.parties.filterMap (fun e => match e.2.2 with
    | .receiving k t _ => if k = ep then some ⟨e.1, e.2.1, t, e.2.2⟩ else none
    | _ => none))

/-- The head of the senders' queue, posts apart. -/
def State.sender (s : State) (ep : Nat) : Option Party :=
  firstParty (s.parties.filterMap (fun e => match e.2.2 with
    | .sending k t _ _ _ _ => if k = ep then some ⟨e.1, e.2.1, t, e.2.2⟩ else none
    | _ => none))

def Wait.rd : Wait → Nat
  | .receiving _ _ rd => rd
  | .sending _ _ _ rd _ _ => rd
  | .calling _ rd => rd
  | .notified _ rd => rd
  | _ => 0

/-- The endpoint or notification that a wait is at. -/
def Wait.ep : Wait → Nat
  | .receiving k _ _ => k
  | .sending k _ _ _ _ _ => k
  | .notified k _ => k
  | _ => 0

/-- A message reaches a waiting receiver. -/
def State.deliver (s : State) (p : Party) (m : Msg) : State :=
  let taker := find s.units p.u
  let m := s.freshMsg ((taker.map (fun g => g.vd)).getD 0) m
  let s := s.serve m.reply (taker.bind (fun g => g.ctx)) (taker.map (fun g => g.vd))
  let vd := s.batchVd m.reply
  let q4 := s.replyCap m.reply
  s.complete p.u p.b (fun g =>
    let g := if (farModule p.wait.ep).isSome then g.abroad ((g.slot p.b).map (fun y => lanesOf g.width y.mask)).toList.flatten
      else g
    (g.takeMsg (isControl p.u) m q4 p.wait.rd).curvd vd)

/-- The sender that waits at a peer learns that its message was taken, or the STATUS with which its wait ends (R87, R466). -/
def State.tellPeer (s : State) (vd ep : Nat) (peer : Option Nat) (status : Nat := 0) : State :=
  match peer with
  | none => s
  | some p => s.sendOut vd (.matched p ep status)

/-- A message of a sender that is no path here: delivered, or queued. -/
def State.post (s : State) (ep : Nat) (m : Msg) (peer : Option Nat := none) : State :=
  match s.receiver ep with
  | some p => (s.deliver p m).tellPeer (((find s.units p.u).map (fun g => g.vd)).getD 0) ep peer
  | none => { s.tick with posts := s.posts ++ [⟨ep, s.ticket, m, peer⟩] }

/-- Does an endpoint belong to another VD whose reset runs (R466)? -/
def State.resetEp (s : State) (vd base : Nat) : Bool :=
  match s.obj? 1 vd base with
  | none => false
  | some o => o.vd != vd && (s.vd? o.vd).resetting

/-- sd of a path. -/
def sdOf (d : Reg) : Nat := d.toNat - 96

/-- A reply through a reply capability (R211): it never waits. -/
def Iss.replyOn (x : Iss) (s : State) (d : Reg) (info n : Nat) (r : Reply) : Res :=
  let none_ := x.toS d 0x2000_0000
  if !r.live then .retire s (none_.forbid x.lanes)
  else
    let m := s.message x.g (isControl x.u) info 0
    let t := (s.putU x.u x.g).answer x.g.vd n r m
    let g := (find t.1.units x.u).getD x.g
    .retire t.1 ((if t.2 then g.wrS (sdOf d) (infoWord 0 false m.caps.length m.words.length 0)
      else g.wrS (sdOf d) 0x2000_0000#32).forbid x.lanes)

/-- The frame of a message to an endpoint at a peer. -/
def outMessage (vd m ep : Nat) (k : Msg) : Frame :=
  .message vd (ep % 2 ^ 60) m k.badge k.words (k.caps.map Cap.sealedOut) k.reply

/-- A SEND or CALL to an endpoint at a peer is matched there (R87): it waits, and its message leaves at the match. Whether
a receiver waits there for an NBSEND is free. DESIGN CHOICE: notes/assumptions/59.md. -/
def Iss.sendFar (x : Iss) (s : State) (d : Reg) (c : Cap) (info ep m : Nat) (call wait : Bool) : Res :=
  let g := x.g.abroad x.lanes
  if s.lost.contains m then .fault (x.failPlain ⟨0x19, 0, BitVec.toNat (c.bits.extractLsb' 64 64)⟩ x.low)
  else match s.pay x.ag (4, 0, 1) with
    | .error t => .wait t .external
    | .ok t =>
        if wait then .wait t.tick (.sending ep t.ticket call (sdOf d) info c.badge)
        else if t.freeVal % 2 = 0 then .retire t.draw (({ x with g := g } : Iss).toS d 0x1000_0000)
        else
          let k := t.message x.g (isControl x.u) info c.badge
          .retire { t.draw with sent := outMessage x.g.vd m ep k :: t.sent }
            (({ x with g := g } : Iss).toS d (infoWord 0 false k.caps.length k.words.length 0).toNat)

/-- SEND, CALL, and NBSEND, which does not wait. -/
def Iss.sendOn (x : Iss) (s : State) (d a : Reg) (q : BitVec 4) (call wait : Bool) : Res :=
  let c := x.qs q
  match objCheck c 1 pSEND with
  | .error f => .fault (x.fail f x.low c q.toNat)
  | .ok base =>
      let info := (x.g.rd a 0).toNat
      match s.replyOf c with
      | some (n, r) => x.replyOn s d info n r
      | none =>
          let ep := s.objId 1 x.g.vd base
          if s.resetEp x.g.vd base then .retire s ((x.toS d 0x3000_0000).forbid x.lanes)
          else match farModule ep with
          | some m => x.sendFar s d c info ep m call wait
          | none => match s.receiver ep with
            | none =>
                if wait then .wait s.tick (.sending ep s.ticket call (sdOf d) info c.badge)
                else .retire s ((x.toS d 0x1000_0000).forbid x.lanes)
            | some p =>
                let m := s.message x.g (isControl x.u) info c.badge
                let t := s.putU x.u x.g
                if call then
                  let r := t.newReply (.path x.u x.b) none
                  .wait (r.1.deliver p { m with reply := some r.2 }) (.calling r.2 (sdOf d))
                else
                  let t := t.deliver p m
                  let g := (find t.units x.u).getD x.g
                  .retire t ((g.wrS (sdOf d) (infoWord 0 false m.caps.length m.words.length 0)).forbid x.lanes)

/-- RECV. -/
def Iss.recvOn (x : Iss) (s : State) (d : Reg) (q : BitVec 4) : Res :=
  let c := x.qs q
  match objCheck c 1 pRECV with
  | .error f => .fault (x.fail f x.low c q.toNat)
  | .ok base =>
      let ep := s.objId 1 x.g.vd base
      let post := s.posts.find? (fun p => p.ep == ep)
      let t := s.putU x.u x.g
      let far := (farModule ep).isSome
      let take (t : State) (m : Msg) : Res :=
        let t := t.serve m.reply x.g.ctx (some x.g.vd)
        let g := (find t.units x.u).getD x.g
        let g := if far then g.abroad x.lanes else g
        .retire t (((g.takeMsg (isControl x.u) m (t.replyCap m.reply) (sdOf d)).curvd (t.batchVd m.reply)).forbid x.lanes)
      let takePost (k : Post) : Res :=
        take (({ t with posts := t.posts.erase k } : State).tellPeer x.g.vd ep k.peer) (t.freshMsg x.g.vd k.msg)
      match s.sender ep, post with
      | none, none => .wait s.tick (.receiving ep s.ticket (sdOf d))
      | some p, post =>
          match (post.filter (fun (k : Post) => decide (k.ticket < p.ticket))), p.wait with
          | some k, _ => takePost k
          | none, .sending _ _ call rd info badge =>
              let gs := (find t.units p.u).getD x.g
              let m := s.message gs (isControl p.u) info badge
              if call then
                let r := t.newReply (.path p.u p.b) x.g.ctx
                let gs := gs.setSlot p.b ((gs.slot p.b).map (fun y => { y with wait := some (.calling r.2 rd) }))
                take (r.1.putU p.u gs) { m with reply := some r.2 }
              else
                take (t.complete p.u p.b (fun g => g.wrS rd (infoWord 0 false m.caps.length m.words.length 0))) m
          | none, _ => .wait s .external
      | none, some k => takePost k

/-- SIGNAL. -/
def Iss.signalOn (x : Iss) (s : State) (q : BitVec 4) : Res :=
  let c := x.qs q
  match objCheck c 2 pSEND with
  | .error f => .fault (x.fail f x.low c q.toNat)
  | .ok base =>
      let id := s.objId 2 x.g.vd base
      match farModule id with
      | none => .retire (s.noteOr id c.badge) (x.g.forbid x.lanes)
      | some m =>
          if s.lost.contains m then .fault (x.failPlain ⟨0x19, 0, id % 2 ^ 60⟩ x.low)
          else .retire ((s.noteOr id c.badge).sendOut x.g.vd (.signal x.g.vd m (id % 2 ^ 60) c.badge)) (x.g.abroad x.lanes)

/-- WAITN: on a notification, or on an interrupt line. -/
def Iss.waitnOn (x : Iss) (s : State) (d : Reg) (q : BitVec 4) : Res :=
  let c := x.qs q
  let ot := if c.otype = 5 then 5 else 2
  match objCheck c ot pRECV with
  | .error f => .fault (x.fail f x.low c q.toNat)
  | .ok base =>
      let id := s.objId ot x.g.vd base
      let w := noteWord s id
      let g := if (farModule id).isSome then x.g.abroad x.lanes else x.g
      if w = 0 then .wait s (.notified id (sdOf d)) else .retire (s.rawW id 2 0) ((({ x with g := g } : Iss).toS d w).forbid x.lanes)

/-- SEND (R210). -/
def execSend (d a : Reg) (q : BitVec 4) (s : State) : Out :=
  issue (sigSend d a q) s (fun x s => x.sendOn s d a q false true)

/-- RECV (R210). -/
def execRecv (d : Reg) (q : BitVec 4) (s : State) : Out := issue (sigRecv d q) s (fun x s => x.recvOn s d q)

/-- CALL (R210). -/
def execCallMsg (d a : Reg) (q : BitVec 4) (s : State) : Out :=
  issue (sigCallMsg d a q) s (fun x s => x.sendOn s d a q true true)

/-- REPLY (R210, R211): through an endpoint that is no reply capability, as NBSEND. -/
def execReply (d a : Reg) (q : BitVec 4) (s : State) : Out :=
  issue (sigReply d a q) s (fun x s => x.sendOn s d a q false false)

/-- NBSEND (R80, R210). -/
def execNbsend (d a : Reg) (q : BitVec 4) (s : State) : Out :=
  issue (sigNbsend d a q) s (fun x s => x.sendOn s d a q false false)

/-- SIGNAL (R80, R210). -/
def execSignal (q : BitVec 4) (s : State) : Out := issue (sigSignal q) s (fun x s => x.signalOn s q)

/-- WAITN (R80, R210). -/
def execWaitn (d : Reg) (q : BitVec 4) (s : State) : Out := issue (sigWaitn d q) s (fun x s => x.waitnOn s d q)

end Sys2Proof.Machine
end

