-- ==== Sys2Proof/Machine/Kcall.lean ====
section
/-! DEFINITION. Kernel calls, major 0x2B: SPAWN, JOIN, SVC and REVOKE (R83 to R85, R213 to R217, R371, R429). -/
namespace Sys2Proof.Machine

/-! SPAWN. -/

/-- A record from its granules: bits and tags. -/
def recordBits (cs : List Cap) : BitVec 6144 :=
  BitVec.ofNat 6144 (cs.foldr (fun c n => c.bits.toNat + 2 ^ 128 * n) 0)

def recordTagBits (cs : List Cap) : BitVec 48 :=
  BitVec.ofNat 48 (cs.foldr (fun c n => (if c.tag then 1 else 0) + 2 * n) 0)

/-- SPAWN. -/
def Iss.spawn (x : Iss) (s : State) (d : Reg) (q : BitVec 4) : Res :=
  let c := x.qs q
  match capCheck c 0 768 pLOAD with
  | .error f => .fault (x.fail f x.low c q.toNat)
  | .ok va =>
      match placesFrom s x.ag { r := true } va 48 with
      | .error f => .fault (x.failPlain f x.low)
      | .ok ps =>
          match x.gate s false (ps.map (fun p => ⟨x.low, p⟩)) with
          | some t => .wait t.1 t.2
          | none =>
              let cs := (s.getCaps ps).map (fun k => if c.has pLOADCAP then k else ⟨k.bits, false⟩)
              let bits := recordBits cs
              let l : Launch :=
                { vd := x.g.vd, num := 0, ctx := 0, bits := bits, tags := recordTagBits cs, kern := x.g.kern,
                  aspace := x.g.aspace, region := 0 }
              if s.intakeFull x.g.vd l.regionCap then .wait s .internal
              else
                let r := (s.touchAll x.ag false ps).submit x.g.vd bits (recordTagBits cs)
                .retire r.1 ({ x with g := x.remote false (ps.map (fun p => ⟨x.low, p⟩)) }.toS d r.2)

/-! JOIN. -/

/-- JOIN. DEDUCED: notes/assumptions/71.md. -/
def Iss.join (x : Iss) (s : State) (a : Reg) (q : BitVec 4) : Res :=
  match x.timeline s q { r := true } with
  | .error f => .fault f
  | .ok k =>
      match x.gate s false [k] with
      | some t => .wait t.1 t.2
      | none =>
          let t := s.touch x.ag false k.pl
          let n := (x.g.rd2 a 0).toNat
          let tl := k.pl.keys.headD 0
          if n ≤ s.tlDone tl then .retire t (x.remote false [k]) else .wait t (.timelines [((x.qs q).cursor, n)])

/-! SVC. -/

/-- The live service endpoint of a die (R371). -/
def State.serviceEp (s : State) (die : Nat) : Option Obj :=
  let pa := fld (s.sysR 0x0011 die 0 0).toNat 6 50 * 64
  if pa = 0 then none else s.objs.find? (fun o => o.otype == 1 && o.pa == pa)

/-- The die whose service core a call goes to (R83, R85). DEDUCED: notes/assumptions/36.md. -/
def Iss.serviceDie (x : Iss) (s : State) : Option Nat :=
  match unitDie x.u with
  | some d => some d
  | none => (s.partOfVd x.g.vd).bind (fun p => (s.diesOf p).find? s.online)

/-- SVC. -/
def Iss.svc (x : Iss) (s : State) (d a : Reg) : Res :=
  let ls := x.lanes
  let entries := ls.map (fun l => (l, (List.range 8).map (fun i => x.g.rd (Reg.plus a i) l)))
  let b (die : Nat) : Batch :=
    { die := die, vd := x.g.vd, unit := x.u, slotB := x.b, rd := d.toNat, mask := x.act, entries := entries, age := s.ticket }
  match (x.serviceDie s).filter (fun k => (s.serviceEp k).isSome) with
  | none =>
      let r (l i : Nat) : Word := BitVec.ofNat 32 (Config.freeNat (s.free + 3 * l + i))
      let g := ls.foldl (fun (g : Grp) l => (((g.wrV d.toNat l 3#32).wrV (d.toNat + 1) l (r l 0)).wrV (d.toNat + 2) l
        (r l 1)).wrV (d.toNat + 3) l (r l 2)) x.g
      .retire { s with free := s.free + 192 } (g.forbid ls)
  | some die =>
      let id := s.ticket
      let s := { s with batches := put s.batches id (b die) }
      .wait (s.request 3 die x.g.vd ls.length (.batch id)) (.service id)

/-! REVOKE. -/

/-- The ranges of a VD's region table that a region owns, itself or through its descendants (R428, R429). -/
def State.regionRanges (s : State) (u : Nat) (g : Obj) : List (Nat × Nat) :=
  let r := (s.sysR 0x0101 0 u 0).toNat
  let base := fld r 17 39 * 2 ^ 17
  (List.range (fld r 0 13)).filterMap (fun k =>
    let e := s.openRn (base + 32 * k) 16
    let c : Cap := if (s.protOf (base + 32 * k + 16)).isSome then Cap.null else s.capAt (base + 32 * k + 16)
    if fld e 96 32 = 0 ∧ fld e 45 19 = 0 ∧ c.tag = true ∧ c.otype = 6
        ∧ (s.regionLine u (wrap 64 c.base)).any (fun o => o.pa == g.pa) then
      some (fld e 0 45 * 4096, (fld e 0 45 + fld e 64 32) * 4096)
    else none)

/-- Marked ranges that a partition holds. -/
def State.marksIn (s : State) (p : Nat) : Nat := (s.rmarks.filter (fun m => m.part == p)).length

/-- The epoch of a VD that a marking joins (R429). -/
def Epochs.next (e : Epochs) : Nat := if e.begun < e.last then e.last else e.last + 1

/-- The ranges that a REVOKE marks: those that it has read already, or its region's as the table gives them now (R429). -/
def Iss.ranges (x : Iss) (s : State) (base : Nat) : List (Nat × Nat) :=
  match x.p.wait with
  | some (.marking ks) => ks
  | _ => match s.obj? 6 x.g.vd base with
      | none => []
      | some g => s.regionRanges g.vd g

/-- REVOKE (R429). -/
def Iss.revoke (x : Iss) (s : State) (d : Reg) (q : BitVec 4) : Res :=
  let c := x.qs q
  match objCheck c 6 pREVOKE with
  | .error f => .fault (x.fail f x.low c q.toNat)
  | .ok base =>
      let ks := x.ranges s base
      let ep := look {} s.epochs x.g.vd
      let e := ep.next
      let t := { s with epochs := put s.epochs x.g.vd { ep with last := max ep.last e } }
      match s.partOfVd x.g.vd with
      | none => .retire t (x.toPair d e)
      | some p =>
          if 4096 < s.marksIn p + ks.length then .wait s (.marking ks)
          else
            .retire { t with rmarks := t.rmarks ++ ks.map (fun k =>
              ({ part := p, vd := x.g.vd, epoch := e, lo := k.1, hi := k.2 } : RMark)) } (x.toPair d e)

/-- SPAWN (R214). -/
def execSpawn (d : Reg) (q : BitVec 4) (s : State) : Out := issue (sigSpawn d q) s (fun x s => x.spawn s d q)

/-- JOIN (R215). -/
def execJoin (a : Reg) (q : BitVec 4) (s : State) : Out := issue (sigJoin a q) s (fun x s => x.join s a q)

/-- SVC (R216). -/
def execSvc (d a : Reg) (s : State) : Out := issue (sigSvc d a) s (fun x s => x.svc s d a)

/-- REVOKE (R217). -/
def execRevoke (d : Reg) (q : BitVec 4) (s : State) : Out := issue (sigRevoke d q) s (fun x s => x.revoke s d q)

end Sys2Proof.Machine
end

