-- ==== Sys2Proof/Machine/Winnow.lean ====
section
/-! DEFINITION. Winnow code: visible state, programs and their checks, the DISPATCH and PRESSURE decisions, and the POLICY
instructions (R384 to R393, R403). -/
namespace Sys2Proof.Machine

/-! Visible state (R388). -/

/-- Has a core no work on it? -/
def State.coreFree (s : State) (c : Nat) : Bool := s.units.all (fun e => isControl e.1 || unitCore e.1 != c)

/-- The user cores of a partition. -/
def State.userCores (s : State) (p : Nat) : List Nat :=
  (s.diesOf p).flatMap (fun d => ((List.range 63).map (64 * d + 1 + ·)).filter (s.userCore p))

/-- Free user cores of a partition: FREE. -/
def State.freeCores (s : State) (p : Nat) : Nat := ((s.userCores p).filter s.coreFree).length

/-- Issue tokens of a VD over a partition's cores: TOKENS (R403). -/
def State.tokens (s : State) (p vd : Nat) : Nat :=
  (s.diesOf p).foldl (fun n d => (List.range 64).foldl (fun n c =>
    n + look 0 s.level (bucketKey 0 (64 * d + c) vd) / 1024) n) 0

/-- Cores of a partition that hold work of a context, lent service cores among them: CORES. -/
def State.ctxCores (s : State) (p ctx : Nat) : Nat :=
  (((s.diesOf p).flatMap (fun d => (List.range 64).map (64 * d + ·))).filter (fun c => s.units.any (fun e =>
    !(isControl e.1) && unitCore e.1 == c && e.2.ctx == some ctx))).length

/-- The effective priority and policy class of a context (R33, R388). -/
def State.ctxLine (s : State) (ctx : Nat) : List Obj :=
  match find s.ctxs ctx with
  | none => []
  | some c => s.regionLine c.vd c.root

/-- A field of a queue's head. CTX shows the number of the context within 4,096. -/
def State.headField (s : State) (p : Nat) (l : Launch) : Nat → Nat
  | 0 => 1
  | 1 => l.ctx % 4096
  | 2 => l.prio
  | 3 => (s.ctlNow - l.headAt.getD s.ctlNow) / 1024
  | 4 => s.tokens p l.vd
  | 5 => l.toGo.length
  | 6 => if s.ready l || decide (0 < l.phase) then 1 else 0
  | 7 => l.bestScore
  | 8 => l.best
  | 9 => l.pclass
  | 10 => s.ctxCores p l.ctx
  | _ => 0

/-- A field of the subject. -/
def State.subjectField (s : State) (p ctx : Nat) : Nat → Nat
  | 0 => 1
  | 1 => ctx % 4096
  | 2 => s.effPrio (s.ctxLine ctx)
  | 9 => s.effClass (s.ctxLine ctx)
  | 10 => s.ctxCores p ctx
  | 11 => (((find s.ctxs ctx).bind (fun c => c.fault)).map (fun f => f.code)).getD 0
  | 12 => (((find s.ctxs ctx).bind (fun c => c.fault)).map (fun f => f.detail)).getD 0
  | _ => 0

/-- LDF: field of an index, in a decision of a kind with its subject. -/
def State.ldf (s : State) (p kind : Nat) (subject : Option Nat) (i field : Nat) : Nat :=
  min (2 ^ 32 - 1) (
    if field = 13 then s.freeCores p
    else if field = 14 then kind
    else if i < 64 then match s.head p i with
      | none => 0
      | some (_, l) => s.headField p l field
    else if i = 64 then match subject with
      | none => 0
      | some c => s.subjectField p c field
    else 0)

/-- Queues with a head, ascending. -/
def State.heads (s : State) (p : Nat) : List Nat := (List.range 64).filter (fun q => (s.head p q).isSome)

/-! Programs (R386, R389). -/

def wOp (i : Nat) : Nat := fld i 11 5
def wA (i : Nat) : Nat := fld i 8 3
def wB (i : Nat) : Nat := fld i 5 3
def wC (i : Nat) : Nat := fld i 2 3
def wImm (i : Nat) : Nat := fld i 0 8

/-- The target of a branch, if the instruction is one. -/
def wTarget (pc i : Nat) : Option Nat :=
  if wOp i = 0x09 ∨ wOp i = 0x0A then some (pc + 1 + wImm i)
  else if wOp i = 0x0B then some (pc + 1 + fld i 0 11) else none

/-- The bodies of a program: first instruction and first past the body. -/
def wBodies (prog : List Nat) : List (Nat × Nat) :=
  (prog.mapIdx (fun k i => (k, i))).filterMap (fun e =>
    if wOp e.2 = 0x0C then some (e.1 + 1, e.1 + 1 + wImm e.2) else none)

/-- Is an instruction well formed by itself? -/
def wFormOk (i : Nat) : Bool :=
  match wOp i with
  | 0x01 => decide (fld i 0 5 ≤ 14)
  | 0x02 | 0x03 | 0x08 | 0x09 | 0x0A | 0x0B => true
  | 0x04 | 0x05 | 0x06 | 0x07 => fld i 0 2 == 0
  | 0x0C => decide (1 ≤ wImm i)
  | 0x10 => wImm i == 0
  | 0x11 | 0x14 => fld i 0 11 == 0
  | 0x12 => fld i 0 5 == 0
  | 0x13 => fld i 2 9 == 0 && fld i 0 2 != 3
  | _ => false

/-- Is the instruction at an index accepted (R386, R388, R389)? -/
def wOk (prog : List Nat) (k i : Nat) : Bool :=
  let inside (b : Nat × Nat) (x : Nat) : Bool := decide (b.1 ≤ x) && decide (x < b.2)
  wFormOk i
    && (wOp i != 0x0C || (decide (k + 1 + wImm i ≤ prog.length) && !((wBodies prog).any (fun b => inside b k))))
    && (match wTarget k i with
        | none => true
        | some t => decide (t ≤ prog.length) && (wBodies prog).all (fun b =>
            if inside b k then decide (t ≤ b.2) else !(inside b t)))

/-- The first rejected instruction. -/
def wReject (prog : List Nat) : Option Nat :=
  ((prog.mapIdx (fun k i => (k, i))).find? (fun e => !(wOk prog e.1 e.2))).map (·.1)

/-! A run. -/

/-- What a decision ends in. -/
inductive WAct where
  | accept (q : Nat)
  | reject
  | preempt (q n : Nat)
  | faultact (k : Nat)
  | defer
  | overrun
  deriving DecidableEq, Repr

/-- Registers, and the FOREACH in progress: body, register, queues left. -/
structure WRun where
  pc : Nat
  w : List Nat
  loop : Option (Nat × Nat × Nat × List Nat) := none
  deriving DecidableEq, Repr

def WRun.r (x : WRun) (i : Nat) : Nat := x.w.getD i 0
def WRun.set (x : WRun) (i v : Nat) : WRun := { x with w := setNth x.w i v }

/-- The end of an iteration. -/
def WRun.turn (x : WRun) : WRun :=
  match x.loop with
  | none => x
  | some (b, e, a, rest) =>
      if x.pc < e then x
      else match rest with
        | [] => { x with loop := none }
        | q :: r => { x.set a q with pc := b, loop := some (b, e, a, r) }

/-- One instruction that is no action. -/
def WRun.step (x : WRun) (ldf : Nat → Nat → Nat) (heads : List Nat) (i : Nat) : WRun :=
  let next : WRun := { x with pc := x.pc + 1 }
  let b := x.r (wB i)
  let c := x.r (wC i)
  match wOp i with
  | 0x01 => next.set (wA i) (ldf b (fld i 0 5))
  | 0x02 => next.set (wA i) (wImm i)
  | 0x03 => next.set (wA i) ((x.r (wA i) * 256 + wImm i) % 2 ^ 32)
  | 0x04 => next.set (wA i) (min (b + c) (2 ^ 32 - 1))
  | 0x05 => next.set (wA i) (b - c)
  | 0x06 => next.set (wA i) (min b c)
  | 0x07 => next.set (wA i) (max b c)
  | 0x08 =>
      let t : Bool := match fld i 0 2 with
        | 0 => b == c
        | 1 => b != c
        | 2 => decide (b < c)
        | _ => decide (b ≤ c)
      next.set (wA i) (if t then 1 else 0)
  | 0x09 => if x.r (wA i) = 0 then next else { x with pc := x.pc + 1 + wImm i }
  | 0x0A => if x.r (wA i) = 0 then { x with pc := x.pc + 1 + wImm i } else next
  | 0x0B => { x with pc := x.pc + 1 + fld i 0 11 }
  | 0x0C =>
      let e := x.pc + 1 + wImm i
      match heads with
      | [] => { x with pc := e }
      | q :: r => { next.set (wA i) q with loop := some (x.pc + 1, e, wA i, r) }
  | _ => next

/-- The run of a program, at most so many steps (R390). -/
def wRun (prog : List Nat) (ldf : Nat → Nat → Nat) (heads : List Nat) : Nat → WRun → WAct
  | n, x =>
      let x := x.turn
      match prog[x.pc]? with
      | none => .defer
      | some i =>
          match n with
          | 0 => .overrun
          | n + 1 =>
              match wOp i with
              | 0x10 => .accept (x.r (wA i))
              | 0x11 => .reject
              | 0x12 => .preempt (x.r (wA i)) (x.r (wB i))
              | 0x13 => .faultact (fld i 0 2)
              | 0x14 => .defer
              | _ => wRun prog ldf heads n (x.step ldf heads i)

/-- The partition's record. -/
def State.part? (s : State) (p : Nat) : Option Part := find s.parts p
def State.modPart (s : State) (p : Nat) (f : Part → Part) : State :=
  match find s.parts p with
  | none => s
  | some x => { s with parts := put s.parts p (f x) }

/-- The action of a decision of a kind, by the active program. -/
def State.decideAct (s : State) (p kind : Nat) (subject : Option Nat) : WAct :=
  match (s.part? p).bind (fun x => x.active) with
  | none => .defer
  | some prog =>
      wRun (prog.map (·.toNat)) (s.ldf p kind subject) (s.heads p) 256
        { pc := 0, w := [kind, s.freeCores p, 0, 0, 0, 0, 0, 0] }

/-- A decision is counted. -/
def State.counted (s : State) (p : Nat) (overrun invalid : Bool) : State :=
  s.modPart p (fun x => { x with
    decisions := (x.decisions + 1) % 2 ^ 64
    overruns := (x.overruns + if overrun then 1 else 0) % 2 ^ 64
    invalids := (x.invalids + if invalid then 1 else 0) % 2 ^ 64 })

/-! DISPATCH (R384, R387, R390). -/

/-- A FAULT decision waits in a partition: it goes first. -/
def State.faultDue (s : State) (p : Nat) : List (Nat × Ctx) :=
  s.ctxs.filter (fun e => e.2.decide && s.partOfVd e.2.vd == some p)

/-- Heads that have not been accepted, and whose gangs some core can hold, or none can. -/
def State.openHeads (s : State) (p : Nat) (placeable : Bool) : List (Nat × Launch) :=
  ((List.range 64).filterMap (s.head p)).filter (fun e =>
    !e.2.accepted && s.somewhere e.1 e.2 == placeable)

/-- The fallback's head: highest PRIO, then AGE, then SCORE, then the lowest queue. -/
def State.fallbackHead (s : State) (p : Nat) : Option Nat :=
  let key (l : Launch) : Nat :=
    (l.prio * 2 ^ 32 + min (s.headField p l 3) (2 ^ 32 - 1)) * 2 ^ 32 + min l.bestScore (2 ^ 32 - 1)
  (((List.range 64).filterMap (s.head p)).foldl (fun m e => match m with
    | none => some e
    | some f => if key f.2 < key e.2 then some e else some f) none).map (·.1)

/-- Is a DISPATCH decision due? -/
def State.dispatchDue (s : State) (p : Nat) : Bool :=
  (s.faultDue p).isEmpty && (match s.part? p with
    | none => false
    | some x => !x.rejected) && !((s.openHeads p true).isEmpty)

/-- DISPATCH_DECISION: `only` restricts it to a run that overruns. -/
def State.dispatchDecision (s : State) (p : Nat) (only : Bool) : State :=
  if !(s.dispatchDue p) then s
  else
    let fall (t : State) : State := match s.fallbackHead p with
      | none => t
      | some n => t.modLaunch n (fun l => { l with accepted := true })
    match s.decideAct p 0 none with
    | .overrun => fall (s.counted p true false)
    | .accept q =>
        if only then s
        else match if q < 64 then s.head p q else none with
          | some (n, _) => (s.counted p false false).modLaunch n (fun l => { l with accepted := true })
          | none => fall (s.counted p false true)
    | .reject => if only then s else (s.counted p false false).modPart p (fun x => { x with rejected := true })
    | .defer => if only then s else fall (s.counted p false false)
    | _ => if only then s else fall (s.counted p false true)

/-! PRESSURE (R393). -/

/-- The work on a core: the highest effective priority of its contexts, and when the latest of its launches became
queueable. DEDUCED: notes/assumptions/56.md. -/
def State.coreRank (s : State) (c : Nat) : Nat × Nat :=
  let work := s.units.filter (fun e => !(isControl e.1) && unitCore e.1 == c)
  (work.foldl (fun a e => max a ((e.2.ctx.map (fun n => s.effPrio (s.ctxLine n))).getD 0)) 0,
   work.foldl (fun a e => max a (((e.2.launch.bind (fun n => find s.launches n)).map (fun l => l.born)).getD 0)) 0)

/-- Victim cores for a head. -/
def State.victimCores (s : State) (p : Nat) (l : Launch) : List Nat :=
  (s.userCores p).filter (fun c => !(s.onCore c).isEmpty && (find s.marks c).isNone
    && decide ((s.coreRank c).1 < l.prio)
    && s.units.all (fun e => isControl e.1 || unitCore e.1 != c || e.2.ctx != some l.ctx))

/-- The next core to mark: lowest priority, latest queued, highest core id. -/
def State.nextVictim (s : State) (p : Nat) (l : Launch) : Option Nat :=
  (s.victimCores p l).foldl (fun m c => match m with
    | none => some c
    | some b =>
        let x := s.coreRank c
        let y := s.coreRank b
        if x.1 < y.1 ∨ (x.1 = y.1 ∧ y.2 ≤ x.2) then some c else some b) none

/-- Cores are marked one at a time. -/
def State.markCores (s : State) (p n : Nat) (l : Launch) : Nat → State
  | 0 => s
  | k + 1 =>
      match s.nextVictim p l with
      | none => s
      | some c => State.markCores { s with marks := put s.marks c { launch := n, at_ := s.now } } p n l k

/-- Is a PRESSURE decision due: a launch became head when no core could hold a gang of it, and none can (R384)? -/
def State.pressureDue (s : State) (p : Nat) : List (Nat × Launch) :=
  if (s.faultDue p).isEmpty && (s.part? p).isSome then (s.openHeads p false).filter (fun e => !e.2.asked) else []

/-- PRESSURE_DECISION. -/
def State.pressureDecision (s : State) (p : Nat) (only : Bool) : State :=
  match s.pressureDue p with
  | [] => s
  | e :: _ =>
      let t := s.modLaunch e.1 (fun l => { l with asked := true })
      match s.decideAct p 1 none with
      | .overrun => t.counted p true false
      | .preempt q k =>
          if only then s
          else match if q < 64 then s.head p q else none with
            | some (n, l) => (t.counted p false false).markCores p n l (min k (s.victimCores p l).length)
            | none => t.counted p false true
      | .reject | .defer => if only then s else t.counted p false false
      | _ => if only then s else t.counted p false true

/-! The POLICY instructions (R391, R392). -/

/-- The partition that the issuer acts in (R349, R352). -/
def Iss.part (x : Iss) (s : State) : Option Nat := s.partOfVd x.g.vd

/-- PLOAD. -/
def Iss.pload (x : Iss) (s : State) (d a : Reg) (q : BitVec 4) : Res :=
  let p := (x.g.rd a 0).toNat
  let c := x.qs q
  let st (n : Nat) : Res := .retire s (x.toS d n)
  if x.part s ≠ some p then st 1
  else match capCheck c 0 16 pLOAD with
    | .error _ => st 2
    | .ok va =>
        match locate s x.ag { r := true } va 16 with
        | .error _ => st 2
        | .ok ph =>
            match x.gate s false [⟨x.low, ph⟩] with
            | some (t, w) => .wait t w
            | none =>
            let h := s.rkeys ph.keys
            if h = 0 ∨ 512 < h then st (3 + 0xFFFF * 2 ^ 16)
            else match capCheck c 0 (16 + 2 * h) pLOAD with
              | .error _ => st 2
              | .ok va =>
                  match locate s x.ag { r := true } va (16 + 2 * h) with
                  | .error _ => st 2
                  | .ok pl =>
                      match x.gate s false [⟨x.low, pl⟩] with
                      | some (t, w) => .wait t w
                      | none =>
                          let n := s.rkeys pl.keys
                          let prog := (List.range h).map (fun i => fld n (128 + 16 * i) 16)
                          match wReject prog with
                          | some i => st (3 + i * 2 ^ 16)
                          | none =>
                              match s.part? p with
                              | none => st 1
                              | some k =>
                                  if !k.swap.isEmpty then st 4
                                  else .retire ((s.touch x.ag false pl).modPart p (fun k => { k with
                                    shadow := some (prog.map (BitVec.ofNat 16)) })) (x.toS d 0)

/-- PSWAP: it waits for the next decision boundary. -/
def Iss.pswap (x : Iss) (s : State) (d a : Reg) : Res :=
  let p := (x.g.rd a 0).toNat
  if x.part s ≠ some p then .retire s (x.toS d 1)
  else match s.part? p with
    | none => .retire s (x.toS d 1)
    | some k =>
        if k.swap.any (fun e => e.1 == x.caller) then .wait s .other
        else match k.answers.find? (fun e => e.1 == x.caller) with
          | some a => .retire (s.modPart p (fun k => { k with answers := k.answers.erase a })) (x.toS d a.2)
          | none =>
              if k.shadow.isNone then .retire s (x.toS d 5)
              else .wait (s.modPart p (fun k => { k with swap := k.swap ++ [(x.caller, sdOf d)] })) .other

/-- POLICY_SLOT_SWAP: the first waiting PSWAP is served. -/
def State.slotSwap (s : State) (p : Nat) : State :=
  match s.part? p with
  | none => s
  | some k =>
      match k.swap with
      | [] => s
      | e :: r =>
          let ok := k.shadow.isSome
          let t := s.modPart p (fun k => if ok then
            { k with active := k.shadow, shadow := k.active, version := (k.version + 1) % 2 ^ 64, swap := r }
            else { k with swap := r })
          let st := if ok then 0 else 5
          (t.answerCaller e.1 e.2 st).getD (t.modPart p (fun k => { k with answers := k.answers ++ [(e.1, st)] }))

/-- PSTAT. -/
def Iss.pstat (x : Iss) (s : State) (d a b : Reg) : Res :=
  let p := (x.g.rd a 0).toNat
  let v := match if x.part s = some p then s.part? p else none with
    | none => 0
    | some k => match b.toNat with
        | 0 => k.version
        | 1 => k.decisions
        | 2 => k.overruns
        | 3 => k.invalids
        | _ => if k.shadow.isSome then 1 else 0
  .retire s (x.toPair d v)

/-- DISPATCH_DECISION (R384). -/
def execDispatchDecision (part : Nat) (s : State) : Out := .next (s.dispatchDecision part false)

/-- PRESSURE_DECISION (R384). -/
def execPressureDecision (part : Nat) (s : State) : Out := .next (s.pressureDecision part false)

/-- POLICY_SLOT_SWAP (R392). -/
def execPolicySlotSwap (part : Nat) (s : State) : Out := .next (s.slotSwap part)

/-- PLOAD (R391). -/
def execPload (d a : Reg) (q : BitVec 4) (s : State) : Out := issue (sigPload d a q) s (fun x s => x.pload s d a q)

/-- PSWAP (R392). -/
def execPswap (d a : Reg) (s : State) : Out := issue (sigPswap d a) s (fun x s => x.pswap s d a)

/-- PSTAT (R392). -/
def execPstat (d a b : Reg) (s : State) : Out := issue (sigPstat d a b) s (fun x s => x.pstat s d a b)

end Sys2Proof.Machine
end

