-- ==== Sys2Proof/Machine/Images.lean ====
section
/-! DEFINITION. Context images: units, stop records, the image in a save area (R435, R439 to R441), gangs saved and
restored (R444 to R446), and fault messages (R58, R341). -/
namespace Sys2Proof.Machine

/-! Units (R435, R436). -/

/-- The context of a resident gang. -/
def State.gangCtx (s : State) (k : Gang) : Option Nat :=
  match k.launch.bind (fun n => find s.launches n) with
  | some l => some l.ctx
  | none => (k.regrow.bind (fun d => find s.regrows d)).map (fun r => r.ctx)

/-- Groups and threads of a context, commands not complete, operations not ended. -/
def State.ctxUnits (s : State) (c : Nat) : List (Nat × Grp) := s.units.filter (fun e => e.2.ctx == some c)
def State.ctxCmds (s : State) (c : Nat) : List (Nat × Cmd) := s.cmds.filter (fun e => e.2.ctx == some c && !e.2.finished)
def State.ctxOps (s : State) (c : Nat) : List (Nat × MOp) := s.ops.filter (fun e => e.2.ctx == some c)

/-- Has every unit of a context stopped? -/
def State.allStopped (s : State) (c : Nat) : Bool :=
  (s.ctxUnits c).all (fun e => e.2.stopped) && (s.ctxCmds c).all (fun e => e.2.stopped)
    && (s.ctxOps c).all (fun e => e.2.stopped)

/-! Stop records (R441). -/

/-- The fault of a unit: that of the context, or one met during the halt. -/
def Ctx.faultOf (c : Ctx) (unit : Nat) : Option FaultInfo :=
  match c.fault with
  | some f => if f.unit = some unit then some f else (c.more.find? (fun e => e.1 == unit)).map (·.2)
  | none => (c.more.find? (fun e => e.1 == unit)).map (·.2)

/-- SEQ of a context's message; that of a context's first fault is 0 (P3 of R341 and R342). -/
def Ctx.msgSeq (c : Ctx) : Nat := if c.fault.isSome then (c.seq + 65535) % 65536 else 0

/-- The fields of a record, and its place in the order. -/
structure StopRec where
  unit : Nat
  kind : Nat
  core : Nat
  slot : Nat := 0
  info : Nat := 0
  launch : Nat := 0
  pca : Nat := 0
  pcb : Nat := 0
  maska : Nat := 0
  maskb : Nat := 0
  va : Bool := false
  vb : Bool := false
  ha : Bool := false
  hb : Bool := false
  pstk : Nat := 0
  saved : Bool := false
  deriving DecidableEq, Repr

def boolBit (b : Bool) (i : Nat) : Nat := if b then 2 ^ i else 0

/-- The 512 bits of a record. -/
def StopRec.bits (r : StopRec) (c : Ctx) : Nat :=
  let f := c.faultOf r.unit
  let addr : Nat := (f.map (fun (f : FaultInfo) => f.addr.toNat)).getD 0
  let code : Nat := (f.map (fun (f : FaultInfo) => f.code)).getD 0
  let detail : Nat := (f.map (fun (f : FaultInfo) => f.detail)).getD 0
  r.pca * 2 ^ 448 + r.pcb * 2 ^ 384 + r.maska * 2 ^ 320 + r.maskb * 2 ^ 256 + addr * 2 ^ 192
    + (r.info % 2 ^ 64) * 2 ^ 128 + (r.launch % 2 ^ 32) * 2 ^ 96 + c.msgSeq * 2 ^ 80 + (r.core % 2 ^ 11) * 2 ^ 69
    + (r.slot % 64) * 2 ^ 63 + (r.kind % 16) * 2 ^ 59 + (code % 256) * 2 ^ 51 + (detail % 256) * 2 ^ 43
    + boolBit r.va 42 + boolBit r.vb 41 + boolBit r.ha 40 + boolBit r.hb 39 + (r.pstk % 2 ^ 16) * 2 ^ 23 + boolBit r.saved 0

/-- The launch number of a group. -/
def State.launchNum (s : State) (l : Option Nat) : Nat := ((l.bind (fun n => find s.launches n)).map (fun (l : Launch) => l.num)).getD 0

/-- The record of a group or thread. -/
def State.grpRec (s : State) (u : Nat) (g : Grp) (saved : Bool) : StopRec :=
  let pc (p : Option Path) : Nat := (p.map (fun (p : Path) => p.pc.toNat)).getD 0
  let m (p : Option Path) : Nat := (p.map (fun (p : Path) => p.mask.toNat)).getD 0
  let h (p : Option Path) : Bool := (p.map (fun (p : Path) => p.hnd)).getD false
  { unit := u, kind := if isControl u then 1 else 0, core := unitCore u, slot := unitSlot u,
    launch := s.launchNum g.launch, pca := pc g.slotA, pcb := pc g.slotB, maska := m g.slotA, maskb := m g.slotB,
    va := g.slotA.isSome, vb := g.slotB.isSome, ha := h g.slotA, hb := h g.slotB, pstk := g.stack.length, saved := saved }

def engineKind : Engine → Nat
  | .copy => 2
  | .crib => 3
  | .regroup => 4
  | .loft => 5
  | .stream => 6
  | .coll => 8

/-- Is a gang in a gang image, and the launch of a gang, saved or resident? -/
def State.inImage (s : State) (g : Option Nat) : Bool := (g.bind (fun n => find s.saved n)).isSome
def State.gangLaunch (s : State) (g : Nat) : Option Nat :=
  ((find s.gangs g).orElse (fun _ => (find s.saved g).map (fun (v : Saved) => v.gang))).bind (fun k => k.launch)

/-- The records of the commands and sequencers of a context. -/
def State.otherRecs (s : State) (c : Nat) : List StopRec :=
  let cmds := (s.ctxCmds c).map (fun e =>
    ({ unit := 2 ^ 20 + e.1, kind := engineKind e.2.engine, core := unitCore e.2.unit, slot := unitSlot e.2.unit,
       info := e.2.seq, launch := s.launchNum e.2.launch, pca := e.2.pc.toNat, saved := s.inImage e.2.gang } : StopRec))
  let ops := s.ctxOps c
  let cores := (ops.map (fun e => e.2.core)).eraseDups
  cmds ++ cores.map (fun k =>
    let mine := (ops.filter (fun e => e.2.core == k)).map (·.2)
    ({ unit := 2 ^ 40 + k, kind := 7, core := k, info := (mine.filter (fun o => !o.czero)).length,
       launch := (mine.head?.map (fun o => s.launchNum (s.gangLaunch o.gang))).getD 0,
       pca := (mine.head?.map (fun o => o.pc.toNat)).getD 0, saved := mine.all (fun o => s.inImage (some o.gang)) } : StopRec))

/-- The order of R439. -/
def StopRec.le (a b : StopRec) : Bool :=
  decide (((a.kind * 2 ^ 16 + a.core) * 64 + a.slot) * 2 ^ 64 + a.info ≤ ((b.kind * 2 ^ 16 + b.core) * 64 + b.slot) * 2 ^ 64 + b.info)

/-- Every stop record of a context in order; a thread that a fault has sent back to level K has its record from the fault,
with the PC that its hints rewound to (R436). -/
def State.stopRecs (s : State) (c : Nat) : List StopRec :=
  let here := (s.ctxUnits c).map (fun e => s.grpRec e.1 e.2 false)
  let away := (s.saved.filter (fun e => e.2.ctx == c)).flatMap (fun e => e.2.units.map (fun x => s.grpRec x.1 x.2 true))
    ++ ((find s.ctxs c).map (fun (k : Ctx) => k.threads.map (fun x => s.grpRec x.1 x.2 true))).getD []
  let faults : List FaultInfo := match find s.ctxs c with
    | none => []
    | some k => k.fault.toList ++ k.more.map (·.2)
  let fault : List StopRec := faults.filterMap (fun f => match f.unit with
    | none => none
    | some u =>
        if isControl u && u < 2 ^ 20 && !((here ++ away).any (fun e => e.unit == u)) then
          some { unit := u, kind := 1, core := unitCore u, pca := (f.resume.getD f.pc).toNat, maska := 1, va := true }
        else none)
  (here ++ away ++ fault ++ s.otherRecs c).mergeSort StopRec.le

/-! Positions (R16, R440). -/

def coreRow (c : Nat) : Nat := 8 * (c / 64 / 10) + c % 64 / 8
def coreCol (c : Nat) : Nat := 8 * (c / 64 % 10) + c % 8
def coreAt (row col : Nat) : Nat := 64 * (row / 8 * 10 + col / 8) + 8 * (row % 8) + col % 8

def minOf : List Nat → Nat
  | [] => 0
  | x :: r => r.foldl min x

/-- The rectangle of saved cores: origin, rows and columns. -/
def rectangle (cs : List Nat) : Nat × Nat × Nat × Nat :=
  let r := cs.map coreRow
  let c := cs.map coreCol
  if cs.isEmpty then (0, 0, 0, 0)
  else (minOf r, minOf c, r.foldl max 0 - minOf r + 1, c.foldl max 0 - minOf c + 1)

/-! The image. -/

/-- The chain record of a REGROW fault (R327). -/
def chainBits (ch : List (Nat × Nat × Nat)) : Nat :=
  (ch.take 4).foldr (fun e n => e.1 * 2 ^ 64 + e.2.1 * 2 ^ 8 + e.2.2 + 2 ^ 128 * n) 0

/-- The core at which a unit of the machine counts as standing. -/
def State.unitHome (s : State) (u : Nat) : Option Nat :=
  if u < 2 ^ 20 then (if isControl u then none else some (unitCore u))
  else if u < 2 ^ 40 then (find s.cmds (u - 2 ^ 20)).map (fun c => c.core)
  else some (u - 2 ^ 40)

/-- The die whose save area takes the image (R439). -/
def State.imageDie (s : State) (c : Nat) (k : Ctx) : Option Nat :=
  match (k.fault.bind (fun f => f.unit)).bind s.unitHome with
  | some core => some (core / 64)
  | none =>
      let ds := ((s.ctxUnits c).filterMap (fun e => unitDie e.1)) ++ (s.ctxCmds c).map (fun e => e.2.core / 64)
        ++ (s.ctxOps c).map (fun e => e.2.core / 64) ++ (s.saved.filter (fun e => e.2.ctx == c)).map (fun e => e.2.core / 64)
      if ds.isEmpty then ((s.partOfVd k.vd).map s.diesOf).bind (fun l => l.head?) else some (minOf ds)

/-- Images held by contexts other than one. -/
def State.heldImages (s : State) (c : Nat) : List (Nat × Nat) :=
  (s.ctxs.filter (fun e => e.1 != c)).filterMap (fun e => e.2.image)

/-- The unit in which an image of some bytes lies and ends: a capability bounds it exactly (R63, R482). -/
def imageUnit (len : Nat) : Nat := max 64 (2 ^ Nat.log2 (2 * ceilDiv len (2 ^ 14) - 1))

/-- A place of an area where an image fits: a free one, or the lowest if that is taken (R439).
DESIGN CHOICE: notes/assumptions/39.md. -/
def State.imagePlace (s : State) (die c len : Nat) : Option Nat :=
  let r := (s.sysR 0x0600 die 0 0).toNat
  let base := fld r 21 35 * 2 ^ 21
  let top := base + fld r 0 16 * 2 ^ 21
  let u := imageUnit len
  let held := s.heldImages c
  let up (a : Nat) : Nat := ceilDiv a u * u
  let starts := up base :: (held.map (fun h => up (h.1 + h.2))).filter (fun b => decide (base ≤ b))
  let ok (b : Nat) : Bool := decide (b + len ≤ top) && held.all (fun h => decide (b + len ≤ h.1) || decide (h.1 + h.2 ≤ b))
  let pick := up base + u * (s.freeVal % ((top - base) / u))
  match starts.filter ok with
  | [] => none
  | l => some (if ok pick then pick else minOf l)

/-- The bytes of a number after others. -/
def le64 (x : Nat) : List Byte := leBytes x 64

/-- Free bytes: the format of gang images is the hardware's (R444). DESIGN CHOICE: notes/assumptions/40.md. -/
def State.freeBytes (s : State) (n : Nat) : List Byte :=
  (List.range n).map (fun i => BitVec.ofNat 8 (Config.freeNat (s.free + i)))

/-- The length of a gang image. -/
def gangImageLen (f : Nat) : Nat := 64 * (1 + Config.freeNat f % 2 ^ 14)

/-- The image of a context, its STATE, and its saved gangs (R439, R440). -/
def State.imageBytes (s : State) (c : Nat) (k : Ctx) (st : Nat) : List Byte :=
  let recs := s.stopRecs c
  let first := match (k.fault.bind (fun f => f.unit)).bind (fun u => recs.find? (fun r => r.unit == u)) with
    | some r => some r
    | none => recs.head?
  let rest := match first with
    | none => recs
    | some r => recs.erase r
  let sv := (s.saved.filter (fun e => e.2.ctx == c)).map (·.2)
  let ths := k.threads
  let n := sv.length + ths.length
  let head := 64 * (2 + max 1 recs.length)
  let lens := (List.range n).map (fun i => gangImageLen (s.free + i))
  let at_ (i : Nat) : Nat := (head + 16 * n + 63) / 64 * 64 + (lens.take i).foldl (· + ·) 0
  let rect := rectangle (sv.map (fun x => x.core))
  let entry (i : Nat) : Nat :=
    let pos : Nat := match sv[i]? with
      | some x => (coreRow x.core - rect.1) * 2 ^ 8 + (coreCol x.core - rect.2.1)
      | none => 0xFFFF
    at_ i * 2 ^ 64 + lens.getD i 0 * 2 ^ 32 + pos
  let f := k.fault
  let size := ceilDiv (at_ n) (imageUnit (at_ n)) * imageUnit (at_ n)
  let header := size * 2 ^ 448 + recs.length * 2 ^ 416 + n * 2 ^ 384 + k.msgSeq * 2 ^ 368
    + ((f.map (fun (f : FaultInfo) => f.code)).getD 0) * 2 ^ 360 + rect.2.2.1 * 2 ^ 352 + rect.2.2.2 * 2 ^ 344
    + rect.1 * 2 ^ 336 + rect.2.1 * 2 ^ 328 + (c % 4096) * 2 ^ 316 + k.vd * 2 ^ 309 + st * 2 ^ 306
  let body := le64 header ++ le64 ((first.map (fun r => r.bits k)).getD 0)
    ++ le64 ((f.map (fun (f : FaultInfo) => chainBits f.chain)).getD 0) ++ rest.flatMap (fun r => le64 (r.bits k))
    ++ (List.range n).flatMap (fun i => leBytes (entry i) 16)
  body ++ List.replicate (at_ 0 - body.length) 0 ++ s.freeBytes (size - at_ 0)

/-- The image is written into the save area, if it fits (R439). -/
def State.writeImage (s : State) (c : Nat) (k : Ctx) (st : Nat) : Option State :=
  let bs := s.imageBytes c k st
  match (s.imageDie c k).bind (fun d => (s.imagePlace d c bs.length).map (fun a => a)) with
  | none => none
  | some a =>
      some ((State.openW { s with free := s.free + bs.length + 4096 } ((List.range bs.length).map (a + ·)) bs).modCtx c
        (fun k => { k with image := some (a, bs.length), shown := [] }))

/-- A capability over bytes of a context's image is given out (R482). -/
def State.showImage (s : State) (c : Nat) (cap : Cap) : State :=
  s.modCtx c (fun k => { k with shown := (cap.base.toNat - imageBase, cap.top.toNat - imageBase) :: k.shown })

/-- FULL of the save area that an image did not fit. -/
def State.areaFull (s : State) (c : Nat) (k : Ctx) : State :=
  match s.imageDie c k with
  | none => s
  | some d => s.sysW 0x0600 d 0 0 (s.sysR 0x0600 d 0 0 ||| (1#64 <<< 63))

/-! Saving (R444, R430). -/

/-- A group with the tags of revoked capabilities cleared. -/
def State.sweepGrp (s : State) (g : Grp) : Grp :=
  { g with
    q := (List.range 16).foldl (fun m i => store Cap.null m i (s.swept g.vd (g.qr i))) []
    pcc := s.swept g.vd g.pcc
    sieveCap := s.swept g.vd g.sieveCap
    vf := g.vf.filter (fun e => (s.swept g.vd (g.quad (BitVec.ofNat 7 (4 * (e.1 / 64))) (e.1 % 64))).tag) }

/-- A saved gang as its image holds it once a sweep has passed (R430, R431). -/
def State.sweepSaved (s : State) (vd : Nat) (sv : Saved) : Saved :=
  { sv with
    units := sv.units.map (fun (e : Nat × Grp) => (e.1, s.sweepGrp e.2))
    tags := sv.tags.filter (fun (e : Nat × Bool) =>
      (s.swept vd ⟨BitVec.ofNat 128 (leRead (fun a => look 0 sv.scr a) (16 * e.1) 16), e.2⟩).tag)
    handles := sv.handles.map (fun (e : Nat × Handle) => (e.1, s.sweepHandle vd e.2)) }

/-- Unfinished commands of a gang stop (R436). -/
def State.stopCmds (s : State) (gid : Nat) : State :=
  (s.cmds.filter (fun e => e.2.gang == some gid && !e.2.finished)).foldl (fun (t : State) e => t.stopCmd e.1) s

/-- A gang leaves its core with everything it needs to continue; its commands and operations stop, and their sets are its
own. -/
def State.saveGang (s : State) (gid : Nat) (k : Gang) : State :=
  match s.gangCtx k with
  | none => s
  | some c =>
      let us := s.gangUnits k
      let vd := ((find s.ctxs c).map (fun (x : Ctx) => x.vd)).getD 0
      let s := ((us.foldl (fun (t : State) e => t.stopUnit e.1) s).stopCmds gid).splitSets gid
      let s := (s.landResults k.core s.results.length).sweepHandles k.core vd (some c)
      let us := s.gangUnits k
      let mine (e : Nat) : Bool := e / 2 ^ 19 == gid
      let keepTag (g : Nat) : Bool := (s.swept vd (s.scrCap gid (16 * (g - gid * 2 ^ 15)))).tag
      let cr (e : Nat × Byte) : Bool := decide (cribKey k.core k.cribBase ≤ e.1) && decide (e.1 < cribKey k.core (k.cribBase + k.cribLen))
      let sv : Saved :=
        { ctx := c, core := k.core, gang := k, units := us.map (fun e => (e.1, { s.sweepGrp e.2 with stopped := false, vacate := false })),
          scr := (s.scr.filter (fun e => mine e.1)), tags := s.scrTags.filter (fun e => e.1 / 2 ^ 15 == gid && keepTag e.1),
          crib := (s.crib.filter cr).map (fun e => (e.1 - cribKey k.core k.cribBase, e.2)),
          handles := (s.handles.filter (fun e => e.1 / 64 == k.core && e.2.holder == some c)).map (fun e => (e.1 % 64, s.sweepHandle vd e.2)),
          quar := [] }
      State.left (core := k.core) { s with
        epochs := s.epochs.map (fun (e : Nat × Epochs) => (e.1, { e.2 with residents := e.2.residents.filter (fun r => r != gid) }))
        saved := put s.saved gid sv
        gangs := del s.gangs gid
        units := us.foldl (fun m e => del m e.1) s.units
        scr := s.scr.filter (fun e => !(mine e.1))
        scrTags := s.scrTags.filter (fun e => !(e.1 / 2 ^ 15 == gid))
        ops := s.ops.map (fun e => if e.2.gang = gid then (e.1, { e.2 with stopped := true }) else e) }

/-! Restoring (R395, R444 to R446). -/

/-- A place in the crib moved. -/
def Loc.relocate (l : Loc) (from_ onto : Nat) : Loc :=
  match l with
  | .crib a => .crib (a - from_ + onto)
  | l => l

def CmdBody.relocate (b : CmdBody) (from_ onto : Nat) : CmdBody :=
  match b with
  | .move r n x y a c t u w => .move r n (x.relocate from_ onto) (y.relocate from_ onto) a c t u w
  | .drain cb a b c d e f g h i dst sv => .drain (cb - from_ + onto) a b c d e f g h i dst sv
  | b => b

/-- Are the handles that a saved gang's context held free on a core, or its own (R395)? -/
def State.handlesFree (s : State) (sv : Saved) (core : Nat) : Bool :=
  sv.handles.all (fun e => let h := s.handle core e.1
    h.holder.isNone || h.holder == some sv.ctx)

/-- The kernel of a saved gang. -/
def Saved.kern (sv : Saved) : Kern := (sv.units.head?.map (fun e => e.2.kern)).getD bootKern
def Saved.vd (sv : Saved) : Nat := (sv.units.head?.map (fun e => e.2.vd)).getD 0

/-- Can a core hold a saved gang, with its operations (R304)? -/
def State.holdsSaved (s : State) (gid : Nat) (sv : Saved) (core : Nat) : Bool :=
  s.handlesFree sv core && decide (s.octets core + s.gangOctets gid ≤ 256) && (if sv.gang.regrow.isSome then (find s.units (64 * core + 63)).isNone
    else s.holds core sv.vd sv.ctx sv.kern)

/-- A read that landed late goes to its destination: a register, or scratch, counted and checked as its command's (R137,
R164, R445). -/
def State.landQ (s : State) (k : Gang) (e : Late) : State :=
  match e with
  | .piece id n got => s.landPiece id n got
  | .reg i place lane v =>
      match k.units.getD i none with
      | none => s
      | some u => match find s.units u with
          | none => s
          | some g => s.putU u (g.landReg place lane v)

/-- May a gang come to a core under the CORES budgets of its work (R34)? -/
def State.gangBudget (s : State) (k : Gang) (core : Nat) : Bool :=
  match s.workRegion k with
  | none => true
  | some w => s.budgetOk w.1 w.2 core

/-- The reads in flight of some gangs land, before anything of theirs issues again (R445). -/
def State.landFlights (s : State) (p : Nat → Bool) : State :=
  let es := s.flight.filter (fun e => p e.2.1)
  es.foldl (fun (t : State) e => match find t.gangs e.2.1 with
    | some k => t.landQ k e.2.2
    | none => t) { s with flight := s.flight.filter (fun e => !(p e.2.1)) }

/-- A saved gang continues on a core. What its late reads bring lands first, in order (R445). An operation of the loft path whose
handle the new core takes EMPTY goes on by the streamed path, with the same result (R282, R395). -/
def State.unsave (s : State) (gid core : Nat) : State :=
  match (find s.saved gid).map (fun (sv : Saved) => s.sweepSaved sv.vd sv) with
  | none => s
  | some sv =>
      let s := (s.claimCore core sv.vd).moveQuarantine core
      let sv := (find s.saved gid).map (fun (v : Saved) => { sv with quar := v.quar }) |>.getD sv
      let slots := if sv.gang.regrow.isSome then [63] else s.freeSlots core
      let base := (s.cribFit core sv.gang.cribLen).getD 0
      let us := sv.units.mapIdx (fun i e => (e.1, 64 * core + slots.getD i 0, e.2))
      let newOf (u : Nat) : Nat := ((us.find? (fun e => e.1 == u)).map (fun e => e.2.1)).getD u
      let k : Gang := { sv.gang with core := core, cribBase := base, units := sv.gang.units.map (fun u => u.map newOf) }
      let quar := (look [] s.quarantine sv.core).filter (fun e => e.2.1 == gid)
      let taken (n : Nat) : Bool := (s.handle core n).holder.isNone
      let kept := s.crib.filter (fun e => !(decide (cribKey core base ≤ e.1) && decide (e.1 < cribKey core (base + sv.gang.cribLen))))
      let t : State := { s with
        saved := del s.saved gid
        gangs := put s.gangs gid k
        units := us.foldl (fun m e => put m e.2.1 e.2.2) s.units
        scr := sv.scr.foldl (fun m e => put m e.1 e.2) s.scr
        scrTags := sv.tags.foldl (fun m e => put m e.1 e.2) s.scrTags
        crib := sv.crib.foldl (fun m e => put m (cribKey core base + e.1) e.2) kept
        handles := sv.handles.foldl (fun m e =>
          let h := s.handle core e.1
          if h.holder.isNone then put m (64 * core + e.1) (e.2.setState 0) else m) s.handles
        quarantine := store [] s.quarantine sv.core ((look [] s.quarantine sv.core).filter (fun e => e.2.1 != gid))
        regrows := s.regrows.map (fun (e : Nat × Regrow) => (e.1, { e.2 with
          waiters := e.2.waiters.map (fun w =>
            if sv.units.any (fun x => x.1 == w.1 && x.2.standsAt w.2.2.1 w.2.2.2) then (newOf w.1, w.2) else w) }))
        cmds := s.cmds.map (fun (e : Nat × Cmd) => if e.2.gang = some gid then (e.1, { e.2 with
          unit := newOf e.2.unit, core := core, body := e.2.body.relocate sv.gang.cribBase base, stopped := false }) else e)
        ops := s.ops.map (fun (e : Nat × MOp) => if e.2.gang = gid then (e.1, { e.2 with
          unit := newOf e.2.unit, core := core, cbase := e.2.cbase - sv.gang.cribBase + base, stopped := false,
          streamed := e.2.streamed || (!e.2.czero && taken e.2.handle) }) else e) }
      let late := sv.quar ++ quar.map (fun (e : Nat × Nat × Late) => e.2.2)
      ((late.foldl (fun (t : State) (e : Late) => t.landQ k e) t).landFlights (· == gid)).moveSets gid core

/-! Fault messages (R58, R341). -/

/-- The capability of otype 6 that names a context to its handler. -/
def ctxCap (root : Nat) : Cap := objCap 6 root 0 pSPAWN

/-- The capability over the stop record, and the message of a context's fault. -/
def Ctx.recordCap (k : Ctx) (f : FaultInfo) : Cap :=
  match k.image with
  | none => Cap.null
  | some (a, _) => mkCap (imageBase + a + 64) (if f.code = 0x20 then 128 else 64) pLOAD

def faultMsg (k : Ctx) (f : FaultInfo) (ep : Cap) (reply : Nat) : Msg :=
  let rec_ : Cap := k.recordCap f
  { badge := ep.badge, words := leWords (faultWord f k.msgSeq).toNat 8, caps := [ctxCap k.root, rec_], reply := some reply }

/-- FAULT_MESSAGE: to the fault endpoint of a context root, as a CALL (R341, R442). -/
def State.faultMessage (s : State) (c : Nat) (root : Obj) : State :=
  match find s.ctxs c with
  | none => s
  | some k =>
      match k.fault with
      | none => s
      | some f =>
          let ep := s.faultEp root
          match objCheck ep 1 pSEND with
          | .error _ => s
          | .ok base =>
              let r := s.newReply (.handler c) none
              let t := (r.1.modCtx c (fun k => { k with reply := some r.2, escalate := root.va })).showImage c (k.recordCap f)
              t.post (s.objId 1 root.vd base) (faultMsg k f ep r.2)

end Sys2Proof.Machine
end

