-- ==== Sys2Proof/Machine/Halt.lean ====
section
/-! DEFINITION. Halts and what follows them: units stopping, KILL, RESUME and NOTIFY (R329, R435 to R443), saving and
restoring (R393 to R395, R444 to R446), watchdogs (R396, R397), and the instructions of major 0x3A but OBJNEW (R447 to
R450). -/
namespace Sys2Proof.Machine

/-! Regrow requests undone (R329). -/

/-- One pin more or less on a registered tile's recipe. -/
def State.setPins (s : State) (desc : Nat) (f : Nat → Nat) : State :=
  match (s.tileOf desc).bind s.recAt with
  | none => s
  | some r => s.rawW (r + 120) 2 (f (recPins s r) % 65536)

/-- The request that a request serves in the end. -/
def State.regrowRoot (s : State) : Nat → Nat → Nat
  | 0, d => d
  | n + 1, d => match (find s.regrows d).bind (fun r => r.parent) with
      | some p => s.regrowRoot n p
      | none => d

/-- The requests that belong together. -/
def State.regrowFamily (s : State) (d : Nat) : List (Nat × Regrow) :=
  s.regrows.filter (fun e => s.regrowRoot 4 e.1 == s.regrowRoot 4 d)

/-- An open all-or-nothing TILEST of an ended gang leaves its tile BROKEN (R142). -/
def State.breakTile (s : State) (c : Cmd) : State :=
  match c.body, c.held with
  | .tilest d _ _ _ _ _ _ _ true, some v =>
      if c.finished then s else (s.setTileVersion d (v + 1)).setTileState d 3
  | _, _ => s

/-- Members of the same collective are aborted (R279, R443). -/
def State.abortPeers (s : State) (c : Cmd) : State :=
  match c.body with
  | .coll g i _ _ _ _ _ _ _ =>
      if c.finished then s
      else { s with cmds := s.cmds.map (fun (e : Nat × Cmd) => match e.2.body with
        | .coll g' i' _ _ _ _ _ _ _ =>
            if g' = g ∧ i' = i ∧ !e.2.finished then (e.1, { e.2 with pos := 1, status := 1, buf := [], did := [] }) else e
        | _ => e) }
  | _ => s

/-- Commands that never complete: they stay, without a context, launch or request, so that their timeline never passes
them. -/
def State.endCmds (s : State) (p : Cmd → Bool) : State :=
  let gone := (s.cmds.filter (fun e => p e.2 && !e.2.finished)).map (·.2)
  let s := gone.foldl (fun (t : State) c => (t.breakTile c).abortPeers c) s
  { s with cmds := s.cmds.map (fun (e : Nat × Cmd) => if p e.2 then (e.1, { e.2 with
    ctx := none, gang := none, launch := none, regrow := none, stopped := true }) else e) }

/-- Operations that are discarded, with their sets and results. -/
def State.endOps (s : State) (p : MOp → Bool) : State :=
  let ops := s.ops.filter (fun e => !(p e.2))
  { s with
    ops := ops
    sets := s.sets.filter (fun e => ops.any (fun o => o.2.set == e.1))
    results := s.results.filter (fun r => ops.any (fun o => o.1 == r.op)) }

/-- A resident gang ends. -/
def State.killGang (s : State) (gid : Nat) (k : Gang) : State :=
  let s := (s.endCmds (fun c => c.gang == some gid)).endOps (fun o => o.gang == gid)
  let s := (s.gangUnits k).foldl (fun (t : State) e => (t.unlock e.2).freeToken e.1) s
  s.dropGang gid k

/-- Saved gangs end. -/
def State.killSaved (s : State) (p : Saved → Bool) : State :=
  let gone := (s.saved.filter (fun e => p e.2)).map (·.1)
  let s := (s.endCmds (fun c => match c.gang with
    | some g => gone.contains g
    | none => false)).endOps (fun o => gone.contains o.gang)
  { s with saved := s.saved.filter (fun e => !(p e.2)) }

/-- A request and those that belong to it are undone: their gangs end, tiles that were REGROWING are DROPPED again, one that an
open TILEST of theirs had left BROKEN among them, and their pins go. -/
def State.undoRegrow (s : State) (d : Nat) : State :=
  let fam := s.regrowFamily d
  let is_ (k : Gang) : Bool := fam.any (fun e => k.regrow == some e.1)
  let open_ := (fam.filter (fun e => tileState s e.1 == 2)).map (·.1)
  let s := (s.gangs.filter (fun e => is_ e.2)).foldl (fun (t : State) e => t.killGang e.1 e.2) s
  let s := s.killSaved (fun x => is_ x.gang)
  let s := (s.endCmds (fun c => fam.any (fun e => c.regrow == some e.1))).endOps (fun o => fam.any (fun e => o.regrow == some e.1))
  let s := fam.foldl (fun (t : State) e =>
    let t := if open_.contains e.1 then t.setTileState e.1 1 else t
    e.2.pins.foldl (fun (t : State) p => t.setPins p (fun n => n - 1)) t) s
  { s with regrows := s.regrows.filter (fun e => !(fam.any (fun f => f.1 == e.1))) }

/-! KILL (R443). -/

/-- A caller gets no reply (R79). -/
def State.noReply (s : State) (n : Nat) (r : Reply) (status : Nat) : State :=
  let t := { s with replies := put s.replies n { r with live := false } }
  match r.dest with
  | .path u b =>
      match ((find s.units u).bind (fun g => g.slot b)).bind (fun p => p.wait) with
      | some (.calling k rd) =>
          if k = n then t.complete u b (fun g => g.takeMsg (isControl u) ⟨0, [], [], none⟩ Cap.null rd status) else t
      | _ => t
  | .hostSlot vd k => t.slotReply vd k status ⟨0, [], [], none⟩
  | .peer p id => t.sendOut (r.vd.getD 0) (.reply p id status [] [])
  | _ => t

/-- A pending reply capability of a context is consumed (R443). -/
def State.consume (s : State) (c : Nat) : State :=
  match find s.ctxs c with
  | none => s
  | some k =>
      let s := s.modCtx c (fun k => { k with reply := none, act := none })
      match k.reply.bind (fun n => (find s.replies n).map (fun r => (n, r))) with
      | none => s
      | some (n, r) => { s with replies := put s.replies n { r with live := false } }

/-- Launches of a context complete FAULTED, or ABORTED (R51, R54, R443). -/
def Launch.end_ (l : Launch) : Launch :=
  { l with
    state := match l.state with
      | .done c => .done c
      | _ => .done (if l.aborted.isSome then 2 else 3)
    toGo := []
    retired := []
    resume := [] }

/-- Every unit of a context ends, and all that it held goes (R443); the calls that it was serving end with a status (R79).
DEDUCED: notes/assumptions/43.md. -/
def State.killCtx (s : State) (c : Nat) (status : Nat := 2) : State :=
  let s := (s.gangs.filter (fun e => s.gangCtx e.2 == some c)).foldl (fun (t : State) e => t.killGang e.1 e.2) s
  let s := s.killSaved (fun x => x.ctx == c)
  let s := (s.endCmds (fun k => k.ctx == some c)).endOps (fun o => o.ctx == some c)
  let s := (s.regrows.filter (fun e => e.2.ctx == c)).foldl (fun (t : State) e =>
    if (find t.regrows e.1).isSome then t.undoRegrow e.1 else t) s
  let s := (s.replies.filter (fun e => e.2.live && e.2.server == some c)).foldl (fun (t : State) e => t.noReply e.1 e.2 status) s
  let s := s.consume c
  let mine (n : Nat) : Bool := ((find s.launches n).map (fun (l : Launch) => l.ctx)) == some c
  let s : State := { s with
    units := (s.units.map (fun e => if e.2.ctx = some c then (e.1, { e.2.halt with ctx := none, stopped := true }) else e)).map
      (fun e => (e.1, { e.2 with bank := e.2.bank.map (fun k => if k.ctx = some c then { k with ctx := none } else k) }))
    handles := s.handles.filter (fun e => e.2.holder != some c)
    quarantine := s.quarantine.map (fun e => (e.1, e.2.filter (fun x => x.1 != c)))
    llc := s.llc.map (fun e => (e.1, e.2.map (fun (l : Line) => if l.ctx = some c then { l with ctx := none } else l)))
    launches := s.launches.map (fun e => if e.2.ctx = c then (e.1, e.2.end_) else e) }
  ((s.clearMarks (fun m => mine m.launch)).modCtx c (fun k => { vd := k.vd, root := k.root, seq := k.seq, state := .dead })).fixHeads.stir
    (((find s.ctxs c).bind (fun k => s.partOfVd k.vd)))

/-! RESUME (R443). -/

/-- A halted context runs on; its reads in flight have landed. A hang that the watchdog reported is counted anew (R387,
R396). -/
def State.runOn (s : State) (c : Nat) : State :=
  let s := s.consume c
  let s := (s.regrows.filter (fun e => e.2.ctx == c && e.2.failed.isSome)).foldl (fun (t : State) e =>
    if (find t.regrows e.1).isSome then t.undoRegrow e.1 else t) s
  let here (g : Option Nat) : Bool := match g with
    | none => true
    | some g => (find s.saved g).isNone
  let s := s.landFlights (fun g => ((find s.gangs g).bind s.gangCtx) == some c)
  ({ s with
      units := s.units.map (fun e => if e.2.ctx = some c then (e.1, { e.2 with stopped := false }) else e)
      cmds := s.cmds.map (fun e => if e.2.ctx = some c ∧ here e.2.gang then (e.1, { e.2 with stopped := false }) else e)
      ops := s.ops.map (fun e => if e.2.ctx = some c ∧ here (some e.2.gang) then (e.1, { e.2 with stopped := false }) else e)
    } : State).modCtx c (fun k => { k with
      state := .running, fault := none, more := [], byCall := false, decide := false, image := none, restore := none,
      shown := [], threads := [], hang := if (k.fault.map (fun (f : FaultInfo) => f.code)) = some 0x1C then [] else k.hang })

/-- Where the saved gangs of a context go for an origin, if they may (R446). -/
def State.targets (s : State) (c row0 col0 : Nat) : Option (List (Nat × Nat)) :=
  let sv := s.saved.filter (fun e => e.2.ctx == c)
  let rect := rectangle (sv.map (fun e => e.2.core))
  let at_ (e : Nat × Saved) : Nat × Nat := (row0 + (coreRow e.2.core - rect.1), col0 + (coreCol e.2.core - rect.2.1))
  let p := (find s.ctxs c).bind (fun k => s.partOfVd k.vd)
  if sv.all (fun e =>
      let x := at_ e
      decide (x.1 < 16) && decide (x.2 < 80) && s.coreFree (coreAt x.1 x.2)
        && (match p with
          | none => false
          | some p => s.userCore p (coreAt x.1 x.2))
        && s.holdsSaved e.1 e.2 (coreAt x.1 x.2)) then
    some (sv.map (fun e => (e.1, coreAt (at_ e).1 (at_ e).2)))
  else none

/-- A saved gang is placed, if the budgets of its work allow it (R34). -/
def State.unsaveOk (s : State) (gid core : Nat) : Option State :=
  match find s.saved gid with
  | none => some s
  | some sv => if s.gangBudget sv.gang core then some (s.unsave gid core) else none

/-! Control-core threads in images (R440, R446, R449). -/

/-- A control core that a thread has left: its K bank waits, and its U bank is as at reset. -/
def Grp.vacateThread (g : Grp) : Grp :=
  { g with
    v := [], vf := [], s := [], p := [], mode := 1, status := 0, stoch := 0, txn := [], fails := [], ctx := none
    slotA := none, stopped := false, vacate := false }

/-- A thread on a free control core: the core keeps its own registers and its K bank, one that has never run its firmware
starting there when it is first entered. -/
def Grp.takeThread (g t : Grp) : Grp :=
  { t with
    own := g.own, role := g.role, x := g.x, stopped := false, vacate := false
    eretRd := if g.level = .user then g.eretRd else none
    bank := if g.level = .user then g.bank
      else some { v := g.v, vf := g.vf, s := g.s, p := g.p, mode := g.mode, status := g.status, stoch := g.stoch, pc := 0,
                  pcc := g.pcc, pccAt := g.pccAt } }

/-- Control cores without a thread, ascending (R446). -/
def State.freeControls (s : State) : List Nat :=
  (s.units.filter (fun e => isControl e.1 && e.2.slotA.isNone && e.2.slotB.isNone && !e.2.dead)).map (·.1)

/-- The U threads of a context go into its image (R440, R444), swept (R431). -/
def State.saveThreads (s : State) (c : Nat) : State :=
  let ts := s.units.filter (fun e => isControl e.1 && e.2.ctx == some c)
  ({ s with
      units := s.units.map (fun e => if isControl e.1 && e.2.ctx == some c then (e.1, e.2.vacateThread) else e)
      epochs := s.epochs.map (fun e => (e.1, { e.2 with residents := e.2.residents.filter (fun r =>
        !(ts.any (fun x => r == 2 ^ 61 + x.1))) })) } : State).modCtx c (fun k => { k with
    threads := k.threads ++ ts.map (fun e => (e.1, { s.sweepGrp e.2 with stopped := false })) })

/-- The threads of a context's image take free control cores, which of them is free; none if there are too few (R446).
DESIGN CHOICE: notes/assumptions/100.md. -/
def State.placeThreads (s : State) : List (Nat × Grp) → Option State
  | [] => some s
  | t :: r =>
      let us := s.freeControls
      match us[s.freeVal % us.length]? with
      | none => none
      | some u => match find s.units u with
          | none => none
          | some g => State.placeThreads (s.draw.putU u (g.takeThread (s.sweepGrp t.2))) r

/-- A saved context is restored as a whole and runs on. -/
def State.restoreCtx (s : State) (c row0 col0 : Nat) : Option State :=
  ((s.targets c row0 col0).bind (fun ts =>
    (ts.foldl (fun (t : Option State) e => t.bind (fun t => t.unsaveOk e.1 e.2)) (some s)).bind (fun t =>
      t.placeThreads (((find t.ctxs c).map (fun (k : Ctx) => k.threads)).getD [])))).map (fun t => t.runOn c)

/-- The origin that a context was saved at. -/
def State.origin (s : State) (c : Nat) : Nat × Nat :=
  let r := rectangle ((s.saved.filter (fun e => e.2.ctx == c)).map (fun e => e.2.core))
  (r.1, r.2.1)

/-- RESUME as an action: a saved context is restored as soon as its origin allows. -/
def State.resume (s : State) (c : Nat) : State :=
  match (find s.ctxs c).map (fun (k : Ctx) => k.state) with
  | some CState.halted => s.runOn c
  | some CState.saved => (s.consume c).modCtx c (fun k => { k with restore := some (s.origin c), decide := false })
  | _ => s

/-! NOTIFY (R443). -/

/-- The root object of a context. -/
def State.ctxRoot (s : State) (c : Nat) : Option Obj := (find s.ctxs c).bind (fun k => s.obj? 6 k.vd k.root)

/-- The message goes to the context's own root. -/
def State.notifyOwn (s : State) (c : Nat) : State :=
  match s.ctxRoot c with
  | none => s
  | some r => s.faultMessage c r

/-- A handler's NOTIFY: the nearest ancestor context root, or, at the VD's root, KILL. -/
def State.escalate (s : State) (c : Nat) : State :=
  match find s.ctxs c with
  | none => s
  | some k =>
      match s.rootOf ((s.regionLine k.vd k.escalate).drop 1) with
      | none => s.killCtx c
      | some r => (s.consume c).faultMessage c r

/-! The end of a halt. -/

/-- HALTCTX instructions that waited for a context complete with a status; one whose path is not in a slot finds it when it
executes again (R38, R448). -/
def State.answerCallers (s : State) (c : Nat) (cs : List (Caller × Nat × Bool)) (st : Bool → Nat) : State :=
  cs.foldl (fun (t : State) e => (t.answerCaller e.1 e.2.1 (st e.2.2)).getD
    (t.modCtx c (fun k => { k with answers := k.answers ++ [(e.1, st e.2.2)] }))) s

/-- Every gang and thread of a halted context is saved, and the image holds them; or nothing changes (R444, R448). -/
def State.saveCtx (s : State) (c : Nat) : State × Bool :=
  let t := ((s.gangs.filter (fun e => s.gangCtx e.2 == some c)).foldl (fun (t : State) e => t.saveGang e.1 e.2) s).saveThreads c
  match find t.ctxs c with
  | none => (s, false)
  | some k =>
      match t.writeImage c k 1 with
      | none => (s, false)
      | some t => ((t.consume c).modCtx c (fun k => { k with state := .saved }), true)

/-- The context as the end of a halt finds it: a fault met during the halt of a HALTCTX is delivered now (R437). -/
def Ctx.promoted (k : Ctx) : Ctx :=
  match k.fault, k.more with
  | none, e :: r => { k with fault := some e.2, more := r, seq := (k.seq + 1) % 65536 }
  | _, _ => k

/-- Once every unit has stopped, the image is written; an image that does not fit kills the context (R439, R442). Passes
that had begun have written their results (R436). -/
def State.finishHalt (s : State) (c : Nat) : State :=
  match (find s.ctxs c).map Ctx.promoted with
  | none => s
  | some k =>
      if k.state ≠ .halting ∨ !(s.allStopped c) then s
      else match (s.modCtx c (fun _ => k)).writeImage c k 0 with
        | none => ((s.areaFull c k).killCtx c).answerCallers c k.callers (fun _ => 5)
        | some t =>
            let t := t.modCtx c (fun k => { k with state := .halted, decide := k.fault.isSome, callers := [] })
            let r := if k.callers.any (fun e => e.2.2) then t.saveCtx c else (t, true)
            r.1.answerCallers c k.callers (fun save => if save && !r.2 then 5 else 0)

/-- Every halt that can end does: contexts without a unit have nothing to stop. -/
def State.settleHalts (s : State) : State :=
  s.ctxs.foldl (fun (t : State) e => if e.2.state = .halting then t.finishHalt e.1 else t) s

/-- The context that a unit belongs to. -/
def State.unitCtx (s : State) (u : Nat) : Option Nat :=
  let own : Option Nat :=
    if u < 2 ^ 20 then (find s.units u).bind (fun g => g.ctx)
    else if u < 2 ^ 40 then (find s.cmds (u - 2 ^ 20)).bind (fun c => c.ctx)
    else (s.ops.find? (fun e => e.2.core == u - 2 ^ 40 && (match e.2.ctx.bind (fun n => find s.ctxs n) with
      | some k => k.state == .halting
      | none => false))).bind (fun e => e.2.ctx)
  own.orElse (fun _ => (s.ctxs.find? (fun e => e.2.state == .halting && (e.2.fault.bind (fun f => f.unit)) == some u)).map (·.1))

/-- UNIT_STOP (R436): the unit stops, and with the last one the halt ends. -/
def State.unitStop (s : State) (u : Nat) : State :=
  match s.unitCtx u with
  | none => s
  | some c =>
      if ((find s.ctxs c).map (fun k => k.state)) ≠ some .halting then s
      else
        let t : State :=
          if u < 2 ^ 20 then (if ((find s.units u).map (fun g => g.stopped)) = some false then s.stopUnit u else s)
          else if u < 2 ^ 40 then
            (if ((find s.cmds (u - 2 ^ 20)).map (fun k => k.stopped)) = some false then s.stopCmd (u - 2 ^ 20) else s)
          else
            let s := s.landResults (u - 2 ^ 40) s.results.length
            { s with ops := s.ops.map (fun e => if e.2.core = u - 2 ^ 40 ∧ e.2.ctx = some c then (e.1, { e.2 with stopped := true }) else e) }
        t.finishHalt c

/-! FAULT decisions (R384, R387, R390). -/

/-- FAULT_DECISION: `only` restricts it to a run that overruns. -/
def State.faultDecision (s : State) (p : Nat) (only : Bool) : State :=
  match s.faultDue p with
  | [] => s
  | (c, k) :: _ =>
      let t := s.modCtx c (fun k => { k with decide := false })
      let dog : Bool := match k.fault with
        | some f => f.code == 0x1C || f.code == 0x1D
        | none => false
      match s.decideAct p 2 (some c) with
      | .overrun => (t.counted p true false).notifyOwn c
      | .faultact 0 => if only then s else (t.counted p false false).killCtx c
      | .faultact 1 => if only then s else if dog then (t.counted p false false).resume c else (t.counted p false false).notifyOwn c
      | .faultact _ | .defer => if only then s else (t.counted p false false).notifyOwn c
      | _ => if only then s else (t.counted p false true).notifyOwn c

/-- STEP_BUDGET_OVERRUN: the decision that is due reaches its 257th step. -/
def State.budgetOverrun (s : State) (p : Nat) : State :=
  if !(s.faultDue p).isEmpty then s.faultDecision p true
  else if s.dispatchDue p then s.dispatchDecision p true
  else s.pressureDecision p true

/-! Pre-emption (R393 to R395). -/

/-- The gang of a group, and whether its core is marked. -/
def State.markedGang (s : State) (u : Nat) : Option (Nat × Gang × Grp × Mark) :=
  match find s.units u with
  | none => none
  | some g => match g.gang.bind (fun n => (find s.gangs n).map (fun k => (n, k))), find s.marks (unitCore u) with
      | some (n, k), some m => if g.launch = some m.launch ∨ g.level = .kernel then none else some (n, k, g, m)
      | _, _ => none

/-- Does a command write scratch? -/
def Cmd.writesScr (c : Cmd) : Bool :=
  c.arrive.isSome || match c.body with
    | .move _ _ _ (.scr _) _ _ _ _ _ => true
    | .tileld .. => true
    | .drain _ _ _ _ _ _ _ _ _ _ (.scr _) _ => true
    | _ => false

/-- A gang all of whose groups have halted on a marked core is saved. -/
def State.vacateCheck (s : State) (gid : Nat) : State :=
  match find s.gangs gid with
  | none => s
  | some k => if (s.gangUnits k).all (fun e => e.2.vacate) then s.saveGang gid k else s

/-- A group halts on its marked core. -/
def State.vacateUnit (s : State) (u gid : Nat) : State :=
  match find s.units u with
  | none => s
  | some g =>
      let t := s.stopUnit u
      match find t.units u with
      | none => t
      | some h => (t.putU u { h with vacate := true, stopped := g.stopped }).vacateCheck gid

/-- RECONVERGENCE_HALT (R394): a group halts, or the gang is saved once every group that has not exited has halted. -/
def State.reconvergenceHalt (s : State) (u : Nat) : State :=
  match s.markedGang u with
  | none => s
  | some (gid, k, g, _) =>
      if (s.gangUnits k).all (fun e => e.2.vacate) then s.vacateCheck gid
      else
      let calm : Bool := match g.slotA.orElse (fun _ => g.slotB) with
        | some p => p.hints.isEmpty && !p.hnd
        | none => false
      if g.reconverged && calm && !g.vacate && !g.stopped && k.res.all (fun e => !(resValid e.2)) && !(s.matrixBusy gid)
          && s.cmds.all (fun e => e.2.gang != some gid || e.2.finished || !e.2.writesScr) then
        s.vacateUnit u gid
      else s

/-- FORCED_SAVE (R394): 16,384 core cycles after the mark. -/
def State.forcedSave (s : State) (u : Nat) : State :=
  match s.markedGang u with
  | none => s
  | some (gid, _, g, m) => if m.at_ + 16384 ≤ s.now ∧ !g.vacate ∧ !g.stopped then s.vacateUnit u gid else s

/-- Gangs of a head placed on a core that is given to it. -/
def State.fillCore (s : State) (n c : Nat) : Nat → State
  | 0 => s
  | k + 1 =>
      match find s.launches n with
      | none => s
      | some l =>
          if l.aborted.isSome || !(s.ctxRuns l.ctx) || !(s.fitsOn n l c) || !(s.pathRoom n l) then s
          else match pickGang s l.toGo with
            | none => s
            | some g =>
                State.fillCore (if l.resume.contains g then s.draw.resumeGang n l c g else s.draw.startGang n l c g) n c k

/-- Does a core stay with the head it was marked for: a gang of it fits there and is only held up (R393)? -/
def State.keepsMark (s : State) (n c : Nat) : Bool :=
  match find s.launches n with
  | none => false
  | some l => l.state == .queued && !l.toGo.isEmpty && l.aborted.isNone && s.ctxRuns l.ctx && s.fitsOn n l c && s.pathRoom n l

/-- CORE_HANDOVER (R393): a marked core that has emptied goes to the head it was marked for. -/
def State.coreHandover (s : State) (c : Nat) : State :=
  match find s.marks c with
  | none => s
  | some m =>
      if s.units.any (fun e => !(isControl e.1) && unitCore e.1 == c && e.2.level == .user) then s
      else
        let t := s.fillCore m.launch c 64
        if t.keepsMark m.launch c then t.settleHalts
        else (State.gained { t with marks := del t.marks c } c).settleHalts

/-- QUARANTINE_LANDING (R445): a read in flight lands. -/
def State.quarantineLanding (s : State) (c : Nat) : State :=
  match s.flight.find? (fun e => e.1 == c) with
  | none => s
  | some (core, gid, e) =>
      let t := { s with flight := s.flight.erase (core, gid, e) }
      match find s.gangs gid, find s.saved gid with
      | some k, _ => t.landQ k e
      | none, some sv => { t with quarantine := put t.quarantine c (look [] t.quarantine c ++ [(sv.ctx, gid, e)]) }
      | none, none => t

/-- A saved gang of a running context is placed where it fits, unmarked cores only, on the first such die of its launch's order
(R381, R394). -/
def State.placeSaved (s : State) (n : Nat) (l : Launch) : Option State :=
  (s.savedOf n).findSome? (fun e =>
    if !(s.ctxRuns l.ctx) then none
    else (l.order.findSome? (fun d => s.mostFree (((List.range 64).map (64 * d + ·)).filter (fun c =>
      (find s.marks c).isNone && s.fitsOn n l c && s.holdsSaved e.1 e.2 c)))).map (fun c => s.unsave e.1 c))

/-- GANG_DISPATCH: a saved gang is placed again, or one gang of an accepted head starts (R380, R394). -/
def State.gangDispatch (s : State) (n : Nat) : State :=
  match (find s.launches n).bind (fun l => s.placeSaved n l) with
  | none => s.dispatchOne n false
  | some t => if s.freeVal % 2 = 0 then t.draw else s.draw.dispatchOne n false

/-- PHASE_START (R48): a gang continues from its phase record, or its context halts for a record that breaks R370. -/
def State.phaseStart (s : State) (n : Nat) : State := (s.dispatchOne n true).settleHalts

/-! Watchdogs and errors without a consumer (R23, R396, R397). -/

/-- A context fault at no unit. -/
def State.noUnitFault (s : State) (c code detail : Nat) : State :=
  match find s.ctxs c with
  | none => s
  | some k => (s.ctxFault c { code := code, detail := detail, pc := k.lastPc }).finishHalt c

/-- WATCHDOG_HANG. -/
def State.watchdogHang (s : State) (c d : Nat) : State :=
  let lim := fld (s.sysR 0x0500 d 0 0).toNat 0 32 * 1024
  match find s.ctxs c with
  | none => s
  | some k =>
      if lim ≠ 0 ∧ lim ≤ look 0 k.hang d ∧ k.state = .running then
        (s.modCtx c (fun k => { k with hang := del k.hang d })).noUnitFault c 0x1C 0
      else s

/-- WATCHDOG_DEADLOCK. -/
def State.watchdogDeadlock (s : State) (c : Nat) : State :=
  let lim := fld (s.sysR 0x0501 0 0 0).toNat 0 32 * 2 ^ 20
  match find s.ctxs c with
  | none => s
  | some k =>
      if lim ≠ 0 ∧ lim ≤ k.deadlock ∧ k.state = .running then
        (s.modCtx c (fun k => { k with deadlock := 0 })).noUnitFault c 0x1D 0
      else s

/-! The CTX instructions (R447, R448). -/

/-- The context root that qc names, or the status of a refusal: a region of another partition is known, and refused as such.
DEDUCED: notes/assumptions/41.md. -/
def Iss.rootArg (x : Iss) (s : State) (base : Nat) : Except Nat Obj :=
  match (s.obj? 6 x.g.vd base).orElse (fun _ => s.objs.find? (fun o => o.otype == 6 && o.va == base)) with
  | none => .error 2
  | some o =>
      if bit (s.rcb o) 342 then .error 2
      else if s.partOfVd o.vd = none ∨ s.partOfVd o.vd ≠ x.part s then .error 1
      else .ok o

/-- HALTCTX and HALTCTX.SAVE. -/
def Iss.haltctx (x : Iss) (s : State) (d : Reg) (q : BitVec 4) (save : Bool) : Res :=
  let c := x.qs q
  match objCheck c 6 pSPAWN with
  | .error f => .fault (x.fail f x.low c q.toNat)
  | .ok base =>
      match x.rootArg s base with
      | .error st => .retire s (x.toS d st)
      | .ok o =>
          let r := s.openCtx o.vd o.va
          match find r.1.ctxs r.2 with
          | none => .retire s (x.toS d 2)
          | some k =>
              match k.answers.find? (fun e => e.1 == x.caller) with
              | some a => .retire (s.modCtx r.2 (fun k => { k with answers := k.answers.erase a })) (x.toS d a.2)
              | none =>
              match k.state with
              | .saved => .retire s (x.toS d 3)
              | .halted =>
                  if !save then .retire s (x.toS d 0)
                  else
                    let t := r.1.saveCtx r.2
                    .retire t.1 (x.toS d (if t.2 then 0 else 5))
              | _ =>
                  if k.callers.any (fun e => e.1 == x.caller) then .wait s .other
                  else
                    let t := (r.1.putU x.u x.g).block x.u x.b .other
                    let t := t.modCtx r.2 (fun k => { k with
                      state := .halting, byCall := k.byCall || k.state == .running
                      callers := k.callers ++ [(x.caller, sdOf d, save)] })
                    .done (t.finishHalt r.2)

/-- RESUMECTX. -/
def Iss.resumectx (x : Iss) (s : State) (d a : Reg) (q : BitVec 4) : Res :=
  let c := x.qs q
  match objCheck c 6 pSPAWN with
  | .error f => .fault (x.fail f x.low c q.toNat)
  | .ok base =>
      match x.rootArg s base with
      | .error st => .retire s (x.toS d st)
      | .ok o =>
          let v := (x.g.rd a 0).toNat
          let move := bit v 2
          let st (n : Nat) : Res := .retire s (x.toS d n)
          match (s.ctxNo o.vd o.va).bind (fun n => (find s.ctxs n).map (fun k => (n, k))) with
          | none => st 3
          | some (n, k) =>
              let ok (t : State) : Res :=
                let g := (find t.units x.u).getD x.g
                .retire t (g.wrS (sdOf d) 0#32)
              let s1 := s.putU x.u x.g
              if (k.state ≠ .halted ∧ k.state ≠ .saved) ∨ (move ∧ k.state = .halted) ∨ (s.vd? o.vd).hstate ≠ 0 then st 3
              else if fld v 24 8 ≠ 0 ∨ fld v 3 5 ≠ 0 ∨ 2 ≤ fld v 0 2 then st 6
              else if fld v 0 2 = 0 then ok (s1.killCtx n)
              else if k.state = .halted then ok (s1.runOn n)
              else
                let at_ := if move then (fld v 8 8, fld v 16 8) else s.origin n
                match s1.restoreCtx n at_.1 at_.2 with
                | none => st 4
                | some t => ok t

/-- STOPRD. -/
def Iss.stoprd (x : Iss) (s : State) (d q : BitVec 4) : Res :=
  let c := x.qs q
  match objCheck c 6 pSPAWN with
  | .error f => .fault (x.fail f x.low c q.toNat)
  | .ok base =>
      let img : Option (Nat × Nat × Nat) := match x.rootArg s base with
        | .error _ => none
        | .ok o => (s.ctxNo o.vd o.va).bind (fun n => (find s.ctxs n).bind (fun k =>
            if k.state = .halted ∨ k.state = .saved then k.image.map (fun i => (n, i)) else none))
      match img with
      | none => .retire s (x.toQ d Cap.null)
      | some (n, a, len) => .retire (s.showImage n (mkCap (imageBase + a) len pLOAD)) (x.toQ d (mkCap (imageBase + a) len pLOAD))

/-- The entries of a context in a core's quarantine buffer go into its gang images (R445). -/
def State.drainQuarantine (s : State) (n c : Nat) : State :=
  let es := look [] s.quarantine c
  { s with
    saved := s.saved.map (fun (e : Nat × Saved) =>
      (e.1, { e.2 with quar := e.2.quar ++ (es.filter (fun y => y.1 == n && y.2.1 == e.1)).map (fun y => y.2.2) }))
    quarantine := store [] s.quarantine c (es.filter (fun y => y.1 != n)) }

/-- QDRAIN: the reads in flight land, and the entries go into the gang images. -/
def Iss.qdrain (x : Iss) (s : State) (d : Reg) (q : BitVec 4) : Res :=
  let c := x.qs q
  match objCheck c 6 pSPAWN with
  | .error f => .fault (x.fail f x.low c q.toNat)
  | .ok base =>
      match x.rootArg s base with
      | .error st => .retire s (x.toS d st)
      | .ok o =>
          match (s.ctxNo o.vd o.va).bind (fun n => (find s.ctxs n).map (fun k => (n, k))) with
          | none => .retire s (x.toS d 3)
          | some (n, k) =>
              if k.state ≠ .saved then .retire s (x.toS d 3)
              else if s.flight.any (fun e => ((find s.saved e.2.1).map (fun v => v.ctx)) == some n) then .wait s .other
              else
                let cs := (s.quarantine.filter (fun e => e.2.any (fun y => y.1 == n))).map (·.1)
                .retire (cs.foldl (fun (t : State) c => (t.drainQuarantine n c).gained c) s) (x.toS d 0)

/-- The address of the root region of a VD. -/
def State.rootVa (s : State) (vd : Nat) : Option Nat := if (s.vd? vd).live then some (s.vd? vd).root else none

/-- ERET (R450): the thread runs in its U bank, in the context of its VD's root region.
DESIGN CHOICE: notes/assumptions/26.md. -/
def Iss.eret (x : Iss) (s : State) (d a : Reg) (q : BitVec 4) : Res :=
  if !(isControl x.u) then .trap 0
  else
    let c := x.qs q
    if !c.tag ∨ c.otype ≠ 0 ∨ !(c.has pEXEC) then .retire s (x.toS d 4)
    else match x.g.bank with
      | none => .trap 0
      | some k =>
          let pc := x.g.rd2 a 0
          let r : State × Option Nat := match s.rootVa x.g.vd with
            | none => (s, none)
            | some va => let t := s.openCtx x.g.vd va
                         (t.1, some t.2)
          let runs : Bool := match r.2 with
            | none => true
            | some n => r.1.ctxRuns n
          let g : Grp := { x.g.useBank k (x.p.pc + 4) with
            level := .user, ctx := r.2, pcc := c, pccAt := none, stopped := !runs, eretRd := some (sdOf d),
            slotA := some { pc := pc, mask := 1 } }
          .done (r.1.putU x.u g)

/-- KERNEL_REENTRY (R450): the notification at KNOTE of control core `n` is nonzero. -/
def State.kernelReentry (s : State) (n : Nat) : State :=
  let u := 81920 + n
  match find s.units u with
  | none => s
  | some g =>
      let note := (g.ownR 0x0601).toNat
      if g.level = .user ∧ note ≠ 0 ∧ noteWord s note ≠ 0 ∧ !g.dead then
        s.putU u (g.reenter ((g.slotA.map (fun p => p.rewound.pc)).getD 0) 3)
      else s

/-! Events. -/

/-- KILL: the action of a handler's reply (R443). -/
def execKill (ctx : Nat) (s : State) : Out :=
  .next (match (find s.ctxs ctx).bind (fun k => k.act) with
    | some (0, _) => s.killCtx ctx
    | _ => s)

/-- RESUME. -/
def execResume (ctx : Nat) (s : State) : Out :=
  .next (match (find s.ctxs ctx).bind (fun k => k.act) with
    | some (1, _) => s.resume ctx
    | _ => s)

/-- NOTIFY. -/
def execNotify (ctx : Nat) (s : State) : Out :=
  .next (match (find s.ctxs ctx).bind (fun k => k.act) with
    | some (2, _) => s.escalate ctx
    | _ => s)

/-- PHASE_START (R48). -/
def execPhaseStart (n : Nat) (s : State) : Out := .next (s.phaseStart n)

/-- UNIT_STOP (R436). -/
def execUnitStop (u : Nat) (s : State) : Out := .next (s.unitStop u)

/-- FAULT_DECISION (R384). -/
def execFaultDecision (part : Nat) (s : State) : Out := .next (s.faultDecision part false)

/-- STEP_BUDGET_OVERRUN (R390). -/
def execStepBudgetOverrun (part : Nat) (s : State) : Out := .next (s.budgetOverrun part)

/-- WATCHDOG_HANG (R396). -/
def execWatchdogHang (ctx die : Nat) (s : State) : Out := .next (s.watchdogHang ctx die)

/-- WATCHDOG_DEADLOCK (R397). -/
def execWatchdogDeadlock (ctx : Nat) (s : State) : Out := .next (s.watchdogDeadlock ctx)

/-- ECC_NO_CONSUMER (R23). -/
def execEccNoConsumer (ctx : Nat) (s : State) : Out := .next (s.noUnitFault ctx 0x18 7)

/-- FORCED_SAVE (R394). -/
def execForcedSave (u : Nat) (s : State) : Out := .next (s.forcedSave u)

/-- RECONVERGENCE_HALT (R394). -/
def execReconvergenceHalt (u : Nat) (s : State) : Out := .next (s.reconvergenceHalt u)

/-- CORE_HANDOVER (R393). -/
def execCoreHandover (core : Nat) (s : State) : Out := .next (s.coreHandover core)

/-- QUARANTINE_LANDING (R445). -/
def execQuarantineLanding (core : Nat) (s : State) : Out := .next (s.quarantineLanding core)

/-- CONTEXT_RESTORE (R446): at the origin that a RESUME awaits. -/
def execContextRestore (ctx row0 col0 : Nat) (s : State) : Out :=
  .next (if ((find s.ctxs ctx).bind (fun k => k.restore)) = some (row0, col0) then (s.restoreCtx ctx row0 col0).getD s else s)

/-- GANG_DISPATCH (R380). -/
def execGangDispatch (n : Nat) (s : State) : Out := .next (s.gangDispatch n)

/-- KERNEL_REENTRY (R450). -/
def execKernelReentry (n : Nat) (s : State) : Out := .next (s.kernelReentry n)

/-- AGEING_SWAP (R44): the path that issued last gives way to a record that has waited. -/
def execAgeingSwap (u : Nat) (s : State) : Out :=
  .next (match find s.units u with
    | none => s
    | some g =>
        let gen := s.genOf g
        if g.ageDue gen then s.putU u ((g.swapWith gen g.lastB (g.pickAged gen)).giveWay gen g.lastB) else s)

/-- HALTCTX (R448). -/
def execHaltctx (d : Reg) (q : BitVec 4) (s : State) : Out := issue (sigHaltctx d q) s (fun x s => x.haltctx s d q false)

/-- HALTCTX.SAVE (R448). -/
def execHaltctxSave (d : Reg) (q : BitVec 4) (s : State) : Out :=
  issue (sigHaltctxSave d q) s (fun x s => x.haltctx s d q true)

/-- RESUMECTX (R448). -/
def execResumectx (d a : Reg) (q : BitVec 4) (s : State) : Out :=
  issue (sigResumectx d a q) s (fun x s => x.resumectx s d a q)

/-- STOPRD (R447). -/
def execStoprd (d q : BitVec 4) (s : State) : Out := issue (sigStoprd d q) s (fun x s => x.stoprd s d q)

/-- QDRAIN (R445, R448). -/
def execQdrain (d : Reg) (q : BitVec 4) (s : State) : Out := issue (sigQdrain d q) s (fun x s => x.qdrain s d q)

/-- ERET (R450). -/
def execEret (d a : Reg) (q : BitVec 4) (s : State) : Out := issue (sigEret d a q) s (fun x s => x.eret s d a q)

end Sys2Proof.Machine
end

