-- ==== Sys2Proof/Machine/Shares.lean ====
section
/-! DEFINITION. Guaranteed shares: token buckets and pools (R398 to R403, R406, R407), the round of an arbiter, the
admission of an SVC batch (R371, R372, R408), and the thresher and gleaner one line at a time (R409, R431, R434). -/
namespace Sys2Proof.Machine

/-! Buckets. -/

/-- A LEVEL above DEPTH is cut, and the excess lent. -/
def State.settleLevel (s : State) (kind inst vd n : Nat) : State :=
  let top := 1024 * cfgDepth (s.bucketCfg kind inst vd)
  (s.setLevel kind inst vd (min top n)).lend kind inst vd (n - top)

/-- BUCKET_REFILL: one cycle of an arbiter. -/
def State.refill (s : State) (kind inst : Nat) : State :=
  (List.range 128).foldl (fun (t : State) v =>
    let r := cfgRate (t.bucketCfg kind inst v)
    if r = 0 then t else t.settleLevel kind inst v (t.levelOf kind inst v + r)) s

/-! Configuration (R405 to R407). -/

/-- The instances of a kind that BCFG of a die, or MBCFG, governs. -/
def instancesOf (kind die : Nat) : List Nat :=
  match kind with
  | 0 => (List.range 64).map (64 * die + ·)
  | 1 => (List.range 128).map (128 * die + ·)
  | 2 => (List.range 5).map (8 * die + ·)
  | 3 => [die]
  | _ => [0]

/-- Does a write of a bucket's configuration break R407, the partition of the VD aside? -/
def State.bcfgBad (s : State) (die kind vd value : Nat) : Bool :=
  let inst := (instancesOf kind die).headD 0
  let others := ((List.range 128).filter (· ≠ vd)).foldl (fun n v => n + cfgRate (s.bucketCfg kind inst v)) 0
  (decide (0 < cfgRate value) && decide (cfgDepth value < kindDepth kind))
    || decide (kindCapacity kind < others + cfgRate value)

/-- An accepted write. -/
def State.bcfgSet (s : State) (die kind vd value : Nat) : State :=
  let t := if kind ≤ 3 then s.sysW 0x0201 die vd kind (BitVec.ofNat 64 value) else s.sysW 0x0202 0 vd kind (BitVec.ofNat 64 value)
  (instancesOf kind die).foldl (fun (t : State) i => t.settleLevel kind i vd (t.levelOf kind i vd)) t

/-! SVC batches (R371, R372, R408). -/

/-- A record slot of a die that no batch holds. -/
def State.freeRecord (s : State) (die : Nat) : Option Nat :=
  (List.range 512).find? (fun k => s.batches.all (fun e => e.2.die != die || e.2.slot != some k))

/-- The header of a batch record. -/
def State.batchHeader (s : State) (b : Batch) (seq : Nat) : Nat :=
  let g := find s.units b.unit
  let ctx := (g.bind (fun g => g.ctx)).bind (fun n => find s.ctxs n)
  let caller : Nat := match ctx with
    | some k => (ctxCap k.root).bits.toNat
    | none => 0
  widthCode ((g.map (fun g => g.width)).getD 1) * 2 ^ 248 + unitSlot b.unit * 2 ^ 242 + unitCore b.unit * 2 ^ 231
    + b.vd * 2 ^ 224 + seq * 2 ^ 192 + b.mask.toNat * 2 ^ 128 + caller

/-- The bytes of a record and its length. DEDUCED: notes/assumptions/38.md. -/
def State.batchBytes (s : State) (b : Batch) (seq : Nat) : List Byte :=
  leBytes (s.batchHeader b seq) 64 ++ b.entries.flatMap (fun e => e.2.flatMap (fun w => leBytes w.toNat 4) ++ leBytes 0 16)

/-- SVC_BATCH_ADMIT: where the endpoint's VD is being reset, every lane completes with RESET (R466); else the batch takes a record slot and is sent as a CALL to the die's service endpoint. -/
def State.admitBatch (s : State) (id : Nat) : State :=
  match find s.batches id with
  | none => s
  | some b =>
      match s.serviceEp b.die, s.freeRecord b.die with
      | none, _ => s.svcEnd id 3
      | some _, none => s
      | some ep, some slot =>
          if ep.vd ≠ b.vd ∧ (s.vd? ep.vd).resetting = true then s.svcEnd id 1 else
          let at_ := s.slotAt b.die slot
          let seq := look 0 s.batchSeq b.die
          let bs := s.batchBytes b seq
          let tagged := ((find s.units b.unit).bind (fun g => g.ctx)).isSome
          let t := s.openW ((List.range bs.length).map (at_ + ·)) bs
          let t := if (s.protOf at_).isSome then t else t.tagW at_ tagged
          let t : State := { t with
            batches := put t.batches id { b with slot := some slot }
            batchSeq := store 0 t.batchSeq b.die ((seq + 1) % 2 ^ 32) }
          let r := t.newReply (.batch id) none
          let cap := mkCap at_ bs.length (pLOAD ||| pSTORE)
          r.1.post ep.pa { badge := b.vd, words := [BitVec.ofNat 32 bs.length], caps := [cap], reply := some r.2 }

/-! The thresher and the gleaner. -/

/-- Bytes from a key on read 0 with clear tags. -/
def State.zeroRange (s : State) (lo n : Nat) : State :=
  { s with
    mem := s.mem.filter (fun e => !(decide (lo ≤ e.1) && decide (e.1 < lo + n)))
    tags := s.tags.filter (fun e => !(decide (lo ≤ 16 * e.1) && decide (16 * e.1 < lo + n))) }

/-- Physical memory is erased, storage of registered tiles in their slices included. -/
def State.erasePa (s : State) (pa n : Nat) : State := (s.zeroRange pa n).zeroRange (tileKey pa) n

/-- Does a capability fall in a mark of an epoch? -/
def State.inEpoch (s : State) (vd epoch : Nat) (c : Cap) : Bool :=
  c.tag && s.rmarks.any (fun m => m.vd == vd && m.epoch == epoch && s.inMark m c)

/-- THRESHER_LINE_EXAMINE: a line of memory, or from 2^60 on a block of scratch. -/
def State.examine (s : State) (vd epoch key : Nat) : State :=
  (List.range 8).foldl (fun (t : State) i =>
    if key < 2 ^ 60 then
      (if t.inEpoch vd epoch (t.capAt (128 * key + 16 * i)) then t.tagW (128 * key + 16 * i) false else t)
    else
      let gang := (key - 2 ^ 60) / 2 ^ 12
      let off := 128 * ((key - 2 ^ 60) % 2 ^ 12) + 16 * i
      if t.inEpoch vd epoch (t.scrCap gang off) then t.scrTagW gang off false else t) s

/-- A request is served: a write without a context to protected memory is discarded (R425), but for the gleaner's own
erasure of claimed and reset frames. -/
def State.serveReq (s : State) (r : Req) : State :=
  match r.what with
  | .line _ _ _ | .flit => s
  | .access who => { s with grants := (who, r.kind, r.inst, r.cost) :: s.grants }
  | .frame f => { s with sent := f :: s.sent }
  | .batch id => s.admitBatch id
  | .examine vd e key => s.examine vd e key
  | .erase _ _ line => if (s.protOf (128 * line)).isSome then s else s.erasePa (128 * line) 128
  | .wipe _ line => s.erasePa (128 * line) 128

/-- Can the resource accept a request? -/
def State.acceptable (s : State) (r : Req) : Bool :=
  match r.what with
  | .batch _ => (s.serviceEp r.inst).isNone || (s.freeRecord r.inst).isSome
  | _ => true

/-- The oldest of some requests; ties to the lower VD. -/
def oldestReq : List Req → Option Req
  | [] => none
  | r :: rs => match oldestReq rs with
      | none => some r
      | some x => if x.age < r.age ∨ (x.age = r.age ∧ x.vd < r.vd) then some x else some r

/-- A round of an arbiter other than ISSUE. -/
def State.round (s : State) (kind inst : Nat) : State :=
  let ws := s.waiting kind inst
  let ok := ws.filter s.acceptable
  let pick (c : Nat) : Option Req := oldestReq (ok.filter (fun r => s.classOf ws r == c))
  match (pick 0).orElse (fun _ => (pick 1).orElse (fun _ => pick 2)) with
  | none => s
  | some r => ({ (s.charge (s.classOf ws r) r) with reqs := s.reqs.erase r } : State).serveReq r

/-! The ISSUE arbiter (R382, R383, R398, R400). -/

/-- Is a group charged issue tokens: a user group of a compute core (R398)? -/
def charged (u : Nat) (g : Grp) : Bool := !(isControl u) && g.level == .user

/-- The request that an issue of a group stands for. -/
def issueReq (u : Nat) (g : Grp) : Req := ⟨0, unitCore u, g.vd, 1, 0, .flit⟩

/-- The class in which an issue of a group would be served: owner, borrower, spare, or none. -/
def State.issueClass (s : State) (u : Nat) (g : Grp) : Nat :=
  if charged u g then
    s.classOf [issueReq u g] (issueReq u g)
  else 0

/-- The token of an issue is charged. -/
def State.chargeIssue (s : State) (u : Nat) (g : Grp) : State :=
  if charged u g then
    s.charge (s.issueClass u g) (issueReq u g)
  else s

/-- Is a path of a slot able to issue now: it is not blocked, its instruction has no access left to make, and its SCHED
stall has run out (R38, R178, R382)? -/
def State.pathReady (s : State) (x : Option Path) : Bool :=
  match x with
  | some p => p.wait.isNone && p.part.isNone && decide (p.stall ≤ s.now)
  | none => false

/-- The slot that issues: a sibling that has waited 1,024 issues goes first (R44), then the one that PYIELD named
(R202), then the sibling of a path that SCHED YIELD holds back (R178). -/
def State.slotOf (s : State) (g : Grp) (b : Bool) : Bool :=
  let old : Bool := match g.slot (!b) with
    | some y => y.wait.isNone && y.part.isNone && decide (1024 ≤ y.age)
    | none => false
  if old then !b
  else match g.next with
    | some c => if eligible (g.slot c) then c else b
    | none => match g.cede with
        | some (c, till) => if c == b && decide (s.now < till) && s.pathReady (g.slot (!b)) then !b else b
        | none => b

/-- Is a group's turn void: it is halted, or waits for its core to empty? -/
def State.idle (s : State) (u : Nat) (g : Grp) : Bool := g.stopped || g.dead || s.vacated u g

/-- The slot whose next instruction a group offers, if that path can issue now (R38, R382). -/
def State.issuable (s : State) (u : Nat) (g : Grp) : Option Bool :=
  if s.idle u g then none
  else
    let b := s.slotOf g (!(s.pathReady g.slotA))
    if s.pathReady (g.slot b) then some b else none

/-- Is some other group of the unit's core ready, and does a group let it issue instead: for 8 core cycles after YIELD
(R267)? -/
def State.otherReady (s : State) (u : Nat) : Bool :=
  s.units.any (fun e => e.1 != u && unitCore e.1 == unitCore u && !(decide (s.now < e.2.yieldTo))
    && (s.issuable e.1 e.2).isSome)
def State.yields (s : State) (u : Nat) (g : Grp) : Bool := decide (s.now < g.yieldTo) && s.otherReady u

/-- Is this the cycle after the instruction of a SCHED YIELD, for the slot that it named (R178)? -/
def State.cedes (s : State) (g : Grp) (b : Bool) : Bool :=
  match g.cede with
  | some (c, till) => c == b && decide (s.now < till)
  | none => false

/-- The instruction of a word of majors 0x01 to 0x11 (R174). -/
def vecInstr (w : Word) : Option Instr :=
  let r := match major w with
    | 1 => decodeIalu w
    | 2 => decodeImul w
    | 3 => decodeIcmp w
    | 4 => decodeBits w
    | 5 => decodePred w
    | 6 => decodePk16 w
    | 7 => decodeIalui w
    | 8 => decodeFp32 w
    | 9 => decodeFma w
    | 10 => decodeFp16 w
    | 11 => decodeBf16 w
    | 12 => decodeFmisc w
    | 13 => decodeSfu w
    | 14 => decodeCvt w
    | 15 => decodeQuant w
    | 16 => decodeXlane w
    | 17 => decodeReduce w
    | _ => .error .unassignedMajor
  match r with
  | .ok i => if i.wellFormed then some i else none
  | .error _ => none

/-- Is the instruction of a word of majors 0x01 to 0x11 and 0x33 per-lane (R173): one that GUARD may precede, or SRD
and CLOCK into a v register? -/
def perLane (w : Word) : Bool :=
  if major w = 0x33 then (w.extractLsb' 21 5 == 0#5 || w.extractLsb' 21 5 == 6#5) && Reg.isV (w.extractLsb' 14 7)
  else (vecInstr w).any Instr.guardable

/-- The issue slots that an instruction may take: 0 V0, 1 V1, 2 M, 3 U (R382). A word of no listed major, or that does
not decode, takes U. DESIGN CHOICE: notes/assumptions/54.md. -/
def slotsFor (w : Word) : List Nat :=
  let op := major w
  if perLane w then [0, 1]
  else if op == 0x14 || (decide (0x18 ≤ op) && decide (op ≤ 0x24)) then [2] else [3]

/-- The instruction that a group offers (R382): the word at the PC of the path it has chosen, 0 where none can be
fetched. -/
def State.offered (s : State) (u : Nat) (g : Grp) (b : Bool) : Word :=
  match g.slot b with
  | none => 0
  | some p => match fetch { s with cur := (u, b) } g p with
      | .ok r => r.1
      | .error _ => 0

/-- The first slot of some kinds that is free now, V0 before V1; and one that is free, or is occupied from this very
cycle on (R382). -/
def State.freeSlot (s : State) (core : Nat) (ks : List Nat) : Option Nat :=
  ks.find? (fun k => decide ((look (0, 0) s.busy (4 * core + k)).2 ≤ s.now))
def State.slotInCycle (s : State) (core : Nat) (ks : List Nat) : Bool :=
  ks.any (fun k => decide ((look (0, 0) s.busy (4 * core + k)).2 ≤ s.now)
    || decide ((look (0, 0) s.busy (4 * core + k)).1 = s.now))

/-- Does a group stand ready for a slot of its kind, tokens aside (R382, R396)? `any` counts slots taken in this very
cycle, and the group's own issue in it, as if they were not: the group is then eligible though another was picked
(R383). -/
def State.standsReady (s : State) (u : Nat) (g : Grp) (any : Bool) : Bool :=
  match s.issuable u g with
  | none => false
  | some b =>
      let ks := slotsFor (s.offered u g b)
      if any then s.slotInCycle (unitCore u) ks
      else decide (g.issued ≤ s.now) && (s.freeSlot (unitCore u) ks).isSome

/-- The same with its token (R382). -/
def State.eligibleGrp (s : State) (u : Nat) (g : Grp) (any : Bool) : Bool :=
  s.standsReady u g any && decide (s.issueClass u g < 3)

/-- The rank of a group at a slot: a path that gives way after a SCHED YIELD last (R178); K groups, then owners, borrowers
and spare service (R400, R410); among them aged groups first, then by role; longer runs first, then lower slots (R57,
R383). DESIGN CHOICE: notes/assumptions/54.md. -/
def State.issueRank (s : State) (u : Nat) (g : Grp) : Nat × Nat × Nat × Nat :=
  ((if (s.issuable u g).any (s.cedes g) then 8 else 0) + (if charged u g then 1 + s.issueClass u g else 0),
    if 64 ≤ g.run then 0 else 1 + g.role, g.run, unitSlot u)

def rankBefore (a b : Nat × Nat × Nat × Nat) : Bool :=
  decide (a.1 < b.1) || (decide (a.1 = b.1) && (decide (a.2.1 < b.2.1) || (decide (a.2.1 = b.2.1)
    && (decide (b.2.2.1 < a.2.2.1) || (decide (a.2.2.1 = b.2.2.1) && decide (a.2.2.2 < b.2.2.2))))))

/-- The groups of a core that stand ready for a slot. -/
def State.contenders (s : State) (core : Nat) : List (Nat × Grp) :=
  s.units.filter (fun e => !(isControl e.1) && unitCore e.1 == core && s.eligibleGrp e.1 e.2 false && !(s.yields e.1 e.2))

/-- Does a group win the slot it needs against every other that stands ready for it (R382, R383)? -/
def State.wins (s : State) (u : Nat) (g : Grp) (b : Bool) : Bool :=
  isControl u ||
    (let k := slotsFor (s.offered u g b)
     decide (g.issued ≤ s.now) && (s.freeSlot (unitCore u) k).isSome
      && (s.contenders (unitCore u)).all (fun e => e.1 == u
        || !(k.any (fun n => (slotsFor (s.offered e.1 e.2 ((s.issuable e.1 e.2).getD false))).contains n))
        || rankBefore (s.issueRank u g) (s.issueRank e.1 e.2)))

/-- The group is picked: its run ends, and it issues no more in this cycle (R38, R383); the slot is occupied: for two core
cycles by a per-lane instruction of a group of width 64 (R382). -/
def State.occupy (s : State) (u : Nat) (g : Grp) (b : Bool) : State :=
  if isControl u then s
  else
    let s := s.putU u { g with run := 0, issued := s.now + 1 }
    let ks := slotsFor (s.offered u g b)
    match s.freeSlot (unitCore u) ks with
    | none => s
    | some k => { s with
        busy := store (0, 0) s.busy (4 * unitCore u + k) (s.now, s.now + if ks.length = 2 ∧ g.width = 64 then 2 else 1) }

/-- A round of the ISSUE arbiter: the winner of a core's ready groups issues next (R383, R400). -/
def State.issueRound (s : State) (core : Nat) : State :=
  match (s.contenders core).foldl (fun m e => match m with
      | none => some e
      | some x => if rankBefore (s.issueRank e.1 e.2) (s.issueRank x.1 x.2) then some e else some x) none with
  | none => s
  | some (u, g) => { s with agenda := .issue u ((s.issuable u g).getD false) :: s.agenda }

/-- BUCKET_REFILL (R399). -/
def execBucketRefill (kind inst : Nat) (s : State) : Out := .next (s.refill kind inst)

/-- ARBITRATION_ROUND (R400). -/
def execArbitrationRound (kind inst : Nat) (s : State) : Out :=
  .next (if kind = 0 then s.issueRound inst else s.round kind inst)

end Sys2Proof.Machine
end

