-- ==== Sys2Proof/Machine/Health.lean ====
section
/-! DEFINITION. Bring-up, health and service (R473 to R480), and the exclusion of collective members (R472). -/
namespace Sys2Proof.Machine

/-! Alarms and narrowing (R28, R474, R480). -/

def State.alarm (s : State) (die : Nat) : Nat := fld (s.sysR 0x0704 die 0 0).toNat 0 4

/-- A die's sequencers are narrowed while POWER or THERMAL is set, or its condition is present. -/
def State.setNarrow (s : State) (die : Nat) : State :=
  { s with narrow := store false s.narrow die (s.alarm die % 4 != 0 || look 0 s.conds die % 4 != 0) }

/-- ALARM bits set; a new one fires the die's interrupt source. -/
def State.raiseAlarm (s : State) (die bits : Nat) : State :=
  let old := s.alarm die
  let t := (s.sysW 0x0704 die 0 0 (BitVec.ofNat 64 (old ||| bits % 16))).setNarrow die
  if old ||| bits % 16 = old then t else t.fire (768 + die)

/-- ALARM bits written with 1 are cleared. -/
def State.clearAlarm (s : State) (die bits : Nat) : State :=
  (s.sysW 0x0704 die 0 0 (BitVec.ofNat 64 (s.alarm die &&& (15 - bits % 16)))).setNarrow die

/-! Repair (R474, R477, R478). -/

/-- Spare HBM4E rows, spare loft rows (as many as REPSTAT's fields can hold, at most) and retired pseudo-channels of a
die. -/
def State.spareHbm (s : State) (die : Nat) : Nat :=
  Config.spareRows die % 2 ^ 16 - (s.retired.filter (fun e => e.1 == die && e.2.2.isSome)).length
def State.spareLoft (s : State) (die : Nat) : Nat :=
  Config.spareRows (20 + die) % 2 ^ 16 - (s.remaps.filter (fun e => e.1 / 64 == die)).length
def State.retiredChannels (s : State) (die : Nat) : Nat :=
  (s.retired.filter (fun e => e.1 == die && e.2.2.isNone)).length

def State.repstat (s : State) (die : Nat) : Nat :=
  s.spareHbm die + s.spareLoft die * 2 ^ 16 + s.retiredChannels die % 2 ^ 8 * 2 ^ 32

/-- Does a live VD hold a frame of a range of physical addresses? -/
def State.claimedIn (s : State) (lo hi : Nat) : Bool :=
  s.vds.any (fun e => e.2.live && e.2.frames.any (fun f =>
    decide (f.1 * 2 ^ 21 < hi) && decide (lo < (f.1 + f.2.1) * 2 ^ 21)))

def channelLo (die ch : Nat) : Nat := die * 2 ^ 36 + ch * 2 ^ 29

/-- A row is retired, if a spare is left. -/
def State.retireRow (s : State) (die ch row : Nat) : Option State :=
  if s.spareHbm die = 0 then none else some { s with retired := s.retired ++ [(die, ch, some row)] }

/-- A whole pseudo-channel is retired, if no live VD holds a frame of it. -/
def State.retireChannel (s : State) (die ch : Nat) : Option State :=
  if s.claimedIn (channelLo die ch) (channelLo die (ch + 1)) then none
  else some (if s.retired.contains (die, ch, none) then s else { s with retired := s.retired ++ [(die, ch, none)] })

/-- Does a range meet a retired pseudo-channel? -/
def State.retiredIn (s : State) (lo hi : Nat) : Bool :=
  s.retired.any (fun e => e.2.2.isNone && decide (channelLo e.1 e.2.1 < hi) && decide (lo < channelLo e.1 (e.2.1 + 1)))

/-- A row of a core's loft slice moves to a spare; the slice's contents are lost (notes/assumptions/5.md). -/
def State.remapLoft (s : State) (core : Nat) : State :=
  if s.handles.all (fun e => e.1 / 64 != core || e.2.holder.isNone) && decide (0 < s.spareLoft (core / 64)) then
    let slice := s.freeVal % 128
    let t := { s with free := s.free + 1 + 131072, remaps := s.remaps ++ [(core, slice)] }
    t.loftW core slice 0 (s.draw.freeBytes 131072)
  else s

/-! Die states (R473, R476). -/

def State.setDie (s : State) (die st : Nat) : State := s.sysW 0x0700 die 0 0 (BitVec.ofNat 64 st)

/-- OPEN bits of a die's links. -/
def State.setLinks (s : State) (die open_ : Nat) : State :=
  s.sysW 0x0401 die 0 0 (BitVec.ofNat 64 ((s.sysR 0x0401 die 0 0).toNat / 32 * 32 + open_ % 32))

/-- Is a die not OFFLINE? -/
def State.dieUp (s : State) (die : Nat) : Bool := (s.sysR 0x0700 die 0 0).toNat % 4 != 1

/-- OPEN bits of a die's links: those that join two dies of one partition, and the control join of a column-0 die of one
(R453); an OFFLINE die's are closed, at both ends (R476). -/
def State.openBits (s : State) (d : Nat) : Nat :=
  let same (ok : Bool) (e : Nat) : Bool :=
    ok && s.dieUp d && s.dieUp e && (s.partOfDie d).isSome && s.partOfDie d == s.partOfDie e
  (if same (decide (10 ≤ d)) (d - 10) then 1 else 0) + (if same (decide (d % 10 < 9)) (d + 1) then 2 else 0)
    + (if same (decide (d < 10)) (d + 10) then 4 else 0) + (if same (decide (0 < d % 10)) (d - 1) then 8 else 0)
    + (if d % 10 = 0 ∧ same true d = true then 16 else 0)

/-- The security core sets every link anew. -/
def State.relink (s : State) : State := (List.range 20).foldl (fun (u : State) d => u.setLinks d (s.openBits d)) s

/-- OFFLINE is accepted only for a die of no partition. DEDUCED: notes/assumptions/50.md. -/
def State.dieOffline (s : State) (die : Nat) : Option State :=
  if (s.partOfDie die).isSome then none else some (s.setDie die 1).relink

/-- Every core and cache of a die, its HBM4E and its loft are clear (step 3 of R473). -/
def State.clearDie (s : State) (die : Nat) : State :=
  let on (core : Nat) : Bool := core / 64 == die
  let here (gang : Nat) : Bool := (find s.gangs gang).any (fun k => on k.core)
  let t := (s.tiles.filter (fun t => t.die == die)).foldl (fun (u : State) t => u.clearTile t) (s.zeroRange (die * 2 ^ 36) (2 ^ 36))
  { t with
    units := t.units.filter (fun e => isControl e.1 || !(on (unitCore e.1)))
    gangs := t.gangs.filter (fun e => !(on e.2.core))
    scr := t.scr.filter (fun e => !(here (e.1 / 2 ^ 19)))
    scrTags := t.scrTags.filter (fun e => !(here (e.1 / 2 ^ 15)))
    tiles := t.tiles.filter (fun t => t.die != die)
    tlb := t.tlb.filter (fun e => !((decide (e.tlb < 1280) && on e.tlb) || e.tlb == 2000 + die))
    cmds := t.cmds.filter (fun e => !(on e.2.core))
    ops := t.ops.filter (fun e => !(on e.2.core))
    sets := t.sets.filter (fun e => !(on e.2.core))
    results := t.results.filter (fun r => !(on r.core))
    flight := t.flight.filter (fun e => !(on e.1))
    crib := t.crib.filter (fun e => !(on (e.1 / 2 ^ 19)))
    loft := t.loft.filter (fun e => !(on (e.1 / 2 ^ 24)))
    handles := t.handles.filter (fun e => !(on (e.1 / 64)))
    llc := t.llc.filter (fun e => !(e.1 / 1024 / 48 == die))
    quarantine := t.quarantine.filter (fun e => !(on e.1))
    coreVd := t.coreVd.filter (fun e => !(on e.1)) }

/-- A die in TESTING: its test passes or fails, a free outcome. -/
def State.dieTested (s : State) (die : Nat) : State :=
  if fld (s.sysR 0x0700 die 0 0).toNat 0 2 = 2 then
    ((s.draw.clearDie die).setDie die (if s.freeVal % 2 = 0 then 0 else 1)).relink
  else s

/-! Live firmware update (R475). -/

def State.fwState (s : State) : Nat := fld (s.sysR 0x0706 0 0 0).toNat 0 8
def State.setFw (s : State) (n : Nat) : State := s.sysW 0x0706 0 0 0 (BitVec.ofNat 64 n)

/-- GO: an update that runs is not started again. DESIGN CHOICE: notes/assumptions/65.md. -/
def State.fwGo (s : State) : State := if s.fwState = 1 ∨ s.fwState = 2 then s else s.setFw 1

/-- The image that FWSTAGE names. -/
def State.fwImage (s : State) : List Byte :=
  let v := (s.sysR 0x0705 0 0 0).toNat
  (List.range (16 * fld v 0 12)).flatMap (fun i => leBytes (s.openRn (fld v 12 44 * 4096 + 4096 * i) 4096) 4096)

/-- Is every control core between two instructions? -/
def State.ctlBoundary (s : State) : Bool :=
  s.units.all (fun e => !(isControl e.1) || [e.2.slotA, e.2.slotB].all (fun x => !(x.any (fun p => p.part.isSome))))

/-- The image is verified: BADIMAGE, or SWAPPING; then, with no accepted call open and every control core at an instruction
boundary, the swap. What the new firmware does is not the manual's to say. DESIGN CHOICE: notes/assumptions/65.md. -/
def State.fwStep (s : State) : State :=
  match s.fwState with
  | 1 => if Config.fwSigned s.fwImage then ({ s with fwNext := Config.fwDigest s.fwImage } : State).setFw 2 else s.setFw 3
  | 2 => if s.vds.any (fun e => e.2.caller.isSome || e.2.claim.isSome) || !s.ctlBoundary then s
         else ({ s with measFw := s.fwNext } : State).setFw 0
  | _ => s

/-! Wear (R479). -/

/-- Another powered-on hour, and a new prediction. DESIGN CHOICE: notes/assumptions/66.md. -/
def State.wearStep (s : State) (die : Nat) : State :=
  let hours := (fld (s.sysR 0x0703 die 0 0).toNat 0 32 + 1) % 2 ^ 32
  let life := Config.freeLife s.free % 2 ^ 32
  let t := s.draw.sysW 0x0703 die 0 0 (BitVec.ofNat 64 (hours + life * 2 ^ 32))
  if life < 8760 then t.raiseAlarm die 4 else t

/-! Power (R473, R480). -/

/-- What survives a loss of power: memory outside the module and repairs; the order of what is to come is the
model's own. DESIGN CHOICE: notes/assumptions/67.md. -/
def State.dark (s : State) : State :=
  { State.reset with
    agenda := s.agenda
    units := []
    now := s.now
    ctlNow := s.ctlNow
    free := s.free
    ticket := s.ticket
    mem := s.mem.filter (fun e => (decide (tierLo ≤ e.1) && decide (e.1 < 2 ^ 56)) || decide (2 ^ 60 ≤ e.1))
    retired := s.retired
    remaps := s.remaps
    conds := s.conds
    powered := false }

/-- Power comes: dies whose training fails stay OFFLINE, control core 0 starts. -/
def State.bringUp (s : State) : State :=
  if s.powered then s
  else
    let t : State := { s with
      units := bootCores, powered := true, free := s.free + 21, measFw := Config.freeDigest (s.free + 20) }
    (List.range 20).foldl (fun (t : State) d =>
      (if Config.freeNat (s.free + d) % 2 = 0 then t else t.setDie d 1).setNarrow d) t

/-! Collective members (R470, R472). -/

/-- ST of an entry, MEAS, and GEN of a group. -/
def State.setSt (s : State) (pa i st : Nat) : State :=
  let k := s.objAt pa (64 + 16 * i) + 2
  s.rawW k 1 ((s.rn k 1) / 4 * 4 + st)
def State.nextGen (s : State) (pa : Nat) : State := s.rawW (pa + 2) 4 ((s.rn (pa + 2) 4 + 1) % 2 ^ 32)

/-- COLLECTIVE_EXCLUDE: admitted members of a group that a test names; a change raises GEN and aborts the COLLs. -/
def State.excludeIn (s : State) (pa : Nat) (p : Nat → Nat → Bool) : State :=
  (List.range (s.groupCount pa)).foldl (fun (t : State) i =>
    let e := t.groupEntry pa i
    if entrySt e = 1 ∧ p (entryModule e) (entryVd e) = true then ((t.setSt pa i 2).nextGen pa).abortColls pa else t) s

def State.exclude (s : State) (p : Nat → Nat → Bool) : State :=
  (s.objs.filter (fun o => o.otype == 8)).foldl (fun (t : State) o => t.excludeIn o.pa p) s

/-! The rows that happen within a SYSWR: with a refused write, nothing changes. -/

/-- ROW_RETIRE (R477). -/
def execRowRetire (die channel row : Nat) (s : State) : Out := .next ((s.retireRow die channel row).getD s)

/-- CHANNEL_RETIRE (R477). -/
def execChannelRetire (die channel : Nat) (s : State) : Out := .next ((s.retireChannel die channel).getD s)

/-- DIESTATE_OFFLINE (R476). -/
def execDiestateOffline (die : Nat) (s : State) : Out := .next ((s.dieOffline die).getD s)

/-- DIESTATE_ONLINE (R476): the die moves to TESTING. -/
def execDiestateOnline (die : Nat) (s : State) : Out := .next (s.setDie die 2)

/-- ALARM_CLEAR (R480). -/
def execAlarmClear (die bits : Nat) (s : State) : Out := .next (s.clearAlarm die bits)

/-- FWCTL_GO (R475). -/
def execFwctlGo (s : State) : Out := .next s.fwGo

/-! Events. -/

/-- DIE_TEST_COMPLETE (R476). -/
def execDieTestComplete (die : Nat) (s : State) : Out := .next (s.dieTested die)

/-- ALARM_RAISE (R474, R480): a condition of a die appears. -/
def execAlarmRaise (die bits : Nat) (s : State) : Out :=
  .next (if die < 20 then ({ s with conds := store 0 s.conds die (look 0 s.conds die ||| bits % 16) } : State).raiseAlarm die bits
    else s)

/-- ALARM_CONDITION_GONE (R480). -/
def execAlarmConditionGone (die bits : Nat) (s : State) : Out :=
  .next (({ s with conds := store 0 s.conds die (look 0 s.conds die &&& (15 - bits % 16)) } : State).setNarrow die)

/-- FW_SWAP (R475). -/
def execFwSwap (s : State) : Out := .next s.fwStep

/-- WEAR_RECOMPUTE (R479). -/
def execWearRecompute (die : Nat) (s : State) : Out := .next (if die < 20 then s.wearStep die else s)

/-- LOFT_ROW_REMAP (R478). -/
def execLoftRowRemap (core : Nat) (s : State) : Out := .next (s.remapLoft core)

/-- POWER_ON (R473). -/
def execPowerOn (s : State) : Out := .next s.bringUp

/-- POWER_LOSS (R480). -/
def execPowerLoss (s : State) : Out := .next s.dark

/-- MODULE_LEAVES_DOMAIN (R472). -/
def execModuleLeavesDomain (m : Nat) (s : State) : Out := .next (s.exclude (fun k _ => k == m))

end Sys2Proof.Machine
end

