-- ==== Sys2Proof/Machine/Memory.lean ====
section
/-! DEFINITION. Global loads and stores, capability loads and stores, atomics and reductions: majors 0x18, 0x19, the
global forms of 0x1B, and 0x1C (R247, R248, R251 to R256). -/
namespace Sys2Proof.Machine

/-- Compare and swap: the expected value, the new one, and the memory (R255). -/
def cas (e n m : Nat) : Option Nat := if m = e then some n else none

/-- The 64-bit value of the pair `k` registers after the operand register. -/
def Iss.op64 (x : Iss) (d : Reg) (k l : Nat) : Nat := (x.g.rd2 (Reg.plus d k) l).toNat

/-- The operand of a lane. -/
def Iss.op32 (x : Iss) (d : Reg) (l : Nat) : Nat := (x.g.rd d l).toNat


/-- LD_B (R248). -/
def execLdB (d o : Reg) (q : BitVec 4) (i : BitVec 5) (s : State) : Out :=
  issue (Instr.sig (.ldB d o q i)) s (fun x s => x.ld s d o q i 1 1 0)

/-- LD_SB (R248). -/
def execLdSb (d o : Reg) (q : BitVec 4) (i : BitVec 5) (s : State) : Out :=
  issue (Instr.sig (.ldSb d o q i)) s (fun x s => x.ld s d o q i 1 1 8)

/-- LD_H (R248). -/
def execLdH (d o : Reg) (q : BitVec 4) (i : BitVec 5) (s : State) : Out :=
  issue (Instr.sig (.ldH d o q i)) s (fun x s => x.ld s d o q i 2 1 0)

/-- LD_SH (R248). -/
def execLdSh (d o : Reg) (q : BitVec 4) (i : BitVec 5) (s : State) : Out :=
  issue (Instr.sig (.ldSh d o q i)) s (fun x s => x.ld s d o q i 2 1 16)

/-- LD_W (R248). -/
def execLdW (d o : Reg) (q : BitVec 4) (i : BitVec 5) (s : State) : Out :=
  issue (Instr.sig (.ldW d o q i)) s (fun x s => x.ld s d o q i 4 1 0)

/-- LD_D (R248). -/
def execLdD (d o : Reg) (q : BitVec 4) (i : BitVec 5) (s : State) : Out :=
  issue (Instr.sig (.ldD d o q i)) s (fun x s => x.ld s d o q i 8 2 0)

/-- LD_Q (R248). -/
def execLdQ (d o : Reg) (q : BitVec 4) (i : BitVec 5) (s : State) : Out :=
  issue (Instr.sig (.ldQ d o q i)) s (fun x s => x.ld s d o q i 16 4 0)

/-- ST_B (R248). -/
def execStB (d o : Reg) (q : BitVec 4) (i : BitVec 5) (s : State) : Out :=
  issue (Instr.sig (.stB d o q i)) s (fun x s => x.st s d o q i 1 1)

/-- ST_H (R248). -/
def execStH (d o : Reg) (q : BitVec 4) (i : BitVec 5) (s : State) : Out :=
  issue (Instr.sig (.stH d o q i)) s (fun x s => x.st s d o q i 2 1)

/-- ST_W (R248). -/
def execStW (d o : Reg) (q : BitVec 4) (i : BitVec 5) (s : State) : Out :=
  issue (Instr.sig (.stW d o q i)) s (fun x s => x.st s d o q i 4 1)

/-- ST_D (R248). -/
def execStD (d o : Reg) (q : BitVec 4) (i : BitVec 5) (s : State) : Out :=
  issue (Instr.sig (.stD d o q i)) s (fun x s => x.st s d o q i 8 2)

/-- ST_Q (R248). -/
def execStQ (d o : Reg) (q : BitVec 4) (i : BitVec 5) (s : State) : Out :=
  issue (Instr.sig (.stQ d o q i)) s (fun x s => x.st s d o q i 16 4)

/-- LDC (R252). -/
def execLdc (d o : Reg) (q : BitVec 4) (i : BitVec 5) (s : State) : Out :=
  issue (Instr.sig (.ldc d o q i)) s (fun x s => x.ldc s d o q i)

/-- STC (R253). -/
def execStc (d o : Reg) (q : BitVec 4) (i : BitVec 5) (s : State) : Out :=
  issue (Instr.sig (.stc d o q i)) s (fun x s => x.stc s d o q i)

/-- AADD (R255, R256). -/
def execAadd (d a : Reg) (o : BitVec 3) (q : BitVec 4) (s : State) : Out :=
  issue (Instr.sig (.aadd d a o q)) s (fun x s => x.atom s d a q 4 1 (fun l m => some (m + x.op32 d l)))

/-- AMIN_S (R255, R256). -/
def execAminS (d a : Reg) (o : BitVec 3) (q : BitVec 4) (s : State) : Out :=
  issue (Instr.sig (.aminS d a o q)) s (fun x s => x.atom s d a q 4 1 (fun l m => some (minSN m (x.op32 d l))))

/-- AMAX_S (R255, R256). -/
def execAmaxS (d a : Reg) (o : BitVec 3) (q : BitVec 4) (s : State) : Out :=
  issue (Instr.sig (.amaxS d a o q)) s (fun x s => x.atom s d a q 4 1 (fun l m => some (maxSN m (x.op32 d l))))

/-- AMIN_N (R255, R256). -/
def execAminN (d a : Reg) (o : BitVec 3) (q : BitVec 4) (s : State) : Out :=
  issue (Instr.sig (.aminN d a o q)) s (fun x s => x.atom s d a q 4 1 (fun l m => some (min m (x.op32 d l))))

/-- AMAX_N (R255, R256). -/
def execAmaxN (d a : Reg) (o : BitVec 3) (q : BitVec 4) (s : State) : Out :=
  issue (Instr.sig (.amaxN d a o q)) s (fun x s => x.atom s d a q 4 1 (fun l m => some (max m (x.op32 d l))))

/-- AAND (R255, R256). -/
def execAand (d a : Reg) (o : BitVec 3) (q : BitVec 4) (s : State) : Out :=
  issue (Instr.sig (.aand d a o q)) s (fun x s => x.atom s d a q 4 1 (fun l m => some (m &&& x.op32 d l)))

/-- AOR (R255, R256). -/
def execAor (d a : Reg) (o : BitVec 3) (q : BitVec 4) (s : State) : Out :=
  issue (Instr.sig (.aor d a o q)) s (fun x s => x.atom s d a q 4 1 (fun l m => some (m ||| x.op32 d l)))

/-- AXOR (R255, R256). -/
def execAxor (d a : Reg) (o : BitVec 3) (q : BitVec 4) (s : State) : Out :=
  issue (Instr.sig (.axor d a o q)) s (fun x s => x.atom s d a q 4 1 (fun l m => some (m ^^^ x.op32 d l)))

/-- AXCHG (R255, R256). -/
def execAxchg (d a : Reg) (o : BitVec 3) (q : BitVec 4) (s : State) : Out :=
  issue (Instr.sig (.axchg d a o q)) s (fun x s => x.atom s d a q 4 1 (fun l _ => some (x.op32 d l)))

/-- ACAS (R255, R256). -/
def execAcas (d a : Reg) (o : BitVec 3) (q : BitVec 4) (s : State) : Out :=
  issue (Instr.sig (.acas d a o q)) s (fun x s => x.atom s d a q 4 1 (fun l m => cas (x.op32 d l) (x.op32 (Reg.plus d 1) l) m))

/-- AFADD (R255, R256). -/
def execAfadd (d a : Reg) (o : BitVec 3) (q : BitVec 4) (s : State) : Out :=
  issue (Instr.sig (.afadd d a o q)) s (fun x s => x.atom s d a q 4 1 (fun l m => some (bankAdd .fp32 m (x.op32 d l))))

/-- ABFADD2 (R255, R256). -/
def execAbfadd2 (d a : Reg) (o : BitVec 3) (q : BitVec 4) (s : State) : Out :=
  issue (Instr.sig (.abfadd2 d a o q)) s (fun x s => x.atom s d a q 4 1 (fun l m => some (bankAdd2 m (x.op32 d l))))

/-- AXCHG_W (R255, R256). -/
def execAxchgW (d a : Reg) (o : BitVec 3) (q : BitVec 4) (s : State) : Out :=
  issue (Instr.sig (.axchgW d a o q)) s (fun x s => x.atom s d a q 8 2 (fun l _ => some (x.op64 d 0 l)))

/-- ACAS_W (R255, R256). -/
def execAcasW (d a : Reg) (o : BitVec 3) (q : BitVec 4) (s : State) : Out :=
  issue (Instr.sig (.acasW d a o q)) s (fun x s => x.atom s d a q 8 2 (fun l m => cas (x.op64 d 0 l) (x.op64 d 2 l) m))

/-- RDADD (R255, R256). -/
def execRdadd (d a : Reg) (o : BitVec 3) (q : BitVec 4) (s : State) : Out :=
  issue (Instr.sig (.rdadd d a o q)) s (fun x s => x.red s (d.isV || a.isV) a q (x.op32 d) (· + ·))

/-- RDMIN (R255, R256). -/
def execRdmin (d a : Reg) (o : BitVec 3) (q : BitVec 4) (s : State) : Out :=
  issue (Instr.sig (.rdmin d a o q)) s (fun x s => x.red s (d.isV || a.isV) a q (x.op32 d) minSN)

/-- RDMAX (R255, R256). -/
def execRdmax (d a : Reg) (o : BitVec 3) (q : BitVec 4) (s : State) : Out :=
  issue (Instr.sig (.rdmax d a o q)) s (fun x s => x.red s (d.isV || a.isV) a q (x.op32 d) maxSN)

/-- RDFADD (R255, R256). -/
def execRdfadd (d a : Reg) (o : BitVec 3) (q : BitVec 4) (s : State) : Out :=
  issue (Instr.sig (.rdfadd d a o q)) s (fun x s => x.red s (d.isV || a.isV) a q (x.op32 d) (bankAdd .fp32))

/-- RDBFADD2 (R255, R256). -/
def execRdbfadd2 (d a : Reg) (o : BitVec 3) (q : BitVec 4) (s : State) : Out :=
  issue (Instr.sig (.rdbfadd2 d a o q)) s (fun x s => x.red s (d.isV || a.isV) a q (x.op32 d) bankAdd2)

/-- RDINC (R255, R256). -/
def execRdinc (a : Reg) (o : BitVec 3) (q : BitVec 4) (s : State) : Out :=
  issue (Instr.sig (.rdinc a o q)) s (fun x s => x.red s a.isV a q (fun _ => 1) (· + ·))

end Sys2Proof.Machine
end

