-- ==== Sys2Proof/Machine/Sys.lean ====
section
/-! DEFINITION. System registers: SYSRD and SYSWR (R348 to R353, R385, R404 to R412, R427, R434, R438, R454, R474). -/
namespace Sys2Proof.Machine

/-! Register numbers (R350). -/

def isDieReg (n : Nat) : Bool :=
  n == 0x10 || n == 0x11 || n == 0x0201 || n == 0x0210 || n == 0x0301 || n == 0x0302 || n == 0x0400 || n == 0x0401
    || n == 0x0500 || n == 0x0600 || (decide (0x0700 ≤ n) && decide (n ≤ 0x0704))

def isModuleReg (n : Nat) : Bool :=
  n == 0 || (decide (0x0101 ≤ n) && decide (n ≤ 0x0105)) || n == 0x0202 || (decide (0x0403 ≤ n) && decide (n ≤ 0x0408))
    || (decide (0x0410 ≤ n) && decide (n ≤ 0x041F)) || n == 0x0501 || (decide (0x0580 ≤ n) && decide (n ≤ 0x05FF))
    || n == 0x0705 || n == 0x0706

def isOwnReg (n : Nat) : Bool :=
  n == 1 || n == 2 || n == 3 || n == 0x0100 || n == 0x0200 || n == 0x0300 || n == 0x0402

def isCoreReg (n : Nat) : Bool :=
  (decide (0x0601 ≤ n) && decide (n ≤ 0x0607)) || (decide (0x0670 ≤ n) && decide (n ≤ 0x06FF))

/-- Register and die of a number, or none when it is invalid. -/
def Iss.sysRef (x : Iss) (n : Nat) : Option (Nat × Nat) :=
  let r := n % 2 ^ 16
  let d := fld n 16 5
  if fld n 21 11 ≠ 0 then none
  else if isDieReg r then (if d ≤ 19 then some (r, d) else if d = 31 then (unitDie x.u).map (fun k => (r, k)) else none)
  else if d ≠ 0 then none
  else if isModuleReg r || isOwnReg r || (isCoreReg r && isControl x.u) then some (r, 0)
  else none

/-! Selectors (R405, R412, R427, R454). -/

def Iss.tsel (x : Iss) : Nat := fld (x.g.ownR 0x0100).toNat 0 7
def Iss.bselVd (x : Iss) : Nat := fld (x.g.ownR 0x0200).toNat 0 7
def Iss.bselKind (x : Iss) : Nat := fld (x.g.ownR 0x0200).toNat 8 3
def Iss.llcVd (x : Iss) : Nat := fld (x.g.ownR 0x0300).toNat 0 7
def Iss.llcSlice (x : Iss) : Nat := fld (x.g.ownR 0x0300).toNat 8 6
def Iss.llcCtx (x : Iss) : Nat := fld (x.g.ownR 0x0300).toNat 16 12
def Iss.vsel (x : Iss) : Nat := fld (x.g.ownR 0x0402).toNat 0 7
def Iss.vselPeer (x : Iss) : Nat := fld (x.g.ownR 0x0402).toNat 8 6
def Iss.vselSlot (x : Iss) : Nat := fld (x.g.ownR 0x0402).toNat 16 4

/-- The VD that selects a register, for those selected per VD. -/
def Iss.regVd (x : Iss) (r : Nat) : Option Nat :=
  if 0x0101 ≤ r ∧ r ≤ 0x0105 then some x.tsel
  else if r = 0x0201 ∨ r = 0x0202 then some x.bselVd
  else if r = 0x0301 then some x.llcVd
  else if 0x0403 ≤ r ∧ r ≤ 0x0406 then some x.vsel
  else none

/-- Does a VD live in another partition than the issuer's? -/
def Iss.elsewhere (x : Iss) (s : State) (vd : Nat) : Bool :=
  match s.partOfVd vd with
  | none => false
  | some p => x.part s != some p

/-! Reading. -/

/-- A register of a bank (R438, R449). -/
def Bank.reg (k : Bank) (r : Nat) : DWord :=
  if r = 0x0602 then k.pc
  else if r ≤ 0x0676 then look 0 k.p (r - 0x0670)
  else if r = 0x0677 then k.mode.setWidth 64
  else if r = 0x0678 then k.status.setWidth 64
  else if r = 0x0679 then k.stoch.setWidth 64
  else if r < 0x0680 + 96 then (look 0 k.v (64 * (r - 0x0680))).setWidth 64
  else (look 0 k.s (r - 0x0680 - 96)).setWidth 64

/-- Numbers that R438 leaves between UP6's neighbours and UREG are undefined. DEDUCED: notes/assumptions/44.md. -/
def bankReg (r : Nat) : Bool :=
  r == 0x0602 || (decide (0x0670 ≤ r) && decide (r ≤ 0x0676)) || (decide (0x0677 ≤ r) && decide (r ≤ 0x0679))
    || decide (0x0680 ≤ r)

/-- Marks held for a VD's epochs, and whether one runs: THRSTAT. -/
def State.thrstat (s : State) (vd : Nat) : Nat :=
  let e : Epochs := look {} s.epochs vd
  (s.rmarks.filter (fun m => m.vd == vd)).length % 2 ^ 13 + (if e.complete < e.begun then 2 ^ 16 else 0)

/-- VDCFG (R454). -/
def State.vdcfg (s : State) (vd : Nat) : Nat :=
  let v := s.vd? vd
  (if v.live then 2 ^ 63 else 0) + v.hstate % 8 * 2 ^ 60 + v.retries % 16 * 2 ^ 56 + v.part % 32 * 2 ^ 48 + v.port % 2 * 2 ^ 40

/-- The value of a register that the issuer may see. DEDUCED: notes/assumptions/51.md. -/
def Iss.sysValue (x : Iss) (s : State) (r die : Nat) : DWord :=
  if r = 1 then BitVec.ofNat 64 (unitCore x.u)
  else if isOwnReg r then x.g.ownR r
  else if isCoreReg r then
    (if bankReg r then match x.g.bank with
      | some k => k.reg r
      | none => 0
    else x.g.ownR r)
  else match r with
    | 0x0101 | 0x0102 | 0x0103 | 0x0105 => s.sysR r 0 x.tsel 0
    | 0x0104 => BitVec.ofNat 64 (s.thrstat x.tsel)
    | 0x0201 => if x.bselKind ≤ 3 then s.sysR r die x.bselVd x.bselKind else 0
    | 0x0202 => if x.bselKind ≤ 3 then 0 else s.sysR r 0 x.bselVd x.bselKind
    | 0x0301 => s.sysR r die x.llcVd x.llcSlice
    | 0x0302 => BitVec.ofNat 64 (s.occ die x.llcSlice x.llcCtx)
    | 0x0403 => BitVec.ofNat 64 (s.vdcfg x.vsel)
    | 0x0404 | 0x0405 => s.sysR r 0 x.vsel x.vselPeer
    | 0x0406 => s.sysR r 0 x.vsel x.vselSlot
    | 0x0701 => 0
    | 0x0702 => BitVec.ofNat 64 (s.repstat die)
    | _ => s.sysR r die 0 0

/-- SYSRD's value (R352): 0 for a die, or a VD, of another partition. DEDUCED: notes/assumptions/48.md. -/
def Iss.sysRead (x : Iss) (s : State) (r die : Nat) : DWord :=
  if isDieReg r && s.partOfDie die != x.part s then 0
  else if (match x.regVd r with
      | some v => x.elsewhere s v
      | none => false) then 0
  else x.sysValue s r die

/-- SYSRD. -/
def Iss.sysrd (x : Iss) (s : State) (d a : Reg) : Res :=
  match x.sysRef (x.g.rd a 0).toNat with
  | none => .trap 0
  | some (r, die) => if 0x0670 ≤ r ∧ r ≤ 0x06FF ∧ bankReg r = false then .trap 0
      else .retire s (x.toPair d (x.sysRead s r die).toNat)

/-! Writing. -/

/-- Is a register read-only? -/
def sysReadOnly (r : Nat) : Bool :=
  r == 0 || r == 1 || r == 3 || r == 0x0104 || r == 0x0302 || r == 0x0400 || r == 0x0401 || r == 0x0403 || r == 0x0407
    || (decide (0x0604 ≤ r) && decide (r ≤ 0x0607)) || r == 0x0702 || r == 0x0703

/-- The bits of a register that may be written with 1 (R7). -/
def sysMask (r : Nat) : Nat :=
  let bits (lo w : Nat) : Nat := (2 ^ w - 1) * 2 ^ lo
  match r with
  | 0x0002 | 0x0100 => bits 0 7
  | 0x0010 => bits 21 35
  | 0x0011 | 0x0406 => bits 6 50
  | 0x0101 => bits 17 39 + bits 0 13
  | 0x0102 | 0x0103 | 0x0601 => bits 4 52
  | 0x0105 => bits 48 16 + bits 0 40
  | 0x0200 => bits 8 3 + bits 0 7
  | 0x0201 | 0x0202 => bits 63 1 + bits 32 24 + bits 0 24
  | 0x0210 => bits 63 1 + bits 0 7
  | 0x0300 => bits 16 12 + bits 8 6 + bits 0 7
  | 0x0301 => bits 32 15 + bits 0 16
  | 0x0402 => bits 16 4 + bits 8 6 + bits 0 7
  | 0x0404 => bits 47 17 + bits 30 17 + bits 0 1
  | 0x0405 => bits 63 1 + bits 0 13
  | 0x0408 | 0x0602 => bits 0 64
  | 0x0500 | 0x0501 => bits 0 32
  | 0x0600 => bits 63 1 + bits 21 35 + bits 0 16
  | 0x0603 => bits 2 62
  | 0x0700 => bits 0 2
  | 0x0701 => bits 16 32 + bits 0 8
  | 0x0704 => bits 0 4
  | 0x0705 => bits 0 56
  | 0x0706 => bits 0 1
  | _ =>
      if 0x0410 ≤ r ∧ r ≤ 0x041F then bits 61 3 + bits 57 4 + bits 30 26 + bits 0 16
      else if 0x0580 ≤ r ∧ r ≤ 0x05FF then bits 0 56
      else if 0x0670 ≤ r ∧ r ≤ 0x0676 then bits 0 64
      else bits 0 32

/-- Does a value set a reserved bit, or hold a reserved value? DEDUCED: notes/assumptions/49.md. -/
def sysReserved (r v : Nat) : Bool :=
  v &&& sysMask r != v
    || (match r with
      | 0x0101 => decide (4096 < fld v 0 13)
      | 0x0200 => fld v 8 3 == 7
      | 0x0300 => decide (47 < fld v 8 6)
      | 0x0677 => !(modeOk (BitVec.ofNat 32 v))
      | 0x0678 => fld v 6 26 != 0
      | 0x0700 => fld v 0 2 == 3
      | _ => decide (0x0410 ≤ r) && decide (r ≤ 0x041F) && bit v 63
          && (fld v 0 16 == 0 || !(isTier (fld v 30 26 * 2 ^ 30))))

/-- Is the issuer a control core of the management function (R455)? -/
def Iss.mgmt (x : Iss) (s : State) : Bool :=
  isControl x.u && (s.sysR 0x0408 0 0 0).getLsbD (x.u - 81920)

/-- Is every 64 KiB frame of a range HBM4E of the partition's dies, or a second-tier page of it (R434)? -/
def State.glRange (s : State) (vd v : Nat) : Bool :=
  fld v 48 16 != 0 && (match s.partOfVd vd with
    | none => false
    | some p => (List.range (fld v 48 16)).all (fun i =>
        let pa := (fld v 0 40 + i) * 2 ^ 16
        (isHbm pa && s.partOfDie (pa / 2 ^ 36) == some p) || (isTier pa && (s.poolAt vd pa).isSome)))

/-- The VD of SVCLEND lives in the die's partition (R410). -/
def State.lendOk (s : State) (die v : Nat) : Bool :=
  match s.partOfDie die with
  | none => false
  | some p => s.partOfVd (fld v 0 7) == some p

/-- The refusals of one register's own rule. -/
def Iss.sysDenied (x : Iss) (s : State) (r die v : Nat) : Bool :=
  match r with
  | 0x0105 => !(s.glRange x.tsel v)
  | 0x0201 => decide (3 < x.bselKind) || (s.partOfVd x.bselVd).isNone || s.bcfgBad die x.bselKind x.bselVd v
  | 0x0202 => decide (x.bselKind ≤ 3) || (s.partOfVd x.bselVd).isNone || s.bcfgBad 0 x.bselKind x.bselVd v
  | 0x0210 => !(s.lendOk die v)
  | 0x0408 => v == 0
  | 0x0700 => fld v 0 2 == 1 && (s.dieOffline die).isNone
  | 0x0701 => if bit v 7 then (s.retireChannel die (fld v 0 7)).isNone else (s.retireRow die (fld v 0 7) (fld v 16 32)).isNone
  | _ => false

/-- Is a write DENIED (R352, R454, R455, R474)? -/
def Iss.sysDeny (x : Iss) (s : State) (r die v : Nat) : Bool :=
  let writable := !(sysReadOnly r)
  let owner := decide (0x0700 ≤ r) || (decide (0x0400 ≤ r) && decide (r ≤ 0x041F) && writable)
  let vd : Option Nat := if 0x0580 ≤ r ∧ r ≤ 0x05FF then some (r - 0x0580) else x.regVd r
  (if owner then !(x.mgmt s)
    else (isDieReg r && s.partOfDie die != x.part s) || (isModuleReg r && !(isControl x.u))
      || (match vd with
        | some v => x.elsewhere s v
        | none => false))
    || (writable && x.sysDenied s r die v)

/-- A gleaner request is queued (R434). -/
def State.queueGlean (s : State) (vd v : Nat) : State :=
  let num := (s.sysR 0x0105 0 vd 0).toNat + 1
  let t := s.sysW 0x0105 0 vd 0 (BitVec.ofNat 64 num)
  let t : State := { t with gleans := t.gleans ++ [(⟨vd, num⟩ : Glean)] }
  (List.range (512 * fld v 48 16)).foldl (fun (t : State) i =>
    t.request 6 0 vd 1 (.erase vd num (512 * fld v 0 40 + i))) t

/-- Does the partition of a VD already hold 64 queued requests? -/
def State.gleanFull (s : State) (vd : Nat) : Bool :=
  decide (64 ≤ (s.gleans.filter (fun g => s.partOfVd g.vd == s.partOfVd vd)).length)

/-- SVCLEND is written: lending that had been ended resumes, and lent gangs of a VD that it names no longer become victims
(R393, R410); a lent core gains capacity (R384).
DESIGN CHOICE: notes/assumptions/52.md. -/
def State.lendSet (s : State) (die v : Nat) : State :=
  let old := (s.sysR 0x0210 die 0 0).toNat
  let t : State := { s.sysW 0x0210 die 0 0 (BitVec.ofNat 64 v) with lendOff := s.lendOff.filter (· != die) }
  let core := 64 * die
  let lent := s.units.any (fun e => !(isControl e.1) && unitCore e.1 == core && e.2.level == .user)
  if bit old 63 && (!(bit v 63) || fld v 0 7 != fld old 0 7) && lent then
    { t with marks := put t.marks core { launch := 2 ^ 64, at_ := s.now } }
  else if bit v 63 then t.gained core else t

/-- A register of the U bank written (R438, R449). -/
def Bank.setReg (k : Bank) (r : Nat) (v : DWord) : Bank :=
  let w : Word := v.setWidth 32
  if r = 0x0602 then { k with pc := v }
  else if r ≤ 0x0676 then { k with p := store 0 k.p (r - 0x0670) v }
  else if r = 0x0677 then { k with mode := w }
  else if r = 0x0678 then { k with status := w }
  else if r = 0x0679 then { k with stoch := w }
  else if r < 0x0680 + 96 then { k with v := store 0 k.v (64 * (r - 0x0680)) w, vf := store false k.vf (64 * ((r - 0x0680) / 4)) false }
  else { k with s := store 0 k.s (r - 0x0680 - 96) w }

/-- An accepted write: the state and the group. -/
def Iss.sysApply (x : Iss) (s : State) (r die : Nat) (v : DWord) : State × Grp :=
  let n := v.toNat
  let g := x.g
  if r = 2 then (s, { g.ownW r v with vd := n % 128 })
  else if isOwnReg r then (s, g.ownW r v)
  else if isCoreReg r then
    (if bankReg r then (s, { g with bank := g.bank.map (fun k => k.setReg r v) }) else (s, g.ownW r v))
  else (match r with
    | 0x0101 | 0x0102 | 0x0103 => s.sysW r 0 x.tsel 0 v
    | 0x0105 => s.queueGlean x.tsel n
    | 0x0201 => s.bcfgSet die x.bselKind x.bselVd n
    | 0x0202 => s.bcfgSet 0 x.bselKind x.bselVd n
    | 0x0210 => s.lendSet die n
    | 0x0301 => s.sysW r die x.llcVd x.llcSlice (BitVec.ofNat 64 (n % 2 ^ 16 + min 16384 (fld n 32 15) * 2 ^ 32))
    | 0x0404 | 0x0405 => s.sysW r 0 x.vsel x.vselPeer v
    | 0x0406 => s.sysW r 0 x.vsel x.vselSlot v
    | 0x0600 => s.sysW r die 0 0 (BitVec.ofNat 64 (n % 2 ^ 63
        + (if bit n 63 then 0 else (s.sysR r die 0 0).toNat / 2 ^ 63 * 2 ^ 63)))
    | 0x0700 => if fld n 0 2 = 1 then (s.dieOffline die).getD s else s.setDie die 2
    | 0x0701 => if bit n 7 then (s.retireChannel die (fld n 0 7)).getD s else (s.retireRow die (fld n 0 7) (fld n 16 32)).getD s
    | 0x0704 => s.clearAlarm die n
    | 0x0706 => if bit n 0 then s.fwGo else s
    | _ => s.sysW r die 0 0 v, g)

/-- SYSWR: every earlier access is performed, and the register's unit applies the value at once (R353). -/
def Iss.syswr (x : Iss) (s : State) (d a b : Reg) : Res :=
  match x.sysRef (x.g.rd a 0).toNat with
  | none => .trap 0
  | some (r, die) =>
      if 0x0670 ≤ r ∧ r ≤ 0x06FF ∧ bankReg r = false then .trap 0
      else
        let v := x.g.rd2 b 0
        if x.sysDeny s r die v.toNat then .retire s (x.toS d 1)
        else if sysReadOnly r then .retire s (x.toS d 3)
        else if sysReserved r v.toNat then .retire s (x.toS d 2)
        else if r = 0x0105 ∧ s.gleanFull x.tsel = true then .wait s .other
        else
          let t := x.sysApply s r die v
          .retire t.1 ({ x with g := t.2 }.toS d 0)

/-- SYSRD (R352). -/
def execSysrd (d a : Reg) (s : State) : Out := issue (sigSysrd d a) s (fun x s => x.sysrd s d a)

/-- SYSWR (R352, R353). -/
def execSyswr (d a b : Reg) (s : State) : Out := issue (sigSyswr d a b) s (fun x s => x.syswr s d a b)

/-! The rows that happen within a SYSWR: a refused or waiting write changes nothing. -/

/-- GLREQ_WRITE (R434). -/
def execGlreqWrite (vd value : Nat) (s : State) : Out :=
  .next (if sysReserved 0x0105 value || !(s.glRange vd value) || s.gleanFull vd then s else s.queueGlean vd value)

/-- BCFG_WRITE (R407). -/
def execBcfgWrite (die kind vd value : Nat) (s : State) : Out :=
  .next (if sysReserved 0x0201 value || (s.partOfVd vd).isNone || s.bcfgBad die kind vd value then s
    else s.bcfgSet die kind vd value)

/-- SVCLEND_WRITE (R410). -/
def execSvclendWrite (die value : Nat) (s : State) : Out :=
  .next (if sysReserved 0x0210 value || !(s.lendOk die value) then s else s.lendSet die value)

end Sys2Proof.Machine
end

