-- ==== Sys2Proof/Machine/Xlt.lean ====
section
/-! DEFINITION. TLB invalidation, major 0x39 (R422 to R424). No walk lasts longer than its step (notes/assumptions/4.md). -/
namespace Sys2Proof.Machine

/-- Does a translation by ASID, level and page cover a virtual address of an ASID? -/
def pageCovers (asid va : Nat) (e : Nat × Nat × Nat) : Bool := e.1 == asid && e.2.2 == va / 2 ^ lvlShift e.2.1

/-- Is a TLB one of a partition, or a control core's (R423)? -/
def State.tlbIn (s : State) (part : Option Nat) (n : Nat) : Bool :=
  if n < 1280 then part.isSome && s.partOfDie (n / 64) == part
  else if 2000 ≤ n then part.isSome && s.partOfDie (n - 2000) == part
  else true

/-- Cached entries that some test covers leave the TLBs of a partition and of every control core. -/
def State.tlbRemove (s : State) (part : Option Nat) (covers : Nat × Nat × Nat → Bool) : State :=
  { s with tlb := s.tlb.filter (fun t => !(s.tlbIn part t.tlb && covers (t.pte.asid, t.pte.level, t.pte.page))) }

/-- Do the accesses that a path still has to make hold such a translation? -/
def Path.holds (p : Path) (covers : Nat × Nat × Nat → Bool) : Bool :=
  match p.part with
  | none => false
  | some pt => pt.left.any (fun e => e.at_.pl.pages.any covers)

/-- The commands, the OPEN transactions by unit and lane, and the parts of instructions by unit and 64 + slot that hold
accesses to be performed through translations that a test covers, the issuer's own apart (R423). What waits for a timeline
holds none: it translates anew each time it looks (R424). -/
def State.holders (s : State) (mine : Nat × Nat → Bool) (covers : Nat × Nat × Nat → Bool) : List Nat × List (Nat × Nat) :=
  ((s.cmds.filter (fun e => !e.2.finished && e.2.ctx.isSome && e.2.pages.any covers)).map (·.1),
   (s.units.flatMap (fun e =>
     (e.2.txn.filter (fun t => t.2.state == .opened && t.2.pages.any covers)).map (fun t => (e.1, t.1))
     ++ [false, true].filterMap (fun b => if (e.2.slot b).any (fun p => p.holds covers) then some (e.1, if b then 65 else 64)
          else none))).filter (fun k => !(mine k)))

/-- Is this a transaction or an instruction of the issuing path's own lanes? -/
def Iss.owns (x : Iss) (k : Nat × Nat) : Bool :=
  k.1 == x.u && (if k.2 < 64 then x.lanes.contains k.2 else k.2 == (if x.b then 65 else 64))

/-- Have these accesses been performed? -/
def State.performed (s : State) (cs : List Nat) (ts : List (Nat × Nat)) : Bool :=
  cs.all (fun n => match find s.cmds n with
    | none => true
    | some c => c.finished || c.ctx.isNone)
  && ts.all (fun t => match find s.units t.1 with
    | none => true
    | some g => if t.2 < 64 then (look {} g.txn t.2).state != .opened
        else ((g.slot (t.2 == 65)).bind (fun p => p.part)).isNone)

/-- The partition of the issuing agent: its die's, or its VD's on a control core. -/
def Iss.tlbPart (x : Iss) (s : State) : Option Nat :=
  match unitDie x.u with
  | some d => s.partOfDie d
  | none => s.partOfVd x.g.vd

/-- Entries are removed, and then the accesses through them are waited for. -/
def Iss.invalidate (x : Iss) (s : State) (covers : Nat × Nat × Nat → Bool) : Res :=
  match x.p.wait with
  | some (.performed cs ts) => if s.performed cs ts then .retire s x.g else .wait s (.performed cs ts)
  | _ =>
      let t := s.tlbRemove (x.tlbPart s) covers
      let h := s.holders x.owns covers
      if h.1.isEmpty && h.2.isEmpty then .retire t x.g else .wait t (.performed h.1 h.2)

/-- TLBINV: of the pair's address, in the ASID. -/
def Iss.tlbinv (x : Iss) (s : State) (a b : Reg) : Res :=
  x.invalidate s (pageCovers ((x.g.rd b 0).toNat % 2 ^ 16) (x.g.rd2 a 0).toNat)

/-- TLBINVA: of the ASID. -/
def Iss.tlbinva (x : Iss) (s : State) (b : Reg) : Res :=
  x.invalidate s (fun e => e.1 == (x.g.rd b 0).toNat % 2 ^ 16)

/-- TLBINV (R423). -/
def execTlbinv (a b : Reg) (s : State) : Out := issue (sigTlbinv a b) s (fun x s => x.tlbinv s a b)

/-- TLBINVA (R423). -/
def execTlbinva (b : Reg) (s : State) : Out := issue (sigTlbinva b) s (fun x s => x.tlbinva s b)

/-- TLBINVA.ALL (R423). -/
def execTlbinvaAll (s : State) : Out := issue sigTlbinvaAll s (fun x s => x.invalidate s (fun _ => true))

/-- PTWSYNC (R423): no walk is under way between steps. -/
def execPtwsync (s : State) : Out := issue sigPtwsync s (fun x s => .retire s x.g)

end Sys2Proof.Machine
end

