-- ==== Sys2Proof/Machine/Objnew.lean ====
section
/-! DEFINITION. OBJNEW (R354 to R365, R470): its checks in their order, and what it makes. -/
namespace Sys2Proof.Machine

/-- Otypes of R354. -/
def objType (t : Nat) : Bool := [1, 2, 3, 4, 5, 6, 8, 9].contains t

/-- Size and alignment of an object. -/
def objSize (t count : Nat) : Nat :=
  match t with
  | 1 | 6 => 64
  | 8 => 64 + 16 * count
  | 9 => 64 + 64 * count
  | _ => 16
def objAlign (t : Nat) : Nat := if t = 1 ∨ t = 6 ∨ t = 8 ∨ t = 9 then 64 else 16

/-- Permissions that R76 lists for an otype, with GLOBAL (R355). -/
def objPerms (t : Nat) : Nat :=
  pGLOBAL ||| (match t with
    | 1 | 2 => pSEND ||| pRECV
    | 3 | 4 => pSPAWN
    | 5 => pRECV
    | 6 => pSPAWN ||| pREVOKE
    | 8 => pSEND
    | _ => pLOFT)

/-- The request of R356. -/
structure NewObj where
  badge : Nat
  mode : Nat
  otype : Nat
  perms : Nat
  count : Nat
  deriving DecidableEq, Repr

def newObjOf (w : Nat) : NewObj := ⟨fld w 16 16, fld w 12 4, fld w 0 12, fld w 48 16, fld w 32 16⟩

/-! Where an object lies. -/

/-- The owner of the page that holds an address (R356); in the firmware's map, the acting VD. -/
def State.ownerAt (s : State) (ag : Ag) (va : Nat) : Nat :=
  match ag.aspace with
  | .boot | .none => ag.vd
  | .tables root prot svd asid => match (leafFor s ag root prot svd asid va).1 with
      | .error _ => ag.vd
      | .ok (e, _) => fld e 89 7

/-- CAPCHECK, ALIGN or VD over an object's size, or the physical addresses of its bytes. -/
def Iss.objMem (x : Iss) (s : State) (c : Cap) (size align : Nat) : Except Nat (List Nat) :=
  let va := c.cursor
  let own (a : Nat) : Nat := s.ownerAt x.ag a
  let page (a : Nat) : Bool := match translate s { x.ag with vd := own a } { r := true, w := true } a with
    | .ok y => y.tagcap
    | .error _ => false
  if !c.tag ∨ c.otype ≠ 0 ∨ !(c.has (pLOAD ||| pSTORE ||| pLOADCAP ||| pSTORECAP)) then .error 1
  else if va % align ≠ 0 ∨ !(decide (c.base ≤ (va : Int)) && decide ((va : Int) + size ≤ c.top)) then .error 2
  else if !(page va) || !(page (va + size - 1)) then .error 2
  else if own va ≠ x.g.vd ∨ own (va + size - 1) ≠ x.g.vd then .error 9
  else match locate s x.ag { r := true, w := true } va size with
    | .error _ => .error 2
    | .ok pl => .ok pl.keys

/-- Where an object goes on in another page. -/
def objNext (keys : List Nat) : Option (Nat × Nat) :=
  let pa := keys.headD 0
  ((List.range keys.length).find? (fun i => keys.getD i 0 != pa + i)).map (fun i => (i, keys.getD i 0))

/-- Does a live object reach into some bytes? -/
def Obj.meets (o : Obj) (keys : List Nat) : Bool :=
  let size := objSize o.otype o.count
  let cut := (o.next.map (·.1)).getD size
  keys.any (fun k => (decide (o.pa ≤ k) && decide (k < o.pa + cut))
    || (match o.next with
      | some (c, p) => decide (p ≤ k) && decide (k < p + (size - c))
      | none => false))

/-- Does live memory hold an endpoint or notification with waiting parties (R357, R360, R361)? -/
def State.partiesAt (s : State) (keys : List Nat) : Bool :=
  let busy (id : Nat) : Bool :=
    (s.receiver id).isSome || (s.sender id).isSome || s.posts.any (fun p => p.ep == id)
      || s.parties.any (fun e => match e.2.2 with
        | .notified n _ => n == id
        | _ => false)
  s.objs.any (fun o => (o.otype == 1 || o.otype == 2) && o.meets keys && busy o.pa)

/-! Images (R359 to R365, R470). -/

/-- Does an RCB image hold a reserved bit, an INHERIT field that is not 0, or a FAULTEP that is not valid (R359)? -/
def rcbBad (n : Nat) (ep : Cap) : Bool :=
  fld n 395 117 != 0 || fld n 256 85 != 0
    || (bit n 344 && fld n 352 32 != 0) || (bit n 343 && fld n 348 4 != 0) || (bit n 341 && fld n 345 3 != 0)
    || (if bit n 342 then !ep.isNull else !(objOk ep 1 pSEND))

/-- An ASID that no live address space but one at `pa` holds: any of them (R363). -/
def State.newAsid (s : State) (pa : Nat) : Option Nat :=
  let used (a : Nat) : Bool := s.objs.any (fun o => o.otype == 4 && o.pa != pa && fld (s.rn o.pa 16) 72 16 == a)
  ((List.range 65536).map (fun i => (s.freeVal + i) % 65536)).find? (fun a => !(used a))

/-- The image is checked and the hardware fields are written, or the status of the failure. -/
def State.initObj (s : State) (vd t count : Nat) (keys : List Nat) : Except Nat State :=
  let pa := keys.headD 0
  let n := s.rkeys keys
  let busy (r : Except Nat State) : Except Nat State := if s.partiesAt keys then .error 6 else r
  match t with
  | 1 => if n ≠ 0 then .error 3 else busy (.ok s)
  | 2 => if fld n 16 112 ≠ 0 then .error 3 else busy (.ok s)
  | 3 => if fld n 9 119 ≠ 0 then .error 3 else busy (.ok s)
  | 4 =>
      if fld n 88 40 ≠ 0 ∨ fld n 56 8 ≠ 0 ∨ fld n 0 12 ≠ 0 then .error 3
      else match s.newAsid pa with
        | none => .error 5
        | some a => busy (.ok (s.draw.rawW (pa + 8) 3 (vd % 128 + fld n 71 1 * 2 ^ 7 + a * 2 ^ 8)))
  | 5 =>
      if fld n 48 80 ≠ 0 ∨ fld n 16 16 ≠ 0 ∨ 1023 < fld n 32 16 then .error 3
      else if s.objs.any (fun o => o.otype == 5 && o.pa != pa && lineSource s o.pa == fld n 32 16) then .error 6
      else busy (.ok s)
  | 6 =>
      let parent := s.swept vd (s.capAt (pa + 16))
      if fld n 395 117 ≠ 0 ∨ fld n 256 85 ≠ 0 then .error 3
      else match objCheck parent 6 pSPAWN with
        | .error _ => .error 7
        | .ok base => match (s.obj? 6 vd base).filter (fun o => o.vd == vd) with
            | none => .error 7
            | some o =>
                let d := fld (s.rcb o) 391 4 + 1
                if 8 < d then .error 4
                else if rcbBad n (s.swept vd (s.capAt pa)) then .error 3
                else busy (.ok (s.rawW (pa + 48) 2 (vd % 128 + d * 2 ^ 7)))
  | 8 =>
      let es := (List.range count).map (fun i => fld n (512 + 128 * i) 128)
      let names := es.map (fun e => (entryModule e, entryVd e))
      if fld n 7 9 ≠ 0 ∨ fld n 48 464 ≠ 0 ∨ es.any (fun e => fld e 16 48 != 0 || fld e 14 2 != 0 || bit e 7)
          ∨ names.eraseDups.length ≠ names.length then .error 3
      else
        let t := (s.rawW pa 6 count)
        busy (.ok ((List.range count).foldl (fun (t : State) i =>
          t.rawW (keys.getD (64 + 16 * i + 2) 0) 1 (fld n (512 + 128 * i + 16) 8 / 4 * 4 + 2)) t))
  | _ =>
      let es := (List.range count).map (fun i => fld n (512 + 512 * i) 512)
      let hs := es.map (fun e => fld e 0 6)
      if fld n 7 505 ≠ 0 ∨ es.any (fun e => fld e 6 122 != 0) ∨ hs.eraseDups.length ≠ hs.length then .error 3
      else busy (.ok (s.rawW pa 1 count))

/-! The modes. -/

/-- OBJSTAT set, and qd. -/
def Iss.objEnd (x : Iss) (s : State) (d : BitVec 4) (st : Nat) (c : Option Cap) : Res :=
  let g := x.g.ownW 0x0003 (BitVec.ofNat 64 st)
  .retire s (match c with
    | some c => g.qw d.toNat c
    | none => g)

/-- CREATE: live objects in the memory are no longer live (R358). DEDUCED: notes/assumptions/47.md. -/
def Iss.objCreate (x : Iss) (s : State) (d : BitVec 4) (r : NewObj) (c : Cap) : Res :=
  let fail (st : Nat) : Res := x.objEnd s d st (some Cap.null)
  if !(objType r.otype) then fail 8
  else if (if r.otype = 8 ∨ r.otype = 9 then decide (r.count = 0) || decide (64 < r.count) else r.count != 0) then fail 3
  else match x.objMem s c (objSize r.otype r.count) (objAlign r.otype) with
    | .error st => fail st
    | .ok keys =>
        if r.perms &&& (65535 - objPerms r.otype) ≠ 0 then fail 7
        else match s.initObj x.g.vd r.otype r.count keys with
          | .error st => fail st
          | .ok t =>
              let o : Obj :=
                { otype := r.otype, vd := x.g.vd, va := c.cursor, pa := keys.headD 0, count := r.count, next := objNext keys }
              x.objEnd { t with objs := o :: t.objs.filter (fun k => !(k.meets keys)) } d 0
                (some (objCap r.otype c.cursor r.badge r.perms))

/-- MINT: of any capability sealed with OTYPE, for the entry tests no table (log 47); a cursor above the bounds costs the
tag (R64, R69). -/
def Iss.objMint (x : Iss) (s : State) (d : BitVec 4) (r : NewObj) (c : Cap) : Res :=
  if c.tag && c.otype != 0 && c.otype == r.otype && decide ((c.cursor : Int) = c.base) && r.perms &&& (65535 - c.perms) == 0 then
    x.objEnd s d 0 (some ⟨capBits (c.cursor + r.badge) r.perms c.otype c.ex c.bm c.lm,
      decide (((c.cursor + r.badge : Nat) : Int) ≤ c.top)⟩)
  else x.objEnd s d 7 (some Cap.null)

/-- SET: the RW fields of a scheduling context or a region are replaced in one step. -/
def Iss.objSet (x : Iss) (s : State) (d : BitVec 4) (r : NewObj) (c : Cap) : Res :=
  let fail (st : Nat) : Res := x.objEnd s d st none
  let k := x.qs d
  let o? := if (r.otype = 3 ∨ r.otype = 6) ∧ k.badge = 0 then
      (match objCheck k r.otype pSPAWN with
        | .error _ => none
        | .ok base => s.obj? r.otype x.g.vd base)
    else none
  match o? with
  | none => fail 7
  | some o =>
      match x.objMem s c (objSize r.otype 0) (objAlign r.otype) with
      | .error st => fail st
      | .ok keys =>
          let pa := keys.headD 0
          let n := s.rkeys keys
          if r.otype = 3 then
            (if fld n 9 119 ≠ 0 then fail 3 else x.objEnd (s.wn o.pa 16 n) d 0 none)
          else
            let ep := s.swept x.g.vd (s.capAt pa)
            let old := s.rcb o
            if rcbBad n ep ∨ fld n 128 128 ≠ fld old 128 128 ∨ s.tagR (pa + 16) ≠ s.tagR (o.pa + 16)
                ∨ bit n 342 ≠ bit old 342 ∨ (fld old 391 4 = 1 ∧ fld n 341 4 ≠ 0) then fail 3
            else x.objEnd ((s.rawW (o.pa + 42) 6 (fld n 336 48)).capPut o.pa ep) d 0 none

/-- OBJNEW: a mode above 2 fails TYPE. -/
def Iss.objnew (x : Iss) (s : State) (d : BitVec 4) (a : Reg) (q : BitVec 4) : Res :=
  let r := newObjOf (x.g.rd2 a 0).toNat
  match r.mode with
  | 0 => x.objCreate s d r (x.qs q)
  | 1 => x.objMint s d r (x.qs q)
  | 2 => x.objSet s d r (x.qs q)
  | _ => x.objEnd s d 8 none

/-- OBJNEW (R356). -/
def execObjnew (d : BitVec 4) (a : Reg) (q : BitVec 4) (s : State) : Out :=
  issue (sigObjnew d a q) s (fun x s => x.objnew s d a q)

end Sys2Proof.Machine
end

