-- ==== Sys2Proof/Machine/Sweep.lean ====
section
/-! DEFINITION. Revocation epochs (R429 to R433), gleaner requests (R434), and the steps of a VF reset about its epoch
(R465). -/
namespace Sys2Proof.Machine

/-! Epochs. -/

/-- Is a key of memory HBM4E of a partition, or tile storage that stands for it? -/
def State.hbmOf (s : State) (p k : Nat) : Bool :=
  let pa := if tileKey 0 ≤ k ∧ k < tileKey 0 + hbmTop then k - tileKey 0 else k
  isHbm pa && s.partOfDie (pa / 2 ^ 36) == some p

/-- What an epoch must examine: lines of memory that hold a tag, ascending, and blocks of resident scratch that do. -/
def State.toExamine (s : State) (p : Nat) : List Nat :=
  let lines := (s.tags.filter (fun e => s.hbmOf p (16 * e.1))).map (fun e => e.1 / 8)
  let blocks := (s.scrTags.filter (fun e => match find s.gangs (e.1 / 2 ^ 15) with
    | some k => s.partOfDie (k.core / 64) == some p
    | none => false)).map (fun e => 2 ^ 60 + e.1 / 2 ^ 15 * 2 ^ 12 + e.1 % 2 ^ 15 / 8)
  (lines ++ blocks).eraseDups

/-- The context whose registers a control core holds: its thread's, or that of its U bank while it is at level K (R449). -/
def Grp.threadCtx (g : Grp) : Option Nat := g.ctx.orElse (fun _ => g.bank.bind (fun k => k.ctx))

/-- The VD of a context. -/
def State.vdOfCtx (s : State) (c : Option Nat) : Option Nat := c.bind (fun n => (find s.ctxs n).map (fun (k : Ctx) => k.vd))

/-- Gangs resident in a partition, and, as 2^61 + their unit, control cores that hold registers of its contexts (R433). -/
def State.gangsIn (s : State) (p : Nat) : List Nat :=
  (s.gangs.filter (fun e => s.partOfDie (e.2.core / 64) == some p)).map Prod.fst
  ++ (s.units.filter (fun e => isControl e.1 && ((s.vdOfCtx e.2.threadCtx).bind s.partOfVd) == some p)).map (fun e => 2 ^ 61 + e.1)

/-- Is a context's work of those still there: a gang not saved, retired or ended, a thread not saved or ended, whether it
stands at level U or its U bank waits (R433)? -/
def State.stays (s : State) (r : Nat) : Bool :=
  if r < 2 ^ 61 then (find s.gangs r).isSome else ((find s.units (r - 2 ^ 61)).bind Grp.threadCtx).isSome

/-- EPOCH_BEGIN. -/
def State.beginEpoch (s : State) (vd : Nat) : State :=
  let e : Epochs := look {} s.epochs vd
  match s.partOfVd vd with
  | none => s
  | some p =>
      if e.begun < e.last ∧ e.complete = e.begun then
        let n := e.begun + 1
        let t : State := { s with epochs := put s.epochs vd { e with begun := n, residents := s.gangsIn p } }
        (s.toExamine p).foldl (fun (t : State) k => t.request 5 0 vd 1 (.examine vd n k)) t
      else s

/-- A timeline that a register names is raised, unless it lies in protected memory (R425). -/
def State.raiseAt (s : State) (reg vd v : Nat) : State :=
  let pa := fld (s.sysR reg 0 vd 0).toNat 4 52 * 16
  if pa = 0 ∨ (s.protOf pa).isSome = true then s else s.tlRaise pa v

/-- Is the gleaner still erasing frames for a VD (R456, R465)? -/
def State.wiping (s : State) (vd : Nat) : Bool :=
  s.reqs.any (fun r => match r.what with
    | .wipe v _ => v == vd
    | _ => false)

/-- The lines of frames are queued at the gleaner (R398, R456, R465). -/
def State.wipeFrames (s : State) (vd lo n : Nat) : State :=
  (List.range (2 ^ 14 * n)).foldl (fun (t : State) i => t.request 6 0 vd 1 (.wipe vd (2 ^ 14 * lo + i))) s

/-- Step 6 of a VF reset begins: the VD's frames are queued at the gleaner (R465). -/
def State.resetErase (s : State) (vd : Nat) : State :=
  (s.vd? vd).frames.foldl (fun (t : State) f => t.wipeFrames vd f.1 f.2.1) s

/-- The rest of steps 6 and 7, once the frames are erased (R465): generations raised, memberships excluded, here and at the
other members, the source fires, LIVE clears, and the caller is answered. -/
def State.resetFinish (s : State) (vd : Nat) : State :=
  let v := s.vd? vd
  let t := (s.exclude (fun m k => m == s.modNum && k == vd)).sendOut vd (.reset s.modNum vd)
  let t := t.fire (512 + vd)
  let fs := v.frames.map (fun f => (f.1, f.2.1, f.2.2.1, f.2.2.2 + 1))
  let t : State := { t with vds := put t.vds vd { v with
    live := false, resetting := false, caller := none, frames := fs
    gens := v.gens ++ fs.map (fun f => (f.1, f.2.1, f.2.2.2)) } }
  match v.caller.bind (fun n => (find t.replies n).map (fun r => (n, r))) with
  | none => t
  | some (n, r) => (t.answer vd n r { badge := 0, words := [0#32], caps := [] }).1

/-- Has the gleaner erased every frame of a VD whose reset epoch has completed (R465)? -/
def State.resetErased (s : State) (vd : Nat) : Bool :=
  (s.vd? vd).resetting && (look {} s.epochs vd).reset.isNone && !(s.wiping vd)

/-- Objects whose capabilities an epoch has swept are no longer live, those with waiting parties apart (R358). -/
def State.retireObjs (s : State) (vd epoch : Nat) : State :=
  let marked (o : Obj) : Bool := s.partOfVd o.vd == s.partOfVd vd && s.rmarks.any (fun m =>
    m.vd == vd && m.epoch == epoch && !m.reset && decide (m.lo ≤ o.va) && decide (o.va < m.hi))
  let busy (o : Obj) : Bool := s.partiesAt ((List.range (objSize o.otype o.count)).map (o.pa + ·))
  { s with objs := s.objs.filter (fun o => !(marked o) || busy o) }

/-- EPOCH_COMPLETE: every line and block has been examined; saved gangs are clean with them. -/
def State.endEpoch (s : State) (vd : Nat) : State :=
  let e : Epochs := look {} s.epochs vd
  let left := s.reqs.any (fun r => match r.what with
    | .examine v n _ => v == vd && n == e.begun
    | _ => false)
  if e.complete < e.begun ∧ left = false then
    let t : State := { s with
      epochs := put s.epochs vd { e with complete := e.begun, reset := if e.reset = some e.begun then none else e.reset }
      saved := s.saved.map (fun (x : Nat × Saved) => (x.1, s.sweepSaved x.2.vd x.2))
      ctxs := s.ctxs.map (fun (x : Nat × Ctx) => (x.1, { x.2 with
        threads := x.2.threads.map (fun (y : Nat × Grp) => (y.1, s.sweepGrp y.2)) })) }
    let t := (t.retireObjs vd e.begun).raiseAt 0x0102 vd e.begun
    if e.reset = some e.begun then t.resetErase vd else t
  else s

/-- MARK_RELEASE: each context that was resident at the beginning has passed a boundary.
DEDUCED: notes/assumptions/58.md. -/
def State.releaseMarks (s : State) (vd : Nat) : State :=
  let e : Epochs := look {} s.epochs vd
  if e.residents.all (fun g => !(s.stays g)) then
    { s with rmarks := s.rmarks.filter (fun m => m.vd != vd || decide (e.complete < m.epoch)) }
  else s

/-! The gleaner. -/

/-- GLEANER_REQUEST_COMPLETE. -/
def State.gleanDone (s : State) (vd : Nat) : State :=
  let open_ (n : Nat) : Bool := s.reqs.any (fun r => match r.what with
    | .erase v k _ => v == vd && k == n
    | _ => false)
  match s.gleans.find? (fun g => g.vd == vd && !(open_ g.num)) with
  | none => s
  | some g =>
      let t : State := { s with gleans := s.gleans.erase g }
      let rest := (t.gleans.filter (fun k => k.vd == vd)).map (fun k => k.num)
      let top := if rest.isEmpty then (s.sysR 0x0105 0 vd 0).toNat else minOf rest - 1
      t.raiseAt 0x0103 vd top

/-! The events. -/

/-- EPOCH_BEGIN (R431). -/
def execEpochBegin (vd : Nat) (s : State) : Out := .next (s.beginEpoch vd)

/-- EPOCH_COMPLETE (R431, R465). -/
def execEpochComplete (vd : Nat) (s : State) : Out := .next (s.endEpoch vd)

/-- MARK_RELEASE (R433). -/
def execMarkRelease (vd : Nat) (s : State) : Out := .next (s.releaseMarks vd)

/-- GLEANER_REQUEST_COMPLETE (R434); a VF reset that waits for the gleaner ends (R465). -/
def execGleanerRequestComplete (vd : Nat) (s : State) : Out :=
  .next (if s.resetErased vd then s.resetFinish vd else s.gleanDone vd)

end Sys2Proof.Machine
end

