-- ==== Sys2Proof/Machine/Security.lean ====
section
/-! DEFINITION. The security core: partitions, VDs, claims, measurement, VF reset, handover and admission (R451 to R456,
R459 to R466, R472). Its endpoint and the page endpoint have numbers of their own (notes/assumptions/10.md). -/
namespace Sys2Proof.Machine

/-! Calls. -/

/-- A call that the security core may serve: the caller, its group, sd, badge, words and capabilities. -/
structure SecCall where
  u : Nat
  b : Bool
  g : Grp
  ticket : Nat
  rd : Nat
  badge : Nat
  words : List Word
  caps : List Cap
  deriving DecidableEq, Repr

def SecCall.m (c : SecCall) (i : Nat) : Nat := (c.words.getD i 0#32).toNat
def SecCall.q (c : SecCall) (i : Nat) : Cap := c.caps.getD i Cap.null

/-- The agent of a caller's buffers (notes/assumptions/45.md). -/
def SecCall.ag (c : SecCall) : Ag := unitAg c.u c.b c.g

/-- Are calls held: the firmware swaps (R475), a VFRESET is being carried out, or frames are erased for a call (R456)? -/
def State.secHeld (s : State) : Bool :=
  s.fwState == 2 || s.vds.any (fun e => e.2.caller.isSome || (e.2.claim.isSome && s.wiping e.1))

/-- The reply. -/
def State.secReply (s : State) (c : SecCall) (st : Nat) (caps : List Cap) : State :=
  s.complete c.u c.b (fun g =>
    g.takeMsg (isControl c.u) { badge := 0, words := [BitVec.ofNat 32 st], caps := caps } Cap.null c.rd)

/-- The earliest call at an endpoint is served by `f`, if it names an operation that `mine` accepts; a message that was
only sent is taken and dropped. -/
def State.serveAt (s : State) (ep : Nat) (mine : Nat → Bool) (f : SecCall → State) : State :=
  if s.secHeld then s
  else match s.sender (2 ^ 58 + ep) with
    | none => s
    | some p => match p.wait, find s.units p.u with
        | .sending _ ticket call rd info badge, some g =>
            let m := s.message g (isControl p.u) info badge
            if mine ((m.words.getD 0 0#32).toNat) then
              (if call then f ⟨p.u, p.b, g, ticket, rd, badge, m.words, m.caps⟩
              else s.complete p.u p.b (fun g => g.wrS rd (infoWord 0 false m.caps.length m.words.length 0)))
            else s
        | _, _ => s

/-- A refused call changes nothing. -/
def secNo (st : Nat) : Option (State × List Cap) × Nat := (none, st)
def secOk (s : State) (caps : List Cap) : Option (State × List Cap) × Nat := (some (s, caps), 0)

/-! Partitions (R451, R453). -/

/-- The dies of a rectangle. -/
def rectDies (r0 r1 c0 c1 : Nat) : List Nat :=
  (List.range 20).filter (fun d => decide (r0 ≤ d / 10) && decide (d / 10 ≤ r1) && decide (c0 ≤ d % 10) && decide (d % 10 ≤ c1))

/-- Does a die hold a live VD: its partition has one? -/
def State.dieLive (s : State) (die : Nat) : Bool :=
  match s.partOfDie die with
  | none => false
  | some p => s.vds.any (fun e => e.2.live && e.2.part == p)

/-- Dies given to a partition, or to none (31), and every link set anew. -/
def State.setDies (s : State) (ds : List Nat) (p : Nat) : State :=
  (ds.foldl (fun (t : State) d => t.sysW 0x0400 d 0 0 (BitVec.ofNat 64 p)) s).relink

/-- PARTDEF. DEDUCED: notes/assumptions/68.md. -/
def State.partdef (s : State) (c : SecCall) : Option (State × List Cap) × Nat :=
  let p := c.m 1
  let v := c.m 2
  let r0 := fld v 0 8
  let r1 := fld v 8 8
  let c0 := fld v 16 8
  let c1 := fld v 24 8
  let old := s.diesOf p
  let new := if v = 0 then [] else rectDies r0 r1 c0 c1
  if 19 < p ∨ (v ≠ 0 ∧ (r1 < r0 ∨ 1 < r1 ∨ c1 < c0 ∨ 9 < c1)) then secNo 2
  else if (old ++ new).any s.dieLive then secNo 5
  else if new.any (fun d => (s.partOfDie d).isSome && s.partOfDie d != some p) then secNo 3
  else
    let t := (s.setDies old 31).setDies new p
    let k := (find s.parts p).getD { row0 := r0, row1 := r1, col0 := c0, col1 := c1 }
    let parts := if v = 0 then del t.parts p else put t.parts p { k with row0 := r0, row1 := r1, col0 := c0, col1 := c1 }
    secOk { t with parts := parts } []

/-! Frames (R456, R458). Entries: first 2 MiB frame, count, protected, key generation. -/

/-- Entries without the frames of a range. -/
def cutFrames (fs : List (Nat × Nat × Bool × Nat)) (lo n : Nat) : List (Nat × Nat × Bool × Nat) :=
  fs.flatMap (fun f =>
    let left := (f.1, min f.2.1 (lo - f.1), f.2.2)
    let right := (max f.1 (lo + n), f.1 + f.2.1 - max f.1 (lo + n), f.2.2)
    [left, right].filter (fun e => decide (0 < e.2.1)))

/-- The highest key generation that a range has had, plus one. -/
def State.nextGenOf (s : State) (lo n : Nat) : Nat :=
  s.vds.foldl (fun k e => e.2.gens.foldl (fun k f =>
    if f.1 < lo + n ∧ lo < f.1 + f.2.1 then max k (f.2.2 + 1) else k) k) 1

/-- The status of a refused claim, or 0. -/
def State.claimStatus (s : State) (vd part lo n : Nat) : Nat :=
  if n = 0 ∨ 20 * 2 ^ 15 < lo + n ∨ s.retiredIn (lo * 2 ^ 21) ((lo + n) * 2 ^ 21) = true
      ∨ (List.range 20).any (fun d => decide (d * 2 ^ 15 < lo + n) && decide (lo < (d + 1) * 2 ^ 15) && s.partOfDie d != some part) then 2
  else if s.vds.any (fun e => e.1 != vd && e.2.live && e.2.frames.any (fun f =>
      decide (f.1 < lo + n) && decide (lo < f.1 + f.2.1))) then 1
  else 0

/-- Erased frames are assigned to a VD under a new key generation (R456, R458). DESIGN CHOICE: notes/assumptions/64.md. -/
def State.claimFrames (s : State) (vd lo n : Nat) (prot : Bool) : State :=
  let v := s.vd? vd
  let k := s.nextGenOf lo n
  { s with vds := put s.vds vd { v with
      frames := cutFrames v.frames lo n ++ [(lo, n, prot, k)], gens := v.gens ++ [(lo, n, k)], claim := none } }

/-- The measurement that a VD starts with (R459). -/
def State.startMeas (s : State) (vd : Nat) : State :=
  { s with vds := put s.vds vd { s.vd? vd with meas := Config.vdDigest (BitVec.ofNat 64 (s.vdcfg vd)) (s.vd? vd).frames } }

/-- CLAIM. -/
def State.claimCall (s : State) (c : SecCall) : Option (State × List Cap) × Nat :=
  let vd := c.m 1
  if 127 < vd ∨ 1 < c.m 4 then secNo 2
  else if !(s.vd? vd).live then secNo 3
  else match s.claimStatus vd (s.vd? vd).part (c.m 2) (c.m 3) with
    | 0 => secOk (s.claimFrames vd (c.m 2) (c.m 3) (c.m 4 == 1)) []
    | st => secNo st

/-! VDs (R455, R456, R459). -/

/-- The seal root: otypes 256 + 30v to 285 + 30v. -/
def sealRoot (vd : Nat) : Cap := ⟨capBits (256 + 30 * vd) (pSEAL ||| pUNSEAL ||| pGLOBAL) 0 0 (256 + 30 * vd) 30, true⟩

/-- The root RCB: DEPTH 1, explicit budgets, PRIO 8, PCLASS 0. -/
def rootRcb (vd cores : Nat) : Nat := (vd + 1 * 2 ^ 7) * 2 ^ 384 + cores * 2 ^ 368 + 65535 * 2 ^ 352 + 8 * 2 ^ 348

/-- VDCREATE. -/
def State.vdcreateCall (s : State) (c : SecCall) : Option (State × List Cap) × Nat :=
  let vd := c.m 1
  let p := c.m 2
  let lo := c.m 4
  if 127 < vd ∨ 1 < c.m 3 ∨ (s.part? p).isNone then secNo 2
  else if (s.vd? vd).live then secNo 3
  else match s.claimStatus vd p lo (c.m 5) with
    | 0 =>
        let at_ := lo * 2 ^ 21
        let v : Vd := { live := true, part := p, port := c.m 3, gens := (s.vd? vd).gens, root := at_, rootAt := at_ }
        let t : State := { s with vds := put s.vds vd v }
        let t := ((t.claimFrames vd lo (c.m 5) false).startMeas vd).wn at_ 64 (rootRcb vd (63 * (s.diesOf p).length))
        let t := t.capPut at_ (c.q 0)
        let o : Obj := { otype := 6, vd := vd, va := at_, pa := at_ }
        secOk { t with objs := o :: t.objs.filter (fun k => k.vd != vd && k.pa != at_) }
          [objCap 6 at_ 0 (pGLOBAL ||| pSPAWN ||| pREVOKE), objCap 1 pageEp (vd + 1) (pGLOBAL ||| pSEND), sealRoot vd]
    | st => secNo st

/-- The frames that a call of CLAIM or VDCREATE takes for a VD, unless it is refused (R456). -/
def State.claimAsked (s : State) (c : SecCall) : Option (Nat × Nat × Nat) :=
  if c.badge = 0 ∧ c.m 0 = 3 ∧ (s.claimCall c).1.isSome = true then some (c.m 1, c.m 2, c.m 3)
  else if c.badge = 0 ∧ c.m 0 = 2 ∧ (s.vdcreateCall c).1.isSome = true then some (c.m 1, c.m 4, c.m 5)
  else none

/-- The erasure of those frames through the gleaner, where it is still to begin; the call is answered after it. -/
def State.gleanStart (s : State) (c : SecCall) : Option State :=
  match s.claimAsked c with
  | none => none
  | some (vd, lo, n) =>
      if (s.vd? vd).claim = some c.ticket then none
      else some (State.wipeFrames { s with vds := put s.vds vd { s.vd? vd with claim := some c.ticket } } vd lo n)

/-- An operation of R456: the owner's, and for some the VD's own kernel's; the status and capabilities of the reply. -/
def State.secCall (s : State) (op : Nat → Bool) (own : Bool) (f : SecCall → Option (State × List Cap) × Nat) : State :=
  s.serveAt secEp op (fun c =>
    if c.badge ≠ 0 ∧ !(own && c.m 1 + 1 == c.badge) then s.secReply c 1 []
    else match s.gleanStart c with
      | some t => t
      | none => match f c with
        | (some t, st) => t.1.secReply c st t.2
        | (none, st) => s.secReply c st [])

/-- Bytes written through a capability of the caller, granule by granule; none if a check fails. -/
def State.putBuffer (s : State) (c : SecCall) (q : Cap) (bs : List Byte) : Option State :=
  match capCheck q 0 bs.length pSTORE with
  | .error _ => none
  | .ok va => match placesFrom s c.ag { w := true } va (bs.length / 16) with
      | .error _ => none
      | .ok ps => some ((ps.flatMap (fun p => p.keys)).zip bs |>.foldl (fun (t : State) e => (t.wb e.1 e.2).tagW e.1 false) s)

/-- The digest of a partition (R461). -/
def State.measPart (s : State) (p : Nat) : BitVec 384 :=
  Config.partDigest ((s.diesOf p).map (fun d => (s.sysR 0x0400 d 0 0, s.sysR 0x0401 d 0 0)))
    ((s.part? p).bind (fun k => k.active))

/-- The report of R461. -/
def State.report (s : State) (vd nonce : Nat) : Nat :=
  let v := s.vd? vd
  let body := s.measFw.toNat * 2 ^ 2944 + (s.measPart v.part).toNat * 2 ^ 2560 + v.meas.toNat * 2 ^ 2176
    + nonce * 2 ^ 2112 + Config.serial.toNat * 2 ^ 2048 + s.modNum * 2 ^ 2042 + vd * 2 ^ 2035 + v.part * 2 ^ 2030
  (Config.freeSignature s.free).toNat * 2 ^ 3328 + body

/-- MEASURE. -/
def State.measureCall (s : State) (c : SecCall) : Option (State × List Cap) × Nat :=
  let vd := c.m 1
  if 127 < vd then secNo 2
  else if !(s.vd? vd).live then secNo 3
  else match s.draw.putBuffer c (c.q 0) (leBytes (s.report vd (c.m 2 + 2 ^ 32 * c.m 3)) 512) with
    | none => secNo 2
    | some t => secOk t []

/-- EXTEND. -/
def State.extendCall (s : State) (c : SecCall) : Option (State × List Cap) × Nat :=
  let vd := c.m 1
  let v := s.vd? vd
  if 127 < vd then secNo 2
  else if !v.live then secNo 3
  else
    let msg := leBytes v.meas.toNat 48 ++ (List.range 6).flatMap (fun i => leBytes (c.m (2 + i)) 4)
    secOk { s with vds := put s.vds vd { v with meas := sha384 msg } } []

/-! VF reset (R465, R466). -/

/-- The object that a party waits on. -/
def Wait.on : Wait → Option Nat
  | .sending ep _ _ _ _ _ => some ep
  | .receiving ep _ _ => some ep
  | .notified id _ => some id
  | _ => none

/-- Parties of other VDs at a VD's endpoints, notifications and interrupt lines complete with RESET (R80, R212). -/
def State.resetParties (s : State) (vd : Nat) : State :=
  let ids := (s.objs.filter (fun o => o.vd == vd && (o.otype == 1 || o.otype == 2 || o.otype == 5))).map (fun o => o.pa)
  let s := s.parties.foldl (fun (t : State) e =>
    match e.2.2.on, find s.units e.1 with
    | some id, some g =>
        if ids.contains id ∧ g.vd ≠ vd then t.complete e.1 e.2.1 (fun h => h.wrS e.2.2.rd 0x3000_0000#32)
        else t
    | _, _ => t) s
  let gone := s.posts.filter (fun p => ids.contains p.ep)
  let s : State := { s with posts := s.posts.filter (fun p => !(ids.contains p.ep)) }
  gone.foldl (fun (t : State) p => match p.msg.reply.bind (fun n => (find t.replies n).map (fun r => (n, r))) with
    | none => t
    | some (n, r) => t.noReply n r 3) s

/-- Steps 1 to 5: contexts killed, parties and batches ended, service gangs told, the reset epoch marked.
DEDUCED: notes/assumptions/70.md. -/
def State.resetBegin (s : State) (vd : Nat) (caller : Option Nat) : State :=
  let s := (s.ctxs.filter (fun e => e.2.vd == vd)).foldl (fun (t : State) e => t.killCtx e.1) s
  let s := s.resetParties vd
  let s := (s.replies.filter (fun e => e.2.live && e.2.vd == some vd)).foldl (fun (t : State) e => t.noReply e.1 e.2 2) s
  let s := (s.batches.filter (fun e => e.2.vd == vd)).foldl (fun (t : State) e => t.svcEnd e.1 1) s
  let s := (List.range 20).foldl (fun (t : State) d => match t.serviceEp d with
    | none => t
    | some o => t.post o.pa { badge := 0xFFFF, words := [BitVec.ofNat 32 vd], caps := [] }) s
  let v := s.vd? vd
  let e : Epochs := look {} s.epochs vd
  { s with
    vds := put s.vds vd { v with resetting := true, caller := caller, hstate := 0, blob := none, released := none }
    epochs := put s.epochs vd { e with last := e.last + 1, reset := some (e.last + 1) }
    rmarks := s.rmarks ++ [({ part := v.part, vd := vd, epoch := e.last + 1, lo := 0, hi := 0, reset := true } : RMark)] }

/-- The status of a refused reset, or 0. -/
def State.resetStatus (s : State) (vd : Nat) : Nat :=
  if 127 < vd then 2
  else if !(s.vd? vd).live ∨ (s.vd? vd).hstate = 2 then 3
  else if (s.vd? vd).resetting then 5
  else 0

/-- VFRESET: the reply follows step 7. -/
def State.vfresetCall (s : State) (c : SecCall) : State :=
  let vd := c.m 1
  match s.resetStatus vd with
  | 0 =>
      let r := s.newReply (.path c.u c.b) none
      let t := r.1.putU c.u (c.g.setSlot c.b ((c.g.slot c.b).map (fun p => { p with wait := some (.calling r.2 c.rd) })))
      t.resetBegin vd (some r.2)
  | st => s.secReply c st []

/-! Handover (R462 to R464). -/

/-- Every unit of a context stops, and it is saved as HALTCTX.SAVE does; none if it does not fit. -/
def State.haltSave (s : State) (c : Nat) (k : Ctx) : Option State :=
  if k.state = .saved ∨ k.state = .dead then some s
  else
    let t := (s.ctxUnits c).foldl (fun (t : State) e => t.stopUnit e.1) s
    let t := (s.cmds.filter (fun e => e.2.ctx == some c && !e.2.finished)).foldl (fun (t : State) e => t.stopCmd e.1) t
    let t : State := { t with
      ops := t.ops.map (fun (e : Nat × MOp) => if e.2.ctx = some c then (e.1, { e.2 with stopped := true }) else e) }
    let r := t.saveCtx c
    if r.2 then some ((r.1.modCtx c (fun k => { k with decide := false, callers := [] })).answerCallers c k.callers (fun _ => 0))
    else none

def State.haltAll (s : State) (vd : Nat) : Option State :=
  (s.ctxs.filter (fun e => e.2.vd == vd)).foldl (fun (t : Option State) e => t.bind (fun t => t.haltSave e.1 e.2)) (some s)

/-- Is a physical address in the frames of a VD, tile storage that stands for it included? -/
def Vd.covers (v : Vd) (k : Nat) : Bool :=
  let pa := if tileKey 0 ≤ k ∧ k < tileKey 0 + hbmTop then k - tileKey 0 else k
  v.frames.any (fun f => decide (f.1 ≤ pa / 2 ^ 21) && decide (pa / 2 ^ 21 < f.1 + f.2.1))

/-- What a VD takes with it (R462). -/
def State.blobOf (s : State) (vd dest : Nat) : Blob :=
  let v := s.vd? vd
  let mine (c : Option Nat) : Bool := s.vdOfCtx c == some vd
  let ops := s.ops.filter (fun e => mine e.2.ctx)
  { dest := dest, cfg := s.vdcfg vd, meas := v.meas, frames := v.frames
    mem := s.mem.filter (fun e => v.covers e.1), tags := s.tags.filter (fun e => v.covers (16 * e.1))
    objs := s.objs.filter (fun o => o.vd == vd), ctxs := s.ctxs.filter (fun e => e.2.vd == vd)
    launches := s.launches.filter (fun e => mine (some e.2.ctx)), saved := s.saved.filter (fun e => mine (some e.2.ctx))
    cmds := s.cmds.filter (fun e => mine e.2.ctx), ops := ops
    sets := s.sets.filter (fun e => ops.any (fun o => o.2.set == e.1)) }

/-- The sealed bytes of a blob, and what a blob from another module holds, by a fresh number: none where it cannot be unsealed
(R462, R463; notes/assumptions/45.md). -/
opaque sealedBlob : Blob → List (BitVec 128)
opaque openedBlob : Nat → Option Blob

/-- EXPORT: the contexts are saved, and the blob, with a copy kept, is written sealed (notes/assumptions/45.md). -/
def State.exportCall (s : State) (c : SecCall) : Option (State × List Cap) × Nat :=
  let vd := c.m 1
  let v := s.vd? vd
  if 127 < vd ∨ 63 < c.m 2 then secNo 2
  else if v.resetting then secNo 5
  else if !v.live ∨ v.hstate ≠ 0 then secNo 3
  else if !(capOk (c.q 0) 0 pSTORE) then secNo 2
  else match s.haltAll vd with
    | none => secNo 4
    | some t =>
        let b := t.blobOf vd (c.m 2)
        match t.putBuffer c (c.q 0) ((sealedBlob b).flatMap (fun w => leBytes w.toNat 16)) with
        | none => secNo 4
        | some t => secOk { t with vds := put t.vds vd { t.vd? vd with hstate := 1, blob := some b, retries := 0, released := none } } []

/-- A group of a blob in a VD of this module, its context and its other numbers moved by so much. -/
def Grp.moved (g : Grp) (vd c n : Nat) : Grp :=
  { g with vd := vd, ctx := g.ctx.map (c + ·), launch := g.launch.map (n + ·), gang := g.gang.map (n + ·) }

/-- A blob with its numbers moved past those in use here. -/
def Blob.moved (b : Blob) (vd c n : Nat) : Blob :=
  { b with
    objs := b.objs.map (fun o => { o with vd := vd })
    ctxs := b.ctxs.map (fun e => (c + e.1, { e.2 with
      vd := vd, state := if e.2.state = .dead then .dead else .saved, callers := [], answers := []
      threads := e.2.threads.map (fun x => (x.1, x.2.moved vd c n)) }))
    launches := b.launches.map (fun e => (n + e.1, { e.2 with vd := vd, ctx := c + e.2.ctx }))
    saved := b.saved.map (fun e => (n + e.1, { e.2 with
      ctx := c + e.2.ctx, gang := { e.2.gang with launch := e.2.gang.launch.map (n + ·) }
      units := e.2.units.map (fun x => (x.1, x.2.moved vd c n)) }))
    cmds := b.cmds.map (fun e => (n + e.1, { e.2 with
      vd := vd, ctx := e.2.ctx.map (c + ·), gang := e.2.gang.map (n + ·), launch := e.2.launch.map (n + ·), stopped := true }))
    ops := b.ops.map (fun e => (n + e.1, { e.2 with
      vd := vd, ctx := e.2.ctx.map (c + ·), gang := n + e.2.gang, set := n + e.2.set, stopped := true }))
    sets := b.sets.map (fun e => (n + e.1, e.2)) }

/-- A VD is restored from a blob (R463): its frames claimed, with what they held, its objects, contexts, launches and saved
gangs; none if the partition cannot give it its frames. Its first frame begins with its root region (R456). -/
def State.restoreBlob (s : State) (vd part : Nat) (b0 : Blob) : Option State :=
  if b0.frames.isEmpty || b0.frames.any (fun f => s.claimStatus vd part f.1 f.2.1 != 0) then none
  else
    let b := b0.moved vd (freshKey s.ctxs) s.ticket
    let root := (b.frames.headD (0, 0, false, 0)).1 * 2 ^ 21
    let v : Vd := { live := true, part := part, port := fld b.cfg 40 1, gens := (s.vd? vd).gens, root := root, rootAt := root }
    let t : State := { s with vds := put s.vds vd v }
    let t := b.frames.foldl (fun (t : State) f =>
      (t.claimFrames vd f.1 f.2.1 f.2.2.1).erasePa (f.1 * 2 ^ 21) (f.2.1 * 2 ^ 21)) t
    let v := t.vd? vd
    let t := (b.mem.filter (fun e => v.covers e.1)).foldl (fun (t : State) e => t.wb e.1 e.2) t
    let t := (b.tags.filter (fun e => v.covers (16 * e.1))).foldl (fun (t : State) e => t.tagW (16 * e.1) e.2) t
    some (State.startMeas { t with
      objs := t.objs.filter (fun o => o.vd != vd) ++ b.objs, ctxs := t.ctxs ++ b.ctxs, launches := t.launches ++ b.launches
      saved := t.saved ++ b.saved, cmds := t.cmds ++ b.cmds, ops := t.ops ++ b.ops, sets := t.sets ++ b.sets
      ticket := [freshKey b.launches, freshKey b.saved, freshKey b.cmds, freshKey b.ops, freshKey b.sets].foldl max t.ticket } vd)

/-- IMPORT: the source refuses the release, or the import fails, or the VD is restored; which of them, and what the blob
holds, is another module's to give (notes/assumptions/45.md). -/
def State.importCall (s : State) (c : SecCall) : Option (State × List Cap) × Nat :=
  let vd := c.m 1
  if 127 < vd ∨ (s.part? (c.m 2)).isNone ∨ 63 < c.m 3 ∨ !(capOk (c.q 0) 0 pLOAD) then secNo 2
  else if (s.vd? vd).live then secNo 3
  else if s.freeVal % 2 = 0 then (some (s.draw, []), 3)
  else match (openedBlob s.free).bind (fun b => s.draw.restoreBlob vd (c.m 2) b) with
    | none => (some (s.draw, []), 6)
    | some t => secOk t []

/-- RELEASE_REQUEST at the source: one release at a time; a new request of the same module tells that the import after
the earlier release failed (R463, R464). DEDUCED: notes/assumptions/63.md. -/
def State.releaseAsked (s : State) (vd dest : Nat) : State :=
  let v := s.vd? vd
  let grant (v : Vd) : State :=
    if v.live ∧ (v.hstate = 1 ∨ (v.hstate = 2 ∧ v.retries < 8)) then { s with vds := put s.vds vd { v with released := some (dest, false) } }
    else { s with vds := put s.vds vd v }
  match v.released with
  | none => if v.live ∧ (v.hstate = 1 ∨ v.hstate = 2) then grant v else s
  | some (d, counted) =>
      if d = dest then grant { v with released := none, retries := if counted then v.retries else min 8 (v.retries + 1) } else s

/-- A VD's frames are erased and nothing of it can run. -/
def State.eraseVd (s : State) (vd : Nat) : State :=
  let t := (s.ctxs.filter (fun e => e.2.vd == vd)).foldl (fun (t : State) e => t.killCtx e.1) s
  (s.vd? vd).frames.foldl (fun (t : State) f => t.erasePa (f.1 * 2 ^ 21) (f.2.1 * 2 ^ 21)) t

/-- CONFIRM. -/
def State.confirmed (s : State) (vd : Nat) : State :=
  let v := s.vd? vd
  if v.released.isSome ∧ (v.hstate = 1 ∨ v.hstate = 2) then
    let t := if v.hstate = 1 then s.eraseVd vd else s
    { t with vds := put t.vds vd { v with live := false, hstate := 0, retries := 0, blob := none, released := none } }
  else s

/-- ERASE. -/
def State.eraseCall (s : State) (c : SecCall) : Option (State × List Cap) × Nat :=
  let vd := c.m 1
  let v := s.vd? vd
  if 127 < vd then secNo 2
  else if !v.live ∨ v.hstate ≠ 1 then secNo 3
  else
    let t := s.eraseVd vd
    secOk { t with vds := put t.vds vd { v with hstate := 2 } } []

/-- ABANDON. -/
def State.abandonCall (s : State) (c : SecCall) : Option (State × List Cap) × Nat :=
  let vd := c.m 1
  let v := s.vd? vd
  if 127 < vd then secNo 2
  else if !v.live ∨ (v.hstate ≠ 1 ∧ v.hstate ≠ 2) then secNo 3
  else secOk { s with vds := put s.vds vd { v with
    live := v.hstate == 1, hstate := 0, retries := 0, blob := none, released := none } } []

/-! Admission (R460, R472). -/

/-- ADMIT: a member's measurement is its own module's to give when it is remote, a free value. -/
def State.admitCall (s : State) (c : SecCall) : Option (State × List Cap) × Nat :=
  let i := c.m 1
  let meas := c.m 2 + 2 ^ 32 * c.m 3
  let k := c.q 0
  match (match objCheck k 8 0 with
    | .error _ => none
    | .ok base => if k.badge = 0 then s.obj? 8 c.g.vd base else none) with
  | none => secNo 1
  | some o =>
      let e := s.groupEntry o.pa i
      let local_ := entryModule e == s.modNum
      let mine := (s.vd? (entryVd e)).live && (s.vd? (entryVd e)).meas.toNat % 2 ^ 64 == meas
      let t := if local_ then s else s.draw
      if s.groupCount o.pa ≤ i ∨ entrySt e ≠ 2 then secNo 1
      else if (if local_ then mine else s.freeVal % 2 ^ 64 == meas) then
        secOk (((t.rawW (t.objAt o.pa (64 + 16 * i) + 8) 8 meas).setSt o.pa i 1).nextGen o.pa) []
      else (some (t, []), 1)

/-! The page endpoint (R425, R426). -/

/-- The entry's place at a level: the walk down to the level's table. -/
def State.tableAt (s : State) (vd va lvl : Nat) : Nat → Nat → Option Nat
  | 0, _ => none
  | n + 1, t =>
      if s.protOf t ≠ some vd then none
      else
        let k := t + 16 * fld va (lvlShift (n + 1)) (lvlBits (n + 1))
        if n + 1 = lvl then some k
        else
          let e := s.rn k 16
          if entryBad (n + 1) e || bit e 1 then none else s.tableAt vd va lvl n (fld e 8 48 * 256)

/-- Bytes of a table of a level (R418). -/
def tblBytes (lvl : Nat) : Nat := 16 * 2 ^ lvlBits lvl

/-- Is a range protected memory of a VD? -/
def State.protRange (s : State) (vd pa n : Nat) : Bool :=
  (List.range ((pa % 2 ^ 21 + n + 2 ^ 21 - 1) / 2 ^ 21)).all (fun i => s.protOf (pa / 2 ^ 21 * 2 ^ 21 + i * 2 ^ 21) == some vd)

/-- The reply word of SET or CLEAR, and the change. -/
def State.pageCall (s : State) (c : SecCall) (set : Bool) : State × Nat :=
  let vd := c.badge - 1
  let va := c.m 1 + 2 ^ 32 * c.m 2
  let lvl := c.m 3
  let e := c.m 4 + 2 ^ 32 * c.m 5 + 2 ^ 64 * c.m 6 + 2 ^ 96 * c.m 7
  let k := c.q 0
  let named : Option Obj := match objCheck k 4 pSPAWN with
    | .error _ => none
    | .ok base => s.obj? 4 vd base
  match named.filter (fun o => o.vd == vd && bit (s.rn o.pa 16) 71) with
  | none => (s, 1)
  | some o =>
      let n := s.rn o.pa 16
      let addr := fld e 8 48 * 256
      if lvl = 0 ∨ 4 < lvl ∨ imageBase ≤ va ∨ (set ∧ entryBad lvl (if bit e 0 then e else e + 1) = true) then (s, 2)
      else if set ∧ s.protRange vd addr (if bit e 1 then 2 ^ lvlShift lvl else tblBytes (lvl - 1)) = false then (s, 1)
      else if set ∧ bit e 1 = true ∧ (bit e 75 = false ∨ fld e 89 7 ≠ vd) then (s, 2)
      else match s.tableAt vd va lvl 4 (fld n 12 44 * 4096) with
        | none => (s, 3)
        | some at_ =>
            let t := if set ∧ bit e 1 = false then s.zeroRange addr (tblBytes (lvl - 1)) else s
            ((t.wn at_ 16 (if set then e else 0)).tlbRemove (s.partOfVd vd) (pageCovers (fld n 72 16) va), 0)

/-- Do accesses that a call's change would invalidate remain to be performed (R423)? -/
def State.pageHeld (s : State) (c : SecCall) : Bool :=
  match objCheck (c.q 0) 4 pSPAWN with
  | .error _ => false
  | .ok base => match s.obj? 4 (c.badge - 1) base with
      | none => false
      | some o =>
          let h := s.holders (fun _ => false) (pageCovers (fld (s.rn o.pa 16) 72 16) (c.m 1 + 2 ^ 32 * c.m 2))
          !(h.1.isEmpty && h.2.isEmpty)

/-- The earliest call at the page endpoint; it is served once no access through the translations that it removes is left.
A message of other than 8 words and 1 capability is refused with DENIED. DESIGN CHOICE: notes/assumptions/88.md. -/
def State.servePage (s : State) (op : Nat → Bool) (set : Bool) : State :=
  s.serveAt pageEp op (fun c =>
    if c.badge = 0 ∨ (set = true ∧ c.m 0 ≠ 1) ∨ c.words.length ≠ 8 ∨ c.caps.length ≠ 1 then s.secReply c 1 []
    else if s.pageHeld c then s
    else
      let r := s.pageCall c set
      r.1.secReply c r.2 [])

/-! The rows. A word m0 that names no operation replies BADARG; the first row takes it. -/

/-- PARTDEF (R451, R453, R456). -/
def execPartdef (s : State) : Out :=
  .next (s.secCall (fun m => m == 1 || m == 0 || decide (11 < m)) false (fun c => if c.m 0 = 1 then s.partdef c else secNo 2))

/-- VDCREATE (R456). -/
def execVdcreate (s : State) : Out := .next (s.secCall (· == 2) false s.vdcreateCall)

/-- CLAIM (R456, R458). -/
def execClaim (s : State) : Out := .next (s.secCall (· == 3) false s.claimCall)

/-- MEASURE (R461). -/
def execMeasure (s : State) : Out := .next (s.secCall (· == 4) true s.measureCall)

/-- EXTEND (R456). -/
def execExtend (s : State) : Out := .next (s.secCall (· == 5) true s.extendCall)

/-- VFRESET (R465). -/
def execVfreset (s : State) : Out :=
  .next (s.serveAt secEp (· == 6) (fun c => if c.badge = 0 then s.vfresetCall c else s.secReply c 1 []))

/-- FUNCTION_LEVEL_RESET (R465). -/
def execFunctionLevelReset (vd : Nat) (s : State) : Out :=
  .next (if s.resetStatus vd = 0 then s.resetBegin vd none else s)

/-- EXPORT (R462). -/
def execExportVd (s : State) : Out := .next (s.secCall (· == 7) false s.exportCall)

/-- IMPORT (R463). -/
def execImportVd (s : State) : Out := .next (s.secCall (· == 8) false s.importCall)

/-- RELEASE_REQUEST (R463). -/
def execReleaseRequest (vd dest : Nat) (s : State) : Out := .next (s.releaseAsked vd dest)

/-- CONFIRM (R463). -/
def execConfirm (vd : Nat) (s : State) : Out := .next (s.confirmed vd)

/-- ERASE (R463). -/
def execErase (s : State) : Out := .next (s.secCall (· == 9) false s.eraseCall)

/-- ABANDON (R463). -/
def execAbandon (s : State) : Out := .next (s.secCall (· == 10) false s.abandonCall)

/-- ADMIT (R472). -/
def execAdmit (s : State) : Out := .next (s.secCall (· == 11) false s.admitCall)

/-- PAGE_SET (R426): an operation that is neither SET nor CLEAR replies DENIED. -/
def execPageSet (s : State) : Out := .next (s.servePage (· != 2) true)

/-- PAGE_CLEAR (R426). -/
def execPageClear (s : State) : Out := .next (s.servePage (· == 2) false)

end Sys2Proof.Machine
end

