-- ==== Sys2Proof/Machine/Links.lean ====
section
/-! DEFINITION. The outside: link frames and failures (R453, R457), tokens and accesses from peers (R86, R87, R469), Furrow
launch packets (R374, R375), host slots (R467), interrupt sources (R80). What arrives stands in the inbox. -/
namespace Sys2Proof.Machine

/-! Links. Numbers: 8 × die + direction for die links; 160 + m for the pairing with peer m, 224 + i for pool port i, 240 + p
for host port p. -/

/-- A frame on a link: discarded when it fails authentication, or on a closed link unless it is in transit. Its key is replaced
before its counter reaches 2^48 (R457). -/
def State.linkFrame (s : State) (die dir : Nat) (ok transit : Bool) : State :=
  let l := 8 * die + dir
  if s.linkDown.contains l then s
  else if !ok then { s with linkFail := store 0 s.linkFail l (look 0 s.linkFail l + 1) }
  else
    let t : State := { s with linkFail := del s.linkFail l, keys := store 0 s.keys l ((look 0 s.keys l + 1) % 2 ^ 48) }
    if 20 ≤ die ∨ bit (s.sysR 0x0401 die 0 0).toNat dir = true ∨ transit = true then t else t.dropped l

/-- A peer or pool is lost (R457). -/
def State.lose (s : State) (n : Nat) : State := if s.lost.contains n then s else { s with lost := n :: s.lost }

/-- LINK_DOWN: after 16 failures in a row. -/
def State.takeDown (s : State) (l : Nat) : State :=
  if look 0 s.linkFail l < 16 ∨ s.linkDown.contains l = true then s
  else
    let t : State := { s with linkDown := l :: s.linkDown, linkFail := del s.linkFail l }
    if 160 ≤ l ∧ l < 240 then t.lose (l - 160) else t

/-- PEER_TIMEOUT: no response for 2^24 control cycles; a handover to the peer that was not confirmed has failed (R464). -/
def State.peerGone (s : State) (n : Nat) : State :=
  let t := s.lose n
  { t with vds := t.vds.map (fun (e : Nat × Vd) => match e.2.released with
      | some (d, false) => if d = n then (e.1, { e.2 with retries := min 8 (e.2.retries + 1), released := some (d, true) }) else e
      | _ => e) }

/-! Tokens (R86, R469). -/

/-- A signed 13-bit DELTA. -/
def delta (r : Nat) : Int := sint 13 r

/-- A memory token rebased into the window of its module, if the window admits it and its bounds can be written there. -/
def State.unsealMem (s : State) (vd peer : Nat) (c : Cap) : Cap :=
  let win := (s.sysR 0x0404 0 vd peer).toNat
  let lo : Int := ((fld win 47 17 * 2 ^ 40 : Nat) : Int)
  let shift : Int := ((fld win 30 17 * 2 ^ 40 : Nat) : Int) - lo
  let base := c.base + shift
  let moved : Cap :=
    ⟨capBits (wrap 64 ((c.cursor : Int) + shift)) c.perms 0 c.ex (wrap 15 (base / (2 ^ c.ex : Nat))) c.lm, true⟩
  if bit win 0 && decide (lo ≤ c.base) && decide (c.top ≤ lo + (2 ^ 40 : Nat)) && decide (moved.base = base) then moved
  else ⟨c.bits, false⟩

/-- A token of a user otype under the otype map of its module. -/
def State.unsealUser (s : State) (vd peer : Nat) (c : Cap) : Cap :=
  let map := (s.sysR 0x0405 0 vd peer).toNat
  let t : Int := (c.otype : Int) + delta map
  if bit map 63 = true ∧ ((256 + 30 * vd : Nat) : Int) ≤ t ∧ t ≤ ((285 + 30 * vd : Nat) : Int) then
    ⟨capBits c.cursor c.perms t.toNat c.ex c.bm c.lm, true⟩
  else ⟨c.bits, false⟩

/-- A token as it arrives in a VD from a peer (R86, R469). -/
def State.unseal (s : State) (vd peer : Nat) (c : Cap) : Cap :=
  if !(c.tag && c.has pGLOBAL) then ⟨c.bits, false⟩
  else if c.otype = 0 then s.unsealMem vd peer c
  else if 256 ≤ c.otype then s.unsealUser vd peer c
  else if [1, 2, 7, 8].contains c.otype then c
  else ⟨c.bits, false⟩

/-- The object that a token names lies at its module (R86, R87). -/
def State.learnFar (s : State) (vd peer : Nat) (c : Cap) : State :=
  let e := (vd, c.otype, c.base.toNat, peer)
  if c.tag && [1, 2, 7, 8].contains c.otype && !(s.far.contains e) then { s with far := e :: s.far } else s

/-- Tokens as they arrive in a VD from a peer. -/
def State.unsealAll (s : State) (vd peer : Nat) (cs : List Cap) : State × List Cap :=
  let us := cs.map (s.unseal vd peer)
  (us.foldl (fun t c => t.learnFar vd peer c) s, us.map (s.swept vd))

/-! Accesses and messages of peers (R86, R87). -/

/-- The agent of accesses that a peer makes in an address space of a VD. -/
def peerAg (vd : Nat) (a : ASpace) : Ag := { vd := vd, aspace := a, who := 2 ^ 43 + vd }

/-- An access by a peer, in an address space of the VD that maps it; otherwise it is discarded (R425). It waits at the head
of the inbox for a tile that is regrown, a granule that is locked, or an arbiter (R145, R323, R400).
DEDUCED: notes/assumptions/62.md. -/
def State.peerAccess (s : State) (vd va size : Nat) (need : Need) (f : State → Place → State) : State :=
  let spaces := (s.objs.filter (fun o => o.otype == 4 && o.vd == vd)).map s.aspaceOf
  let gone : State := { s with inbox := s.inbox.drop 1 }
  match spaces.findSome? (fun a => match locate s (peerAg vd a) need va size with
      | .ok pl => if pl.peer.isNone then some (a, pl) else none
      | .error _ => none) with
  | none => gone
  | some (a, pl) =>
      if pl.granules.any s.locked.contains then s
      else match (s.meetTiles none none none [pl]).orElse (fun _ => s.unserved (peerAg vd a) [pl]) with
        | some t => t
        | none => f (gone.touch (peerAg vd a) need.w pl) pl

/-- An atomic by its number, in the order of R255, on a value with its operands. -/
def peerAtomic (op size x y m : Nat) : Option Nat :=
  match op with
  | 0 => some (m + x)
  | 1 => some (if size = 4 then minSN m x else if sint 64 m ≤ sint 64 x then m else x)
  | 2 => some (if size = 4 then maxSN m x else if sint 64 m ≤ sint 64 x then x else m)
  | 3 => some (min m x)
  | 4 => some (max m x)
  | 5 => some (m &&& x)
  | 6 => some (m ||| x)
  | 7 => some (m ^^^ x)
  | 8 => some x
  | 9 => cas x y m
  | 10 => some (bankAdd .fp32 m x)
  | 11 => some (bankAdd2 m x)
  | _ => none

/-- A read or an atomic by a peer: the memory changes at its home, and the value goes back (R87, R127). -/
def State.peerAsk (s : State) (vd peer va size : Nat) (w : Bool) (f : Nat → Option Nat) : State :=
  s.peerAccess vd va size { r := true, w := w } (fun t pl =>
    let m := t.rkeys pl.keys
    (match f m with
      | none => t
      | some v => t.wkeys pl.keys (leBytes v size)).sendOut vd (.value peer m))

/-- A message from a peer reaches an endpoint of the VD, or one at that peer on which paths of this module wait. A CALL's
reply goes back to the peer (R79, R87). -/
def State.peerMessage (s : State) (vd ep peer badge : Nat) (words : List Word) (tokens : List Cap) (call : Option Nat) : State :=
  let u := s.unsealAll vd peer (tokens.take 4)
  let r : State × Option Nat := match call with
    | none => (u.1, none)
    | some n => let t := u.1.newReply (.peer peer n) none
                (t.1, some t.2)
  let m : Msg := { badge := badge % 65536, words := words.take 8, caps := u.2, reply := r.2 }
  match s.obj? 1 vd ep with
  | some o =>
      if (s.vd? o.vd).resetting then (match call with
        | none => s.tellPeer vd ep (some peer) 3
        | some n => s.sendOut vd (.reply peer n 3 [] []))
      else r.1.post o.pa m (some peer)
  | none => match s.receiver (peerKey peer ep) with
      | none => s
      | some p => r.1.deliver p m

/-- A receiver at a peer takes the message of the first sender that waits for its endpoint (R77, R87), or its wait ends with a
status (R466). -/
def State.peerMatched (s : State) (peer ep status : Nat) : State :=
  match s.sender (peerKey peer ep) with
  | none => s
  | some p => match p.wait, find s.units p.u with
      | .sending _ _ call rd info badge, some g =>
          let m := s.message g (isControl p.u) info badge
          if status ≠ 0 then s.complete p.u p.b (fun g => g.wrS rd (infoWord status false 0 0 0))
          else if call then
            let r := s.newReply (.path p.u p.b) none
            let t := r.1.putU p.u (g.setSlot p.b ((g.slot p.b).map (fun y => { y with wait := some (.calling r.2 rd) })))
            t.sendOut g.vd (outMessage g.vd peer ep { m with reply := some r.2 })
          else
            (s.complete p.u p.b (fun g => g.wrS rd (infoWord 0 false m.caps.length m.words.length 0))).sendOut g.vd
              (outMessage g.vd peer ep m)
      | _, _ => s

/-- The reply to a CALL that was received at a peer (R79, R87). -/
def State.peerReply (s : State) (peer n status : Nat) (words : List Word) (tokens : List Cap) : State :=
  match find s.replies n with
  | none => s
  | some r =>
      if !r.live then s
      else if status ≠ 0 then s.noReply n r status
      else
        let vd := match r.dest with
          | .path u _ => ((find s.units u).map (fun g => g.vd)).getD 0
          | _ => 0
        let u := s.unsealAll vd peer (tokens.take 4)
        (u.1.answer vd n r { badge := 0, words := words.take 8, caps := u.2 }).1

/-- FRAME_RECEIVE: the frame at the head of the inbox. DESIGN CHOICE: notes/assumptions/60.md. -/
def State.frame (s : State) : State :=
  match s.inbox with
  | .link die dir ok transit :: r => State.linkFrame { s with inbox := r } die dir ok transit
  | .store vd va bytes :: _ => s.peerAccess vd va bytes.length { w := true } (fun t pl => t.wkeys pl.keys bytes)
  | .load vd peer va size :: _ => s.peerAsk vd peer va size false (fun _ => none)
  | .atomic vd peer va size op x y :: _ => s.peerAsk vd peer va size true (peerAtomic op size x y)
  | .value _ _ :: r => { s with inbox := r }
  | .message vd ep peer badge words tokens call :: r => State.peerMessage { s with inbox := r } vd ep peer badge words tokens call
  | .reply peer n status words tokens :: r => State.peerReply { s with inbox := r } peer n status words tokens
  | .signal vd _ base badge :: r =>
      let t : State := { s with inbox := r }
      (match t.obj? 2 vd base with
        | some o => t.noteOr o.pa (badge % 65536)
        | none => t)
  | .matched peer ep status :: r => State.peerMatched { s with inbox := r } peer ep status
  | .reset peer vd :: r => State.exclude { s with inbox := r } (fun m k => m == peer && k == vd)
  | _ => s

/-! Furrow launch packets (R374, R375). -/

/-- A record with its tokens unsealed. -/
def State.unsealRecord (s : State) (vd peer : Nat) (bits : BitVec 6144) (tags : BitVec 48) : List Cap :=
  (List.range 48).map (fun i =>
    let c : Cap := ⟨bits.extractLsb' (128 * i) 128, tags.getLsbD i⟩
    if i ≤ 34 ∨ 46 ≤ i then s.unseal vd peer c else ⟨c.bits, false⟩)

/-- A write that travels to a peer (R398). -/
def State.tellFurrow (s : State) (vd k : Nat) (bytes : List Byte) : State :=
  s.sendOut vd (.store vd (k % 2 ^ 60) bytes)

/-- REJECTED is reported at the peer that STATUS and COMPL name (R375). -/
def State.rejectAtPeer (s : State) (vd : Nat) (l : Launch) : State :=
  let far (c : Cap) : Option Nat := if c.tag then (s.peerOf vd c.cursor).map (fun e => peerKey e.1 e.2) else none
  if !l.reports then s
  else
    let t := match far l.statusCap with
      | some k => (s.wn k 4 4).tellFurrow vd k (leBytes 4 4)
      | none => s
    match far l.compl with
    | some k => (t.tlRaise k l.cval).tellFurrow vd k (leBytes l.cval 8)
    | none => t

/-- The validated record, or none. -/
def State.packetRecord (s : State) (vd index origin : Nat) (cs : List Cap) : Option (List Cap) :=
  let r := (s.sysR (0x0580 + vd) 0 0 0).toNat
  let at_ := fld r 12 44 * 4096 + 64 * index
  let e := s.openRn at_ 16
  let l : Launch :=
    { vd := vd, num := 0, ctx := 0, bits := recordBits cs, tags := recordTagBits cs, kern := bootKern, aspace := .boot, region := 0 }
  if fld r 0 12 ≤ index ∨ bit e 0 = false ∨ fld e 1 31 ≠ 0 ∨ bit e (64 + origin % 64) = false
      ∨ l.entry ≠ s.capAt (at_ + 48) ∨ fld e 32 32 < l.gangs then none
  else some (setNth (setNth cs 1 (s.capAt (at_ + 32))) 2 (s.capAt (at_ + 16)))

/-- FURROW_LAUNCH_PACKET. -/
def State.launchPacket (s : State) : State :=
  match s.inbox with
  | .launch vd index origin bits tags :: r =>
      let t : State := { s with inbox := r }
      let cs := t.unsealRecord vd origin bits tags
      let t := cs.foldl (fun (t : State) c => t.learnFar vd origin c) t
      (match t.packetRecord vd index origin cs with
        | none => t.rejectAtPeer vd
            { vd := vd, num := 0, ctx := 0, bits := recordBits cs, tags := recordTagBits cs, kern := bootKern, aspace := .boot, region := 0 }
        | some cs => if t.intakeFull vd (cs.getD 1 Cap.null) then s
            else (t.submit vd (recordBits cs) (recordTagBits cs)).1)
  | _ => s

/-! Host slots (R467). -/

/-- HOST_SLOT_REQUEST. -/
def State.hostRequest (s : State) : State :=
  match s.inbox with
  | .host vd slot words whole :: r =>
      let t : State := { s with inbox := r }
      let k := slotKey vd slot
      let old : Slot := look {} t.slots k
      let pa := fld (t.sysR 0x0406 0 vd slot).toNat 6 50 * 64
      match (if pa = 0 then none else t.objs.find? (fun o => o.otype == 1 && o.pa == pa)) with
      | none => t
      | some o =>
          if !whole ∨ words.length ≠ 9 ∨ 15 < slot ∨ s.linkDown.contains (240 + (s.vd? vd).port) = true ∨ (old.status ≠ 0 ∧ old.status ≠ 3) then t
          else
            let n := t.newReply (.hostSlot vd slot) none
            let u : State := { n.1 with slots := put n.1.slots k { status := 1, request := words, reply := old.reply } }
            if (u.vd? o.vd).resetting then
              (match find u.replies n.2 with
                | some rep => u.noReply n.2 rep 3
                | none => u)
            else
              let info := (words.headD 0#32).toNat
              u.post o.pa { badge := 0xFF00 + slot, words := (words.drop 1).take (msgWords info), caps := [], reply := some n.2 }
  | _ => s

/-- FRAME_RECEIVE (R14, R86, R453, R457). -/
def execFrameReceive (s : State) : Out := .next s.frame

/-- LINK_DOWN (R457). -/
def execLinkDown (link : Nat) (s : State) : Out := .next (s.takeDown link)

/-- PEER_TIMEOUT (R457, R464): peers 0 to 63, pools from 64 on. -/
def execPeerTimeout (peer : Nat) (s : State) : Out := .next (if peer < 80 then s.peerGone peer else s)

/-- KEY_REPLACE (R457): a new key, its counter from 0. -/
def execKeyReplace (link : Nat) (s : State) : Out := .next { s with keys := del s.keys link }

/-- FURROW_LAUNCH_PACKET (R375). -/
def execFurrowLaunchPacket (s : State) : Out := .next s.launchPacket

/-- HOST_SLOT_REQUEST (R467). -/
def execHostSlotRequest (s : State) : Out := .next s.hostRequest

/-- INTERRUPT_SOURCE_FIRE (R80, R364). -/
def execInterruptSourceFire (source : Nat) (s : State) : Out := .next (s.fire source)

end Sys2Proof.Machine
end

