-- ==== Sys2Proof/Machine/Illegal.lean ====
section
/-! DEFINITION. Words that encode no instruction, and words that cannot be fetched (R75, R169, R180, R481). -/
namespace Sys2Proof.Machine

/-- The signature of a word that encodes nothing. -/
def sigIllegal (w : Word) : Sig := { w := w, wf := false }

/-- The failure of the issuing path's fetch. DEDUCED: notes/assumptions/69.md. -/
def Iss.fetchFault (x : Iss) (s : State) : State :=
  match fetch s x.g x.p with
  | .ok _ => s
  | .error f =>
      match capCheck x.g.pcc ((x.p.pc.toNat : Int) - x.g.pcc.cursor) 4 pEXEC with
      | .error _ => s.raise x (x.info f x.low (some (x.g.pcc, 15)))
      | .ok _ => s.raise x (x.failPlain f x.low)

/-- ILLEGAL_ENCODING (R169): the trap with cause ILLEGAL. -/
def execIllegalEncoding (w : BitVec 32) (s : State) : Out := issue (sigIllegal w) s (fun _ _ => .trap 0)

/-- INSTRUCTION_FETCH_FAULT (R75). -/
def execInstructionFetchFault (s : State) : Out :=
  match s.issuer 0 with
  | none => .fault .noIssuer
  | some x => .next (x.fetchFault s)

end Sys2Proof.Machine
end

