-- ==== Sys2Proof/Machine/Regrow.lean ====
section
/-! DEFINITION. Regrowable tiles: registration, recipes and pins, major 0x24 (R315, R316, R321, R322, R330 to R335), and
regrow requests as the dispatcher serves them (R324 to R328). -/
namespace Sys2Proof.Machine

/-! Recipe records (R321): ENTRY, OUT, SRC0 to SRC3 and ARG are granules 0 to 6. -/

/-- The 1,024 bits of a record, and its capabilities with the tags that a VD's revocations leave. -/
def State.recBits (s : State) (r : Nat) : Nat := s.rn r 128
def State.recCaps (s : State) (vd r : Nat) : List Cap := (List.range 7).map (fun i => s.swept vd (s.capAt (r + 16 * i)))

/-- DIMX, DIMY and DIMZ; may the record be used by its dimensions and reserved bits? -/
def recDims (n : Nat) : Nat × Nat × Nat := (fld n 896 16, fld n 912 16, fld n 928 16)
def recFormOk (n : Nat) : Bool :=
  fld n 944 13 == 0 && fld n 976 48 == 0 && fld n 896 16 != 0 && fld n 912 16 != 0 && fld n 928 16 != 0

/-- DEPTH written, PINS cleared (R332). -/
def State.recSet (s : State) (r depth : Nat) : State :=
  (s.rawW (r + 118) 2 (s.rn (r + 118) 2 % 2 ^ 13 + depth * 2 ^ 13)).rawW (r + 120) 2 0

/-- The non-null sources of a record's capabilities. -/
def sourcesOf (cs : List Cap) : List Cap := ((cs.drop 2).take 4).filter (fun c => !c.isNull)

/-- What a source capability names: nothing usable, a PLAIN descriptor, or a registered tile with a recipe. -/
inductive Source where
  | bad
  | plain
  | tile (t : Tile)
  deriving DecidableEq, Repr

/-- The descriptor that a source capability names for an agent. -/
def State.source (s : State) (ag : Ag) (c : Cap) : Source :=
  if !c.tag ∨ c.otype ≠ 0 ∨ c.cursor % 64 ≠ 0 then .bad
  else match locate s ag { r := true } c.cursor 64 with
    | .error _ => .bad
    | .ok pl =>
        let k := pl.keys.headD 0
        if (s.descAt k).cls = 0 then .plain
        else match s.tileOf k with
          | none => .bad
          | some t => if (s.recipeOf k).isSome then .tile t else .bad

/-- The depth that a recipe over some sources has, where every one is usable (R322). -/
def State.recipeDepth (s : State) (ag : Ag) : List Cap → Option Nat
  | [] => some 1
  | c :: r => match s.source ag c, s.recipeDepth ag r with
      | .plain, some n => some n
      | .tile t, some n => some (max n (s.depthOf t + 1))
      | _, _ => none

/-! Operands (R330). -/

/-- DETAIL 0x43: an operand that is misaligned, or a record or descriptor that breaks its table. -/
def Iss.operandBad (x : Iss) (va : Nat) : Res := .fault (x.failPlain ⟨0x04, 0x43, va⟩ x.low)

/-- A descriptor or record operand of `n` bytes: its check, alignment and translation; at a peer it dooms the OPEN lanes
(R143, R258). -/
def Iss.operand (x : Iss) (s : State) (q : BitVec 4) (n perm : Nat) (write : Bool) (k : Iss → State → Nat → Place → Res) : Res :=
  let c := x.qs q
  match capCheck c 0 n perm with
  | .error f => .fault (x.fail f x.low c q.toNat)
  | .ok va =>
      if va % n ≠ 0 then x.operandBad va
      else match locate s x.ag { r := true, w := write } va n with
        | .error f => .fault (x.failPlain f x.low)
        | .ok pl =>
            match x.gate s false [⟨x.low, pl⟩] with
            | some (t, w) => .wait t w
            | none => k { x with g := x.remote false [⟨x.low, pl⟩] } (s.touch x.ag write pl) va pl

/-- A status in sd. -/
def Iss.status (x : Iss) (d : Reg) (s : State) (n : Nat) : Res := .retire s (x.toS d n)

/-! Registration (R315, R316, R331). -/

/-- Where the storage of a REGROW tile may lie: physical address, die and slice. -/
def State.storageOf (s : State) (ag : Ag) (d : Desc) : Option (Nat × Nat × Nat) :=
  match translate s ag {} d.base.cursor with
  | .error _ => none
  | .ok x =>
      match x.aff, x.leaf with
      | some slice, some l =>
          if l.level = 2 ∧ isHbm x.pa ∧ x.pa % 2 ^ 21 + d.extent ≤ 2 ^ 21 ∧ d.extent ≤ 2 ^ 20 then some (x.pa, x.home, slice)
          else none
      | _, _ => none

/-- Would one more tile of so many bytes break a limit of its slice? -/
def State.sliceFull (s : State) (die slice vd len : Nat) : Bool :=
  let ts := s.tiles.filter (fun t => t.die == die && t.slice == slice)
  let sum (l : List Tile) : Nat := l.foldl (fun n t => n + t.len) len
  decide (4 ≤ ts.length) || decide (2 ^ 20 < sum ts)
    || decide (2 ^ 16 * popcount 16 (s.sysR 0x0301 die vd slice).toNat < sum (ts.filter (fun t => t.vd == vd)))

/-- A descriptor with a null RECIPE, DROPPED. -/
def State.blankDesc (s : State) (k : Nat) : State := (s.capPut (k + 48) Cap.null).setTileState k 1

/-- TDESC. -/
def Iss.tdesc (x : Iss) (s : State) (d : Reg) (q : BitVec 4) : Res :=
  x.operand s q 64 (pLOAD ||| pSTORE ||| pLOADCAP) true (fun x s va pl =>
    let k := pl.keys.headD 0
    let ds := s.descAt k
    if !ds.ok then x.operandBad va
    else if (s.tileOf k).isSome then x.status d s 3
    else if ds.cls = 0 then x.status d ((s.setTileVersion k 0).setTileState k 0) 0
    else match s.storageOf x.ag ds with
      | none => x.status d s 2
      | some (pa, die, slice) =>
          if s.sliceFull die slice x.g.vd ds.extent then x.status d s 1
          else
            let t : Tile :=
              { aspace := x.g.aspace, desc := k, descVa := va, lo := pa, len := ds.extent, die := die, slice := slice,
                vd := x.g.vd, ctx := x.g.ctx }
            x.status d ((({ s with tiles := s.tiles ++ [t] }.clearTile t).blankDesc k).setTileVersion k 0) 0)

/-- TDESC.REL. -/
def Iss.tdescRel (x : Iss) (s : State) (d : Reg) (q : BitVec 4) : Res :=
  x.operand s q 64 (pLOAD ||| pSTORE ||| pLOADCAP) true (fun x s va pl =>
    let k := pl.keys.headD 0
    if !(s.descAt k).ok then x.operandBad va
    else match s.tileOf k with
      | none => x.status d s 3
      | some t =>
          if s.tileHeld t || tileState s k == 2 then x.status d s 3
          else
            let u := s.clearTile t
            x.status d ({ u with tiles := u.tiles.filter (fun e => e.desc != k) }.blankDesc k) 0)

/-- RECIPE (R332). DEDUCED: notes/assumptions/55.md. -/
def Iss.recipe (x : Iss) (s : State) (d : Reg) (a q : BitVec 4) : Res :=
  x.operand s a 64 (pLOAD ||| pSTORE ||| pLOADCAP ||| pSTORECAP) true (fun x s _ pl =>
    x.operand s q 128 (pLOAD ||| pSTORE ||| pLOADCAP) true (fun x s rva rpl =>
      let k := pl.keys.headD 0
      let r := rpl.keys.headD 0
      let cs := s.recCaps x.g.vd r
      if !(recFormOk (s.recBits r)) ∨ (cs.getD 1 Cap.null).cursor ≠ (x.qs a).cursor then x.operandBad rva
      else if (s.tileOf k).isNone ∨ (s.descAt k).cls ≠ 1 ∨ (s.recipeOf k).isSome then x.status d s 3
      else match s.recipeDepth x.ag (sourcesOf cs) with
        | none => x.status d s 4
        | some n =>
            if 4 < n then x.status d s 5
            else
              let c := s.swept x.g.vd (x.qs q)
              x.status d ((s.recSet r n).capPut (k + 48) ⟨c.bits, c.tag && pl.tagcap⟩) 0))

/-! Pins, probes and drops (R333). -/

/-- A form on one descriptor: its key, the registered tile, and the record of its recipe. -/
def Iss.tileForm (x : Iss) (s : State) (q : BitVec 4) (perm : Nat) (write : Bool)
    (k : Iss → State → Nat → Option Tile → Option Nat → Res) : Res :=
  x.operand s q 64 perm write (fun x s _ pl =>
    let key := pl.keys.headD 0
    let t := s.tileOf key
    k x s key t (t.bind s.recAt))

/-- TPIN. -/
def Iss.tpin (x : Iss) (s : State) (d : Reg) (q : BitVec 4) : Res :=
  x.tileForm s q (pLOAD ||| pSTORE) true (fun x s k _ r =>
    if (s.descAt k).cls ≠ 1 then x.status d s 3
    else match r with
      | none => x.status d s 4
      | some r => if recPins s r = 65535 then x.status d s 1 else x.status d (s.rawW (r + 120) 2 (recPins s r + 1)) 0)

/-- TUNPIN. -/
def Iss.tunpin (x : Iss) (s : State) (d : Reg) (q : BitVec 4) : Res :=
  x.tileForm s q (pLOAD ||| pSTORE) true (fun x s _ _ r =>
    match r with
    | none => x.status d s 3
    | some r => if recPins s r = 0 then x.status d s 3 else x.status d (s.rawW (r + 120) 2 (recPins s r - 1)) 0)

/-- The probe word. -/
def State.probeWord (s : State) (k : Nat) (t : Option Tile) (r : Option Nat) : Nat :=
  (match r with
    | none => 0
    | some r => recPins s r * 2 ^ 8 + recDepth s r * 2 ^ 5)
  + (if t.isSome then 16 else 0) + tileState s k

/-- TPROBE. -/
def Iss.tprobe (x : Iss) (s : State) (d : Reg) (q : BitVec 4) : Res :=
  x.tileForm s q pLOAD false (fun x s k t r => .retire s (x.toS d (s.probeWord k t r)))

/-- TDROP. -/
def Iss.tdrop (x : Iss) (s : State) (d : Reg) (q : BitVec 4) : Res :=
  x.tileForm s q (pLOAD ||| pSTORE) true (fun x s k t _ =>
    match t with
    | none => x.status d s 3
    | some t =>
        if tileState s k = 1 then x.status d s 0
        else if tileState s k = 0 ∧ !(s.tileHeld t) then x.status d (s.dropTile t) 0
        else x.status d s 3)

/-- REGROWN (R334). -/
def Iss.regrown (x : Iss) (s : State) : Res :=
  match x.g.gang.bind (fun n => (find s.gangs n).map (fun k => (n, k))) with
  | none => .trap 0
  | some (n, k) =>
      if k.regrow.isNone then .trap 0
      else .retire { s with gangs := put s.gangs n { k with regrown := true } } x.g

/-! Requests (R324, R325). -/

/-- The address space that a request is served in: that of the first waiting group, or of the registration. -/
def State.regrowSpace (s : State) (t : Tile) (r : Regrow) : ASpace :=
  (((s.firstWaiter 4 t.desc).bind (fun f => find s.units f.1)).map (fun g => g.aspace)).getD (if r.checked then r.aspace else t.aspace)

/-- The VD of a context. -/
def State.ctxVd (s : State) (c : Nat) : Nat := ((find s.ctxs c).map (fun (k : Ctx) => k.vd)).getD 0

/-- The limits of R325 on a recipe's kernel. -/
def Kern.recipeOk (k : Kern) : Bool :=
  k.groups == 1 && decide (k.scratch ≤ 32768) && k.crib == 0 && decide (k.pathstack ≤ 16) && k.carryS.isEmpty

/-- The checks of R325 on a record: the state, and the kernel. -/
def State.recipeKern (s : State) (root : Nat) (n : Nat) (cs : List Cap) : State × Option Kern :=
  let e := cs.getD 0 Cap.null
  if recFormOk n && e.tag && e.otype == 0 && e.has pEXEC && cs.all (fun c => c.isNull || (c.tag && c.otype == 0)) then
    let r := s.kernelAt root e
    (r.1, r.2.filter Kern.recipeOk)
  else (s, none)

/-- The sources examined and pinned in order: the REGROW ones, and the cause of a failure. -/
def State.pinSources (s : State) (ag : Ag) (depth : Nat) : List Cap → State × List Nat × Option Nat
  | [] => (s, [], none)
  | c :: r =>
      match s.source ag c with
      | .bad => (s, [], some 0x41)
      | .plain => s.pinSources ag depth r
      | .tile t =>
          if depth ≤ s.depthOf t then (s, [], some 0x42)
          else
            let u := (s.setPins t.desc (· + 1)).pinSources ag depth r
            (u.1, t.desc :: u.2.1, u.2.2)

/-- The first part of serve(T): the record is read and checked, and its sources are examined.
DEDUCED: notes/assumptions/57.md. -/
def State.regrowCheck (s : State) (t : Tile) (r : Regrow) : State :=
  let vd := s.ctxVd r.ctx
  let sp := s.regrowSpace t r
  let fail (s : State) (c : Nat) : State := s.regrowFail t.desc c
  match s.recipeOf t.desc, s.recAt t with
  | none, _ => fail s 0x40
  | some _, none => fail s 0x44
  | some _, some p =>
      let n := s.recBits p
      let cs := s.recCaps vd p
      let k := s.recipeKern sp.root n cs
      match k.2 with
      | none => fail k.1 0x44
      | some kern =>
          let u := k.1.pinSources { vd := vd, aspace := sp, ctx := some r.ctx, core := some (64 * t.die) } (fld n 957 3) (sourcesOf cs)
          let v : State := { u.1 with regrows := put u.1.regrows t.desc { r with
            checked := true, pins := u.2.1, caps := cs, dims := recDims n, kern := some kern, aspace := sp } }
          match u.2.2 with
          | none => v
          | some c => fail v c

/-- The next source, or the start of the launch. -/
def State.regrowSource (s : State) (d : Nat) (r : Regrow) : State :=
  let go (s : State) (f : Regrow → Regrow) : State := { s with regrows := put s.regrows d (f r) }
  match r.pins[r.pos]? with
  | none =>
      let n := r.dims.1 * r.dims.2.1 * r.dims.2.2
      go s (fun r => { r with launched := true, toGo := List.range n, left := n })
  | some p =>
      let next (s : State) : State := go s (fun r => { r with pos := r.pos + 1, waits := false })
      match tileState s p with
      | 1 =>
          if r.waits then next s
          else match s.tileOf p with
            | none => next s
            | some _ =>
                let u := go s (fun r => { r with waits := true })
                { u.setTileState p 2 with
                  regrows := put u.regrows p { ctx := r.ctx, parent := some d } }
      | 2 => go s (fun r => { r with waits := true })
      | _ => next s

/-- May a gang of a context's regrow launch run on a core: its reserve is free, the core is not marked, the budgets of the
root region allow it, and no read in flight of another's waits there (R34, R325, R393, R445)? -/
def State.regrowFits (s : State) (c core : Nat) : Bool :=
  (find s.units (64 * core + 63)).isNone && (find s.marks core).isNone
    && s.budgetOk (s.ctxVd c) (((find s.ctxs c).map (fun k => k.root)).getD 0) core
    && (look [] s.quarantine core).all (fun e => e.1 == c || (find s.saved e.2.1).isSome)

/-- The cores for it: those where the context has resident work, or, where it has none, the user cores of the VD's partition
that hold no work of another VD (R325, R381). -/
def State.regrowCores (s : State) (c : Nat) : List Nat :=
  let mine := ((s.ctxUnits c).filterMap (fun e => if isControl e.1 then none else some (unitCore e.1))).eraseDups
  let vd := s.ctxVd c
  let own : List Nat := if mine.isEmpty then
      match s.partOfVd vd with
      | none => []
      | some p => (s.userCores p).filter (fun k => match s.coreWork k with
          | none => true
          | some v => v == vd)
    else mine
  own.filter (s.regrowFits c)

/-- The core that a gang goes to. Without placement entries the best die is the one with the most such cores, and the others
follow by distance (R379); on a die it is the core with the most free slots, the lowest of them (R381). -/
def State.regrowCore (s : State) (cs : List Nat) : Option Nat :=
  let on (d : Nat) : List Nat := (List.range 64).filterMap (fun i => if cs.contains (64 * d + i) then some (64 * d + i) else none)
  let best := (List.range 20).foldl (fun b d => if (on b).length < (on d).length then d else b) 0
  ((List.range 20).flatMap (fun h => (List.range 20).filter (fun d => hops best d == h))).findSome? (fun d => s.mostFree (on d))

/-- The entry state of a regrow group (R56, R325). -/
def regrowGrp (d : Nat) (r : Regrow) (k : Kern) (vd gid n : Nat) : Grp :=
  let g : Grp :=
    { width := k.width, level := .user, vd := vd, ctx := some r.ctx, aspace := r.aspace, kern := k, gang := some gid,
      gx := n % r.dims.1, gy := n / r.dims.1 % r.dims.2.1, gz := n / (r.dims.1 * r.dims.2.1),
      pcc := r.caps.getD 0 Cap.null, regrow := some d,
      v := (List.range k.width).foldl (fun m l => store 0 m l (BitVec.ofNat 32 l)) [],
      slotA := some { pc := k.entry, mask := widthMask k.width } }
  let g := ((g.wrS 0 (BitVec.ofNat 32 g.gx)).wrS 1 (BitVec.ofNat 32 g.gy)).wrS 2 (BitVec.ofNat 32 g.gz)
  let g := (List.range 4).foldl (fun (g : Grp) i => g.qw (i + 1) (r.caps.getD (i + 2) Cap.null)) g
  (g.qw 0 (r.caps.getD 6 Cap.null)).qw 5 (r.caps.getD 1 Cap.null)

/-- A gang of a regrow launch starts in the reserve of a core. -/
def State.regrowGang (s : State) (d : Nat) (r : Regrow) (k : Kern) (core n : Nat) : State :=
  let gid := s.ticket
  let vd := s.ctxVd r.ctx
  let s := ((s.claimCore core vd).moveQuarantine core).tick
  let u := 64 * core + 63
  let gang : Gang := { launch := none, regrow := some d, index := n, core := core, units := [some u], scratch := k.scratch }
  { s with
    gangs := put s.gangs gid gang
    units := put s.units u (regrowGrp d r k vd gid n)
    regrows := put s.regrows d { r with toGo := r.toGo.erase n } }

/-- A gang of the launch is placed again after a save, or starts. -/
def State.regrowRun (s : State) (d : Nat) (r : Regrow) : State :=
  let cs := s.regrowCores r.ctx
  let back := (s.saved.filter (fun e => e.2.gang.regrow == some d)).findSome? (fun e =>
    (s.regrowCore (cs.filter (fun c => s.holdsSaved e.1 e.2 c))).map (fun c => (e.1, c)))
  match back, s.regrowCore cs, r.kern, pickGang s r.toGo with
  | some (g, c), _, _, _ => s.unsave g c
  | none, some c, some k, some n => s.draw.regrowGang d r k c n
  | _, _, _, _ => s

/-- One piece of serving the request for a tile. -/
def State.regrowServe (s : State) (d : Nat) : State :=
  match find s.regrows d, s.tileOf d with
  | some r, some t =>
      if r.failed.isSome || !(s.ctxRuns r.ctx) then s
      else if !r.checked then s.regrowCheck t r
      else if !r.launched then s.regrowSource d r
      else s.regrowRun d r
  | _, _ => s

/-- Has the launch of a request completed (R326)? -/
def State.regrowOver (s : State) (d : Nat) (r : Regrow) : Bool :=
  r.launched && r.failed.isNone && r.toGo.isEmpty && r.left == 0
    && s.cmds.all (fun e => e.2.regrow != some d || e.2.finished) && s.ops.all (fun e => e.2.regrow != some d)

/-- The launch completes: the tile is VALID, and the sources are let go. -/
def State.regrowComplete (s : State) (d : Nat) : State :=
  match find s.regrows d with
  | none => s
  | some r =>
      if !(s.regrowOver d r) then s
      else
        let u := (s.setTileVersion d (tileVersion s d + 2)).setTileState d 0
        let u := r.pins.foldl (fun (t : State) p => t.setPins p (· - 1)) u
        ({ u with regrows := del u.regrows d }).modCtx r.ctx (fun k => { k with deadlock := 0 })

/-- TDESC (R331). -/
def execTdesc (d : Reg) (q : BitVec 4) (s : State) : Out := issue (Instr.sig (.tdesc d q)) s (fun x s => x.tdesc s d q)

/-- TDESC.REL (R331). -/
def execTdescRel (d : Reg) (q : BitVec 4) (s : State) : Out :=
  issue (Instr.sig (.tdescRel d q)) s (fun x s => x.tdescRel s d q)

/-- RECIPE (R332). -/
def execRecipe (d : Reg) (a q : BitVec 4) (s : State) : Out :=
  issue (Instr.sig (.recipe d a q)) s (fun x s => x.recipe s d a q)

/-- TPIN (R333). -/
def execTpin (d : Reg) (q : BitVec 4) (s : State) : Out := issue (Instr.sig (.tpin d q)) s (fun x s => x.tpin s d q)

/-- TUNPIN (R333). -/
def execTunpin (d : Reg) (q : BitVec 4) (s : State) : Out := issue (Instr.sig (.tunpin d q)) s (fun x s => x.tunpin s d q)

/-- TPROBE (R333). -/
def execTprobe (d : Reg) (q : BitVec 4) (s : State) : Out := issue (Instr.sig (.tprobe d q)) s (fun x s => x.tprobe s d q)

/-- TDROP (R333). -/
def execTdrop (d : Reg) (q : BitVec 4) (s : State) : Out := issue (Instr.sig (.tdrop d q)) s (fun x s => x.tdrop s d q)

/-- REGROWN (R334). -/
def execRegrown (s : State) : Out := issue (Instr.sig .regrown) s (fun x s => x.regrown s)

/-- REGROW_SERVE (R324). -/
def execRegrowServe (tile : Nat) (s : State) : Out := .next (s.regrowServe tile)

/-- REGROW_LAUNCH_COMPLETE (R326). -/
def execRegrowLaunchComplete (tile : Nat) (s : State) : Out := .next (s.regrowComplete tile)

end Sys2Proof.Machine
end

