-- ==== Sys2Proof/Machine/Dispatch.lean ====
section
/-! DEFINITION. One arm per row of the table of steps: its meaning. -/
namespace Sys2Proof.Machine

/-- What an instruction, or an event, does to the state. An encoded instruction is issued by the path that `State.cur`
names; an event happens if its conditions hold, and changes nothing otherwise. -/
def exec (i : Instr) (s : State) : Host.Outcome State Fault Refusal :=
  match i with
  | .add a0 a1 a2 => Sys2Proof.Machine.execAdd a0 a1 a2 s
  | .sub a0 a1 a2 => Sys2Proof.Machine.execSub a0 a1 a2 s
  | .minS a0 a1 a2 => Sys2Proof.Machine.execMinS a0 a1 a2 s
  | .minN a0 a1 a2 => Sys2Proof.Machine.execMinN a0 a1 a2 s
  | .maxS a0 a1 a2 => Sys2Proof.Machine.execMaxS a0 a1 a2 s
  | .maxN a0 a1 a2 => Sys2Proof.Machine.execMaxN a0 a1 a2 s
  | .and a0 a1 a2 => Sys2Proof.Machine.execAnd a0 a1 a2 s
  | .or a0 a1 a2 => Sys2Proof.Machine.execOr a0 a1 a2 s
  | .xor a0 a1 a2 => Sys2Proof.Machine.execXor a0 a1 a2 s
  | .andn a0 a1 a2 => Sys2Proof.Machine.execAndn a0 a1 a2 s
  | .shl a0 a1 a2 => Sys2Proof.Machine.execShl a0 a1 a2 s
  | .shr a0 a1 a2 => Sys2Proof.Machine.execShr a0 a1 a2 s
  | .sar a0 a1 a2 => Sys2Proof.Machine.execSar a0 a1 a2 s
  | .rotl a0 a1 a2 => Sys2Proof.Machine.execRotl a0 a1 a2 s
  | .adds a0 a1 a2 => Sys2Proof.Machine.execAdds a0 a1 a2 s
  | .subs a0 a1 a2 => Sys2Proof.Machine.execSubs a0 a1 a2 s
  | .absd a0 a1 a2 => Sys2Proof.Machine.execAbsd a0 a1 a2 s
  | .addW a0 a1 a2 => Sys2Proof.Machine.execAddW a0 a1 a2 s
  | .subW a0 a1 a2 => Sys2Proof.Machine.execSubW a0 a1 a2 s
  | .shlW a0 a1 a2 => Sys2Proof.Machine.execShlW a0 a1 a2 s
  | .shrW a0 a1 a2 => Sys2Proof.Machine.execShrW a0 a1 a2 s
  | .mov a0 a1 => Sys2Proof.Machine.execMov a0 a1 s
  | .mul a0 a1 a2 => Sys2Proof.Machine.execMul a0 a1 a2 s
  | .mulhS a0 a1 a2 => Sys2Proof.Machine.execMulhS a0 a1 a2 s
  | .mulhN a0 a1 a2 => Sys2Proof.Machine.execMulhN a0 a1 a2 s
  | .mulW a0 a1 a2 => Sys2Proof.Machine.execMulW a0 a1 a2 s
  | .mad a0 a1 a2 => Sys2Proof.Machine.execMad a0 a1 a2 s
  | .divS a0 a1 a2 => Sys2Proof.Machine.execDivS a0 a1 a2 s
  | .divN a0 a1 a2 => Sys2Proof.Machine.execDivN a0 a1 a2 s
  | .remS a0 a1 a2 => Sys2Proof.Machine.execRemS a0 a1 a2 s
  | .remN a0 a1 a2 => Sys2Proof.Machine.execRemN a0 a1 a2 s
  | .eq a0 a1 a2 => Sys2Proof.Machine.execEq a0 a1 a2 s
  | .ne a0 a1 a2 => Sys2Proof.Machine.execNe a0 a1 a2 s
  | .ltS a0 a1 a2 => Sys2Proof.Machine.execLtS a0 a1 a2 s
  | .leS a0 a1 a2 => Sys2Proof.Machine.execLeS a0 a1 a2 s
  | .ltN a0 a1 a2 => Sys2Proof.Machine.execLtN a0 a1 a2 s
  | .leN a0 a1 a2 => Sys2Proof.Machine.execLeN a0 a1 a2 s
  | .tst a0 a1 a2 => Sys2Proof.Machine.execTst a0 a1 a2 s
  | .tstz a0 a1 a2 => Sys2Proof.Machine.execTstz a0 a1 a2 s
  | .popc a0 a1 => Sys2Proof.Machine.execPopc a0 a1 s
  | .clz a0 a1 => Sys2Proof.Machine.execClz a0 a1 s
  | .ctz a0 a1 => Sys2Proof.Machine.execCtz a0 a1 s
  | .brev a0 a1 => Sys2Proof.Machine.execBrev a0 a1 s
  | .bfeS a0 a1 a2 => Sys2Proof.Machine.execBfeS a0 a1 a2 s
  | .bfeN a0 a1 a2 => Sys2Proof.Machine.execBfeN a0 a1 a2 s
  | .bfi a0 a1 a2 => Sys2Proof.Machine.execBfi a0 a1 a2 s
  | .permb a0 a1 a2 => Sys2Proof.Machine.execPermb a0 a1 a2 s
  | .sel a0 a1 a2 a3 => Sys2Proof.Machine.execSel a0 a1 a2 a3 s
  | .pand a0 a1 a2 => Sys2Proof.Machine.execPand a0 a1 a2 s
  | .por a0 a1 a2 => Sys2Proof.Machine.execPor a0 a1 a2 s
  | .pxor a0 a1 a2 => Sys2Proof.Machine.execPxor a0 a1 a2 s
  | .pandn a0 a1 a2 => Sys2Proof.Machine.execPandn a0 a1 a2 s
  | .p2s a0 a1 => Sys2Proof.Machine.execP2s a0 a1 s
  | .s2p a0 a1 => Sys2Proof.Machine.execS2p a0 a1 s
  | .dmac2Ss a0 a1 a2 => Sys2Proof.Machine.execDmac2Ss a0 a1 a2 s
  | .dmac2 a0 a1 a2 => Sys2Proof.Machine.execDmac2 a0 a1 a2 s
  | .add2S a0 a1 a2 => Sys2Proof.Machine.execAdd2S a0 a1 a2 s
  | .sub2S a0 a1 a2 => Sys2Proof.Machine.execSub2S a0 a1 a2 s
  | .mul2Q15 a0 a1 a2 => Sys2Proof.Machine.execMul2Q15 a0 a1 a2 s
  | .shrr a0 a1 a2 => Sys2Proof.Machine.execShrr a0 a1 a2 s
  | .pack2S a0 a1 a2 => Sys2Proof.Machine.execPack2S a0 a1 a2 s
  | .unpk2 a0 a1 => Sys2Proof.Machine.execUnpk2 a0 a1 s
  | .addi a0 a1 a2 => Sys2Proof.Machine.execAddi a0 a1 a2 s
  | .andi a0 a1 a2 => Sys2Proof.Machine.execAndi a0 a1 a2 s
  | .ori a0 a1 a2 => Sys2Proof.Machine.execOri a0 a1 a2 s
  | .xori a0 a1 a2 => Sys2Proof.Machine.execXori a0 a1 a2 s
  | .shli a0 a1 a2 => Sys2Proof.Machine.execShli a0 a1 a2 s
  | .shri a0 a1 a2 => Sys2Proof.Machine.execShri a0 a1 a2 s
  | .sari a0 a1 a2 => Sys2Proof.Machine.execSari a0 a1 a2 s
  | .movi a0 a1 => Sys2Proof.Machine.execMovi a0 a1 s
  | .fadd a0 a1 a2 a3 => Sys2Proof.Machine.execFadd a0 a1 a2 a3 s
  | .fsub a0 a1 a2 a3 => Sys2Proof.Machine.execFsub a0 a1 a2 a3 s
  | .fmul a0 a1 a2 a3 => Sys2Proof.Machine.execFmul a0 a1 a2 a3 s
  | .fdiv a0 a1 a2 a3 => Sys2Proof.Machine.execFdiv a0 a1 a2 a3 s
  | .fma a0 a1 a2 a3 => Sys2Proof.Machine.execFma a0 a1 a2 a3 s
  | .fms a0 a1 a2 a3 => Sys2Proof.Machine.execFms a0 a1 a2 a3 s
  | .fnma a0 a1 a2 a3 => Sys2Proof.Machine.execFnma a0 a1 a2 a3 s
  | .hadd2 a0 a1 a2 a3 => Sys2Proof.Machine.execHadd2 a0 a1 a2 a3 s
  | .hmul2 a0 a1 a2 a3 => Sys2Proof.Machine.execHmul2 a0 a1 a2 a3 s
  | .hfma2 a0 a1 a2 a3 => Sys2Proof.Machine.execHfma2 a0 a1 a2 a3 s
  | .badd2 a0 a1 a2 a3 => Sys2Proof.Machine.execBadd2 a0 a1 a2 a3 s
  | .bmul2 a0 a1 a2 a3 => Sys2Proof.Machine.execBmul2 a0 a1 a2 a3 s
  | .bfma2 a0 a1 a2 a3 => Sys2Proof.Machine.execBfma2 a0 a1 a2 a3 s
  | .fmin a0 a1 a2 => Sys2Proof.Machine.execFmin a0 a1 a2 s
  | .fmax a0 a1 a2 => Sys2Proof.Machine.execFmax a0 a1 a2 s
  | .fminNan a0 a1 a2 => Sys2Proof.Machine.execFminNan a0 a1 a2 s
  | .fmaxNan a0 a1 a2 => Sys2Proof.Machine.execFmaxNan a0 a1 a2 s
  | .fabs a0 a1 => Sys2Proof.Machine.execFabs a0 a1 s
  | .fneg a0 a1 => Sys2Proof.Machine.execFneg a0 a1 s
  | .fclass a0 a1 => Sys2Proof.Machine.execFclass a0 a1 s
  | .fcmpEq a0 a1 a2 => Sys2Proof.Machine.execFcmpEq a0 a1 a2 s
  | .fcmpNe a0 a1 a2 => Sys2Proof.Machine.execFcmpNe a0 a1 a2 s
  | .fcmpLt a0 a1 a2 => Sys2Proof.Machine.execFcmpLt a0 a1 a2 s
  | .fcmpLe a0 a1 a2 => Sys2Proof.Machine.execFcmpLe a0 a1 a2 s
  | .fcmpUn a0 a1 a2 => Sys2Proof.Machine.execFcmpUn a0 a1 a2 s
  | .hmin2 a0 a1 a2 => Sys2Proof.Machine.execHmin2 a0 a1 a2 s
  | .hmax2 a0 a1 a2 => Sys2Proof.Machine.execHmax2 a0 a1 a2 s
  | .bmin2 a0 a1 a2 => Sys2Proof.Machine.execBmin2 a0 a1 a2 s
  | .bmax2 a0 a1 a2 => Sys2Proof.Machine.execBmax2 a0 a1 a2 s
  | .rcp a0 a1 => Sys2Proof.Machine.execRcp a0 a1 s
  | .rsq a0 a1 => Sys2Proof.Machine.execRsq a0 a1 s
  | .sqrt a0 a1 => Sys2Proof.Machine.execSqrt a0 a1 s
  | .exp2 a0 a1 => Sys2Proof.Machine.execExp2 a0 a1 s
  | .log2 a0 a1 => Sys2Proof.Machine.execLog2 a0 a1 s
  | .sinpi a0 a1 => Sys2Proof.Machine.execSinpi a0 a1 s
  | .cospi a0 a1 => Sys2Proof.Machine.execCospi a0 a1 s
  | .tanh a0 a1 => Sys2Proof.Machine.execTanh a0 a1 s
  | .sigm a0 a1 => Sys2Proof.Machine.execSigm a0 a1 s
  | .cvt a0 a1 a2 a3 a4 => Sys2Proof.Machine.execCvt a0 a1 a2 a3 a4 s
  | .cvtPk a0 a1 a2 a3 a4 => Sys2Proof.Machine.execCvtPk a0 a1 a2 a3 a4 s
  | .cvtSat a0 a1 a2 a3 a4 => Sys2Proof.Machine.execCvtSat a0 a1 a2 a3 a4 s
  | .cvtXi a0 a1 a2 a3 a4 => Sys2Proof.Machine.execCvtXi a0 a1 a2 a3 a4 s
  | .cvtq a0 a1 a2 => Sys2Proof.Machine.execCvtq a0 a1 a2 s
  | .mxscale a0 a1 a2 => Sys2Proof.Machine.execMxscale a0 a1 a2 s
  | .mxpack a0 a1 a2 => Sys2Proof.Machine.execMxpack a0 a1 a2 s
  | .slideup a0 a1 a2 => Sys2Proof.Machine.execSlideup a0 a1 a2 s
  | .slidedn a0 a1 a2 => Sys2Proof.Machine.execSlidedn a0 a1 a2 s
  | .shuf a0 a1 a2 => Sys2Proof.Machine.execShuf a0 a1 a2 s
  | .xshuf a0 a1 a2 => Sys2Proof.Machine.execXshuf a0 a1 a2 s
  | .bcast a0 a1 a2 => Sys2Proof.Machine.execBcast a0 a1 a2 s
  | .rot a0 a1 a2 => Sys2Proof.Machine.execRot a0 a1 a2 s
  | .vtos a0 a1 a2 => Sys2Proof.Machine.execVtos a0 a1 a2 s
  | .first a0 a1 => Sys2Proof.Machine.execFirst a0 a1 s
  | .radd a0 a1 => Sys2Proof.Machine.execRadd a0 a1 s
  | .rminS a0 a1 => Sys2Proof.Machine.execRminS a0 a1 s
  | .rmaxS a0 a1 => Sys2Proof.Machine.execRmaxS a0 a1 s
  | .fradd a0 a1 => Sys2Proof.Machine.execFradd a0 a1 s
  | .frmax a0 a1 => Sys2Proof.Machine.execFrmax a0 a1 s
  | .ballot a0 a1 => Sys2Proof.Machine.execBallot a0 a1 s
  | .anyOf a0 a1 => Sys2Proof.Machine.execAnyOf a0 a1 s
  | .allOf a0 a1 => Sys2Proof.Machine.execAllOf a0 a1 s
  | .pscanEx a0 a1 => Sys2Proof.Machine.execPscanEx a0 a1 s
  | .pscanIn a0 a1 => Sys2Proof.Machine.execPscanIn a0 a1 s
  | .matchEq a0 a1 => Sys2Proof.Machine.execMatchEq a0 a1 s
  | .dadd a0 a1 a2 a3 => Sys2Proof.Machine.execDadd a0 a1 a2 a3 s
  | .dsub a0 a1 a2 a3 => Sys2Proof.Machine.execDsub a0 a1 a2 a3 s
  | .dmul a0 a1 a2 a3 => Sys2Proof.Machine.execDmul a0 a1 a2 a3 s
  | .ddiv a0 a1 a2 a3 => Sys2Proof.Machine.execDdiv a0 a1 a2 a3 s
  | .dfma a0 a1 a2 a3 => Sys2Proof.Machine.execDfma a0 a1 a2 a3 s
  | .dfms a0 a1 a2 a3 => Sys2Proof.Machine.execDfms a0 a1 a2 a3 s
  | .dfnma a0 a1 a2 a3 => Sys2Proof.Machine.execDfnma a0 a1 a2 a3 s
  | .chain a0 a1 a2 a3 => Sys2Proof.Machine.execChain a0 a1 a2 a3 s
  | .ldB a0 a1 a2 a3 => Sys2Proof.Machine.execLdB a0 a1 a2 a3 s
  | .ldSb a0 a1 a2 a3 => Sys2Proof.Machine.execLdSb a0 a1 a2 a3 s
  | .ldH a0 a1 a2 a3 => Sys2Proof.Machine.execLdH a0 a1 a2 a3 s
  | .ldSh a0 a1 a2 a3 => Sys2Proof.Machine.execLdSh a0 a1 a2 a3 s
  | .ldW a0 a1 a2 a3 => Sys2Proof.Machine.execLdW a0 a1 a2 a3 s
  | .ldD a0 a1 a2 a3 => Sys2Proof.Machine.execLdD a0 a1 a2 a3 s
  | .ldQ a0 a1 a2 a3 => Sys2Proof.Machine.execLdQ a0 a1 a2 a3 s
  | .stB a0 a1 a2 a3 => Sys2Proof.Machine.execStB a0 a1 a2 a3 s
  | .stH a0 a1 a2 a3 => Sys2Proof.Machine.execStH a0 a1 a2 a3 s
  | .stW a0 a1 a2 a3 => Sys2Proof.Machine.execStW a0 a1 a2 a3 s
  | .stD a0 a1 a2 a3 => Sys2Proof.Machine.execStD a0 a1 a2 a3 s
  | .stQ a0 a1 a2 a3 => Sys2Proof.Machine.execStQ a0 a1 a2 a3 s
  | .ldsW a0 a1 a2 => Sys2Proof.Machine.execLdsW a0 a1 a2 s
  | .ldsD a0 a1 a2 => Sys2Proof.Machine.execLdsD a0 a1 a2 s
  | .ldsQ a0 a1 a2 => Sys2Proof.Machine.execLdsQ a0 a1 a2 s
  | .ldsH a0 a1 a2 => Sys2Proof.Machine.execLdsH a0 a1 a2 s
  | .stsW a0 a1 a2 => Sys2Proof.Machine.execStsW a0 a1 a2 s
  | .stsD a0 a1 a2 => Sys2Proof.Machine.execStsD a0 a1 a2 s
  | .stsQ a0 a1 a2 => Sys2Proof.Machine.execStsQ a0 a1 a2 s
  | .stsH a0 a1 a2 => Sys2Proof.Machine.execStsH a0 a1 a2 s
  | .ldc a0 a1 a2 a3 => Sys2Proof.Machine.execLdc a0 a1 a2 a3 s
  | .stc a0 a1 a2 a3 => Sys2Proof.Machine.execStc a0 a1 a2 a3 s
  | .ldcL a0 a1 a2 => Sys2Proof.Machine.execLdcL a0 a1 a2 s
  | .stcL a0 a1 a2 => Sys2Proof.Machine.execStcL a0 a1 a2 s
  | .aadd a0 a1 a2 a3 => Sys2Proof.Machine.execAadd a0 a1 a2 a3 s
  | .aminS a0 a1 a2 a3 => Sys2Proof.Machine.execAminS a0 a1 a2 a3 s
  | .amaxS a0 a1 a2 a3 => Sys2Proof.Machine.execAmaxS a0 a1 a2 a3 s
  | .aminN a0 a1 a2 a3 => Sys2Proof.Machine.execAminN a0 a1 a2 a3 s
  | .amaxN a0 a1 a2 a3 => Sys2Proof.Machine.execAmaxN a0 a1 a2 a3 s
  | .aand a0 a1 a2 a3 => Sys2Proof.Machine.execAand a0 a1 a2 a3 s
  | .aor a0 a1 a2 a3 => Sys2Proof.Machine.execAor a0 a1 a2 a3 s
  | .axor a0 a1 a2 a3 => Sys2Proof.Machine.execAxor a0 a1 a2 a3 s
  | .axchg a0 a1 a2 a3 => Sys2Proof.Machine.execAxchg a0 a1 a2 a3 s
  | .acas a0 a1 a2 a3 => Sys2Proof.Machine.execAcas a0 a1 a2 a3 s
  | .afadd a0 a1 a2 a3 => Sys2Proof.Machine.execAfadd a0 a1 a2 a3 s
  | .abfadd2 a0 a1 a2 a3 => Sys2Proof.Machine.execAbfadd2 a0 a1 a2 a3 s
  | .axchgW a0 a1 a2 a3 => Sys2Proof.Machine.execAxchgW a0 a1 a2 a3 s
  | .acasW a0 a1 a2 a3 => Sys2Proof.Machine.execAcasW a0 a1 a2 a3 s
  | .rdadd a0 a1 a2 a3 => Sys2Proof.Machine.execRdadd a0 a1 a2 a3 s
  | .rdmin a0 a1 a2 a3 => Sys2Proof.Machine.execRdmin a0 a1 a2 a3 s
  | .rdmax a0 a1 a2 a3 => Sys2Proof.Machine.execRdmax a0 a1 a2 a3 s
  | .rdfadd a0 a1 a2 a3 => Sys2Proof.Machine.execRdfadd a0 a1 a2 a3 s
  | .rdbfadd2 a0 a1 a2 a3 => Sys2Proof.Machine.execRdbfadd2 a0 a1 a2 a3 s
  | .rdinc a0 a1 a2 => Sys2Proof.Machine.execRdinc a0 a1 a2 s
  | .tbeg => Sys2Proof.Machine.execTbeg s
  | .tend a0 => Sys2Proof.Machine.execTend a0 s
  | .tabt => Sys2Proof.Machine.execTabt s
  | .ttest a0 => Sys2Proof.Machine.execTtest a0 s
  | .fence a0 a1 => Sys2Proof.Machine.execFence a0 a1 s
  | .barG => Sys2Proof.Machine.execBarG s
  | .barL => Sys2Proof.Machine.execBarL s
  | .barLYield => Sys2Proof.Machine.execBarLYield s
  | .waitph a0 a1 => Sys2Proof.Machine.execWaitph a0 a1 s
  | .tlwait a0 a1 => Sys2Proof.Machine.execTlwait a0 a1 s
  | .tlwaitW a0 a1 => Sys2Proof.Machine.execTlwaitW a0 a1 s
  | .waita a0 a1 => Sys2Proof.Machine.execWaita a0 a1 s
  | .waitaGlobal a0 a1 a2 => Sys2Proof.Machine.execWaitaGlobal a0 a1 a2 s
  | .mfence a0 => Sys2Proof.Machine.execMfence a0 s
  | .mwait a0 => Sys2Proof.Machine.execMwait a0 s
  | .learly => Sys2Proof.Machine.execLearly s
  | .lwaitp => Sys2Proof.Machine.execLwaitp s
  | .yield => Sys2Proof.Machine.execYield s
  | .tlread a0 a1 => Sys2Proof.Machine.execTlread a0 a1 s
  | .copy a0 a1 a2 => Sys2Proof.Machine.execCopy a0 a1 a2 s
  | .copyg a0 a1 a2 => Sys2Proof.Machine.execCopyg a0 a1 a2 s
  | .copys a0 a1 a2 => Sys2Proof.Machine.execCopys a0 a1 a2 s
  | .tilest a0 a1 a2 => Sys2Proof.Machine.execTilest a0 a1 a2 s
  | .tileld a0 a1 a2 => Sys2Proof.Machine.execTileld a0 a1 a2 s
  | .regroup a0 a1 a2 => Sys2Proof.Machine.execRegroup a0 a1 a2 s
  | .loftld a0 a1 a2 => Sys2Proof.Machine.execLoftld a0 a1 a2 s
  | .loftev a0 a1 a2 => Sys2Proof.Machine.execLoftev a0 a1 a2 s
  | .coll a0 a1 a2 => Sys2Proof.Machine.execColl a0 a1 a2 s
  | .mma a0 a1 a2 a3 => Sys2Proof.Machine.execMma a0 a1 a2 a3 s
  | .mmaZ a0 a1 a2 a3 => Sys2Proof.Machine.execMmaZ a0 a1 a2 a3 s
  | .mmaT a0 a1 a2 a3 => Sys2Proof.Machine.execMmaT a0 a1 a2 a3 s
  | .mmas a0 a1 a2 a3 => Sys2Proof.Machine.execMmas a0 a1 a2 a3 s
  | .mmax a0 a1 a2 a3 => Sys2Proof.Machine.execMmax a0 a1 a2 a3 s
  | .cres a0 a1 => Sys2Proof.Machine.execCres a0 a1 s
  | .crel a0 => Sys2Proof.Machine.execCrel a0 s
  | .cld a0 a1 a2 => Sys2Proof.Machine.execCld a0 a1 a2 s
  | .cst a0 a1 a2 => Sys2Proof.Machine.execCst a0 a1 a2 s
  | .czero a0 => Sys2Proof.Machine.execCzero a0 s
  | .mrow a0 => Sys2Proof.Machine.execMrow a0 s
  | .mcol a0 => Sys2Proof.Machine.execMcol a0 s
  | .drain a0 a1 a2 => Sys2Proof.Machine.execDrain a0 a1 a2 s
  | .sieveRd a0 a1 => Sys2Proof.Machine.execSieveRd a0 a1 s
  | .sieveClr => Sys2Proof.Machine.execSieveClr s
  | .sieveCfg a0 a1 => Sys2Proof.Machine.execSieveCfg a0 a1 s
  | .lhset a0 a1 => Sys2Proof.Machine.execLhset a0 a1 s
  | .lhsetRel a0 => Sys2Proof.Machine.execLhsetRel a0 s
  | .lhget a0 a1 => Sys2Proof.Machine.execLhget a0 a1 s
  | .lhpin a0 => Sys2Proof.Machine.execLhpin a0 s
  | .lhunpin a0 => Sys2Proof.Machine.execLhunpin a0 s
  | .tdesc a0 a1 => Sys2Proof.Machine.execTdesc a0 a1 s
  | .tdescRel a0 a1 => Sys2Proof.Machine.execTdescRel a0 a1 s
  | .recipe a0 a1 a2 => Sys2Proof.Machine.execRecipe a0 a1 a2 s
  | .tpin a0 a1 => Sys2Proof.Machine.execTpin a0 a1 s
  | .tunpin a0 a1 => Sys2Proof.Machine.execTunpin a0 a1 s
  | .tprobe a0 a1 => Sys2Proof.Machine.execTprobe a0 a1 s
  | .tdrop a0 a1 => Sys2Proof.Machine.execTdrop a0 a1 s
  | .regrown => Sys2Proof.Machine.execRegrown s
  | .csetb a0 a1 a2 => Sys2Proof.Machine.execCsetb a0 a1 a2 s
  | .csetbx a0 a1 a2 => Sys2Proof.Machine.execCsetbx a0 a1 a2 s
  | .candp a0 a1 a2 => Sys2Proof.Machine.execCandp a0 a1 a2 s
  | .cinc a0 a1 a2 => Sys2Proof.Machine.execCinc a0 a1 a2 s
  | .cseta a0 a1 a2 => Sys2Proof.Machine.execCseta a0 a1 a2 s
  | .cgetb a0 a1 => Sys2Proof.Machine.execCgetb a0 a1 s
  | .cgetbCur a0 a1 => Sys2Proof.Machine.execCgetbCur a0 a1 s
  | .cgetl a0 a1 => Sys2Proof.Machine.execCgetl a0 a1 s
  | .cgetp a0 a1 => Sys2Proof.Machine.execCgetp a0 a1 s
  | .cgeto a0 a1 => Sys2Proof.Machine.execCgeto a0 a1 s
  | .cgett a0 a1 => Sys2Proof.Machine.execCgett a0 a1 s
  | .cmov a0 a1 => Sys2Proof.Machine.execCmov a0 a1 s
  | .cmovToLanes a0 a1 => Sys2Proof.Machine.execCmovToLanes a0 a1 s
  | .cmovFromLane a0 a1 => Sys2Proof.Machine.execCmovFromLane a0 a1 s
  | .cclr a0 => Sys2Proof.Machine.execCclr a0 s
  | .ctstsub a0 a1 a2 => Sys2Proof.Machine.execCtstsub a0 a1 a2 s
  | .cseal a0 a1 a2 => Sys2Proof.Machine.execCseal a0 a1 a2 s
  | .cunseal a0 a1 a2 => Sys2Proof.Machine.execCunseal a0 a1 a2 s
  | .cseale a0 a1 => Sys2Proof.Machine.execCseale a0 a1 s
  | .cinvoke a0 a1 => Sys2Proof.Machine.execCinvoke a0 a1 s
  | .send a0 a1 a2 => Sys2Proof.Machine.execSend a0 a1 a2 s
  | .recv a0 a1 => Sys2Proof.Machine.execRecv a0 a1 s
  | .callMsg a0 a1 a2 => Sys2Proof.Machine.execCallMsg a0 a1 a2 s
  | .reply a0 a1 a2 => Sys2Proof.Machine.execReply a0 a1 a2 s
  | .nbsend a0 a1 a2 => Sys2Proof.Machine.execNbsend a0 a1 a2 s
  | .signal a0 => Sys2Proof.Machine.execSignal a0 s
  | .waitn a0 a1 => Sys2Proof.Machine.execWaitn a0 a1 s
  | .spawn a0 a1 => Sys2Proof.Machine.execSpawn a0 a1 s
  | .join a0 a1 => Sys2Proof.Machine.execJoin a0 a1 s
  | .svc a0 a1 => Sys2Proof.Machine.execSvc a0 a1 s
  | .revoke a0 a1 => Sys2Proof.Machine.execRevoke a0 a1 s
  | .bra a0 => Sys2Proof.Machine.execBra a0 s
  | .brp a0 a1 => Sys2Proof.Machine.execBrp a0 a1 s
  | .brn a0 a1 => Sys2Proof.Machine.execBrn a0 a1 s
  | .brall a0 => Sys2Proof.Machine.execBrall a0 s
  | .brany a0 => Sys2Proof.Machine.execBrany a0 s
  | .brnone a0 => Sys2Proof.Machine.execBrnone a0 s
  | .branchCall a0 => Sys2Proof.Machine.execBranchCall a0 s
  | .recMark a0 => Sys2Proof.Machine.execRecMark a0 s
  | .path a0 a1 => Sys2Proof.Machine.execPath a0 a1 s
  | .pyield => Sys2Proof.Machine.execPyield s
  | .ret a0 => Sys2Proof.Machine.execRet a0 s
  | .jmpr a0 => Sys2Proof.Machine.execJmpr a0 s
  | .callr a0 a1 => Sys2Proof.Machine.execCallr a0 a1 s
  | .srd a0 a1 => Sys2Proof.Machine.execSrd a0 a1 s
  | .swr a0 a1 => Sys2Proof.Machine.execSwr a0 a1 s
  | .xretRetry => Sys2Proof.Machine.execXretRetry s
  | .xretSkip => Sys2Proof.Machine.execXretSkip s
  | .nop => Sys2Proof.Machine.execNop s
  | .exit => Sys2Proof.Machine.execExit s
  | .brk a0 => Sys2Proof.Machine.execBrk a0 s
  | .clock a0 => Sys2Proof.Machine.execClock a0 s
  | .role a0 => Sys2Proof.Machine.execRole a0 s
  | .sysrd a0 a1 => Sys2Proof.Machine.execSysrd a0 a1 s
  | .syswr a0 a1 a2 => Sys2Proof.Machine.execSyswr a0 a1 a2 s
  | .tlbinv a0 a1 => Sys2Proof.Machine.execTlbinv a0 a1 s
  | .tlbinva a0 => Sys2Proof.Machine.execTlbinva a0 s
  | .tlbinvaAll => Sys2Proof.Machine.execTlbinvaAll s
  | .ptwsync => Sys2Proof.Machine.execPtwsync s
  | .eret a0 a1 a2 => Sys2Proof.Machine.execEret a0 a1 a2 s
  | .haltctx a0 a1 => Sys2Proof.Machine.execHaltctx a0 a1 s
  | .haltctxSave a0 a1 => Sys2Proof.Machine.execHaltctxSave a0 a1 s
  | .resumectx a0 a1 a2 => Sys2Proof.Machine.execResumectx a0 a1 a2 s
  | .stoprd a0 a1 => Sys2Proof.Machine.execStoprd a0 a1 s
  | .qdrain a0 a1 => Sys2Proof.Machine.execQdrain a0 a1 s
  | .objnew a0 a1 a2 => Sys2Proof.Machine.execObjnew a0 a1 a2 s
  | .pload a0 a1 a2 => Sys2Proof.Machine.execPload a0 a1 a2 s
  | .pswap a0 a1 => Sys2Proof.Machine.execPswap a0 a1 s
  | .pstat a0 a1 a2 => Sys2Proof.Machine.execPstat a0 a1 a2 s
  | .imm a0 => Sys2Proof.Machine.execImm a0 s
  | .guard a0 a1 => Sys2Proof.Machine.execGuard a0 a1 s
  | .sched a0 a1 a2 => Sys2Proof.Machine.execSched a0 a1 a2 s
  | .rmode a0 a1 => Sys2Proof.Machine.execRmode a0 a1 s
  | .chainop a0 a1 => Sys2Proof.Machine.execChainop a0 a1 s
  | .offhi a0 => Sys2Proof.Machine.execOffhi a0 s
  | .matx a0 a1 a2 => Sys2Proof.Machine.execMatx a0 a1 a2 s
  | .unitStop a0 => Sys2Proof.Machine.execUnitStop a0 s
  | .faultDecision a0 => Sys2Proof.Machine.execFaultDecision a0 s
  | .dispatchDecision a0 => Sys2Proof.Machine.execDispatchDecision a0 s
  | .pressureDecision a0 => Sys2Proof.Machine.execPressureDecision a0 s
  | .stepBudgetOverrun a0 => Sys2Proof.Machine.execStepBudgetOverrun a0 s
  | .kill a0 => Sys2Proof.Machine.execKill a0 s
  | .resume a0 => Sys2Proof.Machine.execResume a0 s
  | .notify a0 => Sys2Proof.Machine.execNotify a0 s
  | .watchdogHang a0 a1 => Sys2Proof.Machine.execWatchdogHang a0 a1 s
  | .watchdogDeadlock a0 => Sys2Proof.Machine.execWatchdogDeadlock a0 s
  | .eccNoConsumer a0 => Sys2Proof.Machine.execEccNoConsumer a0 s
  | .forcedSave a0 => Sys2Proof.Machine.execForcedSave a0 s
  | .reconvergenceHalt a0 => Sys2Proof.Machine.execReconvergenceHalt a0 s
  | .coreHandover a0 => Sys2Proof.Machine.execCoreHandover a0 s
  | .quarantineLanding a0 => Sys2Proof.Machine.execQuarantineLanding a0 s
  | .contextRestore a0 a1 a2 => Sys2Proof.Machine.execContextRestore a0 a1 a2 s
  | .launchReady a0 => Sys2Proof.Machine.execLaunchReady a0 s
  | .gangDispatch a0 => Sys2Proof.Machine.execGangDispatch a0 s
  | .phaseStart a0 => Sys2Proof.Machine.execPhaseStart a0 s
  | .launchCompletion a0 => Sys2Proof.Machine.execLaunchCompletion a0 s
  | .furrowLaunchPacket => Sys2Proof.Machine.execFurrowLaunchPacket s
  | .arrivalUpdate a0 => Sys2Proof.Machine.execArrivalUpdate a0 s
  | .engineCommandComplete a0 => Sys2Proof.Machine.execEngineCommandComplete a0 s
  | .fusedSetClose a0 => Sys2Proof.Machine.execFusedSetClose a0 s
  | .pass a0 => Sys2Proof.Machine.execPass a0 s
  | .cribResultWrite a0 => Sys2Proof.Machine.execCribResultWrite a0 s
  | .batchEnd a0 => Sys2Proof.Machine.execBatchEnd a0 s
  | .regrowServe a0 => Sys2Proof.Machine.execRegrowServe a0 s
  | .regrowLaunchComplete a0 => Sys2Proof.Machine.execRegrowLaunchComplete a0 s
  | .bucketRefill a0 a1 => Sys2Proof.Machine.execBucketRefill a0 a1 s
  | .arbitrationRound a0 a1 => Sys2Proof.Machine.execArbitrationRound a0 a1 s
  | .epochBegin a0 => Sys2Proof.Machine.execEpochBegin a0 s
  | .epochComplete a0 => Sys2Proof.Machine.execEpochComplete a0 s
  | .markRelease a0 => Sys2Proof.Machine.execMarkRelease a0 s
  | .gleanerRequestComplete a0 => Sys2Proof.Machine.execGleanerRequestComplete a0 s
  | .ageingSwap a0 => Sys2Proof.Machine.execAgeingSwap a0 s
  | .kernelReentry a0 => Sys2Proof.Machine.execKernelReentry a0 s
  | .policySlotSwap a0 => Sys2Proof.Machine.execPolicySlotSwap a0 s
  | .frameReceive => Sys2Proof.Machine.execFrameReceive s
  | .linkDown a0 => Sys2Proof.Machine.execLinkDown a0 s
  | .peerTimeout a0 => Sys2Proof.Machine.execPeerTimeout a0 s
  | .keyReplace a0 => Sys2Proof.Machine.execKeyReplace a0 s
  | .hostSlotRequest => Sys2Proof.Machine.execHostSlotRequest s
  | .interruptSourceFire a0 => Sys2Proof.Machine.execInterruptSourceFire a0 s
  | .partdef => Sys2Proof.Machine.execPartdef s
  | .vdcreate => Sys2Proof.Machine.execVdcreate s
  | .claim => Sys2Proof.Machine.execClaim s
  | .measure => Sys2Proof.Machine.execMeasure s
  | .extend => Sys2Proof.Machine.execExtend s
  | .vfreset => Sys2Proof.Machine.execVfreset s
  | .functionLevelReset a0 => Sys2Proof.Machine.execFunctionLevelReset a0 s
  | .exportVd => Sys2Proof.Machine.execExportVd s
  | .importVd => Sys2Proof.Machine.execImportVd s
  | .releaseRequest a0 a1 => Sys2Proof.Machine.execReleaseRequest a0 a1 s
  | .confirm a0 => Sys2Proof.Machine.execConfirm a0 s
  | .erase => Sys2Proof.Machine.execErase s
  | .abandon => Sys2Proof.Machine.execAbandon s
  | .admitVd => Sys2Proof.Machine.execAdmit s
  | .pageSet => Sys2Proof.Machine.execPageSet s
  | .pageClear => Sys2Proof.Machine.execPageClear s
  | .glreqWrite a0 a1 => Sys2Proof.Machine.execGlreqWrite a0 a1 s
  | .bcfgWrite a0 a1 a2 a3 => Sys2Proof.Machine.execBcfgWrite a0 a1 a2 a3 s
  | .svclendWrite a0 a1 => Sys2Proof.Machine.execSvclendWrite a0 a1 s
  | .rowRetire a0 a1 a2 => Sys2Proof.Machine.execRowRetire a0 a1 a2 s
  | .channelRetire a0 a1 => Sys2Proof.Machine.execChannelRetire a0 a1 s
  | .diestateOffline a0 => Sys2Proof.Machine.execDiestateOffline a0 s
  | .diestateOnline a0 => Sys2Proof.Machine.execDiestateOnline a0 s
  | .dieTestComplete a0 => Sys2Proof.Machine.execDieTestComplete a0 s
  | .alarmClear a0 a1 => Sys2Proof.Machine.execAlarmClear a0 a1 s
  | .alarmRaise a0 a1 => Sys2Proof.Machine.execAlarmRaise a0 a1 s
  | .fwctlGo => Sys2Proof.Machine.execFwctlGo s
  | .fwSwap => Sys2Proof.Machine.execFwSwap s
  | .wearRecompute a0 => Sys2Proof.Machine.execWearRecompute a0 s
  | .loftRowRemap a0 => Sys2Proof.Machine.execLoftRowRemap a0 s
  | .powerOn => Sys2Proof.Machine.execPowerOn s
  | .powerLoss => Sys2Proof.Machine.execPowerLoss s
  | .illegalEncoding a0 => Sys2Proof.Machine.execIllegalEncoding a0 s
  | .instructionFetchFault => Sys2Proof.Machine.execInstructionFetchFault s
  | .engineFault a0 => Sys2Proof.Machine.execEngineFault a0 s
  | .moduleLeavesDomain a0 => Sys2Proof.Machine.execModuleLeavesDomain a0 s
  | .alarmConditionGone a0 a1 => Sys2Proof.Machine.execAlarmConditionGone a0 a1 s

end Sys2Proof.Machine
end

