-- ==== Sys2Proof/Machine/Stacks.lean ====
section
/-! DEFINITION. Path-stack memory (R39 to R41, R325, R368): the layout of its records, and the bytes that a step gives
them (notes/assumptions/13.md). -/
namespace Sys2Proof.Machine

/-- A PC that may be NONE (R40, R41). -/
def pcBits (p : Option DWord) : DWord := p.getD (-1#64)

/-- An index of a record that may be NONE (R40, R41). -/
def linkBits (n : Option Nat) : BitVec 16 := match n with
  | some i => BitVec.ofNat 16 i
  | none => 0xFFFF#16

/-- The 32 bytes of a record: PC, MASK, NRPC, 0b01, BARW, GEN, HND, LINK of a deferred one (R40); JPC, TOTAL, ARRIVED,
0b10, HND, LINK of a join (R41). The reserved bits are 0. -/
def Rec.bits : Rec → BitVec 256
  | .deferred pc mask nrpc bar hnd link =>
      pc ++ mask ++ pcBits nrpc ++ 1#2 ++ (BitVec.ofBool bar.isSome ++ BitVec.ofNat 1 (bar.getD 0) ++ BitVec.ofBool hnd)
        ++ 0#43 ++ linkBits link
  | .join jpc total arrived hnd link =>
      pcBits jpc ++ total ++ arrived ++ 2#2 ++ BitVec.ofBool hnd ++ 0#45 ++ linkBits link

/-- The keys of a record's bytes: in the path stack that a launch's group holds of PATHMEM (R368), reached in the
launch's address space, or in the area of its core's regrow reserve (R325), which has keys of its own. None where the
memory is not reached. -/
def State.recKeys (s : State) (u : Nat) (g : Grp) (i : Nat) : List Nat :=
  match g.launch.bind (fun n => find s.launches n) with
  | some l =>
      match locate s l.ag { w := true } (l.pathBase + 32 * (g.pathNo * l.kern.pathstack + i)) 32 with
      | .ok pl => pl.keys
      | .error _ => []
  | none => (List.range 32).map (fun b => 2 ^ 59 + 512 * unitCore u + 32 * i + b)

/-- The records that a group had when it already held this path stack. -/
def State.oldStack (old : State) (u : Nat) (g : Grp) : Sparse Rec :=
  match find old.units u with
  | some o => if o.launch = g.launch ∧ o.gang = g.gang ∧ o.pathNo = g.pathNo then o.stack else []
  | none => []

/-- One index of a path stack: a record is written where it is new or changed; of a freed one KIND becomes 0b00 and the
other bits stay (R39). -/
def State.syncRec (s : State) (u : Nat) (g : Grp) (was now : Option Rec) (i : Nat) : State :=
  match now with
  | some r => if was = some r then s else s.wkeys (s.recKeys u g i) (leBytes r.bits.toNat 32)
  | none =>
      if was.isNone then s
      else match (s.recKeys u g i)[7]? with
        | some k => s.wkeys [k] [s.rb k &&& 0x3F#8]
        | none => s

/-- The path stack of one group. -/
def State.syncStack (s old : State) (u : Nat) (g : Grp) : State :=
  let was := old.oldStack u g
  if was = g.stack then s
  else ((was ++ g.stack).map (·.1)).eraseDups.foldl (fun t i => t.syncRec u g (find was i) (find g.stack i) i) s

/-- Groups that a step has ended, with the records that they had: those of a saved gang stay in PATHMEM (R444), and a killed
context's are left as they are. -/
def State.endedGrps (s old : State) : List (Nat × Grp) :=
  old.units.filter (fun e => (find s.units e.1).isNone && (e.2.gang.bind (fun n => find s.saved n)).isNone
    && (match e.2.ctx.bind (fun n => find s.ctxs n) with
      | some k => k.state != .dead
      | none => false))

/-- Every record of a group that has ended is freed (R39, R42). -/
def State.freeStack (s : State) (u : Nat) (g : Grp) : State :=
  g.stack.foldl (fun t e => t.syncRec u g (some e.2) none e.1) s

/-- Path-stack memory after a step from `old`: it holds every record the step made or changed, and of every record it
freed KIND 0b00 (R39). -/
def State.syncStacks (s old : State) : State :=
  (s.endedGrps old).foldl (fun t e => t.freeStack e.1 e.2) (s.units.foldl (fun t e => t.syncStack old e.1 e.2) s)

end Sys2Proof.Machine
end

