-- ==== Sys2Proof/Machine/Time.lean ====
section
/-! DEFINITION. Which path may issue, what an issue costs, and what passes with time: eligible runs (R383), hang counts
(R396) and deadlock counts (R397). -/
namespace Sys2Proof.Machine

/-- Has a timeline at a virtual address reached a value? It is translated anew each time (R424); where that fails, the
instruction executes again to fault. -/
def State.timelineAt (s : State) (u : Nat) (b : Bool) (g : Grp) (e : Nat × Nat) : Bool :=
  match s.keyOf (unitAg u b g) e.1 16 with
  | none => true
  | some k => decide (e.2 ≤ s.tlDone k)

/-- May a waiting instruction execute again now (R44, R80, R268, R397)? A party of an endpoint, a barrier or a batch is
released by its partner; an access that a closed link has discarded is never answered (notes/assumptions/91.md). -/
def readyWait (s : State) (u : Nat) (b : Bool) (g : Grp) : Wait → Bool
  | .timelines ps =>
      ps.all (s.timelineAt u b g)
        || (match g.launch.bind (fun n => find s.launches n) with
          | some l => l.aborted.isSome
          | none => false)
  | .notified id _ => noteWord s id != 0
  | .external | .internal | .other | .words _ _ _ | .launchBar _ | .performed _ _ | .marking _ => true
  | _ => false

/-- Must the group swap for age (R44)? -/
def ageingDue (s : State) (g : Grp) : Bool := g.ageDue (s.genOf g)

/-- The path that a group's turn issues from, with its slot: it is not stalled, it does not yield to others, its wait may
end, and a fresh instruction finds a token and wins its issue slot (R38, R178, R267, R382, R383, R398). -/
def State.choose (s : State) (u : Nat) (g : Grp) (b0 : Bool) : Option (Bool × Path) :=
  let b := s.slotOf g b0
  match g.slot b with
  | none => none
  | some p =>
      if p.part.isSome || decide (s.now < p.stall) || s.yields u g then none
      else match p.wait with
        | none => if s.issueClass u g = 3 || !(s.wins u g b) then none else some (b, p)
        | some w => if readyWait s u b g w then some (b, p) else none

/-- The issue begins: it is this path's, and a fresh instruction takes its slot and its token. -/
def State.begin_ (s : State) (u : Nat) (g : Grp) (b : Bool) (p : Path) : State :=
  { (if p.wait.isNone then (s.occupy u g b).chargeIssue u g else s) with cur := (u, b) }

/-- The fetch as the caches see it; a fetch from a tile that is not there waits for its regrow (R323, R413). -/
def State.fetched (s : State) (u : Nat) (g : Grp) (w : Word) (pl : Place) : Option State × State :=
  let t := s.touch (unitAg u s.cur.2 g) false pl
  match s.issuer w with
  | none => (none, t)
  | some x => ((x.gate s false [⟨x.low, pl⟩]).map (fun v => v.1.block u x.b v.2), t)

/-! Time. -/

/-- Will a context's own engine commands or launches raise an awaited timeline (R397)? -/
def State.ownTimeline (s : State) (ctx : Nat) (tl n : Nat) : Bool :=
  let cmds := (s.cmds.filter (fun c => c.2.tl == tl && !c.2.finished)).map (fun c => (c.2.ctx, c.2.seq))
  let ls := (s.launches.filter (fun l => !l.2.compl.isNull && s.keyOf l.2.ag l.2.compl.cursor 16 == some tl
    && (match l.2.state with
      | .done _ => false
      | _ => true))).map (fun l => (some l.2.ctx, l.2.cval))
  (cmds ++ ls).all (fun x => x.1 == some ctx) && (cmds ++ ls).any (fun x => decide (n ≤ x.2))

/-- What a wait is for the deadlock count of a context (R397): internal, external, or neither, which the table does not
list. -/
def State.waitClass (s : State) (ctx u : Nat) (b : Bool) (g : Grp) : Wait → Option Bool
  | .barrier _ | .launchBar _ | .internal | .marking _ => some true
  | .words _ global _ => some (!global)
  | .timelines ps => some (ps.all (fun e => s.timelineAt u b g e || (match s.keyOf (unitAg u b g) e.1 16 with
      | none => false
      | some k => s.ownTimeline ctx k e.2)))
  | .other | .lost | .performed _ _ => none
  | _ => some false

/-- Groups of a context. -/
def State.groupsOf (s : State) (ctx : Nat) : List (Nat × Grp) :=
  s.units.filter (fun e => !(isControl e.1) && e.2.ctx == some ctx)

/-- The waits of a group's paths by their class, or none when one of them could issue. -/
def State.waits (s : State) (ctx u : Nat) (g : Grp) : Option (List (Option Bool)) :=
  [(false, g.slotA), (true, g.slotB)].foldl (fun a p => match a, p.2 with
    | some l, some y => y.wait.map (fun w => s.waitClass ctx u p.1 g w :: l)
    | a, none => a
    | none, _ => none) (some [])

/-- The deadlock count after control cycles; while a gang of the context is saved, or one of its groups halts for that,
not every group is blocked (R395). -/
def State.deadlockOf (s : State) (ctx : Nat) (k : Ctx) (n : Nat) : Nat :=
  let gs := s.groupsOf ctx
  let ws := gs.map (fun e => s.waits ctx e.1 e.2)
  if gs.isEmpty ∨ k.state ≠ .running ∨ s.saved.any (fun e => e.2.ctx == ctx) = true then k.deadlock
  else if ws.any (fun w => match w with
      | some l => l.contains (some false)
      | none => false) then 0
  else if ws.all (fun w => match w with
      | some l => l.all (· == some true)
      | none => false) then k.deadlock + n
  else k.deadlock

/-- Does a context hold issue tokens on a die (R403)? -/
def State.holdsTokens (s : State) (die : Nat) (gs : List (Nat × Grp)) : Bool :=
  gs.any (fun e => unitDie e.1 == some die
    && (decide (1024 ≤ s.levelOf 0 (unitCore e.1) e.2.vd) || !(cfgCap (s.bucketCfg 0 (unitCore e.1) e.2.vd))))

/-- The hang counts after core cycles: dies where a path of the context is eligible and nothing of it retires. -/
def State.hangOf (s : State) (ctx : Nat) (k : Ctx) (n : Nat) : Sparse Nat :=
  let gs := s.groupsOf ctx
  if k.state ≠ .running then k.hang
  else ((gs.filterMap (fun e => unitDie e.1)).eraseDups).foldl (fun m d =>
    if s.holdsTokens d gs && !(look false s.narrow d)
        && gs.any (fun e => unitDie e.1 == some d && s.standsReady e.1 e.2 true) then
      store 0 m d (look 0 m d + n)
    else m) k.hang

/-- Core cycles and control cycles pass. -/
def State.elapse (s : State) (core ctl : Nat) : State :=
  { s with
    now := s.now + core
    ctlNow := s.ctlNow + ctl
    units := s.units.map (fun (e : Nat × Grp) => (e.1, { e.2 with
      run := if s.eligibleGrp e.1 e.2 true then e.2.run + (core - if s.now < e.2.issued then 1 else 0) else 0 }))
    ctxs := s.ctxs.map (fun (e : Nat × Ctx) => (e.1, { e.2 with
      hang := s.hangOf e.1 e.2 core, deadlock := s.deadlockOf e.1 e.2 ctl })) }

end Sys2Proof.Machine
end

