-- ==== Sys2Proof/Machine/Step.lean ====
section
/-! DEFINITION. One step: whose turn it is, the fetch and decode of an issue, time, and where the next word is placed
(notes/assumptions/3.md, 6.md, 9.md). -/
namespace Sys2Proof.Machine

/-- The issue of one word by the path of a slot, fetched and decoded (R38, R75, R168, R169). -/
noncomputable def issueWord (s : State) (u : Nat) (g : Grp) (p : Path) : Out :=
  match fetch s g p with
  | .error _ => exec .instructionFetchFault s
  | .ok (w, pl) =>
      match s.fetched u g w pl with
      | (some t, _) => .next t
      | (none, t) =>
          match decode w with
          | .error _ => exec (.illegalEncoding w) t
          | .ok i => exec i t

/-- An instruction with accesses left goes on: it is not fetched again, and takes no issue slot or token. -/
noncomputable def goOnWord (s : State) (w : Word) : Out :=
  match decode w with
  | .error _ => .next s
  | .ok i => exec i s

/-- A turn of a unit, for the slot named: an instruction with accesses left goes on, else an old record is swapped in
(R44), else the path that the group chooses issues. -/
noncomputable def issueTurn (s : State) (u : Nat) (b0 : Bool) : Out :=
  match find s.units u with
  | none => .next s
  | some g =>
      if s.idle u g then .next s
      else
        match (g.slot b0).bind (fun p => p.part) with
        | some pt => goOnWord { s with cur := (u, b0) } pt.w
        | none =>
            if ageingDue s g then exec (.ageingSwap u) s
            else
              match s.choose u g b0 with
              | none => .next s
              | some (b, p) => issueWord (s.begin_ u g b p) u g p

/-- Events that come of themselves: not those that stand for a word that did not decode or was not fetched, nor those
that happen only within a SYSWR. -/
def ownEvent : Instr → Bool
  | .illegalEncoding _ | .instructionFetchFault | .glreqWrite _ _ | .bcfgWrite _ _ _ _ | .svclendWrite _ _
  | .rowRetire _ _ _ | .channelRetire _ _ | .diestateOffline _ | .diestateOnline _ | .alarmClear _ _ | .fwctlGo => false
  | i => isEvent i

/-- One turn; without power, only its return. -/
noncomputable def turn (s : State) : Turn → Out
  | .issue u b => if s.powered then issueTurn { s with part := none } u b else .next s
  | .part u b ps => if s.powered then issueTurn { s with part := some ps } u b else .next s
  | .error unit place on =>
      .next { s with
        errs := if on then (unit, place) :: s.errs.filter (fun e => e != (unit, place))
          else s.errs.filter (fun e => e != (unit, place)) }
  | .event i => if ownEvent i && (s.powered || i == .powerOn) then exec i s else .next s
  | .elapse c k => .next (s.elapse c k)

/-- What a step gives, with the path-stack memory of the records it made and freed (R39). -/
def synced (old : State) : Out → Out
  | .next t => .next (t.syncStacks old)
  | .fault f => .fault f
  | .refused r => .refused r

/-- One step: the turn at the head of the agenda, or a free one (notes/assumptions/3.md). -/
noncomputable def step (s : State) : Host.Outcome State Fault Refusal :=
  synced s (match s.agenda with
    | [] => turn { s with free := s.free + 1 } (Config.freeTurn s.free)
    | t :: r => turn { s with agenda := r, free := s.free + 1 } t)

/-- The state with a word where control core 0 fetches its next instruction, and its turn next
(notes/assumptions/9.md). -/
def State.withFetchWord (s : State) (nbits w : Nat) : State :=
  let _ := nbits
  match find s.units 81920 with
  | none => s
  | some g =>
      let b := g.slotA.isNone
      match g.slot b with
      | none => s
      | some p =>
          match locate s (unitAg 81920 b g) { x := true } p.pc.toNat 4 with
          | .error _ => s
          | .ok pl => { s.wkeys pl.keys (leBytes w 4) with agenda := [.issue 81920 b] }

end Sys2Proof.Machine
end

