-- ==== Sys2Proof/Safety.lean ====
section
/-! DEFINITION. What counts as a good state and a good run, in the terms that the statements use. -/
namespace Sys2Proof.Machine

/-- Memory is in its canonical form: addresses strictly rising, and no entry that reads as an unlisted one. -/
def Memory.wf (m : List Host.Cell) : Bool := canonFrom 0 0 m

/-- The issuing path runs the instruction: it is the path whose turn it is (R38), no check of R481 refuses the word, no
source register holds an uncorrectable error (R23), and some lane executes (R179). -/
def Runs (i : Instr) (s : State) (x : Iss) : Prop :=
  s.issuer (wordOf i) = some x ∧ refuse s x (Instr.sig i) = none ∧ x.act ≠ 0 ∧ s.regError x = false

/-- The step makes all of the instruction's accesses, of which none has been made (R146). -/
def Whole (s : State) (x : Iss) : Prop := s.part = none ∧ x.p.part = none

/-- The state after an instruction that writes only registers of its group: `t` differs from `s` in that group and in
what every retire notes (R58, R396); the paths of the group go on at `pc` by R42 and R43; `g` may differ else in
registers v, s and p, capability flags of v quads, STATUS and STOCH only. -/
def After (s : State) (x : Iss) (pc : DWord) (t : State) (g : Grp) : Prop :=
  t = { s.noteRetire x with units := t.units } ∧ find t.units x.u = some g
    ∧ (∀ u, u ≠ x.u → find t.units u = find s.units u)
    ∧ g = { x.g.goTo (s.genOf x.g) x.b pc with
        v := g.v, vf := g.vf, s := g.s, p := g.p, status := g.status, stoch := g.stoch }

/-! How an instruction ends, under a condition on the state and the issuing path. -/

/-- No condition. -/
def always (_ : State) (_ : Iss) : Prop := True

/-- It retires with the state `st` and the group `gr`, and its path goes on at the next word. -/
def RetiresWhen (i : Instr) (h : State → Iss → Prop) (st : State → Iss → State) (gr : State → Iss → Grp) : Prop :=
  ∀ s x, Runs i s x → h s x → exec i s = .next ((st s x).retireTo x (gr s x) (x.p.pc + 4))

/-- It retires, changes nothing but its group, and its path goes on at the next word. -/
def RetiresWith (i : Instr) (gr : State → Iss → Grp) : Prop := RetiresWhen i always (fun s _ => s) gr

/-- It retires with the group `gr`, and its path goes on at `pc`. -/
def TransfersWhen (i : Instr) (h : State → Iss → Prop) (gr : State → Iss → Grp) (pc : State → Iss → DWord) : Prop :=
  ∀ s x, Runs i s x → h s x → exec i s = .next (s.retireTo x (gr s x) (pc s x))

/-- It retires with the state `st`, which holds its group and paths. -/
def EndsWhen (i : Instr) (h : State → Iss → Prop) (st : State → Iss → State) : Prop :=
  ∀ s x, Runs i s x → h s x → exec i s = .next ((st s x).noteRetire x)

/-- It waits, with no effect but the state `st`. -/
def WaitsWhen (i : Instr) (h : State → Iss → Prop) (st : State → Iss → State) (w : State → Iss → Wait) : Prop :=
  ∀ s x, Runs i s x → h s x → exec i s = .next ((st s x).block x.u x.b (w s x))

/-- It raises a context fault and has no other effect. -/
def FaultsWhen (i : Instr) (h : State → Iss → Prop) (f : State → Iss → FaultInfo) : Prop :=
  ∀ s x, Runs i s x → h s x → exec i s = .next (s.raise x (f s x))

/-- It takes the trap with a cause and has no other effect. -/
def TrapsWhen (i : Instr) (h : State → Iss → Prop) (c : Nat) : Prop :=
  ∀ s x, Runs i s x → h s x → exec i s = .next (s.trap x c)

/-- It is an illegal encoding, and traps with cause ILLEGAL (R169). -/
def IllegalAlways (i : Instr) : Prop := ∀ s x, s.issuer (wordOf i) = some x → exec i s = .next (s.trap x 0)

/-- A word of R format and one of I format (R170). -/
def rWord (op : BitVec 6) (fn : BitVec 5) (d a b : Reg) : Word := op ++ fn ++ d ++ a ++ b
def iWord (op : BitVec 6) (fn : BitVec 3) (d a : Reg) (imm : BitVec 9) : Word := op ++ fn ++ d ++ a ++ imm

/-- Registers d, d + 1, ..., d + k - 1 of `g` hold `f l j` in the lanes `ls` (an s register once, from lane 0), and
every other register and lane is as in the issuing group; the capability flags of the quads written are clear (R62,
R173). -/
def Wrote (x : Iss) (g : Grp) (d : Reg) (k : Nat) (ls : List Nat) (f : Nat → Nat → Word) : Prop :=
  (∀ j, j < k → ∀ l, l ∈ (if (Reg.plus d j).isV then ls else [0]) → g.rd (Reg.plus d j) l = f l j)
    ∧ (∀ r l, l < 64 → (∀ j, j < k → r = Reg.plus d j → r.isV = true ∧ l ∉ ls) → g.rd r l = x.g.rd r l)
    ∧ (∀ q l, l < 64 → look false g.vf (64 * q + l)
        = (decide (∀ j, j < k → (Reg.plus d j).isV = true → (Reg.plus d j).toNat / 4 = q → l ∉ ls)
            && look false x.g.vf (64 * q + l)))

/-- The instruction writes registers d to d + k - 1 in the lanes `ls` with `f`, raises the flags `fl` in STATUS, and
does nothing else. -/
def SetsRun (i : Instr) (d : Reg) (k : Nat) (ls : Iss → List Nat) (f : Iss → Nat → Nat → Word) (fl : Iss → Nat) : Prop :=
  ∀ s x, Runs i s x → ∃ t g, exec i s = .next t ∧ After s x (x.p.pc + 4) t g ∧ Wrote x g d k (ls x) (f x)
    ∧ g.p = x.g.p ∧ g.status = x.g.status ||| BitVec.ofNat 32 (fl x) ∧ g.stoch = x.g.stoch

/-- One register in the active lanes, no flag. -/
def Sets (i : Instr) (d : Reg) (f : Iss → Nat → Word) : Prop :=
  SetsRun i d 1 Iss.lanes (fun x l _ => f x l) (fun _ => 0)

/-- A pair in the active lanes, low register first, no flag. -/
def SetsPair (i : Instr) (d : Reg) (f : Iss → Nat → DWord) : Prop :=
  SetsRun i d 2 Iss.lanes (fun x l j => (f x l).extractLsb' (32 * j) 32) (fun _ => 0)

/-- One register with flags: value and flags of a lane. -/
def SetsFlags (i : Instr) (d : Reg) (f : Iss → Nat → Word × Nat) : Prop :=
  SetsRun i d 1 Iss.lanes (fun x l _ => (f x l).1) (fun x => x.flags d (fun l => (f x l).2))

/-- One register from the two sources of each lane; from the sources and the old destination; from one source. -/
def SetsBin (i : Instr) (d a b : Reg) (f : Word → Word → Word) : Prop :=
  Sets i d (fun x l => f (x.g.rd a l) (x.g.rd b l))
def SetsTri (i : Instr) (d a b : Reg) (f : Word → Word → Word → Word) : Prop :=
  Sets i d (fun x l => f (x.g.rd a l) (x.g.rd b l) (x.g.rd d l))
def SetsUn (i : Instr) (d a : Reg) (f : Word → Word) : Prop := Sets i d (fun x l => f (x.g.rd a l))

/-- The same from a source and the immediate (R171). -/
def SetsImm (i : Instr) (d a : Reg) (imm : BitVec 9) (f : Word → Word → Word) : Prop :=
  Sets i d (fun x l => f (x.g.rd a l) (immOf x.p.hints imm))

/-- One register with flags, from two sources, and from two sources and the old destination. -/
def SetsBinF (i : Instr) (d a b : Reg) (f : Word → Word → Word × Nat) : Prop :=
  SetsFlags i d (fun x l => f (x.g.rd a l) (x.g.rd b l))
def SetsTriF (i : Instr) (d a b : Reg) (f : Word → Word → Word → Word × Nat) : Prop :=
  SetsFlags i d (fun x l => f (x.g.rd a l) (x.g.rd b l) (x.g.rd d l))

/-- An integer clamped to `w` signed bits, with SATI when it clamps (R9). -/
def clamp (w : Nat) (v : Int) : Int × Nat :=
  let lo : Int := -(2 ^ (w - 1))
  let hi : Int := 2 ^ (w - 1) - 1
  (max lo (min hi v), if v < lo ∨ hi < v then fSATI else 0)

/-- The signed 16-bit elements of a word (R95), and a word of two. -/
def half (w : Word) (i : Nat) : Int := (w.extractLsb' (16 * i) 16).toInt
def twoHalves (p q : Int × Nat) : Word × Nat :=
  ((BitVec.ofInt 16 q.1 ++ BitVec.ofInt 16 p.1 : BitVec 32), p.2 ||| q.2)

/-- The instruction writes predicate `k` in the lanes that execute, raises flags, and does nothing else (R173). -/
def SetsPred (i : Instr) (k : Nat) (f : Iss → Nat → Bool) (fl : Iss → Nat) : Prop :=
  ∀ s x, Runs i s x → ∃ t g, exec i s = .next t ∧ After s x (x.p.pc + 4) t g
    ∧ (∀ l, l ∈ x.lanes → (look 0 g.p k).getLsbD l = f x l)
    ∧ (∀ l, x.act.getLsbD l = false → (look 0 g.p k).getLsbD l = (look 0 x.g.p k).getLsbD l)
    ∧ (∀ j, j ≠ k → look 0 g.p j = look 0 x.g.p j)
    ∧ g.v = x.g.v ∧ g.vf = x.g.vf ∧ g.s = x.g.s ∧ g.status = x.g.status ||| BitVec.ofNat 32 (fl x)
    ∧ g.stoch = x.g.stoch

/-- An FP32 operand with DAZ applied (R104). -/
def fpOf (x : Iss) (w : Word) : FV := FF.fp32.operand x.g.daz w.toNat

/-- FP32 arithmetic of two sources, and of two sources and the old destination, rounded once (R107, R220, R221). -/
def SetsF2 (i : Instr) (rm : BitVec 3) (d a b : Reg) (f : RM → FV → FV → FV × Nat) : Prop :=
  SetsFlags i d (fun x l =>
    codeW (rounded .fp32 (x.mode rm) x.g.ftz (f (x.mode rm) (fpOf x (x.g.rd a l)) (fpOf x (x.g.rd b l)))))
def SetsF3 (i : Instr) (rm : BitVec 3) (d a b : Reg) (f : RM → FV → FV → FV → FV × Nat) : Prop :=
  SetsFlags i d (fun x l =>
    codeW (rounded .fp32 (x.mode rm) x.g.ftz
      (f (x.mode rm) (fpOf x (x.g.rd a l)) (fpOf x (x.g.rd b l)) (fpOf x (x.g.rd d l)))))

/-- Packed 16-bit arithmetic, element by element (R95, R222). -/
def SetsF16 (i : Instr) (t : FF) (rm : BitVec 3) (d a b : Reg) (f : RM → FV → FV → FV → FV × Nat) : Prop :=
  SetsFlags i d (fun x l =>
    let e (w : Word) (j : Nat) : FV := t.operand x.g.daz (w.extractLsb' (16 * j) 16).toNat
    let r (j : Nat) : Nat × Nat := rounded t (x.mode rm) x.g.ftz
      (f (x.mode rm) (e (x.g.rd a l) j) (e (x.g.rd b l) j) (e (x.g.rd d l) j))
    (BitVec.ofNat 32 ((r 0).1 + 2 ^ 16 * (r 1).1), (r 0).2 ||| (r 1).2))

/-- A float compare: INV for a signalling NaN, and for any NaN unless the compare is quiet (R225). -/
def FloatCompares (i : Instr) (p : BitVec 3) (a b : Reg) (quiet : Bool) (f : FV → FV → Bool) : Prop :=
  SetsPred i p.toNat (fun x l => f (fpOf x (x.g.rd a l)) (fpOf x (x.g.rd b l))) (fun x =>
    x.lanes.foldl (fun n l =>
      let u := fpOf x (x.g.rd a l)
      let v := fpOf x (x.g.rd b l)
      n ||| (if quiet then nanFlags u v else if u.isNan || v.isNan then fINV else 0)) 0)

/-- The magnitude of a code without its sign, in units of the format's least subnormal (R91). Codes above the largest finite
one count on as with an unbounded exponent (R104). -/
def FF.mag (f : FF) (c : Nat) : Nat :=
  if c < 2 ^ f.mbits then c else (2 ^ f.mbits + c % 2 ^ f.mbits) * 2 ^ (c / 2 ^ f.mbits - 1)

/-- The exponent of that unit. -/
def FF.unit (f : FF) : Int := 1 - f.bias - f.mbits

/-- Does a magnitude y between its neighbours a and b go to b, the one farther from zero (R103, R105)? `odd`: a ends in 1. -/
def GoesUp (rm : RM) (neg odd : Bool) (a y b : Nat) : Prop :=
  match rm with
  | .rne => a + b < 2 * y ∨ (2 * y = a + b ∧ odd = true)
  | .rz => False
  | .rdn => neg = true
  | .rup => neg = false
  | .rna => a + b ≤ 2 * y
  | .sr z => z * (b - a) < (y - a) * 2 ^ 32

/-- What an overflow delivers (R104, R105): x/d is the magnitude, in units. -/
def Overflows (f : FF) (rm : RM) (satf neg : Bool) (x d : Nat) (code : Nat) : Prop :=
  let sign := if neg then 2 ^ (f.width - 1) else 0
  let inf : Prop := match rm with
    | .rne | .rna => True
    | .rz => False
    | .rdn => neg = true
    | .rup => neg = false
    | .sr _ => f.mag (f.maxCode + 1) * d ≤ x
  (¬inf ∨ satf = true ∨ f = .e2m1 → code = sign + f.maxCode)
  ∧ (inf → satf = false → f = .e4m3 → code = f.nanCode)
  ∧ (inf → satf = false → f ≠ .e4m3 → f ≠ .e2m1 → code = sign + f.maxCode + 1)

/-- The magnitude x/d, in units, rounds to a code with flags (R103 to R106): c is its neighbour nearer to zero; it is tiny
when with one bit more it stays below the least normal number. -/
def RoundsTo (f : FF) (rm : RM) (satf ftz neg : Bool) (x d : Nat) (r : Nat × Nat) : Prop :=
  ∃ c up : Nat, f.mag c * d ≤ x ∧ x < f.mag (c + 1) * d ∧ up ≤ 1
    ∧ (up = 1 ↔ f.mag c * d ≠ x ∧ GoesUp rm neg (c % 2 == 1) (f.mag c * d) x (f.mag (c + 1) * d))
    ∧ (let sign := if neg then 2 ^ (f.width - 1) else 0
      let top := 2 ^ (f.mbits + 1)
      let tiny : Prop := 2 * x ≤ (top - 1) * d
        ∨ (2 * x < top * d ∧ ¬GoesUp rm neg true ((top - 1) * d) (2 * x) (top * d))
      (f.maxCode < c + up → r.2 = fOVF + fINX ∧ Overflows f rm satf neg x d r.1)
      ∧ (c + up ≤ f.maxCode → tiny → ftz = true → f.wide = true → r = (sign, fUNF + fINX))
      ∧ (c + up ≤ f.maxCode → ¬(tiny ∧ ftz = true ∧ f.wide = true) → r.1 = sign + (c + up)
          ∧ (f.mag c * d = x → r.2 = 0) ∧ (f.mag c * d ≠ x → ¬tiny → r.2 = fINX)
          ∧ (f.mag c * d ≠ x → tiny → r.2 = fUNF + fINX)))

/-- The same of ± m × 2^e. -/
def Rounds (f : FF) (rm : RM) (satf ftz neg : Bool) (m : Nat) (e : Int) (r : Nat × Nat) : Prop :=
  RoundsTo f rm satf ftz neg (m * 2 ^ (e - f.unit).toNat) (2 ^ (f.unit - e).toNat) r

/-- The magnitude y/d rounds to the integer k (R103, R105, R112). -/
def RoundsInt (rm : RM) (neg : Bool) (y d k : Nat) : Prop :=
  ∃ q up : Nat, q * d ≤ y ∧ y < (q + 1) * d ∧ up ≤ 1
    ∧ (up = 1 ↔ q * d ≠ y ∧ GoesUp rm neg (q % 2 == 1) (q * d) y ((q + 1) * d)) ∧ k = q + up

/-- ± m × 2^e, scaled by 2^k for a k that leaves an integer. -/
def scaled (neg : Bool) (m : Nat) (e k : Int) : Int := (if neg then -1 else 1) * ((m * 2 ^ (e + k).toNat : Nat) : Int)

/-- A special function of one FP32 source (R226). -/
def SetsSfu (i : Instr) (d a : Reg) (f : Iss → FV → Nat × Nat) : Prop :=
  SetsFlags i d (fun x l => codeW (f x (fpOf x (x.g.rd a l))))

/-- A conversion: as `SetsRun`, and STOCH advances once when the mode is stochastic (R105). -/
def SetsCvt (i : Instr) (rm : BitVec 3) (d : Reg) (k : Nat) (f : Iss → Nat → Nat → Word) (fl : Iss → Nat) : Prop :=
  ∀ s x, Runs i s x → ∃ t g, exec i s = .next t ∧ After s x (x.p.pc + 4) t g ∧ Wrote x g d k x.lanes (f x)
    ∧ g.p = x.g.p ∧ g.status = x.g.status ||| BitVec.ofNat 32 (fl x)
    ∧ g.stoch = if rmCode x.g x.p.hints rm.toNat = 6 then x.g.stochNext.stoch else x.g.stoch

/-- What every lane of a load or store asks (R248). -/
def accessAsk (x : Iss) (o : Reg) (q : BitVec 4) (d5 : BitVec 5) (size : Nat) (write : Bool) : Ask :=
  { c := x.g.qr q.toNat, q := q.toNat, size := size, need := { r := !write, w := write },
    perm := x.txnPerm (if write then pSTORE else pLOAD), off := x.memOff o d5 size, natural := x.g.isOpen,
    commit := if write then x.g.isOpen else fun _ => false }

/-- What LDC, STC, the atomics (returning or not) and WAITA ask (R252, R253, R256, R265). -/
def capLoadAsk (x : Iss) (o : Reg) (q : BitVec 4) (d5 : BitVec 5) : Ask :=
  { c := x.g.qr q.toNat, q := q.toNat, size := 16, need := { r := true }, perm := x.txnPerm pLOAD,
    off := x.memOff o d5 16 }
def capStoreAsk (x : Iss) (d o : Reg) (q : BitVec 4) (d5 : BitVec 5) : Ask :=
  { c := x.g.qr q.toNat, q := q.toNat, size := 16, need := { w := true }, perm := fun _ => pSTORE,
    off := x.memOff o d5 16, mid := fun l => stcBad (x.g.qr q.toNat) (x.holder d l),
    tagged := fun l => (x.holder d l).tag }
def atomicAsk (x : Iss) (a : Reg) (q : BitVec 4) (size : Nat) (returns : Bool) : Ask :=
  { c := x.g.qr q.toNat, q := q.toNat, size := size, need := { r := true, w := true },
    perm := fun _ => if returns then pATOMIC ||| pSTORE ||| pLOAD else pATOMIC ||| pSTORE,
    off := fun l => (x.g.off a l).toInt }
def waitAsk (x : Iss) (a : Reg) (q : BitVec 4) : Ask :=
  { c := x.g.qr q.toNat, q := q.toNat, size := 4, need := { r := true }, perm := fun _ => pLOAD,
    off := fun l => (x.g.off a l).toNat }

/-- A descriptor or record operand of `n` bytes passes its checks (R330): capability, alignment and translation; nothing is
waited for. -/
def OperandAt (x : Iss) (s : State) (q : BitVec 4) (n perm : Nat) (write : Bool) (va : Nat) (pl : Place) : Prop :=
  capCheck (x.g.qr q.toNat) 0 n perm = .ok va ∧ va % n = 0 ∧ locate s x.ag { r := true, w := write } va n = .ok pl
    ∧ x.gate s false [⟨x.low, pl⟩] = none

/-- The path once it has read such an operand: at a peer, its OPEN lanes are doomed (R143, R258). -/
def Iss.saw (x : Iss) (pl : Place) : Iss := { x with g := x.remote false [⟨x.low, pl⟩] }

/-- It retires on one descriptor operand of R333 with a status, from the state that its access leaves, which `h`
constrains; `k` is the descriptor's key. -/
def TileAnswers (i : Instr) (d : Reg) (q : BitVec 4) (h : State → Iss → Nat → Prop) (st : State → Iss → Nat → State)
    (status : Nat) : Prop :=
  ∀ va pl, RetiresWhen i
    (fun s x => OperandAt x s q 64 (pLOAD ||| pSTORE) true va pl ∧ h (s.touch x.ag true pl) x (pl.keys.headD 0))
    (fun s x => st (s.touch x.ag true pl) x (pl.keys.headD 0)) (fun _ x => (x.saw pl).toS d status)

/-! Events. -/

/-- An event has an effect under a condition on the state. -/
def EventGives (i : Instr) (h : State → Prop) (st : State → State) : Prop := ∀ s, h s → exec i s = .next (st s)

/-- The pieces that a command has not written, and whether it begins with a stage of its own. -/
def State.piecesLeft (s : State) (c : Cmd) : List Nat := (List.range (s.total c)).filter (fun k => !(c.did.contains k))
def Cmd.unstaged (c : Cmd) : Bool := !(c.body.staged && c.pos == 0)

/-- A call waits at one of the security core's endpoints, and is served next. -/
def Asked (s : State) (ep : Nat) (c : SecCall) : Prop :=
  s.secHeld = false ∧ ∃ (p : Party) (e info : Nat), s.sender (2 ^ 58 + ep) = some p ∧ p.u = c.u ∧ p.b = c.b
    ∧ p.wait = .sending e c.ticket true c.rd info c.badge ∧ find s.units c.u = some c.g
    ∧ c.words = (s.message c.g (isControl c.u) info c.badge).words
    ∧ c.caps = (s.message c.g (isControl c.u) info c.badge).caps

/-- A compare of the two sources of each lane (R196). -/
def Compares (i : Instr) (p : BitVec 3) (a b : Reg) (f : Word → Word → Bool) : Prop :=
  SetsPred i p.toNat (fun x l => f (x.g.rd a l) (x.g.rd b l)) (fun _ => 0)

end Sys2Proof.Machine
end

