-- ==== Sys2Proof/Certificates/Slice0/Obligations.lean ====
section
/-! DEFINITION. Statements for the provers. -/
section
open Sys2Proof Sys2Proof.Machine

/-! Reset, decoding and steps (R4, R38, R168, R169, R473). -/

/-- What reset leaves (R15, R351, R473): the registers of the 64 control cores, with a thread on control core 0 alone, at
level K and width 1, and no other unit; no partition, VD, context, launch or gang; memory without a byte other than 0 and
without a tag; and system registers at their reset values. Values that the spec does not give are the model's:
notes/assumptions/1.md, 2.md, 7.md and 8.md. -/
def Obligations.ResetState : Prop :=
  Memory.wf State.reset.mem = true
  ∧ (∀ k, State.reset.rb k = 0 ∧ State.reset.tagR k = false)
  ∧ (∃ g p, find State.reset.units 81920 = some g ∧ g.slotA = some p ∧ p.mask = 1 ∧ g.slotB = none ∧ g.stack = []
      ∧ g.level = .kernel ∧ g.width = 1 ∧ g.ctx = none)
  ∧ (∀ n, n < 64 → ∃ g, find State.reset.units (81920 + n) = some g)
  ∧ (∀ u g, find State.reset.units u = some g → isControl u = true ∧ u < 81984
      ∧ (u ≠ 81920 → g.slotA = none ∧ g.slotB = none ∧ g.stack = []))
  ∧ State.reset.parts = [] ∧ State.reset.vds = [] ∧ State.reset.ctxs = [] ∧ State.reset.launches = []
  ∧ State.reset.gangs = [] ∧ State.reset.cmds = [] ∧ State.reset.llc = [] ∧ State.reset.tlb = []
  ∧ (∀ die, State.reset.sysR 0x0400 die 0 0 = 31) ∧ State.reset.sysR 0x0408 0 0 0 = 1
  ∧ (∀ die, State.reset.sysR 0x0500 die 0 0 = 0x40000) ∧ State.reset.sysR 0x0501 0 0 0 = 0x100
  ∧ (∀ die vd slice, State.reset.sysR 0x0301 die vd slice = 0x0000_4000_0000_FFFF)
  ∧ (∀ die, State.reset.sysR 0x0704 die 0 0 = 0) ∧ State.reset.sysR 0x0706 0 0 0 = 0

/-- Words written out from the formats of R170 and the codes of R174 decode to the instructions they stand for. -/
def Obligations.DecodeWords : Prop :=
  decode 0b000001_00000_0000100_0001000_0001100#32 = .ok (.add 4#7 8#7 12#7)
  ∧ decode 0b000111_000_1100000_1100001_111111111#32 = .ok (.addi 96#7 97#7 511#9)
  ∧ decode 0b001000_00_001_0000100_0001000_0001100#32 = .ok (.fadd 1#3 4#7 8#7 12#7)
  ∧ decode 0b011000_100_0000100_0001000_0011_00101#32 = .ok (.ldW 4#7 8#7 3#4 5#5)
  ∧ decode 0b011001_100_0000100_0001000_0011_11111#32 = .ok (.stW 4#7 8#7 3#4 31#5)
  ∧ decode 0b110000_000_000_11111111111111111111#32 = .ok (.bra 0xFFFFF#20)
  ∧ decode 0b111111_001_010_1_0000000000000000000#32 = .ok (.guard 2#3 1#1)
  ∧ decode 0b000001_11111_0000100_0001000_0001100#32 = .error .unlistedFunction

/-- Decoding and encoding agree: the word of every well-formed instruction decodes to it, with every operand at every value,
and a word that decodes is the word of the instruction it decodes to, which is well formed (R168 to R172, R174). -/
def Obligations.DecodeEncode : Prop :=
  (∀ (i : Instr) (w : Word), i.wellFormed = true → encode i = some w → decode w = .ok i)
  ∧ ∀ (w : Word) (i : Instr), decode w = .ok i → encode i = some w ∧ i.wellFormed = true

/-- A step runs the decoded instruction: when the turn is a unit's, its group may issue, its path is chosen and has no
accesses left, and the word that its program capability and address space give at its PC decodes to an instruction, the step
is that instruction's execution, from a state whose turn is that path's and whose units and registers are as they were, but for
the run and the cycle of the group's issue (R383); where no tile is registered, memory is as it was (R38, R75, R168, R169). What the step then adds is path-stack memory: it holds the
records that the execution made or changed, and KIND 0b00 where it freed one, whatever units and records there are (R39 to
R41), as long as the places of two records do not meet and no translation goes through them. A turn may name some of the lane accesses
to make; an instruction with accesses left goes on without a fetch. A step whose turn is an event's is that event, and an
uncorrectable error appears or goes by a turn of its own (R23). -/
def Obligations.StepRunsDecoded : Prop :=
  (∀ (s : State) (u va : Nat) (b0 b : Bool) (ps : Option (List Nat)) (r : List Turn) (g : Grp) (p : Path) (pl : Place)
      (t : State) (i : Instr),
    s.agenda = (match ps with
      | none => .issue u b0
      | some l => .part u b0 l) :: r → s.powered = true → find s.units u = some g →
    let s0 : State := { s with agenda := r, free := s.free + 1, part := ps }
    s0.idle u g = false → g.pccAt = none → (g.slot b0).bind (fun p => p.part) = none → ageingDue s0 g = false →
    s0.choose u g b0 = some (b, p) →
    let s1 := s0.begin_ u g b p
    capCheck g.pcc ((p.pc.toNat : Int) - g.pcc.cursor) 4 pEXEC = .ok va → va % 4 = 0 →
    locate s1 (unitAg u b g) { x := true } va 4 = .ok pl →
    s1.fetched u g (BitVec.ofNat 32 (s1.rkeys pl.keys)) pl = (none, t) →
    decode (BitVec.ofNat 32 (s1.rkeys pl.keys)) = .ok i →
    step s = synced s (exec i t) ∧ t.cur = (u, b) ∧ t.part = ps ∧ t.sys = s.sys
      ∧ (∀ v, v ≠ u → find t.units v = find s.units v)
      ∧ (∃ n k, find t.units u = some { g with run := n, issued := k })
      ∧ (s.tiles = [] → t.mem = s.mem ∧ t.tags = s.tags)
      ∧ (t.issuer (wordOf i)).map (fun x => (x.u, x.b, x.p.pc, x.p.mask, x.p.hints)) = some (u, b, p.pc, p.mask, p.hints))
  ∧ (∀ (s : State) (u : Nat) (b : Bool) (ps : Option (List Nat)) (r : List Turn) (g : Grp) (p : Path) (pt : Progress)
      (i : Instr),
    s.agenda = (match ps with
      | none => .issue u b
      | some l => .part u b l) :: r → s.powered = true → find s.units u = some g → s.idle u g = false →
    g.slot b = some p → p.part = some pt → decode pt.w = .ok i →
    step s = synced s (exec i { s with agenda := r, free := s.free + 1, part := ps, cur := (u, b) }))
  ∧ (∀ (s : State) (i : Instr) (r : List Turn), s.agenda = .event i :: r → ownEvent i = true →
      (s.powered = true ∨ i = .powerOn) → step s = synced s (exec i { s with agenda := r, free := s.free + 1 }))
  ∧ (∀ (s : State) (c k : Nat) (r : List Turn), s.agenda = .elapse c k :: r → (∀ e ∈ s.units, find s.units e.1 = some e.2) →
      ∃ t, step s = .next t ∧ t.now = s.now + c ∧ t.ctlNow = s.ctlNow + k ∧ t.mem = s.mem)
  ∧ (∀ (s : State) (unit place : Nat) (on : Bool) (r : List Turn), s.agenda = .error unit place on :: r →
      (∀ e ∈ s.units, find s.units e.1 = some e.2) →
      ∃ t, step s = .next t ∧ ((unit, place) ∈ t.errs ↔ on = true) ∧ t.mem = s.mem ∧ t.units = s.units
        ∧ ∀ e, e ≠ (unit, place) → (e ∈ t.errs ↔ e ∈ s.errs))
  ∧ (∀ old s : State,
      let was (e : Nat × Grp) (i : Nat) : Option Rec := find (old.oldStack e.1 e.2) i
      let used (e : Nat × Grp) (i : Nat) : Prop := e ∈ s.units ∧ (was e i ≠ none ∨ find e.2.stack i ≠ none)
        ∨ e ∈ s.endedGrps old ∧ find e.2.stack i ≠ none
      let keys (e : Nat × Grp) (i : Nat) : List Nat := s.recKeys e.1 e.2 i
      let mine (k : Nat) : Prop := ∃ e i, used e i ∧ k ∈ keys e i
      (s.units.map Prod.fst).Nodup → (old.units.map Prod.fst).Nodup →
      (∀ t : State, t = { s with mem := t.mem, tags := t.tags } → (∀ k, ¬mine k → t.rb k = s.rb k) →
        ∀ e i, used e i → t.recKeys e.1 e.2 i = keys e i) →
      (∀ e i, used e i → (keys e i).length = 32 ∧ (keys e i).Nodup
        ∧ ∀ e' j, used e' j → (e.1, i) ≠ (e'.1, j) → ∀ k ∈ keys e i, k ∉ keys e' j) →
      let t := s.syncStacks old
      let word (e : Nat × Grp) (i : Nat) : BitVec 256 := BitVec.ofNat 256 (t.rkeys (keys e i))
      t = { s with mem := t.mem, tags := t.tags } ∧ (∀ k, ¬mine k → t.rb k = s.rb k)
      ∧ (∀ e ∈ s.units, ∀ i,
        (was e i = find e.2.stack i → ∀ k, used e i → k ∈ keys e i → t.rb k = s.rb k)
        ∧ (find e.2.stack i = none → was e i ≠ none → (word e i).extractLsb' 62 2 = 0#2
          ∧ ∀ n, n ≠ 62 → n ≠ 63 → (word e i).getLsbD n = (BitVec.ofNat 256 (s.rkeys (keys e i))).getLsbD n)
        ∧ (∀ pc mask nrpc bar hnd link, find e.2.stack i = some (.deferred pc mask nrpc bar hnd link) →
          was e i ≠ find e.2.stack i →
          word e i = pc ++ mask ++ nrpc.getD (-1#64) ++ 0b01#2 ++ BitVec.ofBool bar.isSome ++ BitVec.ofNat 1 (bar.getD 0)
            ++ BitVec.ofBool hnd ++ 0#43 ++ (match link with
              | some k => BitVec.ofNat 16 k
              | none => 0xFFFF#16))
        ∧ ∀ jpc total arrived hnd link, find e.2.stack i = some (.join jpc total arrived hnd link) →
          was e i ≠ find e.2.stack i →
          word e i = jpc.getD (-1#64) ++ total ++ arrived ++ 0b10#2 ++ BitVec.ofBool hnd ++ 0#45 ++ (match link with
              | some k => BitVec.ofNat 16 k
              | none => 0xFFFF#16))
      ∧ ∀ e ∈ s.endedGrps old, ∀ i, find e.2.stack i ≠ none → (word e i).extractLsb' 62 2 = 0#2)

/-- The machine never stops: every event, and every word that its unit's path issues, has a next state, and so has every
step of every state. -/
def Obligations.EveryStepAnswers : Prop :=
  (∀ (i : Instr) (s : State), isEvent i = false → s.issuer (wordOf i) ≠ none → ∃ t, exec i s = .next t)
  ∧ (∀ (i : Instr) (s : State), isEvent i = true → (∀ w, i ≠ .illegalEncoding w) → i ≠ .instructionFetchFault →
      ∃ t, exec i s = .next t)
  ∧ ∀ s, ∃ t, step s = .next t

/-- Every step keeps memory in its canonical form: addresses strictly rising, and no entry that reads as an unlisted
address does. -/
def Obligations.MemoryStaysCanonical : Prop :=
  ∀ s t, Memory.wf s.mem = true → step s = .next t → Memory.wf t.mem = true

/-! Integer instructions (R192 to R199). -/

/-- The instructions of major 0x01 have the words and give the results of the table of R193, and their immediate forms those
of R194, with the immediate sign-extended, or after an IMM hint; a shift by an immediate outside 0 to 31 is illegal. -/
def Obligations.IntegerResults : Prop :=
  (∀ d a b : Reg,
     (∀ i fn, (i, fn) ∈ [(Instr.add d a b, 0x00#5), (.sub d a b, 0x01#5), (.minS d a b, 0x02#5), (.minN d a b, 0x03#5),
         (.maxS d a b, 0x04#5), (.maxN d a b, 0x05#5), (.and d a b, 0x06#5), (.or d a b, 0x07#5), (.xor d a b, 0x08#5),
         (.andn d a b, 0x09#5), (.shl d a b, 0x0A#5), (.shr d a b, 0x0B#5), (.sar d a b, 0x0C#5), (.rotl d a b, 0x0D#5),
         (.adds d a b, 0x0E#5), (.subs d a b, 0x0F#5), (.absd d a b, 0x10#5), (.addW d a b, 0x11#5), (.subW d a b, 0x12#5),
         (.shlW d a b, 0x13#5), (.shrW d a b, 0x14#5)] → encode i = some (rWord 0x01#6 fn d a b))
     ∧ encode (.mov d a) = some (rWord 0x01#6 0x15#5 d a 0#7)
     ∧ SetsPair (.addW d a b) d (fun x l => BitVec.ofNat 64 ((x.g.rd2 a l).toNat + (x.g.rd2 b l).toNat))
     ∧ SetsPair (.subW d a b) d (fun x l => BitVec.ofInt 64 (((x.g.rd2 a l).toNat : Int) - (x.g.rd2 b l).toNat))
     ∧ SetsPair (.shlW d a b) d (fun x l =>
         let n := (x.g.rd b l).toNat
         if n < 64 then BitVec.ofNat 64 ((x.g.rd2 a l).toNat * 2 ^ n) else 0)
     ∧ SetsPair (.shrW d a b) d (fun x l =>
         let n := (x.g.rd b l).toNat
         if n < 64 then BitVec.ofNat 64 ((x.g.rd2 a l).toNat / 2 ^ n) else 0)
     ∧ SetsBin (.add d a b) d a b (fun a b => BitVec.ofNat 32 (a.toNat + b.toNat))
     ∧ SetsBin (.sub d a b) d a b (fun a b => BitVec.ofInt 32 ((a.toNat : Int) - b.toNat))
     ∧ SetsBin (.minS d a b) d a b (fun a b => BitVec.ofInt 32 (min a.toInt b.toInt))
     ∧ SetsBin (.minN d a b) d a b (fun a b => BitVec.ofNat 32 (min a.toNat b.toNat))
     ∧ SetsBin (.maxS d a b) d a b (fun a b => BitVec.ofInt 32 (max a.toInt b.toInt))
     ∧ SetsBin (.maxN d a b) d a b (fun a b => BitVec.ofNat 32 (max a.toNat b.toNat))
     ∧ SetsBin (.and d a b) d a b (fun a b => a &&& b)
     ∧ SetsBin (.or d a b) d a b (fun a b => a ||| b)
     ∧ SetsBin (.xor d a b) d a b (fun a b => a ^^^ b)
     ∧ SetsBin (.andn d a b) d a b (fun a b => a &&& ~~~b)
     ∧ SetsBin (.shl d a b) d a b (fun a n => if n.toNat < 32 then BitVec.ofNat 32 (a.toNat * 2 ^ n.toNat) else 0)
     ∧ SetsBin (.shr d a b) d a b (fun a n => if n.toNat < 32 then BitVec.ofNat 32 (a.toNat / 2 ^ n.toNat) else 0)
     ∧ SetsBin (.sar d a b) d a b (fun a n =>
         if n.toNat < 32 then BitVec.ofInt 32 (a.toInt / 2 ^ n.toNat) else if a.toInt < 0 then 0xFFFF_FFFF else 0)
     ∧ SetsBin (.rotl d a b) d a b (fun a n => a.rotateLeft (n.toNat % 32))
     ∧ SetsBin (.absd d a b) d a b (fun a b => BitVec.ofNat 32 (a.toInt - b.toInt).natAbs)
     ∧ SetsUn (.mov d a) d a (fun a => a)
     ∧ SetsBinF (.adds d a b) d a b (fun a b =>
         (BitVec.ofInt 32 (clamp 32 (a.toInt + b.toInt)).1, (clamp 32 (a.toInt + b.toInt)).2))
     ∧ SetsBinF (.subs d a b) d a b (fun a b =>
         (BitVec.ofInt 32 (clamp 32 (a.toInt - b.toInt)).1, (clamp 32 (a.toInt - b.toInt)).2)))
  ∧ (∀ (d a : Reg) (imm : BitVec 9),
     (∀ i fn, (i, fn) ∈ [(Instr.addi d a imm, 0#3), (.andi d a imm, 1#3), (.ori d a imm, 2#3), (.xori d a imm, 3#3),
         (.shli d a imm, 4#3), (.shri d a imm, 5#3), (.sari d a imm, 6#3)] → encode i = some (iWord 0x07#6 fn d a imm))
     ∧ encode (.movi d imm) = some (iWord 0x07#6 7#3 d 0#7 imm)
     ∧ (immOf [] imm = imm.signExtend 32 ∧ ∀ h : BitVec 23, immOf [wordOf (.imm h)] imm = (h ++ imm : BitVec 32))
     ∧ (∀ i ∈ [Instr.shli d a imm, .shri d a imm, .sari d a imm], ∀ s x, s.issuer (wordOf i) = some x →
         32 ≤ (immOf x.p.hints imm).toNat → exec i s = .next (s.trap x 0))
     ∧ SetsImm (.addi d a imm) d a imm (fun a n => BitVec.ofNat 32 (a.toNat + n.toNat))
     ∧ SetsImm (.andi d a imm) d a imm (fun a n => a &&& n)
     ∧ SetsImm (.ori d a imm) d a imm (fun a n => a ||| n)
     ∧ SetsImm (.xori d a imm) d a imm (fun a n => a ^^^ n)
     ∧ SetsImm (.shli d a imm) d a imm (fun a n =>
         if n.toNat < 32 then BitVec.ofNat 32 (a.toNat * 2 ^ n.toNat) else 0)
     ∧ SetsImm (.shri d a imm) d a imm (fun a n =>
         if n.toNat < 32 then BitVec.ofNat 32 (a.toNat / 2 ^ n.toNat) else 0)
     ∧ SetsImm (.sari d a imm) d a imm (fun a n =>
         if n.toNat < 32 then BitVec.ofInt 32 (a.toInt / 2 ^ n.toNat) else if a.toInt < 0 then 0xFFFF_FFFF else 0)
     ∧ Sets (.movi d imm) d (fun x _ => immOf x.p.hints imm))

/-- The words and the results of multiplication and division (R195); no case traps. -/
def Obligations.MultiplyAndDivide : Prop :=
  ∀ d a b : Reg,
     (∀ i fn, (i, fn) ∈ [(Instr.mul d a b, 0x00#5), (.mulhS d a b, 0x01#5), (.mulhN d a b, 0x02#5), (.mulW d a b, 0x03#5),
         (.mad d a b, 0x04#5), (.divS d a b, 0x05#5), (.divN d a b, 0x06#5), (.remS d a b, 0x07#5), (.remN d a b, 0x08#5)] →
         encode i = some (rWord 0x02#6 fn d a b))
     ∧ SetsPair (.mulW d a b) d (fun x l => BitVec.ofNat 64 ((x.g.rd2 a l).toNat * (x.g.rd2 b l).toNat))
     ∧ SetsBin (.mul d a b) d a b (fun a b => BitVec.ofNat 32 (a.toNat * b.toNat))
     ∧ SetsBin (.mulhS d a b) d a b (fun a b => BitVec.ofInt 32 (a.toInt * b.toInt / 2 ^ 32))
     ∧ SetsBin (.mulhN d a b) d a b (fun a b => BitVec.ofNat 32 (a.toNat * b.toNat / 2 ^ 32))
     ∧ SetsTri (.mad d a b) d a b (fun a b d => BitVec.ofNat 32 (a.toNat * b.toNat + d.toNat))
     ∧ SetsBin (.divS d a b) d a b (fun a b =>
         if b = 0 then 0xFFFF_FFFF else if a = 0x8000_0000 ∧ b = 0xFFFF_FFFF then 0x8000_0000
         else BitVec.ofInt 32 (a.toInt.tdiv b.toInt))
     ∧ SetsBin (.divN d a b) d a b (fun a b => if b = 0 then 0xFFFF_FFFF else BitVec.ofNat 32 (a.toNat / b.toNat))
     ∧ SetsBin (.remS d a b) d a b (fun a b =>
         if b = 0 then a else if a = 0x8000_0000 ∧ b = 0xFFFF_FFFF then 0
         else BitVec.ofInt 32 (a.toInt - b.toInt * a.toInt.tdiv b.toInt))
     ∧ SetsBin (.remN d a b) d a b (fun a b => if b = 0 then a else BitVec.ofNat 32 (a.toNat % b.toNat))

/-- The words and the results of the bit operations (R197): of a field, pos is b 4:0 and len b 13:8, and the other bits of b
are ignored; a field that leaves the word ends at bit 31. -/
def Obligations.BitOperations : Prop :=
  ∀ d a b : Reg,
    (∀ i fn, (i, fn) ∈ [(Instr.popc d a, 0x00#5), (.clz d a, 0x01#5), (.ctz d a, 0x02#5), (.brev d a, 0x03#5)] →
        encode i = some (rWord 0x04#6 fn d a 0#7))
    ∧ (∀ i fn, (i, fn) ∈ [(Instr.bfeS d a b, 0x04#5), (.bfeN d a b, 0x05#5), (.bfi d a b, 0x06#5), (.permb d a b, 0x07#5)] →
        encode i = some (rWord 0x04#6 fn d a b))
    ∧ SetsUn (.popc d a) d a (fun a => BitVec.ofNat 32 ((List.range 32).countP (fun i => a.getLsbD i)))
    ∧ SetsUn (.clz d a) d a (fun a => BitVec.ofNat 32 (((List.range 32).find? (fun i => a.getLsbD (31 - i))).getD 32))
    ∧ SetsUn (.ctz d a) d a (fun a => BitVec.ofNat 32 (((List.range 32).find? (fun i => a.getLsbD i)).getD 32))
    ∧ SetsUn (.brev d a) d a (fun a => a.reverse)
    ∧ SetsBin (.bfeN d a b) d a b (fun a b =>
        let pos := b.toNat % 32
        let w := min (b.toNat / 2 ^ 8 % 64) (32 - pos)
        BitVec.ofNat 32 (a.toNat / 2 ^ pos % 2 ^ w))
    ∧ SetsBin (.bfeS d a b) d a b (fun a b =>
        let pos := b.toNat % 32
        let w := min (b.toNat / 2 ^ 8 % 64) (32 - pos)
        if w = 0 then 0 else ((a >>> pos).setWidth w).signExtend 32)
    ∧ SetsTri (.bfi d a b) d a b (fun a b d =>
        let pos := b.toNat % 32
        let w := min (b.toNat / 2 ^ 8 % 64) (32 - pos)
        BitVec.ofNat 32 (d.toNat % 2 ^ pos + a.toNat % 2 ^ w * 2 ^ pos + d.toNat / 2 ^ (pos + w) * 2 ^ (pos + w)))
    ∧ SetsTri (.permb d a b) d a b (fun a b d =>
        let pick (i : Nat) : Byte :=
          let k := (b.extractLsb' (4 * i) 4).toNat
          if k < 4 then a.extractLsb' (8 * k) 8 else if k < 8 then d.extractLsb' (8 * (k - 4)) 8 else 0
        (pick 3 ++ pick 2 ++ pick 1 ++ pick 0 : BitVec 32))

/-- Compares write the predicate's bits of the lanes that execute and no other (R196); SEL, the logical forms on predicates,
P2S and S2P (R198). The words, and the operands that are illegal: p7 as a destination, an s destination of SEL, and a register
of P2S or S2P that is no even s register. -/
def Obligations.PredicateOperations : Prop :=
  ((∀ (k : BitVec 3) (d a b : Reg),
     encode (.sel k d a b) = some (rWord 0x05#6 (0#2 ++ k) d a b)
     ∧ (d.isS = true → IllegalAlways (.sel k d a b))
     ∧ encode (.p2s d k) = some (rWord 0x05#6 0x0C#5 d (0#4 ++ k) 0#7)
     ∧ (¬(d.isS = true ∧ d.toNat % 2 = 0) → IllegalAlways (.p2s d k))
     ∧ encode (.s2p k a) = some (rWord 0x05#6 0x0D#5 (0#4 ++ k) a 0#7)
     ∧ (¬(a.isS = true ∧ a.toNat % 2 = 0) → IllegalAlways (.s2p k a))
     ∧ IllegalAlways (.s2p 7#3 a)
     ∧ SetsPair (.p2s d k) d (fun x _ => x.g.pr k.toNat)
     ∧ Sets (.sel k d a b) d (fun x l => if (x.g.pr k.toNat).getLsbD l then x.g.rd a l else x.g.rd b l))
   ∧ (∀ d a b : BitVec 3,
     (∀ i fn, (i, fn) ∈ [(Instr.pand d a b, 0x08#5), (.por d a b, 0x09#5), (.pxor d a b, 0x0A#5), (.pandn d a b, 0x0B#5)] →
         encode i = some (rWord 0x05#6 fn (0#4 ++ d) (0#4 ++ a) (0#4 ++ b)))
     ∧ (∀ i ∈ [Instr.pand 7#3 a b, .por 7#3 a b, .pxor 7#3 a b, .pandn 7#3 a b], IllegalAlways i)
     ∧ SetsPred (.pand d a b) d.toNat (fun x l => (x.g.pr a.toNat).getLsbD l && (x.g.pr b.toNat).getLsbD l) (fun _ => 0)
     ∧ SetsPred (.por d a b) d.toNat (fun x l => (x.g.pr a.toNat).getLsbD l || (x.g.pr b.toNat).getLsbD l) (fun _ => 0)
     ∧ SetsPred (.pxor d a b) d.toNat (fun x l => (x.g.pr a.toNat).getLsbD l != (x.g.pr b.toNat).getLsbD l) (fun _ => 0)
     ∧ SetsPred (.pandn d a b) d.toNat (fun x l => (x.g.pr a.toNat).getLsbD l && !(x.g.pr b.toNat).getLsbD l)
         (fun _ => 0))
   ∧ ∀ (d : BitVec 3) (a : Reg), SetsPred (.s2p d a) d.toNat (fun x l => (x.g.rd2 a 0).getLsbD l) (fun _ => 0))
  ∧ (∀ (p : BitVec 3) (a b : Reg),
     (∀ i fn, (i, fn) ∈ [(Instr.eq p a b, 0x00#5), (.ne p a b, 0x01#5), (.ltS p a b, 0x02#5), (.leS p a b, 0x03#5),
         (.ltN p a b, 0x04#5), (.leN p a b, 0x05#5), (.tst p a b, 0x06#5), (.tstz p a b, 0x07#5)] →
         encode i = some (rWord 0x03#6 fn (0#4 ++ p) a b))
     ∧ (∀ i ∈ [Instr.eq 7#3 a b, .ne 7#3 a b, .ltS 7#3 a b, .leS 7#3 a b, .ltN 7#3 a b, .leN 7#3 a b, .tst 7#3 a b,
         .tstz 7#3 a b], IllegalAlways i)
     ∧ Compares (.eq p a b) p a b (fun a b => decide (a = b))
     ∧ Compares (.ne p a b) p a b (fun a b => decide (a ≠ b))
     ∧ Compares (.ltS p a b) p a b (fun a b => decide (a.toInt < b.toInt))
     ∧ Compares (.leS p a b) p a b (fun a b => decide (a.toInt ≤ b.toInt))
     ∧ Compares (.ltN p a b) p a b (fun a b => decide (a.toNat < b.toNat))
     ∧ Compares (.leN p a b) p a b (fun a b => decide (a.toNat ≤ b.toNat))
     ∧ Compares (.tst p a b) p a b (fun a b => decide (a &&& b ≠ 0))
     ∧ Compares (.tstz p a b) p a b (fun a b => decide (a &&& b = 0)))

/-- The words and the results of the packed 16-bit operations (R199), with SATI when a saturation clamps. -/
def Obligations.PackedIntegers : Prop :=
  ∀ d a b : Reg,
    (∀ i fn, (i, fn) ∈ [(Instr.dmac2Ss d a b, 0x00#5), (.dmac2 d a b, 0x01#5), (.add2S d a b, 0x02#5), (.sub2S d a b, 0x03#5),
        (.mul2Q15 d a b, 0x04#5), (.shrr d a b, 0x05#5), (.pack2S d a b, 0x06#5)] → encode i = some (rWord 0x06#6 fn d a b))
    ∧ encode (.unpk2 d a) = some (rWord 0x06#6 0x07#5 d a 0#7)
    ∧ SetsTriF (.dmac2Ss d a b) d a b (fun a b d =>
      let r := clamp 32 (d.toInt + half a 0 * half b 0 + half a 1 * half b 1)
      (BitVec.ofInt 32 r.1, r.2))
    ∧ SetsTri (.dmac2 d a b) d a b (fun a b d =>
        BitVec.ofInt 32 (d.toInt + half a 0 * half b 0 + half a 1 * half b 1))
    ∧ SetsBinF (.add2S d a b) d a b (fun a b =>
        twoHalves (clamp 16 (half a 0 + half b 0)) (clamp 16 (half a 1 + half b 1)))
    ∧ SetsBinF (.sub2S d a b) d a b (fun a b =>
        twoHalves (clamp 16 (half a 0 - half b 0)) (clamp 16 (half a 1 - half b 1)))
    ∧ SetsBinF (.mul2Q15 d a b) d a b (fun a b =>
        twoHalves (clamp 16 (rnaDiv (half a 0 * half b 0) 15)) (clamp 16 (rnaDiv (half a 1 * half b 1) 15)))
    ∧ SetsBinF (.shrr d a b) d a b (fun a b =>
        let r := clamp 16 (rnaDiv a.toInt (b.toNat % 32))
        (BitVec.ofInt 32 r.1, r.2))
    ∧ SetsBinF (.pack2S d a b) d a b (fun a b => twoHalves (clamp 16 a.toInt) (clamp 16 b.toInt))
    ∧ SetsRun (.unpk2 d a) d 2 Iss.lanes (fun x l j => BitVec.ofInt 32 (half (x.g.rd a l) j)) (fun _ => 0)

/-! Floating point (R103 to R113, R220 to R235). -/

/-- FP32 arithmetic and packed FP16 and BF16 arithmetic: the exact result of the operation, rounded once in the mode in force,
with its flags; packed forms element by element (R107, R220 to R222). Rounding goes to a neighbour by the mode, and what
overflows or is tiny follows R104 to R106; sums, products and quotients are exact, and NaNs, infinities and zeros follow R108. -/
def Obligations.FloatArithmetic : Prop :=
  (∀ (rm : BitVec 3) (d a b : Reg),
     SetsF2 (.fadd rm d a b) rm d a b addX
     ∧ SetsF2 (.fsub rm d a b) rm d a b (fun m p q => addX m p q.neg)
     ∧ SetsF2 (.fmul rm d a b) rm d a b (fun _ p q => mulX p q)
     ∧ SetsF2 (.fdiv rm d a b) rm d a b (fun _ p q => divX p q)
     ∧ SetsF3 (.fma rm d a b) rm d a b fmaX
     ∧ SetsF3 (.fms rm d a b) rm d a b (fun m p q r => fmaX m p q r.neg)
     ∧ SetsF3 (.fnma rm d a b) rm d a b (fun m p q r => fmaX m p.neg q r))
  ∧ (∀ (rm : BitVec 3) (d a b : Reg),
     SetsF16 (.hadd2 rm d a b) .fp16 rm d a b (fun m p q _ => addX m p q)
     ∧ SetsF16 (.hmul2 rm d a b) .fp16 rm d a b (fun _ p q _ => mulX p q)
     ∧ SetsF16 (.hfma2 rm d a b) .fp16 rm d a b fmaX
     ∧ SetsF16 (.badd2 rm d a b) .bf16 rm d a b (fun m p q _ => addX m p q)
     ∧ SetsF16 (.bmul2 rm d a b) .bf16 rm d a b (fun _ p q _ => mulX p q)
     ∧ SetsF16 (.bfma2 rm d a b) .bf16 rm d a b fmaX)
  ∧ (∀ (f : FF) (rm : RM) (satf ftz n : Bool) (e : Int) (x : FV × Nat),
     let sign := if n then 2 ^ (f.width - 1) else 0
     (∀ m, m ≠ 0 → Rounds f rm satf ftz n m e (roundFV f rm satf ftz (.fin n m e)))
     ∧ roundFV f rm satf ftz (.fin n 0 e) = (sign, 0)
     ∧ (f ∈ [FF.fp32, .fp16, .bf16] → roundFV f rm false ftz (.inf n) = (sign + f.maxCode + 1, 0)
         ∧ roundFV f rm satf ftz (.nan n) = (f.nanCode, if n then fINV else 0))
     ∧ rounded f rm ftz x = ((roundFV f rm false ftz x.1).1, (roundFV f rm false ftz x.1).2 ||| x.2)
     ∧ (∀ c, c ≤ f.maxCode → ∃ m u, f.decode (sign + c) = .fin n m u ∧ f.unit ≤ u
         ∧ m * 2 ^ (u - f.unit).toNat = f.mag c))
  ∧ (∀ (rm : RM) (na nb : Bool) (ma mb : Nat) (ea eb : Int),
     let a : FV := .fin na ma ea
     let b : FV := .fin nb mb eb
     (∃ n m e, addX rm a b = (.fin n m e, 0)
       ∧ (∀ k : Int, 0 ≤ ea + k → 0 ≤ eb + k → 0 ≤ e + k → scaled n m e k = scaled na ma ea k + scaled nb mb eb k)
       ∧ (m = 0 → n = if ma = 0 ∧ mb = 0 ∧ na = nb then na else decide (rm = .rdn)))
     ∧ mulX a b = (.fin (na != nb) (ma * mb) (ea + eb), 0)
     ∧ (∀ c, fmaX rm a b c = addX rm (.fin (na != nb) (ma * mb) (ea + eb)) c)
     ∧ a.neg = .fin (!na) ma ea
     ∧ divX a (.fin nb 0 eb) = (if ma = 0 then (.nan false, fINV) else (.inf (na != nb), fDZ))
     ∧ (mb ≠ 0 → divX (.fin na 0 ea) b = (.fin (na != nb) 0 0, 0))
     ∧ (0 < ma → ma < 2 ^ 24 → 0 < mb → mb < 2 ^ 24 → (∀ z, rm ≠ .sr z) → ∀ ftz,
       let e := ea - eb - FF.fp32.unit
       RoundsTo .fp32 rm false ftz (na != nb) (ma * 2 ^ e.toNat) (mb * 2 ^ (-e).toNat) (rounded .fp32 rm ftz (divX a b))))
  ∧ ∀ (rm : RM) (x y : Bool) (m : Nat) (e : Int) (a b c : FV),
     let inv : FV × Nat := (.nan false, fINV)
     let z : FV := .fin y m e
     (a.isNan = true ∨ b.isNan = true →
       ∀ r ∈ [addX rm a b, mulX a b, divX a b], r = (.nan false, if a.isSig || b.isSig then fINV else 0))
     ∧ addX rm (.inf x) (.inf y) = (if x = y then (.inf x, 0) else inv)
     ∧ addX rm (.inf x) z = (.inf x, 0) ∧ addX rm z (.inf x) = (.inf x, 0)
     ∧ mulX (.inf x) (.inf y) = (.inf (x != y), 0)
     ∧ (∀ r ∈ [mulX (.inf x) z, mulX z (.inf x)], r = if m = 0 then inv else (.inf (x != y), 0))
     ∧ divX (.inf x) (.inf y) = inv ∧ divX (.inf x) z = (.inf (x != y), 0) ∧ divX z (.inf x) = (.fin (y != x) 0 0, 0)
     ∧ ((mulX a b).1.isNan = true → fmaX rm a b c = (.nan false, (mulX a b).2 ||| if c.isSig then fINV else 0))
     ∧ (mulX a b = (.inf x, 0) → fmaX rm a b c = addX rm (.inf x) c)

/-- Minimum, maximum, sign operations and the class of a code (R223, R224); float compares write a predicate and raise INV
(R225). −0 stands before +0 in the order of R223; a single NaN gives way but in the .NAN forms; values compare exactly. -/
def Obligations.FloatSelects : Prop :=
  (∀ d a b : Reg,
     (∀ i isMax nanWins, (i, isMax, nanWins) ∈ [(Instr.fmin d a b, false, false), (.fmax d a b, true, false),
         (.fminNan d a b, false, true), (.fmaxNan d a b, true, true)] →
       SetsFlags i d (fun x l =>
         codeW (minmaxF .fp32 x.g.daz isMax nanWins (x.g.rd a l).toNat (x.g.rd b l).toNat)))
     ∧ (∀ i t isMax, (i, t, isMax) ∈ [(Instr.hmin2 d a b, FF.fp16, false), (.hmax2 d a b, .fp16, true),
         (.bmin2 d a b, .bf16, false), (.bmax2 d a b, .bf16, true)] →
       SetsFlags i d (fun x l =>
         let r (j : Nat) : Nat × Nat := minmaxF t x.g.daz isMax false ((x.g.rd a l).extractLsb' (16 * j) 16).toNat
           ((x.g.rd b l).extractLsb' (16 * j) 16).toNat
         (BitVec.ofNat 32 ((r 0).1 + 2 ^ 16 * (r 1).1), (r 0).2 ||| (r 1).2)))
     ∧ SetsUn (.fabs d a) d a (fun w => BitVec.ofNat 32 (w.toNat % 2 ^ 31))
     ∧ SetsUn (.fneg d a) d a (fun w => BitVec.ofNat 32 (w.toNat + 2 ^ 31))
     ∧ SetsUn (.fclass d a) d a (fun w =>
         let e := (w.extractLsb' 23 8).toNat
         let m := (w.extractLsb' 0 23).toNat
         if e = 255 ∧ m = 0 then (if w.msb then 1 else 0x80)
         else if e = 255 then (if w.getLsbD 22 then 0x200 else 0x100)
         else if e = 0 ∧ m = 0 then (if w.msb then 0x08 else 0x10)
         else if e = 0 then (if w.msb then 0x04 else 0x20)
         else if w.msb then 0x02 else 0x40))
  ∧ (∀ (p : BitVec 3) (a b : Reg),
     FloatCompares (.fcmpEq p a b) p a b true (fun u v => u.eq v)
     ∧ FloatCompares (.fcmpNe p a b) p a b true (fun u v => !u.eq v)
     ∧ FloatCompares (.fcmpLt p a b) p a b false (fun u v => u.lt v)
     ∧ FloatCompares (.fcmpLe p a b) p a b false (fun u v => u.lt v || u.eq v)
     ∧ FloatCompares (.fcmpUn p a b) p a b true (fun u v => u.isNan || v.isNan))
  ∧ (∀ f ∈ [FF.fp32, .fp16, .bf16], ∀ (daz isMax nanWins : Bool) (p q : Nat),
     let a := f.operand daz p
     let b := f.operand daz q
     let kept (c : Nat) : Nat :=
       if daz = true ∧ c / 2 ^ f.mbits % 2 ^ f.ebits = 0 then c / 2 ^ (f.width - 1) % 2 * 2 ^ (f.width - 1) else c % 2 ^ f.width
     let before (u v : FV) : Prop := u.lt v = true ∨ (u.isZero = true ∧ v.isZero = true ∧ u.sign = true ∧ v.sign = false)
     let r := minmaxF f daz isMax nanWins p q
     r.2 = (if a.isSig || b.isSig then fINV else 0)
     ∧ (a.isNan = true ∧ b.isNan = true ∨ (a.isNan = true ∨ b.isNan = true) ∧ nanWins = true → r.1 = f.nanCode)
     ∧ (nanWins = false → a.isNan = true → b.isNan = false → r.1 = kept q)
     ∧ (nanWins = false → a.isNan = false → b.isNan = true → r.1 = kept p)
     ∧ (a.isNan = false → b.isNan = false → (r.1 = kept p ∨ r.1 = kept q)
       ∧ (before a b → r.1 = if isMax then kept q else kept p) ∧ (before b a → r.1 = if isMax then kept p else kept q)))
  ∧ ∀ (x y : Bool) (m n : Nat) (d e k : Int),
     ((FV.inf x).lt (.inf y) = (x && !y)) ∧ ((FV.inf x).lt (.fin y m e) = x) ∧ ((FV.fin x m e).lt (.inf y) = !y)
     ∧ (0 ≤ d + k → 0 ≤ e + k → ((FV.fin x m d).lt (.fin y n e) = true ↔ scaled x m d k < scaled y n e k))
     ∧ ∀ u v : FV, (u.eq v = true ↔ u.isNan = false ∧ v.isNan = false ∧ u.lt v = false ∧ v.lt u = false)

/-- The special functions: each lane's FP32 operand, DAZ applied, gives a code and flags (R226). The special and exact cases
of the table of R227, and the flags of R226: a NaN gives the default NaN, with INV when it is signalling; an exact case sets
no flag but under FTZ; every other finite input sets INX, and RSQ gives 1 ÷ √a of it in the normal range. SINPI of −0 counts as a ≥ 0 (notes/assumptions/77.md). -/
def Obligations.SpecialFunctions : Prop :=
  (∀ d a : Reg,
    SetsSfu (.rcp d a) d a (fun x => rcpF (x.mode 0) x.g.ftz)
    ∧ SetsSfu (.sqrt d a) d a (fun x => sqrtF (x.mode 0) x.g.ftz)
    ∧ SetsSfu (.rsq d a) d a (fun x => rsqF x.g.ftz)
    ∧ SetsSfu (.exp2 d a) d a (fun x => exp2F x.g.ftz)
    ∧ SetsSfu (.log2 d a) d a (fun x => log2F x.g.ftz)
    ∧ SetsSfu (.sinpi d a) d a (fun x => sinpiF x.g.ftz)
    ∧ SetsSfu (.cospi d a) d a (fun x => cospiF x.g.ftz)
    ∧ SetsSfu (.tanh d a) d a (fun x => tanhF x.g.ftz)
    ∧ SetsSfu (.sigm d a) d a (fun x => sigmF x.g.ftz))
  ∧ (∀ (rm : RM) (ftz n : Bool) (e : Int),
    let sgn : Nat := if n then 2 ^ 31 else 0
    let nan : Nat × Nat := (0x7FC00000, fINV)
    (∀ f ∈ [rcpF rm ftz, sqrtF rm ftz, rsqF ftz, exp2F ftz, log2F ftz, sinpiF ftz, cospiF ftz, tanhF ftz, sigmF ftz],
        f (.nan n) = (0x7FC00000, if n then fINV else 0))
    ∧ rcpF rm ftz (.fin n 0 e) = (sgn + 0x7F800000, fDZ) ∧ rcpF rm ftz (.inf n) = (sgn, 0)
    ∧ (∀ v, rcpF rm ftz v = rounded .fp32 rm ftz (divX (.fin false 1 0) v))
    ∧ sqrtF rm ftz (.fin n 0 e) = (sgn, 0) ∧ sqrtF rm ftz (.inf n) = (if n then nan else (0x7F800000, 0))
    ∧ rsqF ftz (.fin n 0 e) = (sgn + 0x7F800000, fDZ) ∧ rsqF ftz (.inf n) = (if n then nan else (0, 0))
    ∧ exp2F ftz (.fin n 0 e) = (0x3F800000, 0) ∧ exp2F ftz (.inf n) = (if n then 0 else 0x7F800000, 0)
    ∧ log2F ftz (.fin n 0 e) = (0xFF800000, fDZ) ∧ log2F ftz (.inf n) = (if n then nan else (0x7F800000, 0))
    ∧ sinpiF ftz (.fin n 0 e) = (0, 0) ∧ sinpiF ftz (.inf n) = nan
    ∧ cospiF ftz (.fin n 0 e) = (0x3F800000, 0) ∧ cospiF ftz (.inf n) = nan
    ∧ tanhF ftz (.fin n 0 e) = (sgn, 0) ∧ tanhF ftz (.inf n) = (sgn + 0x3F800000, 0)
    ∧ sigmF ftz (.fin n 0 e) = (0x3F000000, 0) ∧ sigmF ftz (.inf n) = (if n then 0 else 0x3F800000, 0)
    ∧ ∀ m : Nat, m ≠ 0 →
      sqrtF rm ftz (.fin true m e) = nan ∧ rsqF ftz (.fin true m e) = nan ∧ log2F ftz (.fin true m e) = nan
      ∧ (tanhF ftz (.fin n m e)).2 ∈ [fINX, fUNF + fINX] ∧ (sigmF ftz (.fin n m e)).2 ∈ [fINX, fUNF + fINX]
      ∧ ((∀ k, m ≠ 2 ^ k) → (log2F ftz (.fin false m e)).2 ∈ [fINX, fUNF + fINX]))
  ∧ (∀ (ftz n : Bool) (k j : Nat),
    let sgn : Nat := if n then 2 ^ 31 else 0
    let v : FV := .fin n (k * 2 ^ j) (-j)
    let w : FV := .fin n ((2 * k + 1) * 2 ^ j) (-(j + 1))
    let i : Int := (k : Int) - j
    (1 ≤ k → k ≤ 127 → n = false → exp2F ftz v = ((127 + k) * 2 ^ 23, 0))
    ∧ (1 ≤ k → k ≤ 126 → n = true → exp2F ftz v = ((127 - k) * 2 ^ 23, 0))
    ∧ (127 ≤ k → k ≤ 149 → n = true → exp2F ftz v = if ftz then (0, fUNF + fINX) else (2 ^ (149 - k), 0))
    ∧ (128 ≤ k → n = false → exp2F ftz v = (0x7F800000, fOVF + fINX))
    ∧ (150 ≤ k → n = true → exp2F ftz v = (0, fUNF + fINX))
    ∧ (i.natAbs < 2 ^ 24 → log2F ftz (.fin false (2 ^ k) (-j)) = (rounded .fp32 .rne ftz (.fin (decide (i < 0)) i.natAbs 0, 0)))
    ∧ (1 ≤ k → sinpiF ftz v = (sgn, 0))
    ∧ sinpiF ftz w = ((if (k % 2 == 1) != n then 2 ^ 31 else 0) + 0x3F800000, 0)
    ∧ (1 ≤ k → cospiF ftz v = ((if k % 2 = 1 then 2 ^ 31 else 0) + 0x3F800000, 0))
    ∧ cospiF ftz w = (0, 0)
    ∧ (16 ≤ k → tanhF ftz v = (sgn + 0x3F800000, fINX))
    ∧ (∀ m : Nat, m % 2 ^ j ≠ 0 → (sinpiF ftz (.fin n m (-(j + 1)))).2 ∈ [fINX, fUNF + fINX]
        ∧ (cospiF ftz (.fin n m (-(j + 1)))).2 ∈ [fINX, fUNF + fINX])
    ∧ (∀ m : Nat, m % 2 ^ j ≠ 0 → n = true ∨ m < 128 * 2 ^ j → (exp2F ftz (.fin n m (-j))).2 ∈ [fINX, fUNF + fINX])
    ∧ (∀ m : Nat, 128 * 2 ^ j ≤ m → exp2F ftz (.fin false m (-j)) = (0x7F800000, fOVF + fINX))
    ∧ ∀ m : Nat, 150 * 2 ^ j ≤ m → exp2F ftz (.fin true m (-j)) = (0, fUNF + fINX))
  ∧ (∀ (ftz : Bool) (k : Nat), k ≤ 126 → rsqF ftz (FF.fp32.decode ((1 + 2 * k) * 2 ^ 23)) = ((190 - k) * 2 ^ 23, 0))
  ∧ ∀ (ftz : Bool) (m : Nat) (e : Int), 0 < m → m < 2 ^ 24 → -149 ≤ e → e ≤ 104 →
    (∀ k : Nat, m = 2 ^ k → ((k : Int) + e) % 2 = 0 →
      rsqF ftz (.fin false m e) = ((127 - ((k : Int) + e) / 2).toNat * 2 ^ 23, 0))
    ∧ ((∀ k : Nat, m = 2 ^ k → ((k : Int) + e) % 2 ≠ 0) → (rsqF ftz (.fin false m e)).2 = fINX
      ∧ ∃ (q : Nat) (x : Int), FF.fp32.decode (rsqF ftz (.fin false m e)).1 = .fin false q x ∧ 2 ^ 23 ≤ q
        ∧ ∀ k : Nat, 0 ≤ e + 2 * x - 2 + 2 * k →
          (2 * q - 1) ^ 2 * m * 2 ^ (e + 2 * x - 2 + 2 * k).toNat ≤ 2 ^ (2 * k)
          ∧ 2 ^ (2 * k) ≤ (2 * q + 1) ^ 2 * m * 2 ^ (e + 2 * x - 2 + 2 * k).toNat)

/-- Conversions: each element converted once, its flags raised, STOCH advanced in stochastic mode (R229 to R232); and the
microscaling words (R234, R235). One conversion follows R111 between float formats, R112 to an integer and R113 from one; a
scale is that of the greatest magnitude of its block, and elements saturate (R98). INV of a value that rounds out of an integer
type's range: notes/assumptions/78.md. -/
def Obligations.Conversions : Prop :=
  (∀ (rm : BitVec 3) (d a : Reg) (src : BitVec 3) (dst : BitVec 4) (sat : Bool),
    let one (x : Iss) (l : Nat) : Int × Nat :=
      convert (CT.ofCode src.toNat) (CT.ofCode dst.toNat) (x.cmode rm d l 0) (sat || satOf x.g x.p.hints) x.g.ftz x.g.daz
        sat ((x.g.rd a l).toNat % 2 ^ (CT.ofCode src.toNat).width)
    SetsCvt (if sat then .cvtSat rm d a src dst else .cvt rm d a src dst) rm d 1
      (fun x l _ => placed (CT.ofCode dst.toNat) (one x l).1)
      (fun x => x.flags d (fun l => (one x l).2)))
  ∧ (∀ (rm : BitVec 3) (d a : Reg) (src : BitVec 3) (dst : BitVec 4) (xi : Bool),
    let st : CT := if xi then .int (CT.ofXi src.toNat) else CT.ofCode src.toNat
    let dt : CT := CT.ofCode dst.toNat
    let n := 32 / min st.width dt.width
    let one (x : Iss) (l j : Nat) : Int × Nat :=
      convert st dt (x.cmode rm d l j) (satOf x.g x.p.hints) x.g.ftz x.g.daz false (x.g.elem a l st.width j)
    SetsCvt (if xi then .cvtXi rm d a src dst else .cvtPk rm d a src dst) rm d (n * dt.width / 32)
      (fun x l k => BitVec.ofNat 32 ((List.range (32 / dt.width)).foldl
        (fun v i => v + wrap dt.width (one x l (k * (32 / dt.width) + i)).1 * 2 ^ (i * dt.width)) 0))
      (fun x => x.flags d (fun l => (List.range n).foldl (fun v j => v ||| (one x l j).2) 0)))
  ∧ (∀ d a b : Reg,
    Sets (.mxscale d a b) d (fun x l => x.mxWord a (x.g.rd b 0) l)
    ∧ SetsFlags (.mxpack d a b) d (fun x l => mxPackW x.g.daz (x.g.rd a l) (x.g.rd b l)))
  ∧ (∀ (f g : FF) (t u : IT) (rm : RM) (satf ftz daz sat n : Bool) (c : Nat),
    let v := f.operand daz c
    let sign : Nat := if n then 2 ^ (g.width - 1) else 0
    (∀ r, roundFV g rm satf ftz v = r → convert (.float f) (.float g) rm satf ftz daz sat c = ((r.1 : Int), r.2))
    ∧ roundFV g rm satf ftz (.nan n) = (g.nanCode, if n = true ∨ g = .e2m1 then fINV else 0)
    ∧ roundFV g rm satf ftz (.inf n) = (if g = .e2m1 ∨ satf = true then (sign + g.maxCode, fINV)
        else if g = .e4m3 then (g.nanCode, fINV) else (sign + g.maxCode + 1, 0))
    ∧ (let r := convert (.float f) (.int t) rm satf ftz daz sat c
      (v.isNan = true → r = (0, fINV)) ∧ (∀ x, v = .inf x → r = (if x then t.lo else t.hi, fINV))
      ∧ ∀ x m e, v = .fin x m e → ∃ k, RoundsInt rm x (m * 2 ^ e.toNat) (2 ^ (-e).toNat) k
        ∧ (let i : Int := if x then -(k : Int) else k
          r = if i < t.lo then (t.lo, fINV) else if t.hi < i then (t.hi, fINV)
            else (i, if m * 2 ^ e.toNat % 2 ^ (-e).toNat = 0 then 0 else fINX)))
    ∧ (∀ r, roundFV g rm satf ftz (.fin (decide (t.value c < 0)) (t.value c).natAbs 0) = r →
        convert (.int t) (.float g) rm satf ftz daz sat c = ((r.1 : Int), r.2))
    ∧ convert (.int t) (.int u) rm satf ftz daz false c = (t.value c, 0)
    ∧ convert (.int t) (.int u) rm satf ftz daz true c = (if t.value c < u.lo then (u.lo, fSATI)
        else if u.hi < t.value c then (u.hi, fSATI) else (t.value c, 0)))
  ∧ (∀ (x : Iss) (a : Reg) (ctl : Word) (l : Nat),
    let len := if ctl.getLsbD 4 then 16 else 32
    let ef := ctl.toNat % 4
    let v (j : Nat) : FV := FF.fp32.operand x.g.daz (x.g.rd a j).toNat
    let block (j : Nat) : Prop := j ∈ x.lanes ∧ j / len = l / len
    ∃ k : Nat, x.mxWord a ctl l = BitVec.ofNat 32 (k + 256 * ef)
      ∧ ((∃ j, block j ∧ ((v j).isNan = true ∨ ∃ n, v j = .inf n)) → k = 255)
      ∧ ((∀ j, block j → (v j).isZero = true) → k = 0)
      ∧ ∀ p : Int, (∀ j, block j → ∃ n m e, v j = .fin n m e ∧ (FV.fin false m e).lt (.fin false 1 (p + 1)) = true) →
        (∃ j n m e, block j ∧ v j = .fin n m e ∧ (FV.fin false m e).lt (.fin false 1 p) = false) →
        k = (max 0 (min 254 (p - ([2, 8, 15, 0] : List Int).getD ef 0 + 127))).toNat)
  ∧ ∀ (daz : Bool) (a b : Word),
    let v := FF.fp32.operand daz a.toNat
    let sc := b.toNat % 256
    let ef := b.toNat / 256 % 4
    (sc = 255 ∨ v.isNan = true ∨ (∃ n, v = .inf n) → mxPackW daz a b = (0, 0))
    ∧ ∀ n m e, v = .fin n m e → sc ≠ 255 → ∃ r : Nat × Nat, mxPackW daz a b = (BitVec.ofNat 32 r.1, r.2)
      ∧ (∀ f, (ef, f) ∈ [(0, FF.e2m1), (1, .e4m3), (2, .e5m2)] →
        (m ≠ 0 → Rounds f .rne true false n m (e - (sc - 127)) r) ∧ (m = 0 → r = (if n then 2 ^ (f.width - 1) else 0, 0)))
      ∧ (ef = 3 → ∃ k : Nat,
        let y := m * 2 ^ (e - (sc - 127) + 6).toNat
        let d := 2 ^ (-(e - (sc - 127) + 6)).toNat
        let i : Int := if n then -(k : Int) else k
        RoundsInt .rne n y d k ∧ r = if i < -128 then (128, fOVF + fINX) else if 127 < i then (127, fOVF + fINX)
          else ((i % 256).toNat, if y % d = 0 then 0 else fINX))

/-! Lanes (R236 to R238). -/

/-- Lanes (R236 to R238): in a move every read comes before any write, from a lane that need not be active; reductions, scans
and votes are over the lanes that execute; a tree joins neighbours pairwise, an empty half passes the other on, and the flags are
those of all nodes (R116). -/
def Obligations.LaneOperations : Prop :=
  (∀ d a b : Reg,
     SetsRun (.slideup d a b) d 1 (fun x => x.lanes.filter (fun l => decide ((x.g.rd b 0).toNat ≤ l)))
       (fun x l _ => x.g.rd a (l - (x.g.rd b 0).toNat)) (fun _ => 0)
     ∧ SetsRun (.slidedn d a b) d 1 (fun x => x.lanes.filter (fun l => decide (l + (x.g.rd b 0).toNat < x.width)))
       (fun x l _ => x.g.rd a (l + (x.g.rd b 0).toNat)) (fun _ => 0)
     ∧ Sets (.shuf d a b) d (fun x l => x.g.rd a ((x.g.rd b l).toNat % x.width))
     ∧ Sets (.xshuf d a b) d (fun x l => x.g.rd a (l ^^^ ((x.g.rd b l).toNat % x.width)))
     ∧ Sets (.bcast d a b) d (fun x _ => x.g.rd a ((x.g.rd b 0).toNat % x.width))
     ∧ Sets (.rot d a b) d (fun x l => x.g.rd a ((l + x.width - (x.g.rd b 0).toNat % x.width) % x.width))
     ∧ Sets (.vtos d a b) d (fun x _ => x.g.rd a ((x.g.rd b 0).toNat % x.width))
     ∧ Sets (.first d a) d (fun x _ => x.g.rd a x.low))
  ∧ ((∀ d a : Reg,
     Sets (.radd d a) d (fun x _ => BitVec.ofNat 32 ((x.lanes.map (fun l => (x.g.rd a l).toNat)).sum))
     ∧ Sets (.rminS d a) d (fun x _ => x.fold a (fun u v => if v.toInt < u.toInt then v else u))
     ∧ Sets (.rmaxS d a) d (fun x _ => x.fold a (fun u v => if u.toInt < v.toInt then v else u))
     ∧ SetsRun (.fradd d a) d 1 Iss.lanes
       (fun x _ _ => BitVec.ofNat 32 (treeRoot (fun u v => rounded .fp32 (x.mode 0) x.g.ftz
         (addX (x.mode 0) (FF.fp32.decode u) (FF.fp32.decode v))) 6 (x.leaves a)).1)
       (fun x => (treeRoot (fun u v => rounded .fp32 (x.mode 0) x.g.ftz
         (addX (x.mode 0) (FF.fp32.decode u) (FF.fp32.decode v))) 6 (x.leaves a)).2)
     ∧ SetsRun (.frmax d a) d 1 Iss.lanes
       (fun x _ _ => BitVec.ofNat 32 (treeRoot (minmaxF .fp32 false true false) 6 (x.leaves a)).1)
       (fun x => (treeRoot (minmaxF .fp32 false true false) 6 (x.leaves a)).2)
     ∧ Sets (.pscanEx d a) d (fun x l =>
         BitVec.ofNat 32 (((x.lanes.filter (fun j => decide (j < l))).map (fun j => (x.g.rd a j).toNat)).sum))
     ∧ Sets (.pscanIn d a) d (fun x l =>
         BitVec.ofNat 32 (((x.lanes.filter (fun j => decide (j ≤ l))).map (fun j => (x.g.rd a j).toNat)).sum))
     ∧ SetsPair (.matchEq d a) d (fun x l => maskOf (x.lanes.filter (fun j => x.g.rd a j == x.g.rd a l))))
   ∧ (∀ (d : Reg) (k : BitVec 3), SetsPair (.ballot d k) d (fun x _ => x.g.pr k.toNat &&& x.act))
   ∧ ∀ d k : BitVec 3,
     SetsPred (.anyOf d k) d.toNat (fun x _ => decide (x.g.pr k.toNat &&& x.act ≠ 0)) (fun _ => 0)
     ∧ SetsPred (.allOf d k) d.toNat (fun x _ => decide (x.g.pr k.toNat &&& x.act = x.act)) (fun _ => 0))
  ∧ (∀ (f : Nat → Nat → Nat × Nat) (n : Nat) (l : List (Option Nat)), l.length = 2 ^ n →
     (l.all Option.isNone = true → treeRoot f n l = (0, 0))
     ∧ (∀ v, l = [some v] → treeRoot f n l = (v, 0))
     ∧ (∀ k, treeRoot f (n + k) l = treeRoot f n l)
     ∧ ∀ k, n = k + 1 →
       let a := l.take (2 ^ k)
       let b := l.drop (2 ^ k)
       let u := treeRoot f k a
       let v := treeRoot f k b
       treeRoot f n l = if b.all Option.isNone then u else if a.all Option.isNone then v
         else ((f u.1 v.1).1, (f u.1 v.1).2 ||| u.2 ||| v.2))
  ∧ ∀ (x : Iss) (a : Reg) (l : Nat), l < x.width →
     (x.leaves a)[l]? = some (if x.act.getLsbD l then
       some (if x.g.daz = true ∧ (x.g.rd a l).toNat / 2 ^ 23 % 2 ^ 8 = 0 then (x.g.rd a l).toNat / 2 ^ 31 * 2 ^ 31
         else (x.g.rd a l).toNat) else none)

/-! What retiring leaves, and control (R38 to R45, R180 to R185, R200 to R206). -/

/-- A retire changes the issuing group's paths by R42 and R43, its context's retire marks, and nothing else: every other
unit, every byte of memory and every register of the group is as the instruction left it. -/
def Obligations.RetireFrame : Prop :=
  ∀ (s : State) (x : Iss) (g : Grp) (pc : DWord),
    let t := s.retireTo x g pc
    t = { s with units := t.units, ctxs := t.ctxs }
    ∧ (∀ a, t.rb a = s.rb a)
    ∧ (∀ u, u ≠ x.u → find t.units u = find s.units u)
    ∧ (∃ h, find t.units x.u = some h
        ∧ h = { g with slotA := h.slotA, slotB := h.slotB, stack := h.stack, sinceFill := h.sinceFill, recAt := h.recAt })
    ∧ (∀ c k, find t.ctxs c = some k → ∃ k0, find s.ctxs c = some k0
        ∧ k = { k0 with hang := k.hang, deadlock := k.deadlock, lastPc := k.lastPc })

/-- Paths (R39, R42, R168). A path without a record that goes on at a PC stays in its slot, with no hint pending and no wait; so
does one whose split has no lane on one side. A split with lanes both ways takes a join record of index h that holds the lanes
of both, and the taken half goes on in its own slot; the other goes into the other slot where that is free, else into a deferred
record of index h + 1; without a record to take there is no split. A path that reaches the join of its record parks there, and
the last one settles it. An exit takes the lanes from the records of its chain, frees outward those left without lanes, and
settles the next where all its lanes have met. No deferred record waits for a slot in these clauses, but those of a split with a
free slot. -/
def Obligations.PathsSplitAndAdvance : Prop :=
  (∀ (g : Grp) (gen : Nat) (b : Bool) (p : Path) (pc : DWord),
     g.slot b = some p → p.link = none → g.pick gen = none →
     (g.goTo gen b pc).slot b = some { p with pc := pc, hints := [], wait := none, stall := 0, part := none }
       ∧ (g.goTo gen b pc).slot (!b) = g.slot (!b) ∧ (g.goTo gen b pc).stack = g.stack)
  ∧ (∀ (g : Grp) (gen : Nat) (b : Bool) (p : Path) (taken target fpc : DWord) (j : Nat),
     g.slot b = some p → g.slot (!b) = none → g.alloc = some j →
     taken &&& p.mask ≠ 0 → p.mask &&& ~~~(taken &&& p.mask) ≠ 0 →
     (∀ n, p.nrpc = some n → target ≠ n ∧ fpc ≠ n) → (p.nrpc = none → ∀ n, g.rpc p = some n → target ≠ n ∧ fpc ≠ n) →
     ∃ h, g.split gen b taken target fpc = some h
       ∧ h.slot b = some { pc := target, mask := taken &&& p.mask, link := some j, hnd := p.hnd, age := p.age }
       ∧ h.slot (!b) = some { pc := fpc, mask := p.mask &&& ~~~(taken &&& p.mask), link := some j, hnd := p.hnd }
       ∧ h.stack = put g.stack j (.join (p.nrpc.orElse (fun _ => g.rpc p)) p.mask 0 false p.link))
  ∧ (∀ (g : Grp) (gen : Nat) (b : Bool) (p : Path) (taken target fpc : DWord), g.slot b = some p →
     (taken &&& p.mask = 0 ∨ p.mask &&& ~~~(taken &&& p.mask) = 0 → p.link = none → g.pick gen = none →
       ∃ h, g.split gen b taken target fpc = some h ∧ h.slot (!b) = g.slot (!b) ∧ h.stack = g.stack
         ∧ h.slot b = some { p with
             pc := if taken &&& p.mask = 0 then fpc else target, nrpc := none, hints := [], wait := none, stall := 0,
             part := none })
     ∧ (taken &&& p.mask ≠ 0 → p.mask &&& ~~~(taken &&& p.mask) ≠ 0 → g.alloc = none →
       g.split gen b taken target fpc = none)
     ∧ ∀ (q : Path) (j : Nat), g.slot (!b) = some q → q.wait = none → g.alloc = some j →
       taken &&& p.mask ≠ 0 → p.mask &&& ~~~(taken &&& p.mask) ≠ 0 →
       (∀ n, p.nrpc = some n → target ≠ n) → (p.nrpc = none → ∀ n, g.rpc p = some n → target ≠ n) →
       (g.kern.pathstack ≤ j + 1 → g.split gen b taken target fpc = none)
       ∧ (j + 1 < g.kern.pathstack → ∃ h, g.split gen b taken target fpc = some h
         ∧ h.slot b = some { pc := target, mask := taken &&& p.mask, link := some j, hnd := p.hnd, age := p.age }
         ∧ h.slot (!b) = some q
         ∧ h.stack = put (put g.stack j (.join (p.nrpc.orElse (fun _ => g.rpc p)) p.mask 0 false p.link)) (j + 1)
             (.deferred fpc (p.mask &&& ~~~(taken &&& p.mask)) none none p.hnd (some j))))
  ∧ (∀ (g : Grp) (gen : Nat) (b : Bool) (p : Path) (pc total arr : DWord) (j : Nat) (hnd : Bool) (link : Option Nat),
     g.slot b = some p → p.link = some j → find g.stack j = some (.join (some pc) total arr hnd link) →
     (∀ e ∈ g.stack, e.2.accept gen = false) →
     let h := g.goTo gen b pc
     h.slot (!b) = g.slot (!b) ∧ (arr ||| p.mask ≠ total → h.slot b = none
       ∧ h.stack = put g.stack j (.join (some pc) total (arr ||| p.mask) (hnd || p.hnd) link))
     ∧ (arr ||| p.mask = total →
       (∀ k, link = some k → ∀ t a d n, find (del g.stack j) k ≠ some (.join (some pc) t a d n)) →
       h.slot b = some { pc := pc, mask := total, link := link, hnd := hnd || p.hnd } ∧ h.stack = del g.stack j))
  ∧ ∀ (g : Grp) (gen : Nat) (b : Bool) (p : Path) (ks : List Nat) (jpc : Nat → Option DWord) (total arr : Nat → DWord)
      (hnd : Nat → Bool) (link : Nat → Option Nat),
     g.slot b = some p → (∀ e ∈ g.stack, e.2.accept gen = false) → ks.Nodup → ks.length ≤ g.stack.length →
     p.link = ks.head? → (∀ i k, ks[i]? = some k → link k = ks[i + 1]?
       ∧ find g.stack k = some (.join (jpc k) (total k) (arr k) (hnd k) (link k))) →
     let live (k : Nat) : DWord := total k &&& ~~~p.mask
     let h := g.exitPath gen b
     let kept (k : Nat) : Prop := find h.stack k = some (.join (jpc k) (live k) (arr k) (hnd k) (link k))
     h.slot (!b) = g.slot (!b) ∧ (∀ k, k ∉ ks → find h.stack k = find g.stack k)
     ∧ (∀ k ∈ ks.takeWhile (fun k => live k == 0), find h.stack k = none)
     ∧ (ks.dropWhile (fun k => live k == 0) = [] → h.slot b = none)
     ∧ ∀ k r, ks.dropWhile (fun k => live k == 0) = k :: r → (∀ n ∈ r, kept n)
       ∧ (arr k ≠ live k ∨ jpc k = none → h.slot b = none ∧ kept k)
       ∧ ∀ pc, jpc k = some pc → arr k = live k → (∀ n, link k = some n → jpc n ≠ some pc) →
         h.slot b = some { pc := pc, mask := live k, link := link k, hnd := hnd k } ∧ find h.stack k = none

/-- Branches (R200). -/
def Obligations.Branches : Prop :=
  (∀ o : BitVec 20,
    TransfersWhen (.bra o) always (fun _ x => x.g) (fun _ x => x.target o)
    ∧ TransfersWhen (.brall o) (fun _ x => x.p0 = x.act) (fun _ x => x.g) (fun _ x => x.target o)
    ∧ TransfersWhen (.brall o) (fun _ x => x.p0 ≠ x.act) (fun _ x => x.g) (fun _ x => x.p.pc + 4)
    ∧ TransfersWhen (.brany o) (fun _ x => x.p0 ≠ 0) (fun _ x => x.g) (fun _ x => x.target o)
    ∧ TransfersWhen (.brany o) (fun _ x => x.p0 = 0) (fun _ x => x.g) (fun _ x => x.p.pc + 4)
    ∧ TransfersWhen (.brnone o) (fun _ x => x.p0 = 0) (fun _ x => x.g) (fun _ x => x.target o)
    ∧ TransfersWhen (.brnone o) (fun _ x => x.p0 ≠ 0) (fun _ x => x.g) (fun _ x => x.p.pc + 4)
    ∧ TransfersWhen (.branchCall o) always (fun _ x => x.g.wr2 126#7 x.lanes (fun _ => x.p.pc + 4))
        (fun _ x => x.target o))
  ∧ ∀ (k : BitVec 3) (o : BitVec 20) (g : Grp),
    EndsWhen (.brp k o)
      (fun s x => x.g.split (s.genOf x.g) x.b (x.g.pr k.toNat) (x.target o) (x.p.pc + 4) = some g)
      (fun s x => s.putU x.u g)
    ∧ EndsWhen (.brn k o)
      (fun s x => x.g.split (s.genOf x.g) x.b (~~~(x.g.pr k.toNat)) (x.target o) (x.p.pc + 4) = some g)
      (fun s x => s.putU x.u g)
    ∧ FaultsWhen (.brp k o)
      (fun s x => x.g.split (s.genOf x.g) x.b (x.g.pr k.toNat) (x.target o) (x.p.pc + 4) = none)
      (fun _ x => x.failPlain ⟨0x10, 0, 0⟩ x.low)

/-- Path control (R202) and transfers through a register (R203): a uniform transfer goes to the pair's value; a per-lane
one splits off the lanes that name the lowest lane's target, and the others execute it again, from the first hint of its
sequence (R43, R177); a target that is not a multiple of 4 faults. That the lanes split off have their targets checked
when they execute it again is deduced (notes/assumptions/79.md), and so is that a misaligned target's fault reports no
capability (94.md). -/
def Obligations.RegisterTransfers : Prop :=
  (∀ (i : Instr) (a : Reg), i ∈ [Instr.jmpr a, .ret a] →
    TransfersWhen i (fun _ x => a.isV = false ∧ (x.g.rd2 a x.low).toNat % 4 = 0) (fun _ x => x.g) (fun _ x => x.g.rd2 a x.low)
    ∧ FaultsWhen i (fun _ x => (x.g.rd2 a x.low).toNat % 4 ≠ 0)
        (fun _ x => x.failPlain ⟨0x04, 4, (x.g.rd2 a x.low).toNat⟩ x.low)
    ∧ ∀ g, EndsWhen i (fun s x => a.isV = true ∧ (x.g.rd2 a x.low).toNat % 4 = 0
          ∧ x.g.split (s.genOf x.g) x.b (maskOf (x.lanes.filter (fun l => x.g.rd2 a l == x.g.rd2 a x.low)))
              (x.g.rd2 a x.low) (x.p.pc - BitVec.ofNat 64 (4 * x.p.hints.length)) = some g)
        (fun s x => s.putU x.u g))
  ∧ (∀ d a : Reg,
    TransfersWhen (.callr d a) (fun _ x => a.isV = false ∧ (x.g.rd2 a x.low).toNat % 4 = 0)
      (fun _ x => x.g.wr2 d x.lanes (fun _ => x.p.pc + 4)) (fun _ x => x.g.rd2 a x.low)
    ∧ FaultsWhen (.callr d a) (fun _ x => (x.g.rd2 a x.low).toNat % 4 ≠ 0)
        (fun _ x => x.failPlain ⟨0x04, 4, (x.g.rd2 a x.low).toNat⟩ x.low)
    ∧ ∀ g,
      let m (x : Iss) : DWord := maskOf (x.lanes.filter (fun l => x.g.rd2 a l == x.g.rd2 a x.low))
      EndsWhen (.callr d a) (fun s x => a.isV = true ∧ (x.g.rd2 a x.low).toNat % 4 = 0
          ∧ (x.g.wr2 d (lanesOf x.width (m x)) (fun _ => x.p.pc + 4)).split (s.genOf x.g) x.b (m x) (x.g.rd2 a x.low)
              (x.p.pc - BitVec.ofNat 64 (4 * x.p.hints.length)) = some g)
        (fun s x => s.putU x.u g))
  ∧ (∀ (a : Reg) (imm : BitVec 9) (g : Grp),
    EndsWhen (.path a imm)
      (fun s x => x.g.split (s.genOf x.g) x.b (maskWhere x.width (fun l => x.g.rd a l != 0)) (x.offTarget imm)
        (x.p.pc + 4) = some g)
      (fun s x => s.putU x.u g))
  ∧ (∀ imm : BitVec 9,
    RetiresWith (.recMark imm) (fun _ x => x.setPath (fun p => { p with nrpc := some (x.offTarget imm) })))
  ∧ EndsWhen .pyield always (fun s x => s.putU x.u (x.pyield s))

/-- Special registers: SRD reads the register of R185 in each lane; SWR writes MODE, STATUS or STOCH (R99 to R102,
R204); CLOCK, ROLE and NOP (R57, R204, R206). A hint word joins the pending sequence of its path, which advances past it
(R177); SCHED also stalls it (R178). -/
def Obligations.SpecialRegisters : Prop :=
  ((∀ d n : Reg, RetiresWith (.srd d n) (fun s x => x.g.wr d x.lanes (fun l => s.special x n.toNat l)))
   ∧ (∀ a n : Reg, RetiresWith (.swr a n) (fun _ x =>
       let w := x.g.rd a 0
       if n = 6#7 then
         (if w.toNat / 64 = 0 ∧ 1 ≤ w.toNat % 8 ∧ w.toNat % 8 ≤ 5 then { x.g with mode := w } else x.g)
       else if n = 7#7 then (if w.toNat / 64 = 0 then { x.g with status := w } else x.g)
       else { x.g with stoch := w }))
   ∧ (∀ d : Reg, RetiresWith (.clock d) (fun s x => x.g.wr2 d x.lanes (fun _ => s.clockOf x.u)))
   ∧ (∀ r : BitVec 2, RetiresWith (.role r) (fun _ x => { x.g with role := r.toNat }))
   ∧ RetiresWith .nop (fun _ x => x.g)
   ∧ ∀ (s : State) (x : Iss) (l : Nat),
     (s.special x 0 l).toNat = l % 2 ^ 32 ∧ s.special x 6 l = x.g.mode ∧ s.special x 7 l = x.g.status
     ∧ s.special x 8 l = x.g.stoch ∧ s.special x 16 l = x.g.x.word ∧ s.special x 30 l = x.g.x.cause
     ∧ (s.special x 29 l ++ s.special x 28 l : BitVec 64) = x.g.x.pc)
  ∧ ((∀ i : Instr, (∃ h, i = .imm h) ∨ (∃ p n, i = .guard p n) ∨ (∃ r t, i = .rmode r t) ∨ (∃ a b, i = .chainop a b)
       ∨ (∃ h, i = .offhi h) ∨ (∃ k st m, i = .matx k st m) →
     EndsWhen i always (fun s x => s.putU x.u (x.setPath (fun p =>
       { p with pc := p.pc + 4, hints := p.hints ++ [x.w], wait := none, stall := max p.stall 0 }))))
   ∧ ∀ (n : BitVec 4) (y : BitVec 1) (r : BitVec 3),
     EndsWhen (.sched n y r) always (fun s x => s.putU x.u (x.setPath (fun p =>
       { p with pc := p.pc + 4, hints := p.hints ++ [x.w], wait := none, stall := max p.stall (s.now + n.toNat) }))))

/-! Traps and faults (R58, R59, R180 to R184, R435, R450, R481, R483). -/

/-- `trap_illegal()` of a group whose kernel declares a handler, with no path of it in the handler: the trap registers
hold the word, its address and the hints before it; the path goes on at the handler, in the same slot, marked (R180 to
R183). Without a handler, or in it, the trap is a context fault HANDLER_ILLEGAL (R59, R180). -/
def Obligations.TrapEntersHandler : Prop :=
  (∀ (s : State) (x : Iss) (g0 : Grp) (p : Path) (entry : DWord) (c : Nat),
     find s.units x.u = some g0 → isControl x.u = false → x.g.kern.handler = some entry → x.p.hnd = false →
     g0.otherInHandler x.b = false → x.g.slot x.b = some p → p.link = none → x.g.pick (s.genOf x.g) = none →
     ∃ h, find (s.trap x c).units x.u = some h
       ∧ h.x = trapRegs x.w x.p.hints x.p.pc c
       ∧ h.x.word = x.w ∧ h.x.pc = x.p.pc ∧ h.x.hw = x.p.hints ∧ h.x.cause = BitVec.ofNat 32 c
       ∧ h.slot x.b = some { p with pc := entry, hints := [], wait := none, stall := 0, part := none, hnd := true }
       ∧ h.v = x.g.v ∧ h.s = x.g.s ∧ h.p = x.g.p ∧ h.q = x.g.q ∧ h.mode = x.g.mode ∧ h.status = x.g.status
       ∧ (∀ a, (s.trap x c).rb a = s.rb a))
  ∧ (∀ (s : State) (x : Iss) (g0 : Grp) (c : Nat),
     find s.units x.u = some g0 → isControl x.u = false → (x.g.kern.handler = none ∨ x.p.hnd = true) →
     s.trap x c = s.raise x (x.failPlain ⟨0x13, 0, 0⟩ x.low))

/-- XRET returns from the handler, to the trapping instruction's first hint or past it, and clears the mark; elsewhere it
traps (R184). BRK traps with cause 4 (R180). -/
def Obligations.HandlerReturn : Prop :=
  TransfersWhen .xretSkip (fun _ x => x.p.hnd = true ∧ isControl x.u = false)
    (fun _ x => x.setPath (fun p => { p with hnd := false })) (fun _ x => x.g.x.pc + 4)
  ∧ TransfersWhen .xretRetry (fun _ x => x.p.hnd = true ∧ isControl x.u = false)
    (fun _ x => x.setPath (fun p => { p with hnd := false }))
    (fun _ x => x.g.x.pc - BitVec.ofNat 64 (4 * (x.g.x.hints.toNat % 8)))
  ∧ (∀ i ∈ [Instr.xretSkip, .xretRetry], TrapsWhen i (fun _ x => x.p.hnd = false) 0)
  ∧ ∀ code : Reg, TrapsWhen (.brk code) always 4

/-- The checks of R481 in their order: a privileged major at level U takes cause PRIVILEGED, an illegal encoding cause
ILLEGAL, a hint sequence that does not fit cause HINT, and no instruction then has another effect. A word that encodes no
instruction takes cause ILLEGAL (R169); one of the FP64 majors, which no core implements, cause UNIMPL (R175). A word that
cannot be fetched is the fault of that fetch (R75). That the fault of a fetch reports the program capability with QREG 15
is deduced (notes/assumptions/69.md). -/
def Obligations.RefusalsTrap : Prop :=
  (∀ (i : Sig) (s : State) (x : Iss) (body : Iss → State → Res), s.issuer i.w = some x →
     (privileged (major x.w) = true → x.g.level = .user → issue i s body = .next (s.trap x 3))
     ∧ ((privileged (major x.w) = false ∨ x.g.level = .kernel) → major x.w ≠ 0x3F →
         (legal s x i = false → issue i s body = .next (s.trap x 0))
         ∧ (legal s x i = true → hintsFit i x.p.hints = false → issue i s body = .next (s.trap x 1))))
  ∧ (∀ (w : Word) (s : State) (x : Iss), s.issuer w = some x → (privileged (major w) = false ∨ x.g.level = .kernel) →
     exec (.illegalEncoding w) s = .next (s.trap x 0))
  ∧ (∀ (rm : BitVec 3) (d a b : Reg) (i : Instr),
     i ∈ [Instr.dadd rm d a b, .dsub rm d a b, .dmul rm d a b, .ddiv rm d a b, .dfma rm d a b, .dfms rm d a b,
       .dfnma rm d a b] →
     ∀ s x, s.issuer (wordOf i) = some x → legal s x (Instr.sig i) = true → hintsFit (Instr.sig i) x.p.hints = true →
       exec i s = .next (s.trap x 2))
  ∧ (∀ (s : State) (x : Iss) (f : Fail), s.issuer 0 = some x → fetch s x.g x.p = .error f →
      exec .instructionFetchFault s = .next (s.raise x
        (match capCheck x.g.pcc ((x.p.pc.toNat : Int) - x.g.pcc.cursor) 4 pEXEC with
          | .error _ => x.info f x.low (some (x.g.pcc, 15))
          | .ok _ => x.failPlain f x.low)))

/-- A context fault of a group raises the halt of its context: the fault is recorded, SEQ advances, the unit stops with
its path back at the first hint of the instruction, and its registers are kept (R58, R436). -/
def Obligations.FaultHaltsContext : Prop :=
  ∀ (s : State) (x : Iss) (f : FaultInfo) (g : Grp) (c : Nat) (k : Ctx),
    f.code ≠ noAnswer → find s.units x.u = some g → isControl x.u = false → g.ctx = some c → g.regrow = none →
    find s.ctxs c = some k → k.state = .running →
    (∀ p, g.slotA = some p ∨ g.slotB = some p → p.part = none) →
    let t := s.raise x f
    find t.ctxs c = some { k with state := .halting, fault := some f, seq := (k.seq + 1) % 65536 }
    ∧ (∃ h, find t.units x.u = some h ∧ h.stopped = true ∧ h.v = g.v ∧ h.s = g.s ∧ h.p = g.p ∧ h.q = g.q
        ∧ h.slotA = g.slotA.map Path.rewound ∧ h.slotB = g.slotB.map Path.rewound)
    ∧ (∀ u, u ≠ x.u → find t.units u = find s.units u)
    ∧ ∀ a, t.rb a = s.rb a

/-- A thread at level U that traps re-enters level K: the U bank keeps its PC and registers, the K bank goes on after its
ERET with cause 1 in the register that ERET named (R450). A trap at level K: the path goes to KVEC, marked; without KVEC,
or in that handler, the thread stops for ever (R483). SEQ and XCAUSE that R483 leaves open are free
(notes/assumptions/15.md). -/
def Obligations.ThreadTraps : Prop :=
  (∀ (s : State) (x : Iss) (g0 : Grp) (k : Bank) (p : Path) (r c : Nat),
     find s.units x.u = some g0 → isControl x.u = true → x.g.level = .user → x.g.bank = some k → x.g.slotA = some p →
     x.g.eretRd = some r →
     ∃ h b, find (s.trap x c).units x.u = some h ∧ h.level = .kernel ∧ h.v = k.v ∧ h.p = k.p ∧ h.pcc = k.pcc
       ∧ look 0 h.s r = 1 ∧ (∀ n, n ≠ r → look 0 h.s n = look 0 k.s n)
       ∧ h.slotA = some { p with pc := k.pc, hints := [], wait := none, stall := 0, part := none, hnd := k.hnd }
       ∧ h.bank = some b ∧ b.pc = x.p.pc ∧ b.v = x.g.v ∧ b.s = x.g.s ∧ b.p = x.g.p)
  ∧ (∀ (s : State) (x : Iss) (g0 : Grp) (c : Nat),
     find s.units x.u = some g0 → isControl x.u = true → x.g.level = .kernel →
     (x.g.ownR 0x0603 ≠ 0 → x.p.hnd = false → ∃ h, find (s.trap x c).units x.u = some h
         ∧ h.slotA = some { x.p with pc := x.g.ownR 0x0603, hints := [], wait := none, stall := 0, part := none, hnd := true }
         ∧ h.x = trapRegs x.w x.p.hints x.p.pc c ∧ h.dead = x.g.dead)
     ∧ (x.g.ownR 0x0603 = 0 ∨ x.p.hnd = true → ∃ h, find (s.trap x c).units x.u = some h ∧ h.dead = true))

/-! Capabilities (R61 to R75, R207 to R209). -/

/-- The capability instructions write one q register, one register or pair, or the quads of the lanes that execute.
CINVOKE through a sealed entry of a reconverged group transfers to it: the program capability becomes the entry, unsealed,
and the destination the sealed return (R75). The order of CINVOKE's checks is deduced (notes/assumptions/20.md). -/
def Obligations.CapabilityResults : Prop :=
  ((∀ (d q a : BitVec 4) (r : Reg),
     RetiresWith (.csetb d r q) (fun _ x => x.g.qw d.toNat (setb (x.g.qr q.toNat) (x.g.rd2 r 0).toNat false))
     ∧ RetiresWith (.csetbx d r q) (fun _ x => x.g.qw d.toNat (setb (x.g.qr q.toNat) (x.g.rd2 r 0).toNat true))
     ∧ RetiresWith (.candp d r q) (fun _ x =>
         x.g.qw d.toNat ((x.g.qr q.toNat).withPerms ((x.g.rd r 0).toNat % 2 ^ 16 / 2 * 2)))
     ∧ RetiresWith (.cinc d r q) (fun _ x =>
         x.g.qw d.toNat ((x.g.qr q.toNat).withCursor ((x.g.qr q.toNat).cursor + (x.g.rd2 r 0).toNat)))
     ∧ RetiresWith (.cseta d r q) (fun _ x => x.g.qw d.toNat ((x.g.qr q.toNat).withCursor (x.g.rd2 r 0).toNat))
     ∧ RetiresWith (.cmov d q) (fun _ x => x.g.qw d.toNat (x.g.qr q.toNat))
     ∧ RetiresWith (.cmovFromLane d r) (fun _ x => x.g.qw d.toNat (x.g.quad r x.low))
     ∧ RetiresWith (.cmovToLanes r q) (fun _ x => x.g.quadLanes r (x.g.qr q.toNat) x.lanes)
     ∧ RetiresWith (.cclr d) (fun _ x => x.g.qw d.toNat Cap.null)
     ∧ RetiresWith (.cseal d a q) (fun _ x => x.g.qw d.toNat (cseal (x.g.qr a.toNat) (x.g.qr q.toNat)))
     ∧ RetiresWith (.cunseal d a q) (fun _ x => x.g.qw d.toNat (cunseal (x.g.qr a.toNat) (x.g.qr q.toNat)))
     ∧ RetiresWith (.cseale d q) (fun _ x => x.g.qw d.toNat (cseale (x.g.qr q.toNat))))
   ∧ ∀ (d : Reg) (a q : BitVec 4),
     SetsPair (.cgetb d q) d (fun x _ => BitVec.ofInt 64 (x.g.qr q.toNat).base)
     ∧ SetsPair (.cgetl d q) d (fun x _ => BitVec.ofInt 64 ((x.g.qr q.toNat).top - (x.g.qr q.toNat).base))
     ∧ SetsPair (.cgetbCur d q) d (fun x _ => (x.g.qr q.toNat).bits.extractLsb' 64 64)
     ∧ Sets (.cgetp d q) d (fun x _ => ((x.g.qr q.toNat).bits.extractLsb' 48 16).setWidth 32)
     ∧ Sets (.cgeto d q) d (fun x _ => ((x.g.qr q.toNat).bits.extractLsb' 36 12).setWidth 32)
     ∧ Sets (.cgett d q) d (fun x _ => if (x.g.qr q.toNat).tag then 1 else 0)
     ∧ Sets (.ctstsub d a q) d (fun x _ => if subCap (x.g.qr a.toNat) (x.g.qr q.toNat) then 1 else 0))
  ∧ (∀ d q : BitVec 4,
     TransfersWhen (.cinvoke d q)
       (fun _ x => x.g.reconverged = true ∧ (x.g.qr q.toNat).tag = true ∧ (x.g.qr q.toNat).otype = 7
         ∧ (x.g.qr q.toNat).has pEXEC = true ∧ (x.g.qr q.toNat).cursor % 4 = 0)
       (fun s x => { x.g.qw d.toNat (cseale (x.g.pcc.withCursor (x.p.pc + 4).toNat)) with
         pcc := (x.g.qr q.toNat).withOtype 0 true
         pccAt := s.farOf 7 x.g.vd (wrap 64 (x.g.qr q.toNat).base) })
       (fun _ x => BitVec.ofNat 64 (x.g.qr q.toNat).cursor)
     ∧ TrapsWhen (.cinvoke d q) (fun _ x => x.g.reconverged = false) 0)

/-- CSETB and CSETBX set bounds by the smallest exponent that holds them, rounded outward, and the tag stays only when the new
bounds lie in the source's, and for CSETBX are those asked for; a length of 0 gives bounds that nothing accesses (R65). So no
derivation gains authority: what CSETB, CSETBX, CINC, CSETA and CANDP return with its tag set came from a tagged, unsealed
source, lies in its bounds, and holds no permission that the source lacks. -/
def Obligations.Derivations : Prop :=
  (∀ (c : Cap) (len : Nat) (exact : Bool), len < 2 ^ 64 →
     let b := c.cursor
     let t := b + len
     let up (n e : Nat) : Nat := (n + 2 ^ e - 1) / 2 ^ e
     let fits (e : Nat) : Prop := up t e - b / 2 ^ e ≤ 2 ^ 15 - 1
     let r := setb c len exact
     ∃ e, fits e ∧ (∀ k, k < e → ¬fits k)
       ∧ r.cursor = b ∧ r.perms = c.perms ∧ r.otype = c.otype ∧ r.ex = e
       ∧ r.bm = b / 2 ^ e % 2 ^ 15 ∧ r.lm = up t e - b / 2 ^ e
       ∧ (r.tag = true ↔ c.tag = true ∧ c.otype = 0 ∧ e ≤ 49 ∧ c.base ≤ ((b / 2 ^ e * 2 ^ e : Nat) : Int)
           ∧ ((up t e * 2 ^ e : Nat) : Int) ≤ c.top
           ∧ (exact = true → b / 2 ^ e * 2 ^ e = b ∧ up t e * 2 ^ e = t))
       ∧ (len = 0 → r.base = b ∧ r.top = b
           ∧ ∀ (off : Int) (size perm va : Nat), size ≠ 0 → capCheck r off size perm ≠ .ok va))
  ∧ (∀ (d q : BitVec 4) (r : Reg),
     RetiresWith (.csetb d r q) (fun _ x => x.g.qw d.toNat (setb (x.g.qr q.toNat) (x.g.rd2 r 0).toNat false))
     ∧ RetiresWith (.csetbx d r q) (fun _ x => x.g.qw d.toNat (setb (x.g.qr q.toNat) (x.g.rd2 r 0).toNat true)))
  ∧ ∀ (c : Cap) (n : Nat) (exact : Bool) (d : Cap), d ∈ [setb c n exact, c.withCursor n, c.withPerms n] → d.tag = true →
     c.tag = true ∧ c.otype = 0 ∧ d.otype = 0 ∧ c.base ≤ d.base ∧ d.top ≤ c.top ∧ d.perms &&& c.perms = d.perms

/-- What `cap_check` and `obj_check` pass and refuse, and which failure comes first (R66). That the failures before an
address exists report ADDR 0 is deduced (notes/assumptions/80.md). -/
def Obligations.CapabilityCheck : Prop :=
  ∀ (c : Cap) (off : Int) (size perm otype : Nat), perm < 2 ^ 16 → otype < 256 →
    let a : Int := c.cursor + off
    let holds : Prop := perm &&& c.perms = perm
    let lowest (k : Nat) : Prop := perm.testBit k = true ∧ c.perms.testBit k = false
      ∧ ∀ j, j < k → perm.testBit j = true → c.perms.testBit j = true
    (c.tag = false → capCheck c off size perm = .error ⟨0x01, 0, 0⟩)
    ∧ (c.tag = true → c.otype ≠ 0 → capCheck c off size perm = .error ⟨0x02, 0, 0⟩)
    ∧ (c.tag = true → c.otype = 0 → ¬holds → ∃ k, lowest k ∧ capCheck c off size perm = .error ⟨0x03, k, 0⟩)
    ∧ (c.tag = true → c.otype = 0 → holds → ¬(c.base ≤ a ∧ a + size ≤ c.top) →
        capCheck c off size perm = .error ⟨0x04, if size ≤ 16 then size else 0x20, (a % 2 ^ 64).toNat⟩)
    ∧ (c.tag = true → c.otype = 0 → holds → c.base ≤ a ∧ a + size ≤ c.top →
        capCheck c off size perm = .ok (a % 2 ^ 64).toNat)
    ∧ (c.tag = false → objCheck c otype perm = .error ⟨0x01, 0, 0⟩)
    ∧ (c.tag = true → c.otype ≠ otype → objCheck c otype perm = .error ⟨0x02, otype, 0⟩)
    ∧ (c.tag = true → c.otype = otype → ¬holds → ∃ k, lowest k ∧ objCheck c otype perm = .error ⟨0x03, k, 0⟩)
    ∧ (c.tag = true → c.otype = otype → holds → ∃ v, objCheck c otype perm = .ok v)

/-! Global memory (R121, R147, R248, R251 to R256). -/

/-- Loads (R248): when every lane's checks and translations pass and nothing is waited for, each lane's bytes go to the
destination, extended by the form, in a step that makes all of them (R146); a uniform form makes the lowest lane's access, once
for all lanes. Where no lane is in a transaction, this keeps
the state and the group, and each lane's value is the bytes of its place, lowest address first (R3). What the caches and the
arbiters then note changes no unit and no system register, and no byte of memory that is not a registered tile's storage or
descriptor (R318). -/
def Obligations.Loads : Prop :=
  (∀ (i : Instr) (d o : Reg) (q : BitVec 4) (d5 : BitVec 5) (size regs : Nat) (ext : Nat → Nat → Word),
     (i, size, regs, ext) ∈ [(Instr.ldB d o q d5, 1, 1, fun v _ => BitVec.ofNat 32 v),
       (.ldSb d o q d5, 1, 1, fun v _ => (BitVec.ofNat 8 v).signExtend 32),
       (.ldH d o q d5, 2, 1, fun v _ => BitVec.ofNat 32 v),
       (.ldSh d o q d5, 2, 1, fun v _ => (BitVec.ofNat 16 v).signExtend 32),
       (.ldW d o q d5, 4, 1, fun v _ => BitVec.ofNat 32 v),
       (.ldD d o q d5, 8, 2, fun v k => BitVec.ofNat 32 (v / 2 ^ (32 * k))),
       (.ldQ d o q d5, 16, 4, fun v k => BitVec.ofNat 32 (v / 2 ^ (32 * k)))] →
     ∀ s x ps, Runs i s x → Whole s x → x.places s (accessAsk x o q d5 size false) x.lanes = .ok ps →
       let as := onePlace d.isV ps
       let made := if d.isV then ps else ps.take 1
       x.gate s true as made = none →
       exec i s = .next (((loadLanes s x.g as).1.touchLanes x.ag false made).retireTo x
         ((loadLanes s x.g as).2.1.wrRun d x.lanes
           (fun l k => ext (look 0 (loadLanes s x.g as).2.2 (x.valLane d l)) k) regs) (x.p.pc + 4)))
  ∧ (∀ (s : State) (g : Grp) (as : List LaneAt), (∀ a ∈ as, g.isOpen a.lane = false) →
     let r := loadLanes s g as
     r.1 = s ∧ r.2.1 = g ∧ r.2.2 = as.map (fun a => (a.lane, s.rkeys a.pl.keys)))
  ∧ (∀ (a : LaneAt) (as : List LaneAt), onePlace true as = as
     ∧ onePlace false (a :: as) = a :: as.map (fun b => { b with pl := a.pl }))
  ∧ (∀ (s : State) (ag : Ag) (write : Bool) (as : List LaneAt),
     let t := s.touchLanes ag write as
     t.units = s.units ∧ t.sys = s.sys
     ∧ (s.tiles = [] → (∀ k, t.rb k = s.rb k) ∧ ∀ k, t.tagR k = s.tagR k)
     ∧ ∀ k, (∀ e ∈ s.tiles, ¬(tileKey e.lo ≤ k ∧ k < tileKey e.lo + e.len) ∧ ¬(e.desc + 26 ≤ k ∧ k < e.desc + 48)) →
         t.rb k = s.rb k)

/-- Stores (R147, R248): when every lane's checks and translations pass and nothing is waited for, the lanes store the
low bytes of their registers in ascending order, in a step that makes all of them (R146). Lanes in a transaction aside, a
byte that no lane's place holds reads as before; the tag of a granule stored to is clear; the bytes of the last lane are
there; the group is kept (R70). Where no tile is registered, what the caches and arbiters then note changes no byte and no
tag (R318). -/
def Obligations.Stores : Prop :=
  (∀ (i : Instr) (d o : Reg) (q : BitVec 4) (d5 : BitVec 5) (size regs : Nat),
     (i, size, regs) ∈ [(Instr.stB d o q d5, 1, 1), (.stH d o q d5, 2, 1), (.stW d o q d5, 4, 1), (.stD d o q d5, 8, 2),
       (.stQ d o q d5, 16, 4)] →
     ∀ s x ps, Runs i s x → Whole s x → x.places s (accessAsk x o q d5 size true) x.lanes = .ok ps →
       let as := onePlace (d.isV || o.isV) ps
       let made := if d.isV || o.isV then ps else ps.take 1
       x.gate s true as made = none →
       exec i s = .next (((storeLanes (fun l => leBytes (x.g.runVal d l regs) size) s x.g as).1.touchLanes x.ag true made).retireTo
         x (storeLanes (fun l => leBytes (x.g.runVal d l regs) size) s x.g as).2 (x.p.pc + 4)))
  ∧ (∀ (s : State) (ag : Ag) (g : Grp) (bytes : Nat → List Byte) (as : List LaneAt),
     (∀ a ∈ as, g.isOpen a.lane = false ∧ g.isDoomed a.lane = false ∧ (bytes a.lane).length = a.pl.keys.length) →
     let r := storeLanes bytes s g as
     let t := r.1.touchLanes ag true as
     r.2 = g
     ∧ (∀ k, (∀ a ∈ as, k ∉ a.pl.keys) → r.1.rb k = s.rb k)
     ∧ (∀ a ∈ as, ∀ k ∈ a.pl.keys, r.1.tagR k = false)
     ∧ (∀ a, as.getLast? = some a → a.pl.keys.Nodup →
         ∀ (n k : Nat) (b : Byte), a.pl.keys[n]? = some k → (bytes a.lane)[n]? = some b → r.1.rb k = b)
     ∧ (s.tiles = [] → (∀ k, t.rb k = r.1.rb k) ∧ ∀ k, t.tagR k = r.1.tagR k))

/-- Capability loads and stores (R252, R253). -/
def Obligations.CapabilityMemory : Prop :=
  ∀ (d o : Reg) (q : BitVec 4) (d5 : BitVec 5),
    (∀ s x ps, Runs (.ldc d o q d5) s x → x.places s (capLoadAsk x o q d5) x.lanes = .ok ps →
      let as := onePlace d.isV ps
      let made := if d.isV then ps else ps.take 1
      x.gate s true as made = none →
      let r := loadLanes s x.g as
      let got := as.map (fun a => (a.lane, s.swept x.g.vd
        ⟨BitVec.ofNat 128 (look 0 r.2.2 a.lane), ldcTag s x.g (x.g.qr q.toNat) a⟩))
      exec (.ldc d o q d5) s
        = .next ((r.1.touchLanes x.ag false made).retireTo x (r.2.1.holdLanes d (if d.isV then got else got.take 1)) (x.p.pc + 4)))
    ∧ (∀ s x as, Runs (.stc d o q d5) s x →
      x.places s (capStoreAsk x d o q d5) x.lanes = .ok as → x.gate s false as = none →
      exec (.stc d o q d5) s
        = .next (((stcLanes x.g.vd (x.holder d) s x.g as).touchLanes x.ag true as).retireTo x (x.excluded (d.isV || o.isV) as) (x.p.pc + 4)))

/-- A lane whose check fails faults before any lane has accessed anything: the lowest failing lane's fault (R121,
R248). -/
def Obligations.AccessFaults : Prop :=
  ∀ (d o : Reg) (q : BitVec 4) (d5 : BitVec 5) (f : FaultInfo),
    (∀ e ∈ [(Instr.ldB d o q d5, 1), (.ldSb d o q d5, 1), (.ldH d o q d5, 2), (.ldSh d o q d5, 2), (.ldW d o q d5, 4),
        (.ldD d o q d5, 8), (.ldQ d o q d5, 16)],
      FaultsWhen e.1 (fun s x => x.p.part = none ∧ x.places s (accessAsk x o q d5 e.2 false) x.lanes = .error f)
        (fun _ _ => f))
    ∧ (∀ e ∈ [(Instr.stB d o q d5, 1), (.stH d o q d5, 2), (.stW d o q d5, 4), (.stD d o q d5, 8), (.stQ d o q d5, 16)],
      FaultsWhen e.1 (fun s x => x.p.part = none ∧ x.places s (accessAsk x o q d5 e.2 true) x.lanes = .error f)
        (fun _ _ => f))

/-- Returning atomics (R127, R128, R255, R256): in ascending lane order each request reads memory and writes the new
value; the destination takes the value read. One request: the value read is what memory held, and
memory then holds the low bytes of the new value there, or what it held, and elsewhere what it held (R70). -/
def Obligations.Atomics : Prop :=
  (∀ (d a : Reg) (o : BitVec 3) (q : BitVec 4) (i : Instr) (size regs : Nat) (f : Iss → Nat → Nat → Option Nat),
     (i, size, regs, f) ∈ [
       (Instr.aadd d a o q, 4, 1, fun x l m => some (m + (x.g.rd d l).toNat)),
       (.aminS d a o q, 4, 1, fun x l m => some (if sint 32 (x.g.rd d l).toNat < sint 32 m then (x.g.rd d l).toNat else m)),
       (.amaxS d a o q, 4, 1, fun x l m => some (if sint 32 m < sint 32 (x.g.rd d l).toNat then (x.g.rd d l).toNat else m)),
       (.aminN d a o q, 4, 1, fun x l m => some (min m (x.g.rd d l).toNat)),
       (.amaxN d a o q, 4, 1, fun x l m => some (max m (x.g.rd d l).toNat)),
       (.aand d a o q, 4, 1, fun x l m => some (m &&& (x.g.rd d l).toNat)),
       (.aor d a o q, 4, 1, fun x l m => some (m ||| (x.g.rd d l).toNat)),
       (.axor d a o q, 4, 1, fun x l m => some (m ^^^ (x.g.rd d l).toNat)),
       (.axchg d a o q, 4, 1, fun x l _ => some (x.g.rd d l).toNat),
       (.acas d a o q, 4, 1, fun x l m =>
         if m = (x.g.rd d l).toNat then some (x.g.rd (Reg.plus d 1) l).toNat else none),
       (.afadd d a o q, 4, 1, fun x l m => some (bankAdd .fp32 m (x.g.rd d l).toNat)),
       (.abfadd2 d a o q, 4, 1, fun x l m => some (bankAdd2 m (x.g.rd d l).toNat)),
       (.axchgW d a o q, 8, 2, fun x l _ => some (x.g.rd2 (Reg.plus d 0) l).toNat),
       (.acasW d a o q, 8, 2, fun x l m =>
         if m = (x.g.rd2 (Reg.plus d 0) l).toNat then some (x.g.rd2 (Reg.plus d 2) l).toNat else none)] →
     ∀ s x as, Runs i s x →
       x.places s (atomicAsk x a q size true) (if d.isV || a.isV then x.lanes else [x.low]) = .ok as →
       x.gate s false as = none →
       let r := atomLanes size (f x) s as
       exec i s = .next ((r.1.touchLanes x.ag true as).retireTo x
         ((x.excluded (d.isV || a.isV) as).wrRun d x.lanes (fun l k => wordAt (look 0 r.2 (x.valLane d l)) k) regs) (x.p.pc + 4)))
  ∧ (∀ (s : State) (size : Nat) (f : Nat → Nat → Option Nat) (a : LaneAt),
     a.pl.keys.Nodup → a.pl.keys.length = size →
     let r := atomLanes size f s [a]
     let m := s.rkeys a.pl.keys
     r.2 = [(a.lane, m)]
     ∧ (∀ k, k ∉ a.pl.keys → r.1.rb k = s.rb k)
     ∧ (∀ v, f a.lane m = some v → ∀ n k, a.pl.keys[n]? = some k → r.1.rb k = BitVec.ofNat 8 (v / 256 ^ n))
     ∧ (f a.lane m = none → ∀ k, r.1.rb k = s.rb k))
  ∧ ∀ (f : FF) (u v : Nat), bankAdd f u v = (roundFV f .rne false false (addX .rne (f.decode u) (f.decode v)).1).1
     ∧ (u < 2 ^ 32 → v < 2 ^ 32 → bankAdd2 u v % 2 ^ 16 = bankAdd .bf16 (u % 2 ^ 16) (v % 2 ^ 16)
       ∧ bankAdd2 u v / 2 ^ 16 = bankAdd .bf16 (u / 2 ^ 16) (v / 2 ^ 16))

/-- Reductions that return nothing (R129, R255, R256): each address once, over all requests made of it. At one address, in
whatever order the requests are combined: memory then holds the sum of what it held and of all the operands, or the least or
the greatest of them read signed, in its low 32 bits, and every other byte is as it was. One request adds by the bank's
addition to what memory held. -/
def Obligations.Reductions : Prop :=
  (∀ (d a : Reg) (o : BitVec 3) (q : BitVec 4) (i : Instr) (perLane : Bool) (v : Iss → Nat → Nat) (f : Nat → Nat → Nat),
    (i, perLane, v, f) ∈ [
      (Instr.rdadd d a o q, d.isV || a.isV, (fun x l => (x.g.rd d l).toNat), fun u w => u + w),
      (.rdmin d a o q, d.isV || a.isV, (fun x l => (x.g.rd d l).toNat), fun u w => if sint 32 w < sint 32 u then w else u),
      (.rdmax d a o q, d.isV || a.isV, (fun x l => (x.g.rd d l).toNat), fun u w => if sint 32 u < sint 32 w then w else u),
      (.rdfadd d a o q, d.isV || a.isV, (fun x l => (x.g.rd d l).toNat), bankAdd .fp32),
      (.rdbfadd2 d a o q, d.isV || a.isV, (fun x l => (x.g.rd d l).toNat), bankAdd2),
      (.rdinc a o q, a.isV, (fun _ _ => 1), fun u w => u + w)] →
    ∀ s x as, Runs i s x →
      x.places s (atomicAsk x a q 4 false) (if perLane then x.lanes else [x.low]) = .ok as →
      x.gate s false as = none →
      exec i s = .next (((redPlaces f (v x) s (groupPlaces as)).touchLanes x.ag true as).retireTo x (x.excluded perLane as)
        (x.p.pc + 4)))
  ∧ (∀ (s : State) (f : Nat → Nat → Nat) (v : Nat → Nat) (as : List LaneAt) (ks : List Nat), as ≠ [] → ks.Nodup →
      ks.length = 4 → (∀ a ∈ as, a.pl.keys = ks ∧ v a.lane < 2 ^ 32) →
      let t := redPlaces f v s (groupPlaces as)
      let vs := s.rkeys ks :: as.map (fun a => v a.lane)
      (∀ k, k ∉ ks → t.rb k = s.rb k)
      ∧ (f = (fun u w => u + w) → t.rkeys ks = vs.sum % 2 ^ 32)
      ∧ (f = (fun u w => if sint 32 w < sint 32 u then w else u) →
          t.rkeys ks ∈ vs ∧ ∀ n ∈ vs, sint 32 (t.rkeys ks) ≤ sint 32 n)
      ∧ (f = (fun u w => if sint 32 u < sint 32 w then w else u) →
          t.rkeys ks ∈ vs ∧ ∀ n ∈ vs, sint 32 n ≤ sint 32 (t.rkeys ks))
      ∧ ∀ a, as = [a] → t.rkeys ks = f (s.rkeys ks) (v a.lane) % 2 ^ 32 ∨ t.rkeys ks = f (v a.lane) (s.rkeys ks) % 2 ^ 32)

/-! Scratch (R122, R164 to R167, R249 to R253). -/

/-- Scratch loads and stores whose every lane passes R122 and races with nothing. What stores leave: global memory, its tags,
the scratch of other gangs, and every byte outside the places stored to, as they were; the granules stored to have clear tags
(R250). -/
def Obligations.ScratchAccesses : Prop :=
  ((∀ (d a : Reg) (imm : BitVec 9) (i : Instr) (size regs : Nat),
     (i, size, regs) ∈ [(Instr.ldsW d a imm, 4, 1), (.ldsH d a imm, 2, 1), (.ldsD d a imm, 8, 2), (.ldsQ d a imm, 16, 4)] →
     RetiresWhen i (fun s x => x.scrFault s size false (x.scrAccs d.isV a (scrDisp x.p.hints imm)) = none)
       (fun s x => x.scrNote s size false (x.scrAccs d.isV a (scrDisp x.p.hints imm)))
       (fun s x => (x.scrG x.g).wrRun d x.lanes (fun l k => wordAt (look 0
         ((x.scrAccs d.isV a (scrDisp x.p.hints imm)).map (fun c => (c.lane, s.scrR x.gangNo c.off.toNat size)))
         (x.valLane d l)) k) regs)
     ∧ ∀ f, FaultsWhen i (fun s x => x.scrFault s size false (x.scrAccs d.isV a (scrDisp x.p.hints imm)) = some f)
         (fun _ _ => f))
   ∧ (∀ (d a : Reg) (imm : BitVec 9) (i : Instr) (size regs : Nat),
     (i, size, regs) ∈ [(Instr.stsW d a imm, 4, 1), (.stsH d a imm, 2, 1), (.stsD d a imm, 8, 2), (.stsQ d a imm, 16, 4)] →
     RetiresWhen i (fun s x => x.scrFault s size true (x.scrAccs (d.isV || a.isV) a (scrDisp x.p.hints imm)) = none)
       (fun s x => (x.scrNote s size true (x.scrAccs (d.isV || a.isV) a (scrDisp x.p.hints imm))).scrLanes x.gangNo size
         (fun l => x.g.runVal d l regs) (x.scrAccs (d.isV || a.isV) a (scrDisp x.p.hints imm)))
       (fun _ x => x.scrG x.g))
   ∧ ∀ (d o : Reg) (d5 : BitVec 5),
     RetiresWhen (.ldcL d o d5) (fun s x => x.scrFault s 16 false (x.capAccs d o d5) = none)
       (fun s x => x.scrNote s 16 false (x.capAccs d o d5))
       (fun s x => (x.scrG x.g).holdLanes d
         ((x.capAccs d o d5).map (fun c => (c.lane, s.swept x.g.vd (s.scrCap x.gangNo c.off.toNat)))))
     ∧ RetiresWhen (.stcL d o d5) (fun s x => x.scrFault s 16 true (x.capAccs d o d5) = none)
       (fun s x => (x.scrNote s 16 true (x.capAccs d o d5)).scrCaps x.gangNo x.g.vd (x.holder d) (x.capAccs d o d5))
       (fun _ x => x.scrG x.g))
  ∧ (∀ (s : State) (gang size : Nat) (v : Nat → Nat) (as : List SAcc),
     (∀ a ∈ as, 0 ≤ a.off ∧ a.off + size ≤ 2 ^ 19) →
     let t := s.scrLanes gang size v as
     t = { s with scr := t.scr, scrTags := t.scrTags }
     ∧ (∀ g o : Nat, o < 2 ^ 19 → (g ≠ gang ∨ ∀ a ∈ as, ¬(a.off ≤ o ∧ (o : Int) < a.off + size)) →
         look 0 t.scr (scrKey g o) = look 0 s.scr (scrKey g o))
     ∧ (∀ a ∈ as, ∀ n, n < size → t.scrTag gang (a.off.toNat + n) = false)
     ∧ (∀ a, as.getLast? = some a → t.scrR gang a.off.toNat size = v a.lane % 2 ^ (8 * size)))

/-- CVTQ (R114, R233): codes of the values that are no outliers, the predicate of the outliers, and their entries in the
side list. -/
def Obligations.QuantiseWithOutliers : Prop :=
  ∀ d a b : Reg,
    let ctl (x : Iss) := x.g.rd (Reg.plus b 2) 0
    let at_ (x : Iss) := (x.g.rd (Reg.plus b 1) 0).toNat
    let v (x : Iss) (l : Nat) := FF.fp32.operand x.g.daz (x.g.rd a l).toNat
    let outs (x : Iss) := x.lanes.filter (fun l => outlier (FF.fp32.operand x.g.daz (x.g.rd b 0).toNat) (v x l))
    let accs (x : Iss) : List SAcc := (outs x).mapIdx (fun n l => ⟨l, ((at_ x + 4 * n : Nat) : Int)⟩)
    let dt (x : Iss) : CT := CT.ofCode (if fld (ctl x).toNat 16 3 = 3 then 10 else 3 + fld (ctl x).toNat 16 3)
    let code (x : Iss) (l : Nat) : Int × Nat := if (outs x).contains l then (0, 0)
      else convert (.float .fp32) (dt x) (x.mode 0) (satOf x.g x.p.hints) x.g.ftz x.g.daz false (x.g.rd a l).toNat
    RetiresWhen (.cvtq d a b)
      (fun s x => cvtqOk (ctl x) = true ∧ at_ x % 4 = 0 ∧ x.scrFault s 4 true (accs x) = none)
      (fun s x => (x.scrNote s 4 true (accs x)).scrLanes x.gangNo 4 (fun l =>
        ((ctl x).toNat % 65536 + l) % 65536 * 65536 + (roundFV .bf16 .rne false false (v x l)).1) (accs x))
      (fun _ x =>
        let g := (((x.g.wr d x.lanes (fun l => BitVec.ofNat 32 (wrap (dt x).width (code x l).1))).raise
          (x.lanes.foldl (fun f l => f ||| (code x l).2) 0)).pw (fld (ctl x).toNat 20 3) x.act (maskOf (outs x))).wr
            (Reg.plus b 1) x.lanes (fun _ => BitVec.ofNat 32 (at_ x + 4 * (outs x).length))
        if outs x = [] then g else x.scrG g)
    ∧ TrapsWhen (.cvtq d a b) (fun _ x => cvtqOk (ctl x) = false) 0

/-! Transactions (R143 to R145, R257 to R260). -/

/-- TBEG opens the lanes that have no transaction; TABT and TEND end them; TTEST reads their state. With no lane
serialised and no granule locked, TEND gives each lane its cause and makes the stores of the lanes with cause 0. -/
def Obligations.Transactions : Prop :=
  RetiresWhen .tbeg (fun s x => find s.serial (s.serialKey x.g.vd) = none ∧ ∀ l ∈ x.lanes, x.g.failsOf l < 16)
    (fun s _ => s)
    (fun _ x => x.lanes.foldl (fun g l =>
      match (g.txnOf l).state with
      | .none => g.setTxn l { state := .opened }
      | .opened => g.doom 3 l
      | .doomed _ => g.setTxn l { g.txnOf l with state := .doomed 3 }) x.g)
  ∧ RetiresWhen .tabt always (fun s x => x.lanes.foldl (fun s l => s.endSerial x.u x.g l) s)
    (fun _ x => x.lanes.foldl (fun g l => (g.setTxn l {}).setFails l 0) x.g)
  ∧ (∀ d : Reg, Sets (.ttest d) d (fun x l =>
      match (x.g.txnOf l).state with
      | .none => 0
      | .opened => 1
      | .doomed _ => 2))
  ∧ ∀ d : Reg,
    let won (x : Iss) := txnWinners x.g [] (x.lanes.filter x.g.isOpen)
    let cause (s : State) (x : Iss) (l : Nat) := x.tendCause s (won x) l
    RetiresWhen (.tend d) (fun s x => s.locked = [] ∧ (∀ l ∈ x.lanes, (x.g.txnOf l).serial = false)
        ∧ s.meetTiles x.g.regrow x.g.ctx (some (x.u, x.b, x.low, x.p.pc)) ((won x).map (fun l => (x.g.txnOf l).place)) = none)
      (fun s x => (x.lanes.filter (fun l => cause s x l == 0)).foldl (fun s l => s.commitTxn (x.g.txnOf l)) s)
      (fun s x => (x.lanes.foldl (fun g l => (g.setTxn l {}).setFails l (failsNext (x.g.failsOf l) (cause s x l))) x.g).wr
        d x.lanes (fun l => BitVec.ofNat 32 (cause s x l)))

/-! Synchronisation (R45 to R49, R261 to R268). -/

/-- FENCE, YIELD, LEARLY, MFENCE, MWAIT and LWAITP. -/
def Obligations.FencesAndBatches : Prop :=
  (∀ (o : BitVec 3) (sc : BitVec 2),
    RetiresWhen (.fence o sc) (fun _ _ => sc = 0) (fun s _ => s) (fun _ x => x.g)
    ∧ RetiresWhen (.fence o sc) (fun _ _ => sc ≠ 0)
      (fun s x => if o = 2 then s else x.modRace s (fun r => Race.learn x.g.gidx (look [] r.pend x.g.gidx) r))
      (fun _ x => if 2 ≤ o.toNat then { x.g with relLanes := x.g.relLanes ||| x.p.mask } else x.g))
  ∧ RetiresWith .yield (fun s x => { x.g with yieldTo := s.now + 8 })
  ∧ RetiresWhen .learly always (fun s x => x.learly s) (fun _ x => x.g)
  ∧ (∀ d : Reg,
    RetiresWhen (.mfence d) (fun _ x => x.g.closed.length < 256) (fun s _ => s) (fun _ x =>
      { x.g.wr d x.lanes (fun _ => BitVec.ofNat 32 ((x.g.batchNo + 1) % 65536)) with
        batchNo := (x.g.batchNo + 1) % 65536, closed := x.g.closed ++ [(x.g.batchNo + 1) % 65536] })
    ∧ WaitsWhen (.mfence d) (fun _ x => 256 ≤ x.g.closed.length) (fun s _ => s) (fun _ _ => .internal))
  ∧ (∀ a : Reg, RetiresWhen (.mwait a) (fun _ x => x.g.closed = []) (fun s _ => s) (fun _ x => x.g))
  ∧ RetiresWhen .lwaitp (fun _ x => x.g.launch = none) (fun s _ => s) (fun _ x => x.g)
  ∧ ∀ (n : Nat) (l : Launch),
    RetiresWhen .lwaitp (fun s x => x.g.launch = some n ∧ find s.launches n = some l ∧ l.aborted = none
        ∧ ∀ p ∈ s.preds l, s.reached p.2 = true) (fun s _ => s) (fun _ x => x.g)

/-- Waits on arrival objects, timelines and words end when what they wait for is there (R263 to R265); a wait on a timeline keeps
the value that it took when it began. The offset of a word in memory has no sign (notes/assumptions/95.md). Lanes of an open
transaction that touch another module are doomed with cause REMOTE, and no lane else (R143, R258). -/
def Obligations.Waits : Prop :=
  (∀ (a : Reg) (ph : BitVec 1),
    RetiresWhen (.waitph a ph) (fun s x => x.scrRange s (x.g.rd a 0).toNat 8 x.low = none
        ∧ bit (s.scrR x.gangNo (x.g.rd a 0).toNat 8) 63 = (ph == 1#1))
      (fun s x => x.modRace s (fun r => match r.arrs.find? (fun e => e.1 == (x.g.rd a 0).toNat) with
        | none => r
        | some e => Race.learn x.g.gidx e.2.2 r))
      (fun _ x => x.scrG x.g)
    ∧ WaitsWhen (.waitph a ph) (fun s x => x.scrRange s (x.g.rd a 0).toNat 8 x.low = none
        ∧ bit (s.scrR x.gangNo (x.g.rd a 0).toNat 8) 63 ≠ (ph == 1#1)) (fun s _ => s) (fun _ _ => .internal))
  ∧ (∀ (a : Reg) (q : BitVec 4) (i : Instr) (target : Iss → State → Nat → Int),
    (i, target) ∈ [(Instr.tlwait a q, fun (x : Iss) (t : State) (k : Nat) =>
        nearTarget (max (t.tlIssued k) (t.tlDone k)) (x.g.rd a 0).toNat),
      (.tlwaitW a q, fun x _ _ => ((x.g.rd2 a 0).toNat : Int))] →
    ∀ at_ : LaneAt,
      let tl := at_.pl.keys.headD 0
      let n (s : State) (x : Iss) : Int := match x.p.wait with
        | some (.timelines [(_, v)]) => (v : Int)
        | _ => target x s tl
      RetiresWhen i (fun s x => x.timeline s q { r := true } = .ok at_ ∧ x.gate s false [at_] = none
          ∧ n s x ≤ s.tlDone tl)
        (fun s x => x.modRace (s.touch x.ag false at_.pl) (Race.learn x.g.gidx (s.cmdClock x.gangNo tl (n s x))))
        (fun _ x => x.remote false [at_])
      ∧ WaitsWhen i (fun s x => x.timeline s q { r := true } = .ok at_ ∧ x.gate s false [at_] = none
          ∧ (s.tlDone tl : Int) < n s x)
        (fun s x => s.touch x.ag false at_.pl)
        (fun s x => .timelines [((x.g.qr q.toNat).cursor, (n s x).toNat)]))
  ∧ (∀ (d : Reg) (q : BitVec 4) (at_ : LaneAt),
    RetiresWhen (.tlread d q) (fun s x => x.timeline s q { r := true } = .ok at_ ∧ x.gate s false [at_] = none)
      (fun s x => s.touch x.ag false at_.pl)
      (fun s x => ({ x with g := x.remote false [at_] } : Iss).toPair d (s.tlDone (at_.pl.keys.headD 0))))
  ∧ (∀ (q : BitVec 4) (a b : Reg) (as : List LaneAt),
    RetiresWhen (.waitaGlobal q a b)
      (fun s x => x.places s (waitAsk x a q)
          (x.reqLanes ((a.isV && a != 127#7) || b.isV)) = .ok as
        ∧ x.gate s false as = none
        ∧ ∀ l ∈ x.reqLanes ((a.isV && a != 127#7) || b.isV),
            (x.differing b (as.map (fun e => (e.lane, s.rkeys e.pl.keys)))).getLsbD l = true)
      (fun s x => s.touchLanes x.ag false as) (fun _ x => x.remote ((a.isV && a != 127#7) || b.isV) as))
  ∧ (∀ (x : Iss) (perLane : Bool) (as : List LaneAt) (l : Nat), l < 64 →
    let t := x.remote perLane as
    t = { x.g with txn := t.txn }
    ∧ t.txnOf l = (if l ∈ x.lanes ∧ x.g.isOpen l = true ∧ (∃ a ∈ as, (a.lane = l ∨ perLane = false) ∧ a.pl.peer ≠ none) then
        { x.g.txnOf l with state := .doomed 4, writes := [] } else x.g.txnOf l))
  ∧ ∀ a b : Reg, ∀ s x, Runs (.waita a b) s x →
      (∀ l ∈ x.reqLanes ((a.isV && a != 127#7) || b.isV), x.scrRange s (x.g.off a l).toNat 4 l = none
        ∧ s.scrR x.gangNo (x.g.off a l).toNat 4 ≠ (x.g.rd b l).toNat) →
      ∃ t : State, exec (.waita a b) s = .next (t.retireTo x (x.scrG x.g) (x.p.pc + 4)) ∧ t = { s with gangs := t.gangs }

/-- BAR.G (R45): the last lane to arrive releases every path of the gang, at the next generation; before that the path
waits at its instruction. BAR.L.YIELD alone in its gang, with nothing to hand over, resumes in place (R49). EXIT (R42,
R205). That BAR.G and BAR.L.YIELD of a control-core thread complete at once, and its BAR.L faults, is deduced
(notes/assumptions/25.md); that a gang on an unmarked core resumes in place is the model's choice (84.md). -/
def Obligations.BarriersAndExit : Prop :=
  (∀ (gid : Nat) (k : Gang),
    let arrived (s : State) (x : Iss) : State := s.putU x.u (x.g.setSlot x.b
      ((x.g.slot x.b).map (fun p => { p with wait := some (.barrier (s.genOf x.g)) })))
    EndsWhen .barG (fun s x => x.g.gang = some gid ∧ find s.gangs gid = some k ∧ (arrived s x).barrierFull k = true)
      (fun s x => (arrived s x).barrierCheck gid)
    ∧ WaitsWhen .barG
      (fun s x => x.g.gang = some gid ∧ find s.gangs gid = some k ∧ (arrived s x).barrierFull k = false)
      arrived (fun s x => .barrier (s.genOf x.g)))
  ∧ RetiresWhen .barG (fun _ x => x.g.gang = none) (fun s _ => s) (fun _ x => x.g.forbid x.lanes)
  ∧ (∀ i ∈ [Instr.barL, .barLYield],
      FaultsWhen i (fun _ x => x.g.reconverged = false) (fun _ x => x.failPlain ⟨0x11, 0, 0⟩ x.low))
  ∧ (∀ (gid lid : Nat) (k : Gang) (l : Launch) (ps : List Place),
    let held (s : State) (x : Iss) : Prop := x.g.reconverged = true ∧ x.g.gang = some gid ∧ find s.gangs gid = some k
      ∧ k.launch = some lid ∧ find s.launches lid = some l ∧ x.recordPlaces s l k = .ok ps
    let t (s : State) (x : Iss) : State := s.putU x.u (x.g.setSlot x.b
      ((x.g.slot x.b).map (fun p => { p with wait := none })))
    EndsWhen .barL (fun s x => held s x ∧ s.launchBarFull k x.u false = true ∧ s.matrixBusy gid = false)
      (fun s x => ((t s x).retireGang x gid l k (k.phase + 1) ps).gangRetired lid k.index)
    ∧ EndsWhen .barLYield (fun s x => held s x ∧ s.launchBarFull k x.u true = true ∧ s.matrixBusy gid = false
        ∧ find s.marks k.core = none)
      (fun s x => (t s x).resumeHere gid k)
    ∧ EndsWhen .barLYield (fun s x => held s x ∧ s.launchBarFull k x.u true = true ∧ s.matrixBusy gid = false
        ∧ find s.marks k.core ≠ none)
      (fun s x => ((t s x).retireGang x gid l k k.phase ps).gangYielded lid k.index)
    ∧ WaitsWhen .barL (fun s x => held s x ∧ s.launchBarFull k x.u false = false) t (fun _ _ => .launchBar false))
  ∧ RetiresWhen .barLYield (fun _ x => x.g.reconverged = true ∧ x.g.gang = none) (fun s _ => s) (fun _ x => x.g.forbid x.lanes)
  ∧ FaultsWhen .barL (fun _ x => x.g.reconverged = true ∧ x.g.gang = none) (fun _ x => x.failPlain ⟨0x04, 0x44, 0⟩ x.low)
  ∧ (let s1 (s : State) (x : Iss) : State := (lanesOf x.width x.p.mask).foldl (fun s l => s.endSerial x.u x.g l) s
    let out (s : State) (x : Iss) : Grp :=
      ((lanesOf x.width x.p.mask).foldl (fun g l => g.setTxn l {}) x.g).exitPath (s.genOf x.g) x.b
    EndsWhen .exit (fun _ x => x.g.gang = none) (fun s x => (s1 s x).putU x.u (out s x))
    ∧ (∀ gid, EndsWhen .exit (fun s x => x.g.gang = some gid ∧ (out s x).ended = true
          ∧ (x.lastOut s (out s x) = false ∨ s.matrixBusy gid = false))
        (fun s x => (s1 s x).groupEnded x.u gid x.g.gidx))
    ∧ ∀ gid, EndsWhen .exit (fun s x => x.g.gang = some gid ∧ (out s x).ended = false)
        (fun s x => ((s1 s x).putU x.u (out s x)).barrierCheck gid))

/-! Engines, the matrix engine and the loft (R130 to R138, R239 to R245, R269 to R313). -/

/-- An engine command whose block, capabilities and timeline pass their checks enters its engine with the next number of
the timeline, and the destination receives the number (R131, R134, R269). A COPY block whose checks pass names ROWS rows
of ROW_BYTES bytes from memory to scratch at the two strides (R270, R271). A command that has entered is among the
commands under its number, and its timeline's ISSUED field holds the number. The order of a block's checks within step 4
is the model's (notes/assumptions/99.md). -/
def Obligations.CommandsIssue : Prop :=
  (∀ (d a : Reg) (q : BitVec 4) (fn : BitVec 3) (i : Instr) (size : Nat) (pair : Bool)
       (plan : Iss → State → Nat → Nat → (Nat → Cap) → Checked Plan),
     (i, size, pair, plan) ∈ [(Instr.copy d a q, 64, false, fun x => x.planCopy), (.copyg d a q, 64, false, fun x _ => x.planCopyg),
       (.copys d a q, 64, false, fun x => x.planCopys), (.tilest d a q, 48, false, fun x => x.planTilest),
       (.tileld d a q, 48, false, fun x => x.planTileld), (.regroup d a q, 80, false, fun x _ => x.planRegroup),
       (.loftld d a q, 32, false, fun x => x.planLoftld), (.loftev d a q, 32, false, fun x => x.planLoftev),
       (.coll d a q, 80, false, fun x => x.planColl), (.chain fn d a q, 80, true, fun x _ => x.planChain (fn.toNat + 1)),
       (.cld d a q, 48, false, fun x s => x.planCrib s true), (.cst d a q, 48, false, fun x s => x.planCrib s false),
       (.drain d a q, 64, false, fun x => x.planDrain)] →
     ∀ (s s1 : State) (x : Iss) (va : Nat) (p : Plan) (at_ : LaneAt), Runs i s x →
       x.readBlock s (x.g.rd a 0).toNat size = .ok s1 → capCheck (x.g.qr q.toNat) 0 16 pTL = .ok va →
       plan x s (x.g.rd a 0).toNat (s.scrR x.gangNo (x.g.rd a 0).toNat size)
         (fun k => s.scrCap x.gangNo ((x.g.rd a 0).toNat + 16 * k)) = .ok p →
       x.timeline s q { r := true, w := true } = .ok at_ → x.gate s false [at_] = none →
       s.tlIssued (at_.pl.keys.headD 0) ≠ 2 ^ 64 - 1 →
       (s.cmds.filter (fun e => e.2.tl == at_.pl.keys.headD 0 && e.2.engine == p.engine
         && (if p.engine = .coll then e.2.core / 64 == unitCore x.u / 64 else e.2.core == unitCore x.u)
         && !e.2.finished && e.2.ctx.isSome && (e.2.gang.bind (fun n => find s.saved n)).isNone)).length < 256 →
       let n := s.tlIssued (at_.pl.keys.headD 0) + 1
       exec i s = .next ((p.post (x.enter s1 at_.pl n p)).retireTo x
         (if pair then (x.scrG (x.excluded false [at_])).wr2 d x.lanes (fun _ => BitVec.ofNat 64 n)
           else (x.scrG (x.excluded false [at_])).wr d x.lanes (fun _ => BitVec.ofNat 32 n)) (x.p.pc + 4)))
  ∧ (∀ (x : Iss) (s : State) (k : Gang) (gid off b va : Nat) (cap : Nat → Cap),
     x.g.gang = some gid → find s.gangs gid = some k →
     fld b 416 96 = 0 → fld b 32 96 = 0 → copyLen b ≠ 0 → copyRows b ≠ 0 →
     fld b 0 32 + ((copyRows b - 1) * copyDs b + copyLen b) ≤ k.scratch →
     capCheck (cap 1) 0 ((copyRows b - 1) * copySs b + copyLen b) pLOAD = .ok va →
     fld b 384 32 % 8 = 0 → fld b 384 32 + 8 ≤ k.scratch →
     (match x.planCopy s off b cap with
       | .ok p => p.engine = .copy ∧ p.arrive = some (fld b 384 32)
           ∧ p.body = .move (copyRows b) (copyLen b) (.mem va) (.scr (fld b 0 32)) (copySs b) (copyDs b)
               ((cap 1).has pLOADCAP) true true
       | .error _ => False))
  ∧ (∀ (x : Iss) (s : State) (pl : Place) (n : Nat) (p : Plan), n < 2 ^ 64 →
     let t := x.enter s pl n p
     t.units = s.units
     ∧ (∃ c, find t.cmds s.ticket = some c ∧ c.seq = n ∧ c.tl = pl.keys.headD 0 ∧ c.body = p.body
         ∧ c.engine = p.engine ∧ c.unit = x.u ∧ c.ctx = x.g.ctx ∧ c.finished = false ∧ c.did = [])
     ∧ t.tlIssued (pl.keys.headD 0) = n)

/-- The MMA family (R299 to R304): the octets with live rows form their operations, checked and captured at issue; they
join open sets of the core or open new ones, and the group goes on without waiting for them. A set takes operations alike in
all that R305 names, at most 16, for 8 core cycles, and none that an earlier one of its group's on its reservation would then
come after (notes/assumptions/31.md). -/
def Obligations.MatrixIssue : Prop :=
  (∀ (c a : BitVec 5) (b : Reg) (zr : BitVec 1) (i : Instr) (z t forced expert : Bool) (h : Iss → Nat → Nat),
    (i, z, t, forced, expert, h) ∈ [
      (Instr.mma c a b zr, false, false, false, false, fun x _ => (x.g.rd b 0).toNat % 64),
      (.mmaZ c a b zr, true, false, false, false, fun x _ => (x.g.rd b 0).toNat % 64),
      (.mmaT c a b zr, false, true, false, false, fun x _ => (x.g.rd b 0).toNat % 64),
      (.mmas c a b zr, false, false, true, false, fun x _ => (x.g.rd b 0).toNat % 64),
      (.mmax c a b zr, false, false, false, true, fun x k => (x.g.rd b (8 * k)).toNat % 64)] →
    ∀ (s : State) (x : Iss) (gid : Nat) (k : Gang) (ms : List MOp), Runs i s x → x.g.gang = some gid →
      find s.gangs gid = some k →
      x.formAll s gid k c.toNat a.toNat z t (zr == 1#1) forced expert (h x)
        ((List.range (x.g.width / 8)).filter (fun o => x.liveRows o != 0)) = .ok ms →
      s.octets (unitCore x.u) + ms.length ≤ 256 →
      ∃ g, exec i s = .next ((ms.foldl State.joinSet s).retireTo x g (x.p.pc + 4))
        ∧ g = { x.g with fbBatch := g.fbBatch })
  ∧ ∀ (s : State) (o : MOp),
    let t := s.joinSet o
    let alike (p : MOp) : Prop := p.stopped = false ∧ p.czero = false ∧ p.handle = o.handle ∧ p.hrec.bits = o.hrec.bits
      ∧ p.ctx = o.ctx ∧ p.streamed = o.streamed ∧ p.s = o.s ∧ p.k = o.k ∧ resFormat p.ares = resFormat o.ares
      ∧ resBlk p.ares = resBlk o.ares ∧ p.t = o.t ∧ p.rz = o.rz
      ∧ ¬(p.unit = o.unit ∧ p.gang = o.gang ∧ p.cnum = o.cnum ∧ p.octet = o.octet)
    let open_ (n : Nat) (st : MSet) : Prop := st.core = o.core ∧ st.closed = none ∧ s.now < st.openedAt + 8
      ∧ (s.setOps n).length < 16 ∧ o.czero = false ∧ (∀ p ∈ s.setOps n, alike p.2)
      ∧ ∀ p ∈ s.ops, p.2.done = true ∨ ¬(p.2.unit = o.unit ∧ p.2.gang = o.gang ∧ p.2.cnum = o.cnum) ∨ p.2.set ≤ n
    ∃ n, t = { s with ticket := s.ticket + 1, ops := put s.ops s.ticket { o with set := n }, sets := t.sets }
      ∧ ((t.sets = s.sets ∧ ∃ st, (n, st) ∈ s.sets ∧ open_ n st)
        ∨ (n = s.ticket ∧ (∀ e ∈ s.sets, ¬open_ e.1 e.2)
          ∧ t.sets = put s.sets n { core := o.core, openedAt := s.now, closed := if o.czero then some n else none }))

/-- Reservations, masks, CZERO and the sieve's registers (R284 to R290, R312, R313). -/
def Obligations.ReservationsAndMasks : Prop :=
  (∀ (c : BitVec 5) (a : Reg) (gid : Nat) (k : Gang),
    RetiresWhen (.cres c a) (fun s x => x.g.gang = some gid ∧ find s.gangs gid = some k
        ∧ resOk (x.g.rd4 a 0) k.cribLen = true)
      (fun s x =>
        let k1 : Gang := { k with res := store 0 k.res c.toNat (x.g.rd4 a 0 ||| (1#128 <<< 86)) }
        { s with gangs := put s.gangs gid k1 })
      (fun _ x => x.g)
    ∧ RetiresWhen (.crel c) (fun s x => x.g.gang = some gid ∧ find s.gangs gid = some k)
      (fun s _ =>
        let k1 : Gang := { k with res := store 0 k.res c.toNat (look 0 k.res c.toNat &&& ~~~(1#128 <<< 86)) }
        { s with gangs := put s.gangs gid k1 })
      (fun _ x => x.g)
    ∧ FaultsWhen (.czero c) (fun s x => x.g.gang = some gid ∧ find s.gangs gid = some k
        ∧ (look 0 k.res c.toNat).getLsbD 86 = false)
      (fun _ x => x.failPlain ⟨0x04, 0x41, c.toNat⟩ x.low)
    ∧ ∀ s x, Runs (.czero c) s x → x.g.gang = some gid → find s.gangs gid = some k →
        (look 0 k.res c.toNat).getLsbD 86 = true →
        ∃ o : MOp, o.czero = true ∧ o.unit = x.u ∧ o.cres = look 0 k.res c.toNat ∧ o.cbase = k.cribBase
          ∧ exec (.czero c) s = .next ((s.joinSet o).retireTo x x.g (x.p.pc + 4)))
  ∧ (∀ a : Reg,
    RetiresWith (.mrow a) (fun _ x => { x.g with rowMask := x.g.rd2 a 0 })
    ∧ RetiresWith (.mcol a) (fun _ x => { x.g with colMask := x.g.rd4 a 0 })
    ∧ (∀ d : Reg, Sets (.sieveRd d a) d (fun x l => look 0 x.g.bins ((x.g.rd a l).toNat % 32)))
    ∧ ∀ q : BitVec 4, RetiresWith (.sieveCfg a q) (fun _ x =>
        { x.g with sieveBase := (x.g.rd a 0).toNat % 256, sieveCap := x.g.qr q.toNat }))
  ∧ RetiresWith .sieveClr (fun _ x => { x.g with bins := [] })

/-- Loft handles (R291 to R294): LHSET takes a free handle, or sets one its context holds; the others act on a handle
that the context holds. -/
def Obligations.LoftHandles : Prop :=
  (∀ a b : Reg,
    let n (x : Iss) := (x.g.rd a 0).toNat % 64
    let h (s : State) (x : Iss) : Handle := s.handle (unitCore x.u) (n x)
    let held (s : State) (x : Iss) : Prop := x.g.ctx ≠ none ∧ (h s x).holder = x.g.ctx
    let mine (s : State) (x : Iss) : Prop := held s x ∧ s.handleErr (unitCore x.u) (n x) = false
    (∀ r : Handle, RetiresWhen (.lhset a b)
        (fun s x => ((h s x).holder = none ∨ (h s x).holder = x.g.ctx) ∧ hState (h s x) ≠ 3 ∧ hState (h s x) ≠ 1
          ∧ s.loftBusy (unitCore x.u) (n x) = false ∧ x.scrFault s 16 false (x.three b) = none
          ∧ (let cs := (x.three b).map (fun c => s.swept x.g.vd (s.scrCap x.gangNo c.off.toNat))
            r = ⟨BitVec.ofNat 384 (cs.foldr (fun c n => c.bits.toNat + 2 ^ 128 * n) 0), (cs.getD 2 Cap.null).tag,
              (cs.getD 1 Cap.null).tag, x.g.ctx⟩) ∧ handleOk r = true)
        (fun s x => (x.scrNote s 16 false (x.three b)).setHandle (unitCore x.u) (n x) (r.setState 0))
        (fun _ x => x.scrG x.g))
    ∧ RetiresWhen (.lhsetRel a) (fun s x => mine s x ∧ hState (h s x) ≠ 3 ∧ hState (h s x) ≠ 1
        ∧ s.loftBusy (unitCore x.u) (n x) = false)
      (fun s x => s.setHandle (unitCore x.u) (n x) { (h s x).setState 0 with holder := none }) (fun _ x => x.g)
    ∧ RetiresWhen (.lhpin a) (fun s x => mine s x ∧ 2 ≤ hState (h s x))
      (fun s x => s.setHandle (unitCore x.u) (n x) ((h s x).setState 3)) (fun _ x => x.g)
    ∧ RetiresWhen (.lhunpin a) (fun s x => mine s x ∧ hState (h s x) = 3)
      (fun s x => s.setHandle (unitCore x.u) (n x) ((h s x).setState 2)) (fun _ x => x.g)
    ∧ RetiresWhen (.lhunpin a) (fun s x => mine s x ∧ hState (h s x) ≠ 3) (fun s _ => s) (fun _ x => x.g)
    ∧ (∀ i ∈ [Instr.lhsetRel a, .lhpin a, .lhunpin a, .lhget a b],
      FaultsWhen i (fun s x => (h s x).holder = none ∨ (h s x).holder ≠ x.g.ctx) (fun _ x => x.failPlain ⟨0x04, 0x40, n x⟩ x.low)
      ∧ FaultsWhen i (fun s x => held s x ∧ s.handleErr (unitCore x.u) (n x) = true)
        (fun _ x => x.failPlain ⟨0x18, 3, n x⟩ x.low))
    ∧ RetiresWhen (.lhget a b) (fun s x => mine s x ∧ x.scrFault s 16 true (x.three b) = none)
      (fun s x =>
        let c (i : Nat) (t : Bool) : Cap := s.swept x.g.vd ⟨(h s x).bits.extractLsb' (128 * i) 128, t⟩
        let at_ (i : Nat) : Nat := (x.g.rd b 0).toNat + 16 * i
        (((x.scrNote s 16 true (x.three b)).scrCapW x.gangNo (at_ 0) (c 0 false)).scrCapW x.gangNo (at_ 1)
          (c 1 (h s x).backTag)).scrCapW x.gangNo (at_ 2) (c 2 (h s x).ctrTag))
      (fun _ x => x.scrG x.g))

/-! Tiles, messages, kernel calls (R76 to R85, R210 to R217, R315 to R335, R429). -/

/-- Registration, recipes, pins, probes and drops of tiles (R331 to R334). Statuses for what has no translation are
deduced (notes/assumptions/55.md, 85.md). -/
def Obligations.TileForms : Prop :=
  (∀ (d : Reg) (q : BitVec 4),
    let full : Nat := pLOAD ||| pSTORE ||| pLOADCAP
    let key (pl : Place) : Nat := pl.keys.headD 0
    (∀ va pl, RetiresWhen (.tdesc d q)
      (fun s x => OperandAt x s q 64 full true va pl ∧ ((s.touch x.ag true pl).descAt (key pl)).ok = true
        ∧ (s.touch x.ag true pl).tileOf (key pl) = none ∧ ((s.touch x.ag true pl).descAt (key pl)).cls = 0)
      (fun s x => ((s.touch x.ag true pl).setTileVersion (key pl) 0).setTileState (key pl) 0) (fun _ x => (x.saw pl).toS d 0))
    ∧ (∀ va pl pa die slice, RetiresWhen (.tdesc d q)
      (fun s x => OperandAt x s q 64 full true va pl ∧ ((s.touch x.ag true pl).descAt (key pl)).ok = true
        ∧ (s.touch x.ag true pl).tileOf (key pl) = none ∧ ((s.touch x.ag true pl).descAt (key pl)).cls ≠ 0
        ∧ (s.touch x.ag true pl).storageOf x.ag ((s.touch x.ag true pl).descAt (key pl)) = some (pa, die, slice)
        ∧ (s.touch x.ag true pl).sliceFull die slice x.g.vd ((s.touch x.ag true pl).descAt (key pl)).extent = false)
      (fun s x =>
        let t := s.touch x.ag true pl
        let e : Tile := { aspace := x.g.aspace, desc := key pl, descVa := va, lo := pa, len := (t.descAt (key pl)).extent,
                          die := die, slice := slice, vd := x.g.vd, ctx := x.g.ctx }
        (({ t with tiles := t.tiles ++ [e] }.clearTile e).blankDesc (key pl)).setTileVersion (key pl) 0)
      (fun _ x => (x.saw pl).toS d 0))
    ∧ (∀ va pl e, RetiresWhen (.tdescRel d q)
      (fun s x => OperandAt x s q 64 full true va pl ∧ ((s.touch x.ag true pl).descAt (key pl)).ok = true
        ∧ (s.touch x.ag true pl).tileOf (key pl) = some e ∧ (s.touch x.ag true pl).tileHeld e = false
        ∧ tileState (s.touch x.ag true pl) (key pl) ≠ 2)
      (fun s x =>
        let t := (s.touch x.ag true pl).clearTile e
        { t with tiles := t.tiles.filter (fun y => y.desc != key pl) }.blankDesc (key pl))
      (fun _ x => (x.saw pl).toS d 0))
    ∧ (∀ (a : BitVec 4) (va rva n : Nat) (pl rpl : Place),
      let s1 (s : State) (x : Iss) := s.touch x.ag true pl
      let s2 (s : State) (x : Iss) := (s1 s x).touch (x.saw pl).ag true rpl
      RetiresWhen (.recipe d a q)
        (fun s x => OperandAt x s a 64 (full ||| pSTORECAP) true va pl ∧ OperandAt (x.saw pl) (s1 s x) q 128 full true rva rpl
          ∧ recFormOk ((s2 s x).recBits (key rpl)) = true
          ∧ (((s2 s x).recCaps x.g.vd (key rpl)).getD 1 Cap.null).cursor = (x.g.qr a.toNat).cursor
          ∧ (s2 s x).tileOf (key pl) ≠ none ∧ ((s2 s x).descAt (key pl)).cls = 1 ∧ (s2 s x).recipeOf (key pl) = none
          ∧ (s2 s x).recipeDepth (x.saw pl).ag (sourcesOf ((s2 s x).recCaps x.g.vd (key rpl))) = some n ∧ n ≤ 4)
        (fun s x =>
          let c := (s2 s x).swept x.g.vd (x.g.qr q.toNat)
          ((s2 s x).recSet (key rpl) n).capPut (key pl + 48) ⟨c.bits, c.tag && pl.tagcap⟩)
        (fun _ x => ((x.saw pl).saw rpl).toS d 0))
    ∧ (∀ e r, TileAnswers (.tpin d q) d q (fun t _ k => (t.descAt k).cls = 1 ∧ t.tileOf k = some e ∧ t.recAt e = some r
          ∧ recPins t r ≠ 65535) (fun t _ _ => t.rawW (r + 120) 2 (recPins t r + 1)) 0)
    ∧ (∀ e r, TileAnswers (.tunpin d q) d q (fun t _ k => t.tileOf k = some e ∧ t.recAt e = some r ∧ recPins t r ≠ 0)
        (fun t _ _ => t.rawW (r + 120) 2 (recPins t r - 1)) 0)
    ∧ (∀ e, TileAnswers (.tdrop d q) d q (fun t _ k => t.tileOf k = some e ∧ tileState t k = 0 ∧ t.tileHeld e = false)
        (fun t _ _ => t.dropTile e) 0)
    ∧ (∀ e, TileAnswers (.tdrop d q) d q (fun t _ k => t.tileOf k = some e ∧ tileState t k = 1) (fun t _ _ => t) 0)
    ∧ (∀ va pl, RetiresWhen (.tprobe d q) (fun s x => OperandAt x s q 64 pLOAD false va pl)
      (fun s x => s.touch x.ag false pl)
      (fun s x =>
        let t := s.touch x.ag false pl
        (x.saw pl).toS d (t.probeWord (key pl) (t.tileOf (key pl)) ((t.tileOf (key pl)).bind t.recAt)))))
  ∧ (∀ (n : Nat) (k : Gang), RetiresWhen .regrown
      (fun s x => x.g.gang = some n ∧ find s.gangs n = some k ∧ k.regrow ≠ none)
      (fun s _ =>
        let k1 : Gang := { k with regrown := true }
        { s with gangs := put s.gangs n k1 })
      (fun _ x => x.g))
  ∧ TrapsWhen .regrown (fun _ x => x.g.gang = none) 0

/-- Messages (R77 to R80, R210 to R212): a send to a waiting receiver delivers; a CALL then waits for its reply, and
NBSEND and REPLY do not wait; a reply capability answers its caller, whose CALL is then complete; a SEND or CALL to an
endpoint at a peer waits to be matched there, and faults when the peer is lost; RECV takes the earliest message; SIGNAL
adds the badge to the word, which WAITN takes and clears. Deduced or the model's choice: when a waiting sender's operands
are read (notes/assumptions/35.md), the order in which a receiver's registers are written (34.md), the form of a reply
capability (33.md), and what a SEND, CALL or NBSEND to a peer does until it is matched (59.md). -/
def Obligations.Messages : Prop :=
  (∀ (d a : Reg) (q : BitVec 4) (base : Nat) (p : Party),
    let c (x : Iss) := x.g.qr q.toNat
    let ep (s : State) (x : Iss) := s.objId 1 x.g.vd base
    let msg (s : State) (x : Iss) := s.message x.g (isControl x.u) (x.g.rd a 0).toNat (c x).badge
    let mine (s : State) (x : Iss) : Prop := objCheck (c x) 1 pSEND = .ok base ∧ s.replyOf (c x) = none
      ∧ s.resetEp x.g.vd base = false ∧ farModule (ep s x) = none
    let out (s : State) (x : Iss) := (s.putU x.u x.g).deliver p (msg s x)
    (∀ i ∈ [Instr.send d a q, .nbsend d a q, .reply d a q],
      RetiresWhen i (fun s x => mine s x ∧ s.receiver (ep s x) = some p) out
        (fun s x => (((find (out s x).units x.u).getD x.g).wrS (d.toNat - 96)
          (infoWord 0 false (msg s x).caps.length (msg s x).words.length 0)).forbid x.lanes))
    ∧ (∀ i ∈ [Instr.nbsend d a q, .reply d a q],
      RetiresWhen i (fun s x => mine s x ∧ s.receiver (ep s x) = none) (fun s _ => s)
        (fun _ x => (x.toS d 0x1000_0000).forbid x.lanes))
    ∧ WaitsWhen (.send d a q) (fun s x => mine s x ∧ s.receiver (ep s x) = none) (fun s _ => s.tick)
      (fun s x => .sending (ep s x) s.ticket false (d.toNat - 96) (x.g.rd a 0).toNat (c x).badge)
    ∧ WaitsWhen (.callMsg d a q) (fun s x => mine s x ∧ s.receiver (ep s x) = some p)
      (fun s x =>
        let r := (s.putU x.u x.g).newReply (.path x.u x.b) none
        r.1.deliver p { msg s x with reply := some r.2 })
      (fun s x => .calling ((s.putU x.u x.g).newReply (.path x.u x.b) none).2 (d.toNat - 96))
    ∧ (∀ (i : Instr) (n : Nat) (r : Reply), i ∈ [Instr.send d a q, .nbsend d a q, .reply d a q, .callMsg d a q] →
      let t (s : State) (x : Iss) := (s.putU x.u x.g).answer x.g.vd n r (s.message x.g (isControl x.u) (x.g.rd a 0).toNat 0)
      RetiresWhen i (fun s x => objCheck (c x) 1 pSEND = .ok base ∧ s.replyOf (c x) = some (n, r) ∧ r.live = true
          ∧ (t s x).2 = true)
        (fun s x => (t s x).1)
        (fun s x =>
          let m := s.message x.g (isControl x.u) (x.g.rd a 0).toNat 0
          (((find (t s x).1.units x.u).getD x.g).wrS (d.toNat - 96)
            (infoWord 0 false m.caps.length m.words.length 0)).forbid x.lanes))
    ∧ (∀ m : Nat,
      let far (s : State) (x : Iss) : Prop := objCheck (c x) 1 pSEND = .ok base ∧ s.replyOf (c x) = none
        ∧ s.resetEp x.g.vd base = false ∧ farModule (ep s x) = some m
      (∀ t, ∀ e ∈ [(Instr.send d a q, false), (.callMsg d a q, true)],
        WaitsWhen e.1 (fun s x => far s x ∧ s.lost.contains m = false ∧ s.pay x.ag (4, 0, 1) = .ok t)
          (fun _ _ => t.tick)
          (fun s x => .sending (ep s x) t.ticket e.2 (d.toNat - 96) (x.g.rd a 0).toNat (c x).badge))
      ∧ (∀ t : State, ∀ i ∈ [Instr.nbsend d a q, .reply d a q],
        let paid (s : State) (x : Iss) : Prop := far s x ∧ s.lost.contains m = false ∧ s.pay x.ag (4, 0, 1) = .ok t
        let k (x : Iss) := t.message x.g (isControl x.u) (x.g.rd a 0).toNat (c x).badge
        RetiresWhen i (fun s x => paid s x ∧ t.freeVal % 2 = 0) (fun _ _ => t.draw)
          (fun _ x => ({ x with g := x.g.abroad x.lanes } : Iss).toS d 0x1000_0000)
        ∧ RetiresWhen i (fun s x => paid s x ∧ t.freeVal % 2 ≠ 0)
          (fun s x => { t.draw with sent := outMessage x.g.vd m (ep s x) (k x) :: t.sent })
          (fun _ x => ({ x with g := x.g.abroad x.lanes } : Iss).toS d
            (infoWord 0 false (k x).caps.length (k x).words.length 0).toNat))
      ∧ ∀ i ∈ [Instr.send d a q, .nbsend d a q, .reply d a q, .callMsg d a q],
        FaultsWhen i (fun s x => far s x ∧ s.lost.contains m = true)
          (fun _ x => x.failPlain ⟨0x19, 0, ((c x).bits.extractLsb' 64 64).toNat⟩ x.low)))
  ∧ (∀ (s : State) (vd n u rd : Nat) (b : Bool) (r : Reply) (m : Msg) (g : Grp) (p : Path), r.dest = .path u b →
      find s.units u = some g → g.slot b = some p → p.wait = some (.calling n rd) →
      s.answer vd n r m = (({ s with replies := put s.replies n { r with live := false } } : State).complete u b
        (fun g => g.takeMsg (isControl u) m Cap.null rd), true))
  ∧ (∀ (d : Reg) (q : BitVec 4) (base : Nat) (k : Post),
    let ep (s : State) (x : Iss) := s.objId 1 x.g.vd base
    let m (s : State) (x : Iss) : Msg := (s.putU x.u x.g).freshMsg x.g.vd k.msg
    let t (s : State) (x : Iss) : State :=
      (({ s.putU x.u x.g with posts := (s.putU x.u x.g).posts.erase k } : State).tellPeer x.g.vd (ep s x) k.peer).serve
        (m s x).reply x.g.ctx (some x.g.vd)
    let g (s : State) (x : Iss) : Grp :=
      let h := (find (t s x).units x.u).getD x.g
      if (farModule (ep s x)).isSome then h.abroad x.lanes else h
    RetiresWhen (.recv d q) (fun s x => objCheck (x.g.qr q.toNat) 1 pRECV = .ok base ∧ s.sender (ep s x) = none
        ∧ s.posts.find? (fun p => p.ep == ep s x) = some k)
      t
      (fun s x => (((g s x).takeMsg (isControl x.u) (m s x) ((t s x).replyCap (m s x).reply) (d.toNat - 96)).curvd ((t s x).batchVd (m s x).reply)).forbid x.lanes)
    ∧ WaitsWhen (.recv d q) (fun s x => objCheck (x.g.qr q.toNat) 1 pRECV = .ok base ∧ s.sender (ep s x) = none
        ∧ s.posts.find? (fun p => p.ep == ep s x) = none)
      (fun s _ => s.tick) (fun s x => .receiving (ep s x) s.ticket (d.toNat - 96)))
  ∧ (∀ (q : BitVec 4) (base : Nat),
    let id (s : State) (x : Iss) := s.objId 2 x.g.vd base
    RetiresWhen (.signal q) (fun s x => objCheck (x.g.qr q.toNat) 2 pSEND = .ok base ∧ farModule (id s x) = none)
      (fun s x => s.noteOr (id s x) (x.g.qr q.toNat).badge) (fun _ x => x.g.forbid x.lanes)
    ∧ ∀ m, RetiresWhen (.signal q) (fun s x => objCheck (x.g.qr q.toNat) 2 pSEND = .ok base
        ∧ farModule (id s x) = some m ∧ s.lost.contains m = false)
      (fun s x => (s.noteOr (id s x) (x.g.qr q.toNat).badge).sendOut x.g.vd
        (.signal x.g.vd m (id s x % 2 ^ 60) (x.g.qr q.toNat).badge))
      (fun _ x => x.g.abroad x.lanes))
  ∧ ∀ (d : Reg) (q : BitVec 4) (base ot : Nat), ot = 2 ∨ ot = 5 →
    let id (s : State) (x : Iss) := s.objId ot x.g.vd base
    let here (x : Iss) : Prop := (x.g.qr q.toNat).otype = ot ∧ objCheck (x.g.qr q.toNat) ot pRECV = .ok base
    RetiresWhen (.waitn d q) (fun s x => here x ∧ noteWord s (id s x) ≠ 0) (fun s x => s.rawW (id s x) 2 0)
      (fun s x => (({ x with g := if (farModule (id s x)).isSome then x.g.abroad x.lanes else x.g } : Iss).toS d
        (noteWord s (id s x))).forbid x.lanes)
    ∧ WaitsWhen (.waitn d q) (fun s x => here x ∧ noteWord s (id s x) = 0) (fun s _ => s)
      (fun s x => .notified (id s x) (d.toNat - 96))

/-- Kernel calls (R83 to R85, R213 to R217, R429): SPAWN submits the record that its capability names; JOIN ends when the
timeline has reached the value; SVC sends its lanes' entries to the service core of its die and sleeps, and when the batch
is served it is complete, each lane holding the reply words of its entry; REVOKE reads the ranges of a region once and
marks them in the epoch that comes next, when there is room. A SPAWN that waits for room, the die that serves a call, and
which launches are of level K: notes/assumptions/29.md, 36.md, 37.md. -/
def Obligations.KernelCalls : Prop :=
  (∀ (d : Reg) (q : BitVec 4) (va : Nat) (ps : List Place),
    let cs (s : State) (x : Iss) : List Cap :=
      (s.getCaps ps).map (fun k => if (x.g.qr q.toNat).has pLOADCAP then k else ⟨k.bits, false⟩)
    let sub (s : State) (x : Iss) := (s.touchAll x.ag false ps).submit x.g.vd (recordBits (cs s x)) (recordTagBits (cs s x))
    let region (s : State) (x : Iss) : Cap :=
      ({ vd := x.g.vd, num := 0, ctx := 0, bits := recordBits (cs s x), tags := recordTagBits (cs s x), kern := x.g.kern,
         aspace := x.g.aspace, region := 0 } : Launch).regionCap
    RetiresWhen (.spawn d q) (fun s x => capCheck (x.g.qr q.toNat) 0 768 pLOAD = .ok va
        ∧ placesFrom s x.ag { r := true } va 48 = .ok ps ∧ x.gate s false (ps.map (fun p => ⟨x.low, p⟩)) = none
        ∧ s.intakeFull x.g.vd (region s x) = false)
      (fun s x => (sub s x).1)
      (fun s x => ({ x with g := x.remote false (ps.map (fun p => ⟨x.low, p⟩)) } : Iss).toS d (sub s x).2))
  ∧ (∀ (a : Reg) (q : BitVec 4) (k : LaneAt),
    let n (x : Iss) := (x.g.rd2 a 0).toNat
    let tl := k.pl.keys.headD 0
    let open_ (s : State) (x : Iss) : Prop := x.timeline s q { r := true } = .ok k ∧ x.gate s false [k] = none
    RetiresWhen (.join a q) (fun s x => open_ s x ∧ n x ≤ s.tlDone tl)
      (fun s x => s.touch x.ag false k.pl) (fun _ x => x.remote false [k])
    ∧ WaitsWhen (.join a q) (fun s x => open_ s x ∧ s.tlDone tl < n x)
      (fun s x => s.touch x.ag false k.pl) (fun _ x => .timelines [((x.g.qr q.toNat).cursor, n x)]))
  ∧ (∀ (d a : Reg) (die : Nat),
    let b (s : State) (x : Iss) : Batch :=
      { die := die, vd := x.g.vd, unit := x.u, slotB := x.b, rd := d.toNat, mask := x.act,
        entries := x.lanes.map (fun l => (l, (List.range 8).map (fun i => x.g.rd (Reg.plus a i) l))), age := s.ticket }
    WaitsWhen (.svc d a) (fun s x => (x.serviceDie s).filter (fun k => (s.serviceEp k).isSome) = some die)
      (fun s x => { s with batches := put s.batches s.ticket (b s x) }.request 3 die x.g.vd x.lanes.length (.batch s.ticket))
      (fun s _ => .service s.ticket))
  ∧ (∀ (s : State) (id : Nat) (b : Batch) (g : Grp) (p : Path), find s.batches id = some b → find s.units b.unit = some g →
      g.slot b.slotB = some p → p.wait = some (.service id) → p.link = none → g.pick (s.genOf g) = none → b.rd + 3 < 96 →
      (b.entries.map Prod.fst).Nodup → (∀ l ∈ b.entries.map Prod.fst, l < 64) →
      let t := s.batchDone id
      find t.batches id = none
      ∧ ∃ h, find t.units b.unit = some h
        ∧ h.slot b.slotB = some { p with pc := p.pc + 4, hints := [], wait := none, stall := 0, part := none }
        ∧ ∀ i l k, (b.entries.map Prod.fst)[i]? = some l → k < 4 → h.rd (BitVec.ofNat 7 (b.rd + k)) l
            = BitVec.ofNat 32 (s.openRn (s.slotAt b.die (b.slot.getD 0) + 64 + 48 * i + 32 + 4 * k) 4))
  ∧ ∀ (d : Reg) (q : BitVec 4) (base p : Nat) (o : Obj),
    let ep (s : State) (x : Iss) : Epochs := look {} s.epochs x.g.vd
    let marked (s : State) (x : Iss) (ks : List (Nat × Nat)) : State := { s with
      epochs := put s.epochs x.g.vd { ep s x with last := max (ep s x).last (ep s x).next }
      rmarks := s.rmarks ++ ks.map (fun k =>
        ({ part := p, vd := x.g.vd, epoch := (ep s x).next, lo := k.1, hi := k.2 } : RMark)) }
    let named (s : State) (x : Iss) : Prop := objCheck (x.g.qr q.toNat) 6 pREVOKE = .ok base
      ∧ s.obj? 6 x.g.vd base = some o ∧ s.partOfVd x.g.vd = some p
    RetiresWhen (.revoke d q) (fun s x => named s x ∧ (∀ ks, x.p.wait ≠ some (.marking ks))
        ∧ s.marksIn p + (s.regionRanges o.vd o).length ≤ 4096)
      (fun s x => marked s x (s.regionRanges o.vd o)) (fun s x => x.toPair d (ep s x).next)
    ∧ WaitsWhen (.revoke d q) (fun s x => named s x ∧ (∀ ks, x.p.wait ≠ some (.marking ks))
        ∧ 4096 < s.marksIn p + (s.regionRanges o.vd o).length)
      (fun s _ => s) (fun s _ => .marking (s.regionRanges o.vd o))
    ∧ ∀ ks, RetiresWhen (.revoke d q) (fun s x => named s x ∧ x.p.wait = some (.marking ks) ∧ s.marksIn p + ks.length ≤ 4096)
      (fun s x => marked s x ks) (fun s x => x.toPair d (ep s x).next)

/-! The privileged instructions (R348 to R365, R391, R392, R422 to R424, R445 to R450). -/

/-- SYSRD and SYSWR (R350 to R353): an invalid number traps; a read returns the register; a write is denied, is of a
read-only register, sets a reserved bit, or is applied, and sd tells which. TLB invalidation (R422, R423): the entries
named go from the TLBs of the issuer's partition and from every control core's, and only these; it ends when the accesses
that were to be made through them have been made. What the partition rule compares, and values taken as reserved:
notes/assumptions/48.md, 49.md. -/
def Obligations.SystemRegisters : Prop :=
  ((∀ (d a : Reg) (r die : Nat),
     let found (x : Iss) : Prop := x.sysRef (x.g.rd a 0).toNat = some (r, die)
       ∧ (0x0670 ≤ r → r ≤ 0x06FF → bankReg r = true)
     RetiresWhen (.sysrd d a) (fun _ x => found x) (fun s _ => s)
       (fun s x => x.g.wr2 d x.lanes (fun _ => BitVec.ofNat 64 (x.sysRead s r die).toNat))
     ∧ ∀ b : Reg,
       let v (x : Iss) := x.g.rd2 b 0
       RetiresWhen (.syswr d a b) (fun s x => found x ∧ x.sysDeny s r die (v x).toNat = true) (fun s _ => s)
         (fun _ x => x.toS d 1)
       ∧ RetiresWhen (.syswr d a b) (fun s x => found x ∧ x.sysDeny s r die (v x).toNat = false ∧ sysReadOnly r = true)
         (fun s _ => s) (fun _ x => x.toS d 3)
       ∧ RetiresWhen (.syswr d a b) (fun s x => found x ∧ x.sysDeny s r die (v x).toNat = false ∧ sysReadOnly r = false
           ∧ sysReserved r (v x).toNat = true) (fun s _ => s) (fun _ x => x.toS d 2)
       ∧ RetiresWhen (.syswr d a b) (fun s x => found x ∧ x.sysDeny s r die (v x).toNat = false ∧ sysReadOnly r = false
           ∧ sysReserved r (v x).toNat = false ∧ r ≠ 0x0105)
         (fun s x => (x.sysApply s r die (v x)).1)
         (fun s x => (x.sysApply s r die (v x)).2.wr d x.lanes (fun _ => 0)))
   ∧ (∀ d a b : Reg, ∀ i ∈ [Instr.sysrd d a, .syswr d a b],
       TrapsWhen i (fun _ x => x.sysRef (x.g.rd a 0).toNat = none) 0)
   ∧ ∀ (x : Iss) (s : State) (die : Nat) (v : DWord), ∀ r ∈ [0x0500, 0x0501, 0x0011, 0x0010],
       (x.sysApply s r die v).2 = x.g
       ∧ (x.sysApply s r die v).1.sysR r die 0 0 = v ∧ (x.sysApply s r die v).1.mem = s.mem
       ∧ ∀ r' die' vd i, sysKey r' die' vd i ≠ sysKey r die 0 0 →
           (x.sysApply s r die v).1.sysR r' die' vd i = s.sysR r' die' vd i)
  ∧ ((∀ a b : Reg,
     ∀ i, ∀ covers : Iss → Nat × Nat × Nat → Bool, (i, covers) ∈ [
         (Instr.tlbinv a b, fun x e => e.1 == (x.g.rd b 0).toNat % 2 ^ 16 && e.2.2 == (x.g.rd2 a 0).toNat / 2 ^ lvlShift e.2.1),
         (.tlbinva b, fun x e => e.1 == (x.g.rd b 0).toNat % 2 ^ 16), (.tlbinvaAll, fun _ _ => true)] →
       let gone (s : State) (x : Iss) : State := { s with
         tlb := s.tlb.filter (fun t => !(s.tlbIn (x.tlbPart s) t.tlb && covers x (t.pte.asid, t.pte.level, t.pte.page))) }
       RetiresWhen i (fun s x => (∀ cs ts, x.p.wait ≠ some (.performed cs ts)) ∧ s.holders x.owns (covers x) = ([], []))
         gone (fun _ x => x.g)
       ∧ WaitsWhen i (fun s x => (∀ cs ts, x.p.wait ≠ some (.performed cs ts)) ∧ s.holders x.owns (covers x) ≠ ([], [])) gone
         (fun s x => .performed (s.holders x.owns (covers x)).1 (s.holders x.owns (covers x)).2)
       ∧ ∀ cs ts, RetiresWhen i (fun s x => x.p.wait = some (.performed cs ts) ∧ s.performed cs ts = true) (fun s _ => s)
         (fun _ x => x.g))
   ∧ RetiresWith .ptwsync (fun _ x => x.g))

/-- The CTX instructions (R445 to R450): a context that a HALTCTX names halts, and is saved if asked; RESUMECTX kills,
runs on or restores it; STOPRD gives its image; QDRAIN moves its quarantine entries into its saved gangs; ERET enters
level U with the U bank. That a U-level thread runs in the context of its VD's root region is the model's choice
(notes/assumptions/26.md); the order of refused operands is deduced (41.md); the capability that STOPRD gives is good
while its image is held (92.md). -/
def Obligations.ContextCalls : Prop :=
  (∀ (q : BitVec 4) (base : Nat) (o : Obj) (n : Nat) (k : Ctx),
    let named (s : State) (x : Iss) : Prop := objCheck (x.g.qr q.toNat) 6 pSPAWN = .ok base ∧ x.rootArg s base = .ok o
    let opened (s : State) : Prop := (s.openCtx o.vd o.va).2 = n ∧ find (s.openCtx o.vd o.va).1.ctxs n = some k
    let unanswered (x : Iss) : Prop := k.answers.find? (fun e => e.1 == x.caller) = none
    let known (s : State) : Prop := s.ctxNo o.vd o.va = some n ∧ find s.ctxs n = some k
    (∀ (d : Reg) (i : Instr) (save : Bool), (i, save) ∈ [(Instr.haltctx d q, false), (.haltctxSave d q, true)] →
      EndsWhen i (fun s x => named s x ∧ opened s ∧ unanswered x
          ∧ (k.state = .running ∨ k.state = .halting ∨ k.state = .dead) ∧ k.callers.any (fun e => e.1 == x.caller) = false)
        (fun s x =>
          let t := ((s.openCtx o.vd o.va).1.putU x.u x.g).block x.u x.b .other
          (t.modCtx n (fun k => { k with
            state := .halting, byCall := k.byCall || k.state == .running
            callers := k.callers ++ [(x.caller, d.toNat - 96, save)] })).finishHalt n)
      ∧ WaitsWhen i (fun s x => named s x ∧ opened s ∧ unanswered x
          ∧ (k.state = .running ∨ k.state = .halting ∨ k.state = .dead) ∧ k.callers.any (fun e => e.1 == x.caller) = true)
        (fun s _ => s) (fun _ _ => .other)
      ∧ RetiresWhen i (fun s x => named s x ∧ opened s ∧ unanswered x ∧ k.state = .saved) (fun s _ => s) (fun _ x => x.toS d 3)
      ∧ ∀ a, RetiresWhen i (fun s x => named s x ∧ opened s ∧ k.answers.find? (fun e => e.1 == x.caller) = some a)
        (fun s _ => s.modCtx n (fun k => { k with answers := k.answers.erase a })) (fun _ x => x.toS d a.2))
    ∧ (∀ d : Reg,
      RetiresWhen (.haltctx d q) (fun s x => named s x ∧ opened s ∧ unanswered x ∧ k.state = .halted) (fun s _ => s)
        (fun _ x => x.toS d 0)
      ∧ RetiresWhen (.haltctxSave d q) (fun s x => named s x ∧ opened s ∧ unanswered x ∧ k.state = .halted)
        (fun s _ => ((s.openCtx o.vd o.va).1.saveCtx n).1)
        (fun s x => x.toS d (if ((s.openCtx o.vd o.va).1.saveCtx n).2 then 0 else 5)))
    ∧ (∀ (d a : Reg),
      let v (x : Iss) := (x.g.rd a 0).toNat
      let free (s : State) : Prop := known s ∧ (s.vd? o.vd).hstate = 0
      let after (t : State) (x : Iss) : Grp := ((find t.units x.u).getD x.g).wrS (d.toNat - 96) 0#32
      RetiresWhen (.resumectx d a q) (fun s x => named s x ∧ free s ∧ v x = 0 ∧ (k.state = .halted ∨ k.state = .saved))
        (fun s x => (s.putU x.u x.g).killCtx n) (fun s x => after ((s.putU x.u x.g).killCtx n) x)
      ∧ RetiresWhen (.resumectx d a q) (fun s x => named s x ∧ free s ∧ v x = 1 ∧ k.state = .halted)
        (fun s x => (s.putU x.u x.g).runOn n) (fun s x => after ((s.putU x.u x.g).runOn n) x)
      ∧ (∀ (row0 col0 : Nat) (t : State), row0 < 256 → col0 < 256 → RetiresWhen (.resumectx d a q)
          (fun s x => named s x ∧ free s ∧ v x = 5 + row0 * 256 + col0 * 65536 ∧ k.state = .saved
            ∧ (s.putU x.u x.g).restoreCtx n row0 col0 = some t)
          (fun _ _ => t) (fun _ x => after t x))
      ∧ RetiresWhen (.resumectx d a q) (fun s x => named s x ∧ free s ∧ v x = 1 ∧ k.state = .saved
          ∧ (s.putU x.u x.g).restoreCtx n (s.origin n).1 (s.origin n).2 = none)
        (fun s _ => s) (fun _ x => x.toS d 4)
      ∧ RetiresWhen (.resumectx d a q) (fun s x => named s x ∧ known s ∧ k.state ≠ .halted ∧ k.state ≠ .saved)
        (fun s _ => s) (fun _ x => x.toS d 3))
    ∧ (∀ d : BitVec 4,
      RetiresWhen (.stoprd d q) (fun s x => named s x ∧ known s ∧ ((k.state ≠ .halted ∧ k.state ≠ .saved) ∨ k.image = none))
        (fun s _ => s) (fun _ x => x.g.qw d.toNat Cap.null)
      ∧ ∀ a len, RetiresWhen (.stoprd d q)
        (fun s x => named s x ∧ known s ∧ (k.state = .halted ∨ k.state = .saved) ∧ k.image = some (a, len))
        (fun s _ => s.modCtx n (fun k => { k with
          shown := ((mkCap (imageBase + a) len pLOAD).base.toNat - imageBase,
            (mkCap (imageBase + a) len pLOAD).top.toNat - imageBase) :: k.shown }))
        (fun _ x => x.g.qw d.toNat (mkCap (imageBase + a) len pLOAD)))
    ∧ (∀ d : Reg,
      let late (s : State) : Bool := s.flight.any (fun e => ((find s.saved e.2.1).map (fun v => v.ctx)) == some n)
      RetiresWhen (.qdrain d q) (fun s x => named s x ∧ known s ∧ k.state = .saved ∧ late s = false)
        (fun s _ => ((s.quarantine.filter (fun e => e.2.any (fun y => y.1 == n))).map (·.1)).foldl
          (fun (t : State) c => (t.drainQuarantine n c).gained c) s) (fun _ x => x.toS d 0)
      ∧ WaitsWhen (.qdrain d q) (fun s x => named s x ∧ known s ∧ k.state = .saved ∧ late s = true) (fun s _ => s)
        (fun _ _ => .other)
      ∧ RetiresWhen (.qdrain d q) (fun s x => named s x ∧ known s ∧ k.state ≠ .saved) (fun s _ => s) (fun _ x => x.toS d 3))
    ∧ ∀ (s : State) (c gid : Nat) (v : Saved),
      let es := look [] s.quarantine c
      let t := s.drainQuarantine n c
      t = { s with saved := t.saved, quarantine := t.quarantine }
      ∧ (∀ m, look [] t.quarantine m = if m = c then es.filter (fun y => y.1 != n) else look [] s.quarantine m)
      ∧ (find s.saved gid = some v → find t.saved gid = some { v with
          quar := v.quar ++ (es.filter (fun y => y.1 == n && y.2.1 == gid)).map (fun y => y.2.2) }))
  ∧ ∀ (d a : Reg) (q : BitVec 4) (k : Bank),
    let c (x : Iss) := x.g.qr q.toNat
    (∀ va, EndsWhen (.eret d a q)
      (fun s x => isControl x.u = true ∧ (c x).tag = true ∧ (c x).otype = 0 ∧ (c x).has pEXEC = true ∧ x.g.bank = some k
        ∧ s.rootVa x.g.vd = some va)
      (fun s x =>
        let r := s.openCtx x.g.vd va
        let g : Grp := x.g.useBank k (x.p.pc + 4)
        r.1.putU x.u { g with
          level := .user, ctx := some r.2, pcc := c x, pccAt := none, stopped := !r.1.ctxRuns r.2, eretRd := some (d.toNat - 96),
          slotA := some { pc := x.g.rd2 a 0, mask := 1 } }))
    ∧ RetiresWhen (.eret d a q) (fun _ x => isControl x.u = true ∧ (c x).tag = false) (fun s _ => s) (fun _ x => x.toS d 4)
    ∧ TrapsWhen (.eret d a q) (fun _ x => isControl x.u = false) 0

/-- The POLICY instructions (R391, R392): a program that is well formed becomes the shadow, a swap waits for the next
decision boundary, where the shadow becomes active, and PSTAT reads the counters. -/
def Obligations.PolicyCalls : Prop :=
  (∀ (d a : Reg) (q : BitVec 4) (va0 va h n : Nat) (ph pl : Place) (k : Part),
    let p (x : Iss) := (x.g.rd a 0).toNat
    RetiresWhen (.pload d a q)
      (fun s x => x.part s = some (p x) ∧ find s.parts (p x) = some k ∧ k.swap = []
        ∧ capCheck (x.g.qr q.toNat) 0 16 pLOAD = .ok va0 ∧ locate s x.ag { r := true } va0 16 = .ok ph
        ∧ x.gate s false [⟨x.low, ph⟩] = none ∧ s.rkeys ph.keys = h ∧ 0 < h ∧ h ≤ 512
        ∧ capCheck (x.g.qr q.toNat) 0 (16 + 2 * h) pLOAD = .ok va ∧ locate s x.ag { r := true } va (16 + 2 * h) = .ok pl
        ∧ x.gate s false [⟨x.low, pl⟩] = none ∧ s.rkeys pl.keys = n
        ∧ wReject ((List.range h).map (fun i => fld n (128 + 16 * i) 16)) = none)
      (fun s x => (s.touch x.ag false pl).modPart (p x) (fun k => { k with
        shadow := some (((List.range h).map (fun i => fld n (128 + 16 * i) 16)).map (BitVec.ofNat 16)) }))
      (fun _ x => x.toS d 0)
    ∧ RetiresWhen (.pload d a q) (fun s x => x.part s ≠ some (p x)) (fun s _ => s) (fun _ x => x.toS d 1))
  ∧ (∀ (d a : Reg) (k : Part),
    let p (x : Iss) := (x.g.rd a 0).toNat
    (∀ (s : State) (x : Iss) (n : Nat) (g : Grp), Runs (.pswap d a) s x → x.part s = some n → p x = n →
      find s.parts n = some k → k.shadow ≠ none → k.swap = [] → k.answers.find? (fun e => e.1 == x.caller) = none →
      find s.units x.u = some g → g.slot (!x.b) = none → g.pick (s.genOf g) = none → x.p.mask.getLsbD x.low = true →
      ∃ t, exec (.pswap d a) s = .next t
        ∧ exec (.policySlotSwap n) t = .next (({ t with parts := put t.parts n { k with
            active := k.shadow, shadow := k.active, version := (k.version + 1) % 2 ^ 64 } } : State).complete x.u x.b
              (fun g => g.wrS (d.toNat - 96) 0#32)))
    ∧ (let here (s : State) (x : Iss) : Prop := x.part s = some (p x) ∧ find s.parts (p x) = some k
        ∧ k.swap.any (fun e => e.1 == x.caller) = false
      WaitsWhen (.pswap d a) (fun s x => here s x ∧ k.shadow ≠ none ∧ k.answers.find? (fun e => e.1 == x.caller) = none)
        (fun s x => s.modPart (p x) (fun k => { k with swap := k.swap ++ [(x.caller, d.toNat - 96)] })) (fun _ _ => .other)
      ∧ RetiresWhen (.pswap d a) (fun s x => here s x ∧ k.shadow = none ∧ k.answers.find? (fun e => e.1 == x.caller) = none)
        (fun s _ => s) (fun _ x => x.toS d 5)
      ∧ ∀ e, RetiresWhen (.pswap d a) (fun s x => here s x ∧ k.answers.find? (fun e => e.1 == x.caller) = some e)
        (fun s x => s.modPart (p x) (fun k => { k with answers := k.answers.erase e })) (fun _ x => x.toS d e.2))
    ∧ ∀ b : Reg, RetiresWhen (.pstat d a b) (fun s x => x.part s = some (p x) ∧ find s.parts (p x) = some k) (fun s _ => s)
      (fun _ x => x.g.wr2 d x.lanes (fun _ => BitVec.ofNat 64 (match b.toNat with
        | 0 => k.version
        | 1 => k.decisions
        | 2 => k.overruns
        | 3 => k.invalids
        | _ => if k.shadow.isSome then 1 else 0))))
  ∧ ∀ (s : State) (p : Nat) (k : Part) (w : Caller) (rd : Nat) (r : List (Caller × Nat)) (g : Grp),
    find s.parts p = some k → k.swap = (w, rd) :: r → k.shadow ≠ none → find s.units w.unit = some g →
    let here (b : Bool) : Prop := g.gang = w.gang ∧ ∃ y, g.slot b = some y ∧ y.mask.getLsbD w.lane = true ∧ y.wait = some .other
    let k1 : Part := { k with active := k.shadow, shadow := k.active, version := (k.version + 1) % 2 ^ 64, swap := r }
    let t : State := { s with parts := put s.parts p k1 }
    (∀ b, here b → (b = true → ¬here false) →
      exec (.policySlotSwap p) s = .next (t.complete w.unit b (fun g => g.wrS rd 0#32)))
    ∧ (¬here false → ¬here true →
      exec (.policySlotSwap p) s = .next (t.modPart p (fun k => { k with answers := k.answers ++ [(w, 0)] })))

/-- OBJNEW (R356): CREATE of an object whose checks pass writes its hardware fields, makes it live and returns its
capability; what was live in that memory is so no longer (R358); MINT returns a capability of the same object with a
badge, tagged when its cursor stays in bounds (R64, R69); SET replaces the fields of a scheduling context; OBJSTAT is 0,
or the status of the first check that fails, with a null capability from CREATE and MINT. That MINT clears the tag where
the cursor leaves the bounds, and the order of CREATE's checks, is deduced (notes/assumptions/47.md). -/
def Obligations.ObjectCreation : Prop :=
  ∀ (d q : BitVec 4) (a : Reg),
    let r (x : Iss) := newObjOf (x.g.rd2 a 0).toNat
    let c (x : Iss) := x.g.qr q.toNat
    let sized (x : Iss) : Prop := if (r x).otype = 8 ∨ (r x).otype = 9 then 1 ≤ (r x).count ∧ (r x).count ≤ 64 else (r x).count = 0
    let ends (x : Iss) (st : Nat) (k : Cap) : Grp := (x.g.ownW 0x0003 (BitVec.ofNat 64 st)).qw d.toNat k
    (∀ (ks : List Nat) (t : State), RetiresWhen (.objnew d a q)
      (fun s x => (r x).mode = 0 ∧ objType (r x).otype = true ∧ sized x
        ∧ x.objMem s (c x) (objSize (r x).otype (r x).count) (objAlign (r x).otype) = .ok ks
        ∧ (r x).perms &&& (65535 - objPerms (r x).otype) = 0 ∧ s.initObj x.g.vd (r x).otype (r x).count ks = .ok t)
      (fun _ x =>
        let o : Obj := { otype := (r x).otype, vd := x.g.vd, va := (c x).cursor, pa := ks.headD 0, count := (r x).count,
                         next := objNext ks }
        { t with objs := o :: t.objs.filter (fun k => !(k.meets ks)) })
      (fun _ x => ends x 0 (objCap (r x).otype (c x).cursor (r x).badge (r x).perms)))
    ∧ (∀ (ks : List Nat) (st : Nat), RetiresWhen (.objnew d a q)
      (fun s x => (r x).mode = 0 ∧ objType (r x).otype = true ∧ sized x
        ∧ x.objMem s (c x) (objSize (r x).otype (r x).count) (objAlign (r x).otype) = .ok ks
        ∧ (r x).perms &&& (65535 - objPerms (r x).otype) = 0 ∧ s.initObj x.g.vd (r x).otype (r x).count ks = .error st)
      (fun s _ => s) (fun _ x => ends x st Cap.null))
    ∧ RetiresWhen (.objnew d a q) (fun _ x => (r x).mode = 0 ∧ objType (r x).otype = false) (fun s _ => s)
      (fun _ x => ends x 8 Cap.null)
    ∧ RetiresWhen (.objnew d a q)
      (fun _ x => (r x).mode = 1 ∧ (c x).otype ≠ 0 ∧ (c x).tag = true ∧ (c x).otype = (r x).otype
        ∧ ((c x).cursor : Int) = (c x).base ∧ (r x).perms &&& (65535 - (c x).perms) = 0)
      (fun s _ => s)
      (fun _ x => ends x 0 ⟨capBits ((c x).cursor + (r x).badge) (r x).perms (c x).otype (c x).ex (c x).bm (c x).lm,
        decide ((((c x).cursor + (r x).badge : Nat) : Int) ≤ (c x).top)⟩)
    ∧ ∀ (base : Nat) (ks : List Nat) (o : Obj), RetiresWhen (.objnew d a q)
      (fun s x => (r x).mode = 2 ∧ (r x).otype = 3 ∧ (x.g.qr d.toNat).badge = 0
        ∧ objCheck (x.g.qr d.toNat) 3 pSPAWN = .ok base ∧ s.obj? 3 x.g.vd base = some o
        ∧ x.objMem s (c x) 16 16 = .ok ks ∧ fld (s.rkeys ks) 9 119 = 0)
      (fun s _ => s.wn o.pa 16 (s.rkeys ks)) (fun _ x => x.g.ownW 0x0003 0)

/-! Events: engines and the matrix engine (R130 to R138, R302 to R309, R324 to R328). -/

/-- A command writes the pieces it has left one at a time, in any order (R132), and counts them into its arrival object:
bytes are added to ARRIVED; when they reach a nonzero EXPECTED, PHASE flips and ARRIVED keeps the excess; EXPECTED never
changes (R136, R137). A command with nothing left is complete, and COMPLETED reaches a number when every command up to it
is complete (R134). An engine may meet an error of a unit it passes: its context faults (R59). The piece that one update
writes is the model's free choice (notes/assumptions/30.md), and so is which error an engine meets, if any (19.md); a
count carried over a flip is taken modulo 2^31 (81.md). -/
def Obligations.EngineEvents : Prop :=
  (∀ w b : Nat, w < 2 ^ 64 →
     let r := (arrival w b).1
     fld r 32 31 = fld w 32 31
     ∧ (fld w 32 31 ≠ 0 ∧ fld w 32 31 ≤ fld w 0 31 + b → fld r 63 1 = 1 - fld w 63 1
         ∧ fld r 0 31 = (fld w 0 31 + b - fld w 32 31) % 2 ^ 31)
     ∧ (fld w 32 31 = 0 ∨ fld w 0 31 + b < fld w 32 31 → fld r 63 1 = fld w 63 1
         ∧ fld r 0 31 = min (fld w 0 31 + b) (2 ^ 31 - 1)))
  ∧ (∀ (id : Nat) (s : State) (c : Cmd), find s.cmds id = some c → c.live = true → c.unstaged = true →
      s.collPaused c = false → c.did.length < s.total c →
      ∃ k ∈ s.piecesLeft c, ∀ t c' b, cmdPiece s.draw id c k = .ok t c' b →
        let d : Cmd := { c' with did := k :: c'.did }
        exec (.arrivalUpdate id) s = .next { t.arrive id c' b with
          cmds := put (t.arrive id c' b).cmds id
            (if d.did.length = (segDests (d.segs t)).length then { d with counts := d.drainCounts } else d) })
  ∧ (∀ (id : Nat) (s : State) (c : Cmd), find s.cmds id = some c → c.live = true → c.unstaged = true →
      s.collPaused c = false → s.locked.contains (c.tl / 16) = false → s.pending c = 0 → ∀ t c' g, cmdEnd s id c = .ok t c' () → c'.gang = some g → (find t.gangs g).isSome = true →
      let u : State := { t with cmds := put t.cmds id { c' with finished := true, buf := [], got := [] } }
      exec (.engineCommandComplete id) s
        = .next ((u.advance c'.tl).modCtx (c'.ctx.getD 0) (fun k => { k with deadlock := 0 })).pruneCmds)
  ∧ (∀ (s : State) (tl n : Nat), n < 2 ^ 64 → s.tlDone tl < 2 ^ 64 →
      (∀ e ∈ s.cmds, e.2.tl = tl → (e.2.finished = true ↔ e.2.seq ≤ n)) →
      (∃ e ∈ s.cmds, e.2.tl = tl ∧ e.2.seq = n ∧ e.2.told = false) →
      (s.advance tl).tlDone tl = max (s.tlDone tl) n)
  ∧ ∀ (id : Nat) (s : State) (c : Cmd) (n : Nat) (k : Ctx), find s.cmds id = some c → c.live = true → c.ctx = some n →
      c.regrow = none → find s.ctxs n = some k → k.state = .running →
      ∃ t, exec (.engineFault id) s = .next t
        ∧ (6 ≤ s.freeVal % 12 → exec (.arrivalUpdate id) s.draw = .next t)
        ∧ (s.freeVal % 12 < 6 → ∃ f, f.code = 0x18 ∧ f.detail ∈ [1, 2, 3, 5, 6, 8]
          ∧ find t.ctxs n = some { k with state := .halting, fault := some f, seq := (k.seq + 1) % 65536 }
          ∧ find t.cmds id = some { c with stopped := true } ∧ t.mem = s.mem ∧ t.units = s.units)

/-- Matrix sets close when they are full or old (R305); what a pass adds to an element of C is the tree over the rounded
exact sums of its blocks, and an I8 sum wraps (R117 to R119; a −0 product of MXINT8 is notes/assumptions/86.md); a pass
puts a chunk's results on the way, and the last ends the set (R306); the oldest result is written, and the last ends its
operation; a batch ends when its operations have (R308). A regrow request runs its launch when its sources are there, and
its tile is VALID when the launch is over (R324, R326). -/
def Obligations.MatrixEvents : Prop :=
  (∀ (n : Nat) (st : MSet),
    EventGives (.fusedSetClose n) (fun s => find s.sets n = some st ∧ st.closed = none
        ∧ (16 ≤ (s.setOps n).length ∨ st.openedAt + 8 ≤ s.now))
      (fun s => { s.tick with sets := put s.sets n { st with closed := some s.ticket } })
    ∧ EventGives (.fusedSetClose n) (fun s => find s.sets n = some st ∧ st.closed = none ∧ (s.setOps n).length < 16
        ∧ s.now < st.openedAt + 8) (fun s => s))
  ∧ (∀ (core n id : Nat) (st : MSet) (o : MOp) (r : List (Nat × MOp)),
    let b (s : State) := if o.czero then [] else (List.range (hN o.hrec)).map (fun m => (m, s.bLoft o m (o.s + st.passes)))
    let last := st.passes + 1 == o.k
    EventGives (.pass core) (fun s => s.nextSet core = some (n, st) ∧ s.setOps n = (id, o) :: r
        ∧ (∀ e ∈ s.setOps n, e.2.stopped = false ∧ e.2.ctr = none ∧ s.passErr e.2 (o.s + st.passes) = none) ∧ (o.czero = true ∨ o.streamed = false))
      (fun s =>
        let t := (s.setOps n).foldl (fun t e => t.passOne e.1 e.2 (o.s + st.passes) (b s) last) s
        { t with sets := if last then del t.sets n else put t.sets n { st with passes := st.passes + 1 } }))
  ∧ (∀ (core : Nat) (r : MRes),
    EventGives (.cribResultWrite core) (fun s => s.results.find? (fun r => r.core == core) = some r)
      (fun s =>
        let t := r.cells.foldl (fun (t : State) e => t.cribW core e.1 (leBytes e.2.toNat 4))
          ({ s with results := s.results.erase r } : State)
        if r.last then { t with ops := del t.ops r.op } else t))
  ∧ (∀ (u n b : Nat) (g : Grp) (r : List Nat),
    EventGives (.batchEnd u) (fun s => find s.units u = some g ∧ g.closed = b :: r ∧ g.ctx = some n
        ∧ (∀ e ∈ s.ops, e.2.unit = u → some e.2.gang = g.gang → 32768 ≤ (b + 65536 - e.2.batch) % 65536))
      (fun s => (s.putU u { g with
        closed := r, fallback := g.fallback + look 0 g.fbBatch b, fbBatch := del g.fbBatch b }).modCtx n
          (fun k => { k with deadlock := 0 })))
  ∧ (∀ ps : List FV,
    ((∃ p ∈ ps, p.isNan = true) ∨ (.inf false ∈ ps ∧ .inf true ∈ ps) → exactSum ps = .nan false)
    ∧ (∀ x, (∀ p ∈ ps, p.isNan = false) → .inf x ∈ ps → .inf (!x) ∉ ps → exactSum ps = .inf x)
    ∧ ((∀ p ∈ ps, ∃ n m e, p = .fin n m e) → ∃ n m e, exactSum ps = .fin n m e
      ∧ (m = 0 → n = ps.all FV.sign)
      ∧ ∀ k : Int, 0 ≤ e + k → (∀ n' m' e', .fin n' m' e' ∈ ps → 0 ≤ e' + k) →
        scaled n m e k = (ps.map (fun p => match p with
          | .fin n' m' e' => scaled n' m' e' k
          | _ => 0)).sum))
  ∧ (∀ (f : Nat × Nat) (blk rz first : Bool) (sa sb : Nat) (xa xb a b l r : List Nat) (c : Nat),
    let code (v : FV) : Nat := (roundFV .fp32 (if rz then .rz else .rne) false false v).1
    let products := (a.zip b).map (fun p => (mulX (matElem f.1 p.1) (matElem f.2 p.2)).1)
    let n := leafLen f.1 blk
    let root := chunkTree ((List.range (a.length / n)).map (fun j =>
      leaf f rz (xa.getD j 127) (xb.getD j 127) ((a.drop (j * n)).take n) ((b.drop (j * n)).take n)))
    (sa = 255 ∨ sb = 255 → leaf f rz sa sb a b = 0x7FC00000)
    ∧ (sa ≠ 255 → sb ≠ 255 → (∀ g m e, exactSum products = .fin g m e → leaf f rz sa sb a b = code (.fin g m (e + sa + sb - 254)))
      ∧ ((∀ g m e, exactSum products ≠ .fin g m e) → leaf f rz sa sb a b = code (exactSum products)))
    ∧ (f.1 ≠ 6 → accumulate f blk rz first xa xb a b c = if first then root else bankAdd .fp32 c root)
    ∧ (f.1 = 6 → (accumulate f blk rz first xa xb a b c : Int)
      = ((if first then 0 else (c : Int)) + ((a.zip b).map (fun p => sint 8 p.1 * sint 8 p.2)).sum) % 2 ^ 32)
    ∧ chunkTree [c] = c
    ∧ ∀ k ≤ 5, l.length = 2 ^ k → r.length = 2 ^ k → chunkTree (l ++ r) = bankAdd .fp32 (chunkTree l) (chunkTree r))
  ∧ ∀ (d : Nat) (r : Regrow) (e : Tile),
    EventGives (.regrowServe d) (fun s => find s.regrows d = some r ∧ s.tileOf d = some e ∧ r.failed = none
        ∧ s.ctxRuns r.ctx = true ∧ r.checked = true ∧ r.launched = false ∧ r.pins.length ≤ r.pos)
      (fun s => { s with regrows := put s.regrows d { r with
        launched := true, toGo := List.range (r.dims.1 * r.dims.2.1 * r.dims.2.2), left := r.dims.1 * r.dims.2.1 * r.dims.2.2 } })
    ∧ (∀ p, EventGives (.regrowServe d) (fun s => find s.regrows d = some r ∧ s.tileOf d = some e ∧ r.failed = none
        ∧ s.ctxRuns r.ctx = true ∧ r.checked = true ∧ r.launched = false ∧ r.pins[r.pos]? = some p
        ∧ tileState s p ≠ 1 ∧ tileState s p ≠ 2)
      (fun s => { s with regrows := put s.regrows d { r with pos := r.pos + 1, waits := false } }))
    ∧ EventGives (.regrowLaunchComplete d) (fun s => find s.regrows d = some r ∧ s.regrowOver d r = true)
      (fun s =>
        let t := r.pins.foldl (fun (t : State) p => t.setPins p (· - 1))
          ((s.setTileVersion d (tileVersion s d + 2)).setTileState d 0)
        ({ t with regrows := del t.regrows d } : State).modCtx r.ctx (fun k => { k with deadlock := 0 }))

/-! Events: launches, decisions and halts (R51 to R56, R162, R376 to R397, R435 to R450). -/

/-- Launches: ready, aborted, rejected or conditional ones (R51, R54, R55, R376), their gangs (R380, R48) and their end
(R162); and the decisions of the partition's program (R384 to R390, R393). The order of gangs among those to go is free
(notes/assumptions/3.md); a resumed group goes on in slot A (93.md). -/
def Obligations.LaunchEvents : Prop :=
  (∀ (n : Nat) (l : Launch),
    let waits (s : State) : Prop := find s.launches n = some l ∧ l.state = .waiting
    let ends (c : Nat) (s : State) : State := s.modLaunch n (fun l => { l with state := .done c })
    let calm (s : State) : Prop := l.aborted = none ∧ ∀ p ∈ s.preds l, p.2.1 ≠ none
    let served (s : State) : Prop := s.dispatchWaits l (s.predicatePlace l).toList = none
    EventGives (.launchReady n) (fun s => waits s ∧ l.aborted ≠ none) (ends 2)
    ∧ EventGives (.launchReady n) (fun s => waits s ∧ l.aborted = none ∧ ∃ p ∈ s.preds l, p.2.1 = none) (ends 4)
    ∧ EventGives (.launchReady n) (fun s => waits s ∧ calm s ∧ s.ready l = true ∧ l.predicate.isNull = true)
      (fun s => s.makeQueueable n l false)
    ∧ EventGives (.launchReady n) (fun s => waits s ∧ calm s ∧ s.ready l = true ∧ l.predicate.isNull = false
        ∧ served s ∧ s.predicateWord l = some 0) (ends 1)
    ∧ EventGives (.launchReady n) (fun s => waits s ∧ calm s ∧ s.ready l = true ∧ l.predicate.isNull = false
        ∧ served s ∧ s.predicateWord l = none) (ends 4)
    ∧ (∀ c, EventGives (.launchReady n) (fun s => waits s ∧ calm s ∧ s.ready l = true ∧ l.predicate.isNull = false
        ∧ served s ∧ s.predicateWord l = some (c + 1))
        (fun s => (s.touchAll l.ag false (s.predicatePlace l).toList).makeQueueable n l false))
    ∧ (∀ (c : Nat) (s : State), find s.launches n = some l → s.passes n l = true → s.whereTo n l = some c →
      s.predGone l = false → s.somewhere n l = true →
      (s.placeSaved n l = none → l.toGo.filter (fun g => l.resume.contains g == false) ≠ [] →
        ∃ g ∈ l.toGo.filter (fun g => l.resume.contains g == false),
          exec (.gangDispatch n) s = .next (s.draw.startGang n l c g))
      ∧ (l.toGo.filter (fun g => l.resume.contains g == true) ≠ [] →
        ∃ g ∈ l.toGo.filter (fun g => l.resume.contains g == true),
          exec (.phaseStart n) s = .next (s.draw.resumeGang n l c g).settleHalts))
    ∧ ∀ (st : Nat) (p q0 q : Place), EventGives (.launchCompletion n)
      (fun s => find s.launches n = some l ∧ s.endStatus n l = some st ∧ (st = 0 ∨ st = 1)
        ∧ l.statusCap.isNull = false ∧ locate s l.ag { w := true } l.statusCap.cursor 4 = .ok p
        ∧ l.compl.isNull = false ∧ locate s l.ag { r := true, w := true } l.compl.cursor 16 = .ok q0
        ∧ (∀ k ∈ p.granules ++ q0.granules, k ∉ s.locked) ∧ s.meetTiles none (some l.ctx) none [p, q0] = none
        ∧ s.unserved l.ag [p, q0] = none
        ∧ locate ((s.touch l.ag true p).wkeys p.keys (leBytes st 4)) l.ag { r := true, w := true } l.compl.cursor 16 = .ok q)
      (fun s =>
        let t := (((s.touch l.ag true p).wkeys p.keys (leBytes st 4)).touch l.ag true q).tlRaise (q.keys.headD 0) l.cval
        (({ t with launches := del t.launches n } : State).clearMarks (fun m => m.launch == n)).fixHeads))
  ∧ ∀ p : Nat,
    (∀ (q n : Nat) (l : Launch), EventGives (.dispatchDecision p)
      (fun s => s.dispatchDue p = true ∧ s.decideAct p 0 none = .accept q ∧ q < 64 ∧ s.head p q = some (n, l))
      (fun s => (s.counted p false false).modLaunch n (fun l => { l with accepted := true })))
    ∧ (∀ n : Nat, EventGives (.dispatchDecision p)
      (fun s => s.dispatchDue p = true ∧ s.decideAct p 0 none = .overrun ∧ s.fallbackHead p = some n)
      (fun s => (s.counted p true false).modLaunch n (fun l => { l with accepted := true })))
    ∧ (∀ (e : Nat × Launch) (r : List (Nat × Launch)) (q n k : Nat) (l : Launch),
      EventGives (.pressureDecision p)
        (fun s => s.pressureDue p = e :: r ∧ s.decideAct p 1 none = .preempt q k ∧ q < 64 ∧ s.head p q = some (n, l))
        (fun s => ((s.modLaunch e.1 (fun l => { l with asked := true })).counted p false false).markCores p n l
          (min k (s.victimCores p l).length)))
    ∧ ∀ (c : Nat) (k : Ctx) (r : List (Nat × Ctx)),
      let t (s : State) := s.modCtx c (fun k => { k with decide := false })
      EventGives (.faultDecision p) (fun s => s.faultDue p = (c, k) :: r ∧ s.decideAct p 2 (some c) = .faultact 0)
        (fun s => ((t s).counted p false false).killCtx c)
      ∧ EventGives (.faultDecision p) (fun s => s.faultDue p = (c, k) :: r ∧ s.decideAct p 2 (some c) = .defer)
        (fun s => ((t s).counted p false false).notifyOwn c)
      ∧ EventGives (.stepBudgetOverrun p) (fun s => s.faultDue p = (c, k) :: r ∧ s.decideAct p 2 (some c) = .overrun)
        (fun s => ((t s).counted p true false).notifyOwn c)

/-- Halts: units stop, and with the last one the image is written and the context is halted (R436, R439, R442); KILL,
RESUME and NOTIFY (R443); watchdogs and errors without a consumer (R23, R396, R397); pre-emption (R393, R394); landing
reads (R445); restores (R446); re-entry to level K (R450); and a swap for age (R44). Which reads are in flight at a stop,
and which free control core a restored thread takes, is free (notes/assumptions/42.md, 100.md). -/
def Obligations.HaltEvents : Prop :=
  (∀ (c : Nat) (k : Ctx),
    (∀ h : Bool, EventGives (.kill c) (fun s => find s.ctxs c = some k ∧ k.act = some (0, h)) (fun s => s.killCtx c)
      ∧ EventGives (.resume c) (fun s => find s.ctxs c = some k ∧ k.act = some (1, h) ∧ k.state = .halted)
        (fun s => s.runOn c)
      ∧ EventGives (.resume c) (fun s => find s.ctxs c = some k ∧ k.act = some (1, h) ∧ k.state = .saved)
        (fun s => (s.consume c).modCtx c (fun k => { k with restore := some (s.origin c), decide := false }))
      ∧ EventGives (.notify c) (fun s => find s.ctxs c = some k ∧ k.act = some (2, h)
          ∧ s.rootOf ((s.regionLine k.vd k.escalate).drop 1) = none) (fun s => s.killCtx c)
      ∧ ∀ r, EventGives (.notify c) (fun s => find s.ctxs c = some k ∧ k.act = some (2, h)
          ∧ s.rootOf ((s.regionLine k.vd k.escalate).drop 1) = some r) (fun s => (s.consume c).faultMessage c r))
    ∧ (∀ (u : Nat) (g : Grp), u < 2 ^ 20 → EventGives (.unitStop u)
      (fun s => find s.units u = some g ∧ g.ctx = some c ∧ find s.ctxs c = some k ∧ k.state = .halting ∧ g.stopped = false)
      (fun s => (s.stopUnit u).finishHalt c))
    ∧ (∀ (s t : State) (m : Ctx), find s.ctxs c = some k → k.state = .halting → s.allStopped c = true →
        k.callers = [] → (s.modCtx c (fun _ => k.promoted)).writeImage c k.promoted 0 = some t → find t.ctxs c = some m →
        find (s.finishHalt c).ctxs c = some { m with state := .halted, decide := m.fault.isSome, callers := [] })
    ∧ (∀ e r, k.fault = none → k.more = e :: r →
        k.promoted = { k with fault := some e.2, more := r, seq := (k.seq + 1) % 65536 })
    ∧ ((k.fault ≠ none ∨ k.more = []) → k.promoted = k)
    ∧ (∀ d : Nat,
      let lim (s : State) := fld (s.sysR 0x0500 d 0 0).toNat 0 32 * 1024
      EventGives (.watchdogHang c d) (fun s => find s.ctxs c = some k ∧ lim s ≠ 0 ∧ lim s ≤ look 0 k.hang d ∧ k.state = .running)
        (fun s => (s.modCtx c (fun k => { k with hang := del k.hang d })).noUnitFault c 0x1C 0)
      ∧ EventGives (.watchdogHang c d) (fun s => lim s = 0) (fun s => s))
    ∧ (let lim (s : State) := fld (s.sysR 0x0501 0 0 0).toNat 0 32 * 2 ^ 20
      EventGives (.watchdogDeadlock c) (fun s => find s.ctxs c = some k ∧ lim s ≠ 0 ∧ lim s ≤ k.deadlock ∧ k.state = .running)
        (fun s => (s.modCtx c (fun k => { k with deadlock := 0 })).noUnitFault c 0x1D 0)
      ∧ EventGives (.watchdogDeadlock c) (fun s => lim s = 0) (fun s => s))
    ∧ EventGives (.eccNoConsumer c) (fun s => find s.ctxs c = some k)
      (fun s => (s.ctxFault c { code := 0x18, detail := 7, pc := k.lastPc }).finishHalt c)
    ∧ ∀ (row0 col0 : Nat) (t : State), EventGives (.contextRestore c row0 col0)
      (fun s => find s.ctxs c = some k ∧ k.restore = some (row0, col0) ∧ s.restoreCtx c row0 col0 = some t) (fun _ => t))
  ∧ (∀ (u gid : Nat) (k : Gang) (g : Grp) (m : Mark),
    let fresh (s : State) : Prop := s.markedGang u = some (gid, k, g, m) ∧ g.vacate = false ∧ g.stopped = false
    EventGives (.forcedSave u) (fun s => fresh s ∧ m.at_ + 16384 ≤ s.now) (fun s => s.vacateUnit u gid)
    ∧ EventGives (.forcedSave u) (fun s => fresh s ∧ s.now < m.at_ + 16384) (fun s => s)
    ∧ ∀ p : Path, EventGives (.reconvergenceHalt u)
      (fun s => fresh s ∧ (s.gangUnits k).all (fun e => e.2.vacate) = false ∧ g.reconverged = true ∧ (g.slotA.orElse (fun _ => g.slotB)) = some p ∧ p.hints = [] ∧ p.hnd = false
        ∧ k.res.all (fun e => !(resValid e.2)) = true ∧ s.matrixBusy gid = false
        ∧ s.cmds.all (fun e => e.2.gang != some gid || e.2.finished || !e.2.writesScr) = true)
      (fun s => s.vacateUnit u gid))
  ∧ (∀ (c : Nat) (m : Mark), EventGives (.coreHandover c)
      (fun s => find s.marks c = some m ∧ ∀ e ∈ s.units, isControl e.1 = true ∨ unitCore e.1 ≠ c ∨ e.2.level = .kernel)
      (fun s =>
        let t := s.fillCore m.launch c 64
        if t.keepsMark m.launch c then t.settleHalts
        else (State.gained { t with marks := del t.marks c } c).settleHalts))
  ∧ (∀ (c core gid : Nat) (e : Late),
    let next (s : State) : Prop := s.flight.find? (fun e => e.1 == c) = some (core, gid, e)
    (∀ sv : Saved, EventGives (.quarantineLanding c)
      (fun s => next s ∧ find s.gangs gid = none ∧ find s.saved gid = some sv)
      (fun s => { s with
        flight := s.flight.erase (core, gid, e)
        quarantine := put s.quarantine c (look [] s.quarantine c ++ [(sv.ctx, gid, e)]) }))
    ∧ ∀ k : Gang, EventGives (.quarantineLanding c) (fun s => next s ∧ find s.gangs gid = some k)
      (fun s => ({ s with flight := s.flight.erase (core, gid, e) } : State).landQ k e))
  ∧ (∀ (n : Nat) (g : Grp) (p : Path), EventGives (.kernelReentry n)
      (fun s => find s.units (81920 + n) = some g ∧ g.slotA = some p ∧ g.level = .user ∧ g.ownR 0x0601 ≠ 0
        ∧ noteWord s (g.ownR 0x0601).toNat ≠ 0 ∧ g.dead = false)
      (fun s => s.putU (81920 + n) (g.reenter p.rewound.pc 3)))
  ∧ ∀ (u : Nat) (g : Grp) (p : Path), EventGives (.ageingSwap u)
      (fun s => find s.units u = some g ∧ g.ageDue (s.genOf g) = true ∧ g.slot g.lastB = some p)
      (fun s => s.putU u ((g.swapWith (s.genOf g) g.lastB (g.pickAged (s.genOf g))).giveWay (s.genOf g) g.lastB))

/-! Events: shares, epochs, security, and the module (R398 to R412, R429 to R434, R451 to R480). -/

/-- A bucket takes its RATE and lends what overflows (R398, R399); a round serves the oldest acceptable request of the
first class that has one and charges it (R400); at the ISSUE arbiter the group that stands before every other ready one
issues next (R383). An epoch begins with one request for each line and block to examine, and completes when none is left
(R431); a gleaner's request completes when its lines are erased (R434); the marks of a complete epoch go when its resident
gangs have gone (R433). At the ISSUE arbiter the order is K groups, then the class of R400, then the order of R383, which
is the model's choice (notes/assumptions/54.md). Which units are residents of an epoch is deduced (58.md). -/
def Obligations.ShareEvents : Prop :=
  (∀ (kind inst : Nat) (s : State),
    EventGives (.bucketRefill kind inst) (fun _ => True) (fun s => (List.range 128).foldl (fun (t : State) v =>
      if cfgRate (t.bucketCfg kind inst v) = 0 then t
      else t.settleLevel kind inst v (t.levelOf kind inst v + cfgRate (t.bucketCfg kind inst v))) s)
    ∧ ∀ vd n, vd < 128 →
      let top := 1024 * cfgDepth (s.bucketCfg kind inst vd)
      let t := s.settleLevel kind inst vd n
      t.levelOf kind inst vd = min top n ∧ t.sys = s.sys ∧ t.units = s.units ∧ t.mem = s.mem
      ∧ (∀ p, s.partOfVd vd = some p → t.poolOf kind inst p
          = min (s.poolCap kind inst p) (s.poolOf kind inst p + (n - top))))
  ∧ (∀ (kind inst cls : Nat) (r : Req), kind ≠ 0 →
    let ok (s : State) := (s.waiting kind inst).filter s.acceptable
    EventGives (.arbitrationRound kind inst)
      (fun s => (∀ q ∈ ok s, cls ≤ s.classOf (s.waiting kind inst) q) ∧ cls ≤ 2
        ∧ oldestReq ((ok s).filter (fun q => s.classOf (s.waiting kind inst) q == cls)) = some r)
      (fun s => ({ s.charge cls r with reqs := s.reqs.erase r } : State).serveReq r)
    ∧ EventGives (.arbitrationRound kind inst) (fun s => ok s = []) (fun s => s))
  ∧ (∀ (core u : Nat) (g : Grp) (b : Bool),
    EventGives (.arbitrationRound 0 core)
      (fun s => (u, g) ∈ s.contenders core ∧ s.issuable u g = some b
        ∧ ∀ e ∈ s.contenders core, e = (u, g) ∨ rankBefore (s.issueRank u g) (s.issueRank e.1 e.2) = true)
      (fun s => { s with agenda := .issue u b :: s.agenda }))
  ∧ (∀ vd p : Nat,
    let e (s : State) : Epochs := look {} s.epochs vd
    EventGives (.epochBegin vd) (fun s => s.partOfVd vd = some p ∧ (e s).begun < (e s).last ∧ (e s).complete = (e s).begun)
      (fun s => (s.toExamine p).foldl (fun (t : State) k => t.request 5 0 vd 1 (.examine vd ((e s).begun + 1) k))
        { s with epochs := put s.epochs vd { e s with begun := (e s).begun + 1, residents := s.gangsIn p } })
    ∧ EventGives (.epochComplete vd)
      (fun s => (e s).complete < (e s).begun ∧ (e s).reset ≠ some (e s).begun
        ∧ ∀ r ∈ s.reqs, ∀ k, r.what ≠ .examine vd (e s).begun k)
      (fun s => ({ s with
        epochs := put s.epochs vd { e s with complete := (e s).begun }
        saved := s.saved.map (fun (x : Nat × Saved) => (x.1, s.sweepSaved x.2.vd x.2))
        ctxs := s.ctxs.map (fun (x : Nat × Ctx) => (x.1, { x.2 with
          threads := x.2.threads.map (fun (y : Nat × Grp) => (y.1, s.sweepGrp y.2)) }))
      } : State).retireObjs vd (e s).begun |>.raiseAt 0x0102 vd (e s).begun)
    ∧ EventGives (.markRelease vd) (fun s => ∀ g ∈ (e s).residents, s.stays g = false)
      (fun s => { s with rmarks := s.rmarks.filter (fun m => m.vd != vd || decide ((e s).complete < m.epoch)) })
    ∧ ∀ (g : Glean), EventGives (.gleanerRequestComplete vd)
      (fun s => s.gleans = [g] ∧ g.vd = vd ∧ s.reqs = [] ∧ (s.vd? vd).resetting = false)
      (fun s => ({ s with gleans := [] } : State).raiseAt 0x0103 vd (s.sysR 0x0105 0 vd 0).toNat)
    ∧ EventGives (.gleanerRequestComplete vd)
      (fun s => (s.vd? vd).resetting = true ∧ (e s).reset = none ∧ ∀ r ∈ s.reqs, ∀ k, r.what ≠ .wipe vd k)
      (fun s => s.resetFinish vd))
  ∧ ∀ (s : State) (vd : Nat) (v : Vd), find s.vds vd = some v → v.caller = none →
      find (s.resetFinish vd).vds vd = some { v with
        live := false, resetting := false, frames := v.frames.map (fun f => (f.1, f.2.1, f.2.2.1, f.2.2.2 + 1))
        gens := v.gens ++ v.frames.map (fun f => (f.1, f.2.1, f.2.2.2 + 1)) }

/-- A call at the security core's endpoint, or at the page endpoint, is carried out and answered, or answered DENIED where
it is not the caller's to make (R426, R456), a call of the page endpoint with other than 8 words and 1 capability among
them (notes/assumptions/88.md); a reset of a VD begins unless R465 refuses it; and the exchange between two modules of a
handover (R463). How frames are erased for a claim or a reset, what a blob holds, and the digests that measurements start
from are the model's (notes/assumptions/64.md, 45.md, 68.md). -/
def Obligations.SecurityEvents : Prop :=
  (∀ (i : Instr) (op : Nat) (own : Bool) (f : State → SecCall → Option (State × List Cap) × Nat),
    (i, op, own, f) ∈ [(Instr.partdef, 1, false, State.partdef), (.vdcreate, 2, false, State.vdcreateCall),
      (.claim, 3, false, State.claimCall), (.measure, 4, true, State.measureCall), (.extend, 5, true, State.extendCall),
      (.exportVd, 7, false, State.exportCall), (.importVd, 8, false, State.importCall), (.erase, 9, false, State.eraseCall),
      (.abandon, 10, false, State.abandonCall), (.admitVd, 11, false, State.admitCall)] →
    ∀ (s : State) (c : SecCall), Asked s secEp c → c.m 0 = op →
      ((c.badge = 0 ∨ (own = true ∧ c.m 1 + 1 = c.badge)) → ∀ st,
        (∀ t caps, f s c = (some (t, caps), st) → (op = 2 ∨ op = 3 → (s.vd? (c.m 1)).claim = some c.ticket) →
          exec i s = .next (t.secReply c st caps))
        ∧ (∀ t caps lo n, f s c = (some (t, caps), st) → (s.vd? (c.m 1)).claim ≠ some c.ticket →
          (op = 2 ∧ lo = c.m 4 ∧ n = c.m 5) ∨ (op = 3 ∧ lo = c.m 2 ∧ n = c.m 3) →
          exec i s = .next ((List.range (2 ^ 14 * n)).foldl
            (fun (t : State) k => t.request 6 0 (c.m 1) 1 (.wipe (c.m 1) (2 ^ 14 * lo + k)))
            { s with vds := put s.vds (c.m 1) { s.vd? (c.m 1) with claim := some c.ticket } }))
        ∧ (f s c = (none, st) → exec i s = .next (s.secReply c st [])))
      ∧ (c.badge ≠ 0 → (own = false ∨ c.m 1 + 1 ≠ c.badge) → exec i s = .next (s.secReply c 1 [])))
  ∧ (∀ (s : State) (c : SecCall), Asked s secEp c → c.m 0 = 6 →
      (c.badge = 0 → s.resetStatus (c.m 1) ≠ 0 → exec .vfreset s = .next (s.secReply c (s.resetStatus (c.m 1)) []))
      ∧ (c.badge = 0 → s.resetStatus (c.m 1) = 0 →
          let r := s.newReply (.path c.u c.b) none
          exec .vfreset s = .next ((r.1.putU c.u (c.g.setSlot c.b ((c.g.slot c.b).map (fun p =>
            { p with wait := some (.calling r.2 c.rd) })))).resetBegin (c.m 1) (some r.2)))
      ∧ (c.badge ≠ 0 → exec .vfreset s = .next (s.secReply c 1 [])))
  ∧ (∀ vd : Nat, EventGives (.functionLevelReset vd) (fun s => s.resetStatus vd = 0) (fun s => s.resetBegin vd none)
      ∧ EventGives (.functionLevelReset vd) (fun s => s.resetStatus vd ≠ 0) (fun s => s))
  ∧ (∀ (s : State) (c : SecCall), Asked s pageEp c → (c.badge = 0 ∨ c.words.length ≠ 8 ∨ c.caps.length ≠ 1) →
      (c.m 0 ≠ 2 → exec .pageSet s = .next (s.secReply c 1 [])) ∧ (c.m 0 = 2 → exec .pageClear s = .next (s.secReply c 1 [])))
  ∧ (∀ (s : State) (c : SecCall), Asked s pageEp c → c.badge ≠ 0 → c.words.length = 8 → c.caps.length = 1 →
      s.pageHeld c = false →
      (c.m 0 = 1 → exec .pageSet s = .next ((s.pageCall c true).1.secReply c (s.pageCall c true).2 []))
      ∧ (c.m 0 = 2 → exec .pageClear s = .next ((s.pageCall c false).1.secReply c (s.pageCall c false).2 [])))
  ∧ (∀ (s : State) (c : SecCall), c.m 1 ≤ 127 → (s.vd? (c.m 1)).live = true →
      (s.extendCall c).1.map (fun r => (r.1.vd? (c.m 1)).meas) = some (sha384 (leBytes (s.vd? (c.m 1)).meas.toNat 48
        ++ (List.range 6).flatMap (fun i => leBytes (c.m (2 + i)) 4))))
  ∧ (∀ (s : State) (vd lo n : Nat) (prot : Bool),
      let t := s.claimFrames vd lo n prot
      t = { s with vds := t.vds }
      ∧ ∃ gen, (lo, n, prot, gen) ∈ (t.vd? vd).frames ∧ (lo, n, gen) ∈ (t.vd? vd).gens
        ∧ ∀ e ∈ s.vds, ∀ f ∈ e.2.gens, f.1 < lo + n → lo < f.1 + f.2.1 → f.2.2 < gen)
  ∧ (∀ (s : State) (r : Req) (vd line : Nat), r.what = .wipe vd line →
      let t := s.serveReq r
      (∀ k, 128 * line ≤ k → k < 128 * (line + 1) → t.rb k = 0)
      ∧ (∀ k, k < 128 * line ∨ 128 * (line + 1) ≤ k → k < tileKey 0 → t.rb k = s.rb k)
      ∧ t.units = s.units ∧ t.vds = s.vds)
  ∧ ∀ (vd dest : Nat) (v : Vd),
    EventGives (.releaseRequest vd dest)
      (fun s => find s.vds vd = some v ∧ v.live = true ∧ v.hstate = 1 ∧ v.released = none)
      (fun s => { s with vds := put s.vds vd { v with released := some (dest, false) } })
    ∧ EventGives (.confirm vd) (fun s => find s.vds vd = some v ∧ v.released ≠ none ∧ v.hstate = 2)
      (fun s => { s with vds := put s.vds vd { v with live := false, hstate := 0, retries := 0, blob := none, released := none } })

/-- The effects of writes of control registers (R407, R410, R434, R474 to R477, R480), alarms, tests, updates, wear and
repair (R475 to R480), a member's module that leaves (R472), and power (R473, R480). The two steps of FW_SWAP and a GO
that is ignored are the model's choice (notes/assumptions/65.md), and so are one hour for each WEAR_RECOMPUTE (66.md) and
what a loss of power keeps (67.md); links are set anew with every state of a die (50.md). -/
def Obligations.ModuleEvents : Prop :=
  (∀ vd v : Nat, EventGives (.glreqWrite vd v)
      (fun s => sysReserved 0x0105 v = false ∧ s.glRange vd v = true ∧ s.gleanFull vd = false) (fun s => s.queueGlean vd v))
  ∧ (∀ die kind vd v : Nat, EventGives (.bcfgWrite die kind vd v)
      (fun s => sysReserved 0x0201 v = false ∧ s.partOfVd vd ≠ none ∧ s.bcfgBad die kind vd v = false)
      (fun s => s.bcfgSet die kind vd v))
  ∧ (∀ die v : Nat, EventGives (.svclendWrite die v) (fun s => sysReserved 0x0210 v = false ∧ s.lendOk die v = true)
      (fun s => s.lendSet die v))
  ∧ (∀ die ch row : Nat,
    EventGives (.rowRetire die ch row) (fun s => s.spareHbm die ≠ 0)
      (fun s => { s with retired := s.retired ++ [(die, ch, some row)] })
    ∧ EventGives (.rowRetire die ch row) (fun s => s.spareHbm die = 0) (fun s => s)
    ∧ EventGives (.channelRetire die ch) (fun s => s.claimedIn (channelLo die ch) (channelLo die (ch + 1)) = false
        ∧ (die, ch, none) ∉ s.retired)
      (fun s => { s with retired := s.retired ++ [(die, ch, none)] })
    ∧ EventGives (.channelRetire die ch) (fun s => s.claimedIn (channelLo die ch) (channelLo die (ch + 1)) = true)
      (fun s => s))
  ∧ (∀ die : Nat,
    EventGives (.diestateOffline die) (fun s => s.partOfDie die = none) (fun s => (s.setDie die 1).relink)
    ∧ EventGives (.diestateOffline die) (fun s => s.partOfDie die ≠ none) (fun s => s)
    ∧ EventGives (.diestateOnline die) (fun _ => True) (fun s => s.setDie die 2)
    ∧ (∀ s : State, fld (s.sysR 0x0700 die 0 0).toNat 0 2 = 2 → ∃ st : Nat, (st = 0 ∨ st = 1)
        ∧ exec (.dieTestComplete die) s = .next ((s.draw.clearDie die).setDie die st).relink)
    ∧ ∀ s : State, die < 20 → (s.relink.sysR 0x0401 die 0 0).toNat % 32 = s.openBits die
      ∧ (s.dieUp die = false → s.openBits die = 0))
  ∧ (∀ die bits : Nat, die < 20 → ∀ s : State,
    ∃ t, exec (.alarmRaise die bits) s = .next t
      ∧ (t.sysR 0x0704 die 0 0).toNat = s.alarm die ||| bits % 16
      ∧ look 0 t.conds die = look 0 s.conds die ||| bits % 16
      ∧ (∃ t', exec (.alarmClear die bits) s = .next t' ∧ (t'.sysR 0x0704 die 0 0).toNat = s.alarm die &&& (15 - bits % 16)
        ∧ t' = { s with sys := t'.sys, narrow := t'.narrow })
      ∧ exec (.alarmConditionGone die bits) s
          = .next (({ s with conds := store 0 s.conds die (look 0 s.conds die &&& (15 - bits % 16)) } : State).setNarrow die))
  ∧ (EventGives .fwctlGo (fun s => s.fwState = 0 ∨ s.fwState = 3) (fun s => s.setFw 1)
    ∧ EventGives .fwctlGo (fun s => s.fwState = 1 ∨ s.fwState = 2) (fun s => s)
    ∧ EventGives .fwSwap
      (fun s => s.fwState = 2 ∧ (∀ e ∈ s.vds, e.2.caller = none ∧ e.2.claim = none) ∧ s.ctlBoundary = true)
      (fun s => ({ s with measFw := s.fwNext } : State).setFw 0)
    ∧ EventGives .fwSwap (fun s => s.fwState = 1 ∧ Config.fwSigned s.fwImage = true)
      (fun s => ({ s with fwNext := Config.fwDigest s.fwImage } : State).setFw 2)
    ∧ EventGives .fwSwap (fun s => s.fwState = 1 ∧ Config.fwSigned s.fwImage = false) (fun s => s.setFw 3))
  ∧ (∀ (s : State) (die : Nat), die < 20 → ∃ (t u : State) (life : Nat), exec (.wearRecompute die) s = .next t
      ∧ u = s.draw.sysW 0x0703 die 0 0
          (BitVec.ofNat 64 ((fld (s.sysR 0x0703 die 0 0).toNat 0 32 + 1) % 2 ^ 32 + life * 2 ^ 32))
      ∧ life < 2 ^ 32 ∧ t = if life < 8760 then u.raiseAlarm die 4 else u)
  ∧ (∀ (s : State) (core : Nat), (s.handles.all (fun e => e.1 / 64 != core || e.2.holder.isNone)) = true →
      0 < s.spareLoft (core / 64) → ∃ (t : State) (slice : Nat), exec (.loftRowRemap core) s = .next t ∧ slice < 128
        ∧ t.remaps = s.remaps ++ [(core, slice)] ∧ t.mem = s.mem ∧ t.units = s.units ∧ t.crib = s.crib)
  ∧ EventGives .powerOn (fun s => s.powered = true) (fun s => s)
  ∧ (∀ s : State, s.powered = false → ∃ t, exec .powerOn s = .next t ∧ t.powered = true ∧ t.units = bootCores
      ∧ t.mem = s.mem)
  ∧ (∀ s : State, ∃ t, exec .powerLoss s = .next t ∧ t.powered = false ∧ t.units = [] ∧ t.ctxs = [] ∧ t.vds = []
      ∧ t.retired = s.retired ∧ t.remaps = s.remaps ∧ (∀ k, k < 2 ^ 52 → t.rb k = 0)
      ∧ ∀ die, t.sysR 0x0703 die 0 0 = 0)
  ∧ ∀ m : Nat, EventGives (.moduleLeavesDomain m) (fun _ => True)
      (fun s => (s.objs.filter (fun o => o.otype == 8)).foldl (fun (t : State) o => t.excludeIn o.pa (fun k _ => k == m)) s)

/-- What comes from outside (R86, R87, R374, R375, R453, R457, R464, R467, R469): frames on links are counted and may
close a link; stores, loads, atomics, messages and signals of peers reach memory and objects (an access of a peer in the
one address space of the VD: notes/assumptions/62.md), their tokens unsealed; host slots and launch packets; lost peers;
and interrupt sources, which raise the word of the line bound to them (R80, R364). How links are numbered, what an inbox
holds, what peers do, and that nothing answers a frame which a closed link discards: notes/assumptions/59.md to 62.md,
91.md. -/
def Obligations.OutsideEvents : Prop :=
  (∀ (die dir : Nat) (ok transit : Bool) (r : List Frame),
    EventGives .frameReceive (fun s => s.inbox = .link die dir false transit :: r ∧ s.linkDown.contains (8 * die + dir) = false)
      (fun s => { s with inbox := r, linkFail := store 0 s.linkFail (8 * die + dir) (look 0 s.linkFail (8 * die + dir) + 1) })
    ∧ EventGives .frameReceive (fun s => s.inbox = .link die dir ok transit :: r
        ∧ s.linkDown.contains (8 * die + dir) = true) (fun s => { s with inbox := r })
    ∧ EventGives .frameReceive (fun s => s.inbox = .link die dir true true :: r
        ∧ s.linkDown.contains (8 * die + dir) = false)
      (fun s => { s with
        inbox := r, linkFail := del s.linkFail (8 * die + dir)
        keys := store 0 s.keys (8 * die + dir) ((look 0 s.keys (8 * die + dir) + 1) % 2 ^ 48) })
    ∧ EventGives .frameReceive (fun s => s.inbox = .link die dir true false :: r ∧ die < 20
        ∧ s.linkDown.contains (8 * die + dir) = false ∧ bit (s.sysR 0x0401 die 0 0).toNat dir = false)
      (fun s => ({ s with
        inbox := r, linkFail := del s.linkFail (8 * die + dir)
        keys := store 0 s.keys (8 * die + dir) ((look 0 s.keys (8 * die + dir) + 1) % 2 ^ 48) } : State).dropped (8 * die + dir))
    ∧ ∀ (s : State) (l : Nat), l / 8 < 20 → let fw := (s.sysR 0x0401 (l / 8) 0 0).toNat
      ((s.dropped l).sysR 0x0401 (l / 8) 0 0).toNat = fw % 2 ^ 32 + min 65535 (fld fw 32 16 + 1) * 2 ^ 32)
  ∧ (∀ (vd va : Nat) (a : ASpace) (pl : Place) (o : Obj) (r : List Frame),
    let reaches (s : State) (need : Need) (size : Nat) : Prop :=
      s.objs.filter (fun o => o.otype == 4 && o.vd == vd) = [o] ∧ s.aspaceOf o = a
        ∧ locate s (peerAg vd a) need va size = .ok pl ∧ pl.peer = none ∧ pl.granules.any s.locked.contains = false
        ∧ s.meetTiles none none none [pl] = none ∧ s.unserved (peerAg vd a) [pl] = none
    (∀ bytes : List Byte, EventGives .frameReceive
      (fun s => s.inbox = .store vd va bytes :: r ∧ reaches s { w := true } bytes.length)
      (fun s => (({ s with inbox := r } : State).touch (peerAg vd a) true pl).wkeys pl.keys bytes))
    ∧ (∀ peer size : Nat, EventGives .frameReceive
      (fun s => s.inbox = .load vd peer va size :: r ∧ reaches s { r := true } size)
      (fun s =>
        let t := ({ s with inbox := r } : State).touch (peerAg vd a) false pl
        t.sendOut vd (.value peer (t.rkeys pl.keys))))
    ∧ (∀ peer size op x y v : Nat, EventGives .frameReceive
      (fun s => s.inbox = .atomic vd peer va size op x y :: r ∧ reaches s { r := true, w := true } size
        ∧ peerAtomic op size x y ((({ s with inbox := r } : State).touch (peerAg vd a) true pl).rkeys pl.keys) = some v)
      (fun s =>
        let t := ({ s with inbox := r } : State).touch (peerAg vd a) true pl
        (t.wkeys pl.keys (leBytes v size)).sendOut vd (.value peer (t.rkeys pl.keys)))))
  ∧ (∀ (vd ep peer badge : Nat) (ws : List Word) (ts : List Cap) (o : Obj) (r : List Frame),
    EventGives .frameReceive
      (fun s => s.inbox = .message vd ep peer badge ws ts none :: r ∧ s.obj? 1 vd ep = some o
        ∧ (s.vd? o.vd).resetting = false)
      (fun s =>
        let u := ({ s with inbox := r } : State).unsealAll vd peer (ts.take 4)
        u.1.post o.pa { badge := badge % 65536, words := ws.take 8, caps := u.2 } (some peer))
    ∧ ∀ call : Nat, EventGives .frameReceive
      (fun s => s.inbox = .message vd ep peer badge ws ts (some call) :: r ∧ s.obj? 1 vd ep = some o
        ∧ (s.vd? o.vd).resetting = false)
      (fun s =>
        let u := ({ s with inbox := r } : State).unsealAll vd peer (ts.take 4)
        let n := u.1.newReply (.peer peer call) none
        n.1.post o.pa { badge := badge % 65536, words := ws.take 8, caps := u.2, reply := some n.2 } (some peer)))
  ∧ (∀ (vd peer base badge : Nat) (o : Obj) (r : List Frame),
    EventGives .frameReceive
      (fun s => s.inbox = .signal vd peer base badge :: r ∧ s.obj? 2 vd base = some o)
      (fun s => ({ s with inbox := r } : State).noteOr o.pa (badge % 65536))
    ∧ EventGives .frameReceive (fun s => s.inbox = .reset peer vd :: r)
      (fun s => ({ s with inbox := r } : State).exclude (fun m k => m == peer && k == vd)))
  ∧ (∀ (s : State) (vd peer : Nat) (c : Cap), (c.tag = false ∨ c.has pGLOBAL = false) →
      s.unseal vd peer c = ⟨c.bits, false⟩)
  ∧ (∀ (s : State) (vd peer : Nat) (c : Cap), c.tag = true → c.has pGLOBAL = true → c.otype ∈ [1, 2, 7, 8] →
      s.unseal vd peer c = c ∧ ((s.unsealAll vd peer [c]).1.far).contains (vd, c.otype, c.base.toNat, peer) = true)
  ∧ (∀ l : Nat,
    EventGives (.linkDown l) (fun s => 16 ≤ look 0 s.linkFail l ∧ s.linkDown.contains l = false ∧ (l < 160 ∨ 240 ≤ l))
      (fun s => { s with linkDown := l :: s.linkDown, linkFail := del s.linkFail l })
    ∧ EventGives (.linkDown l) (fun s => look 0 s.linkFail l < 16) (fun s => s)
    ∧ EventGives (.keyReplace l) (fun _ => True) (fun s => { s with keys := del s.keys l }))
  ∧ (∀ (s : State) (n : Nat), n < 80 → ∃ t, exec (.peerTimeout n) s = .next t ∧ n ∈ t.lost ∧ (∀ k ∈ s.lost, k ∈ t.lost)
      ∧ t.units = s.units ∧ t.mem = s.mem)
  ∧ (∀ (vd slot : Nat) (ws : List Word) (o : Obj) (r : List Frame), slot ≤ 15 → ws.length = 9 →
    EventGives .hostSlotRequest
      (fun s => s.inbox = .host vd slot ws true :: r ∧ fld (s.sysR 0x0406 0 vd slot).toNat 6 50 ≠ 0
        ∧ s.objs.find? (fun o => o.otype == 1 && o.pa == fld (s.sysR 0x0406 0 vd slot).toNat 6 50 * 64) = some o
        ∧ ((look {} s.slots (slotKey vd slot)).status = 0 ∨ (look {} s.slots (slotKey vd slot)).status = 3)
        ∧ (s.vd? o.vd).resetting = false ∧ s.linkDown.contains (240 + (s.vd? vd).port) = false)
      (fun s =>
        let n := ({ s with inbox := r } : State).newReply (.hostSlot vd slot) none
        let k : Slot := ⟨1, ws, (look {} s.slots (slotKey vd slot)).reply⟩
        ({ n.1 with slots := put n.1.slots (slotKey vd slot) k } : State).post o.pa
          { badge := 0xFF00 + slot, words := (ws.drop 1).take (msgWords (ws.headD 0#32).toNat), caps := [],
            reply := some n.2 }))
  ∧ (∀ (vd index origin : Nat) (bits : BitVec 6144) (tags : BitVec 48) (cs : List Cap) (r : List Frame),
    EventGives .furrowLaunchPacket
      (fun s =>
        let t0 : State := { s with inbox := r }
        let us := t0.unsealRecord vd origin bits tags
        let t := us.foldl (fun (t : State) c => t.learnFar vd origin c) t0
        s.inbox = .launch vd index origin bits tags :: r ∧ t.packetRecord vd index origin us = some cs
          ∧ t.intakeFull vd (cs.getD 1 Cap.null) = false)
      (fun s =>
        let t0 : State := { s with inbox := r }
        let us := t0.unsealRecord vd origin bits tags
        let t := us.foldl (fun (t : State) c => t.learnFar vd origin c) t0
        (t.submit vd (recordBits cs) (recordTagBits cs)).1))
  ∧ ∀ n : Nat,
    EventGives (.interruptSourceFire n) (fun s => ∀ o ∈ s.objs, o.otype = 5 → lineSource s o.pa ≠ n) (fun s => s)
    ∧ ∀ (s : State) (o : Obj), s.objs.find? (fun o => o.otype == 5 && lineSource s o.pa == n) = some o →
        ∃ badge : Nat, badge < 65536 ∧ exec (.interruptSourceFire n) s = .next ((s.noteOr o.pa badge).draw)

end
end

