-- ==== Sys2Proof/Laws/Maps.lean ====
section
/-! SUPPORT. Finite maps: what a read after a set gives, and that every update keeps the canonical form. -/
namespace Sys2Proof.Machine

theorem look_del_self {α : Type} (d : α) (m : List (Nat × α)) (k : Nat) : look d (del m k) k = d := by
  induction m with
  | nil => rfl
  | cons e r ih =>
    obtain ⟨k', v⟩ := e
    by_cases h : k' = k
    · simp [del, h, ih]
    · simp [del, look, h, ih]

theorem look_del_ne {α : Type} (d : α) (m : List (Nat × α)) {k j : Nat} (h : j ≠ k) :
    look d (del m k) j = look d m j := by
  induction m with
  | nil => rfl
  | cons e r ih =>
    obtain ⟨k', v⟩ := e
    by_cases h1 : k' = k
    · have h2 : k' ≠ j := fun e => h (e.symm.trans h1)
      rw [del, if_pos h1, ih, look, if_neg h2]
    · rw [del, if_neg h1, look, look, ih]

theorem look_insertAt_ne {α : Type} (d : α) (m : List (Nat × α)) (k j : Nat) (v : α) (h : j ≠ k) :
    look d (insertAt k v m) j = look d m j := by
  have hk : k ≠ j := fun e => h e.symm
  induction m with
  | nil => simp [insertAt, look, hk]
  | cons e r ih =>
    obtain ⟨k', v'⟩ := e
    by_cases h1 : k < k'
    · simp [insertAt, look, h1, hk]
    · simp [insertAt, look, h1, ih]

theorem look_insertAt_self {α : Type} (d : α) (m : List (Nat × α)) (k : Nat) (v : α)
    (h : ∀ e ∈ m, e.1 ≠ k) : look d (insertAt k v m) k = v := by
  induction m with
  | nil => simp [insertAt, look]
  | cons e r ih =>
    obtain ⟨k', v'⟩ := e
    by_cases h1 : k < k'
    · simp [insertAt, look, h1]
    · have h2 : k' ≠ k := h (k', v') (by simp)
      simp [insertAt, look, h1, h2, ih (fun e he => h e (by simp [he]))]

theorem not_mem_del {α : Type} (m : List (Nat × α)) (k : Nat) : ∀ e ∈ del m k, e.1 ≠ k := by
  induction m with
  | nil => simp [del]
  | cons e r ih =>
    obtain ⟨k', v⟩ := e
    by_cases h : k' = k
    · simpa [del, h] using ih
    · intro e he
      simp only [del, if_neg h, List.mem_cons] at he
      rcases he with rfl | he
      · exact h
      · exact ih e he

@[simp] theorem look_put_self {α : Type} (d : α) (m : List (Nat × α)) (k : Nat) (v : α) : look d (put m k v) k = v :=
  look_insertAt_self d _ k v (not_mem_del m k)

theorem look_put_ne {α : Type} (d : α) (m : List (Nat × α)) (k j : Nat) (v : α) (h : j ≠ k) :
    look d (put m k v) j = look d m j := by
  rw [put, look_insertAt_ne d _ k j v h, look_del_ne d m h]

@[simp] theorem look_store_self {α : Type} [DecidableEq α] (d : α) (m : List (Nat × α)) (k : Nat) (v : α) :
    look d (store d m k v) k = v := by
  unfold store
  split
  · next h => rw [look_del_self, h]
  · exact look_put_self ..

theorem look_store_ne {α : Type} [DecidableEq α] (d : α) (m : List (Nat × α)) (k j : Nat) (v : α) (h : j ≠ k) :
    look d (store d m k v) j = look d m j := by
  unfold store
  split
  · exact look_del_ne d m h
  · exact look_put_ne d m k j v h

theorem look_store {α : Type} [DecidableEq α] (d : α) (m : List (Nat × α)) (k j : Nat) (v : α) :
    look d (store d m k v) j = if j = k then v else look d m j := by
  split
  · next h => rw [h, look_store_self]
  · next h => exact look_store_ne d m k j v h

theorem find_insertAt_self {α : Type} (m : List (Nat × α)) (k : Nat) (v : α)
    (h : ∀ e ∈ m, e.1 ≠ k) : find (insertAt k v m) k = some v := by
  induction m with
  | nil => simp [insertAt, find]
  | cons e r ih =>
    obtain ⟨k', v'⟩ := e
    by_cases h1 : k < k'
    · simp [insertAt, find, h1]
    · have h2 : k' ≠ k := h (k', v') (by simp)
      simp [insertAt, find, h1, h2, ih (fun e he => h e (by simp [he]))]

theorem find_insertAt_ne {α : Type} (m : List (Nat × α)) (k j : Nat) (v : α) (h : j ≠ k) :
    find (insertAt k v m) j = find m j := by
  have hk : k ≠ j := fun e => h e.symm
  induction m with
  | nil => simp [insertAt, find, hk]
  | cons e r ih =>
    obtain ⟨k', v'⟩ := e
    by_cases h1 : k < k'
    · simp [insertAt, find, h1, hk]
    · simp [insertAt, find, h1, ih]

theorem find_del_self {α : Type} (m : List (Nat × α)) (k : Nat) : find (del m k) k = none := by
  induction m with
  | nil => rfl
  | cons e r ih =>
    obtain ⟨k', v⟩ := e
    by_cases h : k' = k
    · simp [del, h, ih]
    · simp [del, find, h, ih]

theorem find_del_ne {α : Type} (m : List (Nat × α)) {k j : Nat} (h : j ≠ k) : find (del m k) j = find m j := by
  induction m with
  | nil => rfl
  | cons e r ih =>
    obtain ⟨k', v⟩ := e
    by_cases h1 : k' = k
    · have h2 : k' ≠ j := fun e => h (e.symm.trans h1)
      rw [del, if_pos h1, ih, find, if_neg h2]
    · rw [del, if_neg h1, find, find, ih]

@[simp] theorem find_put_self {α : Type} (m : List (Nat × α)) (k : Nat) (v : α) : find (put m k v) k = some v :=
  find_insertAt_self _ k v (not_mem_del m k)

theorem find_put_ne {α : Type} (m : List (Nat × α)) (k j : Nat) (v : α) (h : j ≠ k) :
    find (put m k v) j = find m j := by
  rw [put, find_insertAt_ne _ k j v h, find_del_ne m h]

/-! The canonical form. -/

theorem canonFrom_mono {α : Type} [DecidableEq α] (d : α) (m : List (Nat × α)) (lo lo' : Nat) (h : lo' ≤ lo)
    (hc : canonFrom d lo m = true) : canonFrom d lo' m = true := by
  cases m with
  | nil => rfl
  | cons e r =>
    obtain ⟨k, v⟩ := e
    simp only [canonFrom, Bool.and_eq_true, decide_eq_true_eq] at hc ⊢
    exact ⟨⟨by omega, hc.1.2⟩, hc.2⟩

theorem canonFrom_del {α : Type} [DecidableEq α] (d : α) (m : List (Nat × α)) (lo k : Nat)
    (hc : canonFrom d lo m = true) : canonFrom d lo (del m k) = true := by
  induction m generalizing lo with
  | nil => rfl
  | cons e r ih =>
    obtain ⟨k', v⟩ := e
    simp only [canonFrom, Bool.and_eq_true, decide_eq_true_eq] at hc
    unfold del
    split
    · exact canonFrom_mono d _ (k' + 1) lo (by omega) (ih _ hc.2)
    · simp only [canonFrom, Bool.and_eq_true, decide_eq_true_eq]
      exact ⟨hc.1, ih _ hc.2⟩

theorem canonFrom_insertAt {α : Type} [DecidableEq α] (d : α) (m : List (Nat × α)) (lo k : Nat) (v : α)
    (hk : lo ≤ k) (hv : v ≠ d) (hn : ∀ e ∈ m, e.1 ≠ k) (hc : canonFrom d lo m = true) :
    canonFrom d lo (insertAt k v m) = true := by
  induction m generalizing lo with
  | nil => simp [insertAt, canonFrom, hk, hv]
  | cons e r ih =>
    obtain ⟨k', v'⟩ := e
    have hne : k' ≠ k := hn (k', v') (by simp)
    simp only [canonFrom, Bool.and_eq_true, decide_eq_true_eq] at hc
    unfold insertAt
    split
    · simp only [canonFrom, Bool.and_eq_true, decide_eq_true_eq]
      exact ⟨⟨hk, hv⟩, ⟨by omega, hc.1.2⟩, hc.2⟩
    · simp only [canonFrom, Bool.and_eq_true, decide_eq_true_eq]
      exact ⟨hc.1, ih _ (by omega) (fun e he => hn e (by simp [he])) hc.2⟩

/-- Setting a key keeps the canonical form. -/
theorem canonFrom_store {α : Type} [DecidableEq α] (d : α) (m : List (Nat × α)) (k : Nat) (v : α)
    (hc : canonFrom d 0 m = true) : canonFrom d 0 (store d m k v) = true := by
  unfold store
  split
  · exact canonFrom_del d m 0 k hc
  · next h => exact canonFrom_insertAt d _ 0 k v (Nat.zero_le _) h (not_mem_del m k) (canonFrom_del d m 0 k hc)

/-- Removing the entries that a test names keeps the canonical form. -/
theorem canonFrom_filter {α : Type} [DecidableEq α] (d : α) (p : Nat × α → Bool) (m : List (Nat × α)) (lo : Nat)
    (hc : canonFrom d lo m = true) : canonFrom d lo (m.filter p) = true := by
  induction m generalizing lo with
  | nil => rfl
  | cons e r ih =>
    obtain ⟨k, v⟩ := e
    simp only [canonFrom, Bool.and_eq_true, decide_eq_true_eq] at hc
    rw [List.filter_cons]
    split
    · simp only [canonFrom, Bool.and_eq_true, decide_eq_true_eq]
      exact ⟨hc.1, ih _ hc.2⟩
    · exact canonFrom_mono d _ (k + 1) lo (by omega) (ih _ hc.2)

end Sys2Proof.Machine
end

