-- ==== Sys2Proof/Laws/State.lean ====
section
/-! SUPPORT. One lemma for each field of State and each update that others are built of, so that no proof unfolds one. -/
namespace Sys2Proof.Machine

/-! `State.putU`, field by field. -/
@[simp] theorem putU_mem (s : State) (u : Nat) (g : Grp) : (s.putU u g).mem = s.mem := rfl
@[simp] theorem putU_tags (s : State) (u : Nat) (g : Grp) : (s.putU u g).tags = s.tags := rfl
@[simp] theorem putU_units (s : State) (u : Nat) (g : Grp) : (s.putU u g).units = put s.units u g := rfl
@[simp] theorem putU_sys (s : State) (u : Nat) (g : Grp) : (s.putU u g).sys = s.sys := rfl
@[simp] theorem putU_ctxs (s : State) (u : Nat) (g : Grp) : (s.putU u g).ctxs = s.ctxs := rfl
@[simp] theorem putU_gangs (s : State) (u : Nat) (g : Grp) : (s.putU u g).gangs = s.gangs := rfl
@[simp] theorem putU_launches (s : State) (u : Nat) (g : Grp) : (s.putU u g).launches = s.launches := rfl
@[simp] theorem putU_tiles (s : State) (u : Nat) (g : Grp) : (s.putU u g).tiles = s.tiles := rfl
@[simp] theorem putU_llc (s : State) (u : Nat) (g : Grp) : (s.putU u g).llc = s.llc := rfl
@[simp] theorem putU_tlb (s : State) (u : Nat) (g : Grp) : (s.putU u g).tlb = s.tlb := rfl
@[simp] theorem putU_scr (s : State) (u : Nat) (g : Grp) : (s.putU u g).scr = s.scr := rfl
@[simp] theorem putU_scrTags (s : State) (u : Nat) (g : Grp) : (s.putU u g).scrTags = s.scrTags := rfl
@[simp] theorem putU_crib (s : State) (u : Nat) (g : Grp) : (s.putU u g).crib = s.crib := rfl
@[simp] theorem putU_loft (s : State) (u : Nat) (g : Grp) : (s.putU u g).loft = s.loft := rfl
@[simp] theorem putU_handles (s : State) (u : Nat) (g : Grp) : (s.putU u g).handles = s.handles := rfl
@[simp] theorem putU_cmds (s : State) (u : Nat) (g : Grp) : (s.putU u g).cmds = s.cmds := rfl
@[simp] theorem putU_ops (s : State) (u : Nat) (g : Grp) : (s.putU u g).ops = s.ops := rfl
@[simp] theorem putU_sets (s : State) (u : Nat) (g : Grp) : (s.putU u g).sets = s.sets := rfl
@[simp] theorem putU_vds (s : State) (u : Nat) (g : Grp) : (s.putU u g).vds = s.vds := rfl
@[simp] theorem putU_parts (s : State) (u : Nat) (g : Grp) : (s.putU u g).parts = s.parts := rfl
@[simp] theorem putU_objs (s : State) (u : Nat) (g : Grp) : (s.putU u g).objs = s.objs := rfl
@[simp] theorem putU_replies (s : State) (u : Nat) (g : Grp) : (s.putU u g).replies = s.replies := rfl
@[simp] theorem putU_reqs (s : State) (u : Nat) (g : Grp) : (s.putU u g).reqs = s.reqs := rfl
@[simp] theorem putU_agenda (s : State) (u : Nat) (g : Grp) : (s.putU u g).agenda = s.agenda := rfl
@[simp] theorem putU_cur (s : State) (u : Nat) (g : Grp) : (s.putU u g).cur = s.cur := rfl
@[simp] theorem putU_now (s : State) (u : Nat) (g : Grp) : (s.putU u g).now = s.now := rfl
@[simp] theorem putU_free (s : State) (u : Nat) (g : Grp) : (s.putU u g).free = s.free := rfl
@[simp] theorem putU_ticket (s : State) (u : Nat) (g : Grp) : (s.putU u g).ticket = s.ticket := rfl
@[simp] theorem putU_part (s : State) (u : Nat) (g : Grp) : (s.putU u g).part = s.part := rfl
@[simp] theorem putU_ctlNow (s : State) (u : Nat) (g : Grp) : (s.putU u g).ctlNow = s.ctlNow := rfl
@[simp] theorem putU_launchNo (s : State) (u : Nat) (g : Grp) : (s.putU u g).launchNo = s.launchNo := rfl
@[simp] theorem putU_kernels (s : State) (u : Nat) (g : Grp) : (s.putU u g).kernels = s.kernels := rfl
@[simp] theorem putU_saved (s : State) (u : Nat) (g : Grp) : (s.putU u g).saved = s.saved := rfl
@[simp] theorem putU_posts (s : State) (u : Nat) (g : Grp) : (s.putU u g).posts = s.posts := rfl
@[simp] theorem putU_batches (s : State) (u : Nat) (g : Grp) : (s.putU u g).batches = s.batches := rfl
@[simp] theorem putU_batchSeq (s : State) (u : Nat) (g : Grp) : (s.putU u g).batchSeq = s.batchSeq := rfl
@[simp] theorem putU_serial (s : State) (u : Nat) (g : Grp) : (s.putU u g).serial = s.serial := rfl
@[simp] theorem putU_locked (s : State) (u : Nat) (g : Grp) : (s.putU u g).locked = s.locked := rfl
@[simp] theorem putU_regrows (s : State) (u : Nat) (g : Grp) : (s.putU u g).regrows = s.regrows := rfl
@[simp] theorem putU_results (s : State) (u : Nat) (g : Grp) : (s.putU u g).results = s.results := rfl
@[simp] theorem putU_narrow (s : State) (u : Nat) (g : Grp) : (s.putU u g).narrow = s.narrow := rfl
@[simp] theorem putU_quarantine (s : State) (u : Nat) (g : Grp) : (s.putU u g).quarantine = s.quarantine := rfl
@[simp] theorem putU_flight (s : State) (u : Nat) (g : Grp) : (s.putU u g).flight = s.flight := rfl
@[simp] theorem putU_marks (s : State) (u : Nat) (g : Grp) : (s.putU u g).marks = s.marks := rfl
@[simp] theorem putU_coreVd (s : State) (u : Nat) (g : Grp) : (s.putU u g).coreVd = s.coreVd := rfl
@[simp] theorem putU_level (s : State) (u : Nat) (g : Grp) : (s.putU u g).level = s.level := rfl
@[simp] theorem putU_pool (s : State) (u : Nat) (g : Grp) : (s.putU u g).pool = s.pool := rfl
@[simp] theorem putU_grants (s : State) (u : Nat) (g : Grp) : (s.putU u g).grants = s.grants := rfl
@[simp] theorem putU_errs (s : State) (u : Nat) (g : Grp) : (s.putU u g).errs = s.errs := rfl
@[simp] theorem putU_busy (s : State) (u : Nat) (g : Grp) : (s.putU u g).busy = s.busy := rfl
@[simp] theorem putU_lendOff (s : State) (u : Nat) (g : Grp) : (s.putU u g).lendOff = s.lendOff := rfl
@[simp] theorem putU_rmarks (s : State) (u : Nat) (g : Grp) : (s.putU u g).rmarks = s.rmarks := rfl
@[simp] theorem putU_epochs (s : State) (u : Nat) (g : Grp) : (s.putU u g).epochs = s.epochs := rfl
@[simp] theorem putU_gleans (s : State) (u : Nat) (g : Grp) : (s.putU u g).gleans = s.gleans := rfl
@[simp] theorem putU_measFw (s : State) (u : Nat) (g : Grp) : (s.putU u g).measFw = s.measFw := rfl
@[simp] theorem putU_fwNext (s : State) (u : Nat) (g : Grp) : (s.putU u g).fwNext = s.fwNext := rfl
@[simp] theorem putU_inbox (s : State) (u : Nat) (g : Grp) : (s.putU u g).inbox = s.inbox := rfl
@[simp] theorem putU_sent (s : State) (u : Nat) (g : Grp) : (s.putU u g).sent = s.sent := rfl
@[simp] theorem putU_far (s : State) (u : Nat) (g : Grp) : (s.putU u g).far = s.far := rfl
@[simp] theorem putU_slots (s : State) (u : Nat) (g : Grp) : (s.putU u g).slots = s.slots := rfl
@[simp] theorem putU_linkFail (s : State) (u : Nat) (g : Grp) : (s.putU u g).linkFail = s.linkFail := rfl
@[simp] theorem putU_linkDown (s : State) (u : Nat) (g : Grp) : (s.putU u g).linkDown = s.linkDown := rfl
@[simp] theorem putU_lost (s : State) (u : Nat) (g : Grp) : (s.putU u g).lost = s.lost := rfl
@[simp] theorem putU_keys (s : State) (u : Nat) (g : Grp) : (s.putU u g).keys = s.keys := rfl
@[simp] theorem putU_retired (s : State) (u : Nat) (g : Grp) : (s.putU u g).retired = s.retired := rfl
@[simp] theorem putU_remaps (s : State) (u : Nat) (g : Grp) : (s.putU u g).remaps = s.remaps := rfl
@[simp] theorem putU_conds (s : State) (u : Nat) (g : Grp) : (s.putU u g).conds = s.conds := rfl
@[simp] theorem putU_powered (s : State) (u : Nat) (g : Grp) : (s.putU u g).powered = s.powered := rfl

/-! `State.wb`, field by field. -/
@[simp] theorem wb_mem (s : State) (k : Nat) (x : Byte) : (s.wb k x).mem = store 0 s.mem k x := rfl
@[simp] theorem wb_tags (s : State) (k : Nat) (x : Byte) : (s.wb k x).tags = s.tags := rfl
@[simp] theorem wb_units (s : State) (k : Nat) (x : Byte) : (s.wb k x).units = s.units := rfl
@[simp] theorem wb_sys (s : State) (k : Nat) (x : Byte) : (s.wb k x).sys = s.sys := rfl
@[simp] theorem wb_ctxs (s : State) (k : Nat) (x : Byte) : (s.wb k x).ctxs = s.ctxs := rfl
@[simp] theorem wb_gangs (s : State) (k : Nat) (x : Byte) : (s.wb k x).gangs = s.gangs := rfl
@[simp] theorem wb_launches (s : State) (k : Nat) (x : Byte) : (s.wb k x).launches = s.launches := rfl
@[simp] theorem wb_tiles (s : State) (k : Nat) (x : Byte) : (s.wb k x).tiles = s.tiles := rfl
@[simp] theorem wb_llc (s : State) (k : Nat) (x : Byte) : (s.wb k x).llc = s.llc := rfl
@[simp] theorem wb_tlb (s : State) (k : Nat) (x : Byte) : (s.wb k x).tlb = s.tlb := rfl
@[simp] theorem wb_scr (s : State) (k : Nat) (x : Byte) : (s.wb k x).scr = s.scr := rfl
@[simp] theorem wb_scrTags (s : State) (k : Nat) (x : Byte) : (s.wb k x).scrTags = s.scrTags := rfl
@[simp] theorem wb_crib (s : State) (k : Nat) (x : Byte) : (s.wb k x).crib = s.crib := rfl
@[simp] theorem wb_loft (s : State) (k : Nat) (x : Byte) : (s.wb k x).loft = s.loft := rfl
@[simp] theorem wb_handles (s : State) (k : Nat) (x : Byte) : (s.wb k x).handles = s.handles := rfl
@[simp] theorem wb_cmds (s : State) (k : Nat) (x : Byte) : (s.wb k x).cmds = s.cmds := rfl
@[simp] theorem wb_ops (s : State) (k : Nat) (x : Byte) : (s.wb k x).ops = s.ops := rfl
@[simp] theorem wb_sets (s : State) (k : Nat) (x : Byte) : (s.wb k x).sets = s.sets := rfl
@[simp] theorem wb_vds (s : State) (k : Nat) (x : Byte) : (s.wb k x).vds = s.vds := rfl
@[simp] theorem wb_parts (s : State) (k : Nat) (x : Byte) : (s.wb k x).parts = s.parts := rfl
@[simp] theorem wb_objs (s : State) (k : Nat) (x : Byte) : (s.wb k x).objs = s.objs := rfl
@[simp] theorem wb_replies (s : State) (k : Nat) (x : Byte) : (s.wb k x).replies = s.replies := rfl
@[simp] theorem wb_reqs (s : State) (k : Nat) (x : Byte) : (s.wb k x).reqs = s.reqs := rfl
@[simp] theorem wb_agenda (s : State) (k : Nat) (x : Byte) : (s.wb k x).agenda = s.agenda := rfl
@[simp] theorem wb_cur (s : State) (k : Nat) (x : Byte) : (s.wb k x).cur = s.cur := rfl
@[simp] theorem wb_now (s : State) (k : Nat) (x : Byte) : (s.wb k x).now = s.now := rfl
@[simp] theorem wb_free (s : State) (k : Nat) (x : Byte) : (s.wb k x).free = s.free := rfl
@[simp] theorem wb_ticket (s : State) (k : Nat) (x : Byte) : (s.wb k x).ticket = s.ticket := rfl
@[simp] theorem wb_part (s : State) (k : Nat) (x : Byte) : (s.wb k x).part = s.part := rfl
@[simp] theorem wb_ctlNow (s : State) (k : Nat) (x : Byte) : (s.wb k x).ctlNow = s.ctlNow := rfl
@[simp] theorem wb_launchNo (s : State) (k : Nat) (x : Byte) : (s.wb k x).launchNo = s.launchNo := rfl
@[simp] theorem wb_kernels (s : State) (k : Nat) (x : Byte) : (s.wb k x).kernels = s.kernels := rfl
@[simp] theorem wb_saved (s : State) (k : Nat) (x : Byte) : (s.wb k x).saved = s.saved := rfl
@[simp] theorem wb_posts (s : State) (k : Nat) (x : Byte) : (s.wb k x).posts = s.posts := rfl
@[simp] theorem wb_batches (s : State) (k : Nat) (x : Byte) : (s.wb k x).batches = s.batches := rfl
@[simp] theorem wb_batchSeq (s : State) (k : Nat) (x : Byte) : (s.wb k x).batchSeq = s.batchSeq := rfl
@[simp] theorem wb_serial (s : State) (k : Nat) (x : Byte) : (s.wb k x).serial = s.serial := rfl
@[simp] theorem wb_locked (s : State) (k : Nat) (x : Byte) : (s.wb k x).locked = s.locked := rfl
@[simp] theorem wb_regrows (s : State) (k : Nat) (x : Byte) : (s.wb k x).regrows = s.regrows := rfl
@[simp] theorem wb_results (s : State) (k : Nat) (x : Byte) : (s.wb k x).results = s.results := rfl
@[simp] theorem wb_narrow (s : State) (k : Nat) (x : Byte) : (s.wb k x).narrow = s.narrow := rfl
@[simp] theorem wb_quarantine (s : State) (k : Nat) (x : Byte) : (s.wb k x).quarantine = s.quarantine := rfl
@[simp] theorem wb_flight (s : State) (k : Nat) (x : Byte) : (s.wb k x).flight = s.flight := rfl
@[simp] theorem wb_marks (s : State) (k : Nat) (x : Byte) : (s.wb k x).marks = s.marks := rfl
@[simp] theorem wb_coreVd (s : State) (k : Nat) (x : Byte) : (s.wb k x).coreVd = s.coreVd := rfl
@[simp] theorem wb_level (s : State) (k : Nat) (x : Byte) : (s.wb k x).level = s.level := rfl
@[simp] theorem wb_pool (s : State) (k : Nat) (x : Byte) : (s.wb k x).pool = s.pool := rfl
@[simp] theorem wb_grants (s : State) (k : Nat) (x : Byte) : (s.wb k x).grants = s.grants := rfl
@[simp] theorem wb_errs (s : State) (k : Nat) (x : Byte) : (s.wb k x).errs = s.errs := rfl
@[simp] theorem wb_busy (s : State) (k : Nat) (x : Byte) : (s.wb k x).busy = s.busy := rfl
@[simp] theorem wb_lendOff (s : State) (k : Nat) (x : Byte) : (s.wb k x).lendOff = s.lendOff := rfl
@[simp] theorem wb_rmarks (s : State) (k : Nat) (x : Byte) : (s.wb k x).rmarks = s.rmarks := rfl
@[simp] theorem wb_epochs (s : State) (k : Nat) (x : Byte) : (s.wb k x).epochs = s.epochs := rfl
@[simp] theorem wb_gleans (s : State) (k : Nat) (x : Byte) : (s.wb k x).gleans = s.gleans := rfl
@[simp] theorem wb_measFw (s : State) (k : Nat) (x : Byte) : (s.wb k x).measFw = s.measFw := rfl
@[simp] theorem wb_fwNext (s : State) (k : Nat) (x : Byte) : (s.wb k x).fwNext = s.fwNext := rfl
@[simp] theorem wb_inbox (s : State) (k : Nat) (x : Byte) : (s.wb k x).inbox = s.inbox := rfl
@[simp] theorem wb_sent (s : State) (k : Nat) (x : Byte) : (s.wb k x).sent = s.sent := rfl
@[simp] theorem wb_far (s : State) (k : Nat) (x : Byte) : (s.wb k x).far = s.far := rfl
@[simp] theorem wb_slots (s : State) (k : Nat) (x : Byte) : (s.wb k x).slots = s.slots := rfl
@[simp] theorem wb_linkFail (s : State) (k : Nat) (x : Byte) : (s.wb k x).linkFail = s.linkFail := rfl
@[simp] theorem wb_linkDown (s : State) (k : Nat) (x : Byte) : (s.wb k x).linkDown = s.linkDown := rfl
@[simp] theorem wb_lost (s : State) (k : Nat) (x : Byte) : (s.wb k x).lost = s.lost := rfl
@[simp] theorem wb_keys (s : State) (k : Nat) (x : Byte) : (s.wb k x).keys = s.keys := rfl
@[simp] theorem wb_retired (s : State) (k : Nat) (x : Byte) : (s.wb k x).retired = s.retired := rfl
@[simp] theorem wb_remaps (s : State) (k : Nat) (x : Byte) : (s.wb k x).remaps = s.remaps := rfl
@[simp] theorem wb_conds (s : State) (k : Nat) (x : Byte) : (s.wb k x).conds = s.conds := rfl
@[simp] theorem wb_powered (s : State) (k : Nat) (x : Byte) : (s.wb k x).powered = s.powered := rfl

/-! `State.tagW`, field by field. -/
@[simp] theorem tagW_mem (s : State) (k : Nat) (t : Bool) : (s.tagW k t).mem = s.mem := rfl
@[simp] theorem tagW_tags (s : State) (k : Nat) (t : Bool) : (s.tagW k t).tags = store false s.tags (k / 16) t := rfl
@[simp] theorem tagW_units (s : State) (k : Nat) (t : Bool) : (s.tagW k t).units = s.units := rfl
@[simp] theorem tagW_sys (s : State) (k : Nat) (t : Bool) : (s.tagW k t).sys = s.sys := rfl
@[simp] theorem tagW_ctxs (s : State) (k : Nat) (t : Bool) : (s.tagW k t).ctxs = s.ctxs := rfl
@[simp] theorem tagW_gangs (s : State) (k : Nat) (t : Bool) : (s.tagW k t).gangs = s.gangs := rfl
@[simp] theorem tagW_launches (s : State) (k : Nat) (t : Bool) : (s.tagW k t).launches = s.launches := rfl
@[simp] theorem tagW_tiles (s : State) (k : Nat) (t : Bool) : (s.tagW k t).tiles = s.tiles := rfl
@[simp] theorem tagW_llc (s : State) (k : Nat) (t : Bool) : (s.tagW k t).llc = s.llc := rfl
@[simp] theorem tagW_tlb (s : State) (k : Nat) (t : Bool) : (s.tagW k t).tlb = s.tlb := rfl
@[simp] theorem tagW_scr (s : State) (k : Nat) (t : Bool) : (s.tagW k t).scr = s.scr := rfl
@[simp] theorem tagW_scrTags (s : State) (k : Nat) (t : Bool) : (s.tagW k t).scrTags = s.scrTags := rfl
@[simp] theorem tagW_crib (s : State) (k : Nat) (t : Bool) : (s.tagW k t).crib = s.crib := rfl
@[simp] theorem tagW_loft (s : State) (k : Nat) (t : Bool) : (s.tagW k t).loft = s.loft := rfl
@[simp] theorem tagW_handles (s : State) (k : Nat) (t : Bool) : (s.tagW k t).handles = s.handles := rfl
@[simp] theorem tagW_cmds (s : State) (k : Nat) (t : Bool) : (s.tagW k t).cmds = s.cmds := rfl
@[simp] theorem tagW_ops (s : State) (k : Nat) (t : Bool) : (s.tagW k t).ops = s.ops := rfl
@[simp] theorem tagW_sets (s : State) (k : Nat) (t : Bool) : (s.tagW k t).sets = s.sets := rfl
@[simp] theorem tagW_vds (s : State) (k : Nat) (t : Bool) : (s.tagW k t).vds = s.vds := rfl
@[simp] theorem tagW_parts (s : State) (k : Nat) (t : Bool) : (s.tagW k t).parts = s.parts := rfl
@[simp] theorem tagW_objs (s : State) (k : Nat) (t : Bool) : (s.tagW k t).objs = s.objs := rfl
@[simp] theorem tagW_replies (s : State) (k : Nat) (t : Bool) : (s.tagW k t).replies = s.replies := rfl
@[simp] theorem tagW_reqs (s : State) (k : Nat) (t : Bool) : (s.tagW k t).reqs = s.reqs := rfl
@[simp] theorem tagW_agenda (s : State) (k : Nat) (t : Bool) : (s.tagW k t).agenda = s.agenda := rfl
@[simp] theorem tagW_cur (s : State) (k : Nat) (t : Bool) : (s.tagW k t).cur = s.cur := rfl
@[simp] theorem tagW_now (s : State) (k : Nat) (t : Bool) : (s.tagW k t).now = s.now := rfl
@[simp] theorem tagW_free (s : State) (k : Nat) (t : Bool) : (s.tagW k t).free = s.free := rfl
@[simp] theorem tagW_ticket (s : State) (k : Nat) (t : Bool) : (s.tagW k t).ticket = s.ticket := rfl
@[simp] theorem tagW_part (s : State) (k : Nat) (t : Bool) : (s.tagW k t).part = s.part := rfl
@[simp] theorem tagW_ctlNow (s : State) (k : Nat) (t : Bool) : (s.tagW k t).ctlNow = s.ctlNow := rfl
@[simp] theorem tagW_launchNo (s : State) (k : Nat) (t : Bool) : (s.tagW k t).launchNo = s.launchNo := rfl
@[simp] theorem tagW_kernels (s : State) (k : Nat) (t : Bool) : (s.tagW k t).kernels = s.kernels := rfl
@[simp] theorem tagW_saved (s : State) (k : Nat) (t : Bool) : (s.tagW k t).saved = s.saved := rfl
@[simp] theorem tagW_posts (s : State) (k : Nat) (t : Bool) : (s.tagW k t).posts = s.posts := rfl
@[simp] theorem tagW_batches (s : State) (k : Nat) (t : Bool) : (s.tagW k t).batches = s.batches := rfl
@[simp] theorem tagW_batchSeq (s : State) (k : Nat) (t : Bool) : (s.tagW k t).batchSeq = s.batchSeq := rfl
@[simp] theorem tagW_serial (s : State) (k : Nat) (t : Bool) : (s.tagW k t).serial = s.serial := rfl
@[simp] theorem tagW_locked (s : State) (k : Nat) (t : Bool) : (s.tagW k t).locked = s.locked := rfl
@[simp] theorem tagW_regrows (s : State) (k : Nat) (t : Bool) : (s.tagW k t).regrows = s.regrows := rfl
@[simp] theorem tagW_results (s : State) (k : Nat) (t : Bool) : (s.tagW k t).results = s.results := rfl
@[simp] theorem tagW_narrow (s : State) (k : Nat) (t : Bool) : (s.tagW k t).narrow = s.narrow := rfl
@[simp] theorem tagW_quarantine (s : State) (k : Nat) (t : Bool) : (s.tagW k t).quarantine = s.quarantine := rfl
@[simp] theorem tagW_flight (s : State) (k : Nat) (t : Bool) : (s.tagW k t).flight = s.flight := rfl
@[simp] theorem tagW_marks (s : State) (k : Nat) (t : Bool) : (s.tagW k t).marks = s.marks := rfl
@[simp] theorem tagW_coreVd (s : State) (k : Nat) (t : Bool) : (s.tagW k t).coreVd = s.coreVd := rfl
@[simp] theorem tagW_level (s : State) (k : Nat) (t : Bool) : (s.tagW k t).level = s.level := rfl
@[simp] theorem tagW_pool (s : State) (k : Nat) (t : Bool) : (s.tagW k t).pool = s.pool := rfl
@[simp] theorem tagW_grants (s : State) (k : Nat) (t : Bool) : (s.tagW k t).grants = s.grants := rfl
@[simp] theorem tagW_errs (s : State) (k : Nat) (t : Bool) : (s.tagW k t).errs = s.errs := rfl
@[simp] theorem tagW_busy (s : State) (k : Nat) (t : Bool) : (s.tagW k t).busy = s.busy := rfl
@[simp] theorem tagW_lendOff (s : State) (k : Nat) (t : Bool) : (s.tagW k t).lendOff = s.lendOff := rfl
@[simp] theorem tagW_rmarks (s : State) (k : Nat) (t : Bool) : (s.tagW k t).rmarks = s.rmarks := rfl
@[simp] theorem tagW_epochs (s : State) (k : Nat) (t : Bool) : (s.tagW k t).epochs = s.epochs := rfl
@[simp] theorem tagW_gleans (s : State) (k : Nat) (t : Bool) : (s.tagW k t).gleans = s.gleans := rfl
@[simp] theorem tagW_measFw (s : State) (k : Nat) (t : Bool) : (s.tagW k t).measFw = s.measFw := rfl
@[simp] theorem tagW_fwNext (s : State) (k : Nat) (t : Bool) : (s.tagW k t).fwNext = s.fwNext := rfl
@[simp] theorem tagW_inbox (s : State) (k : Nat) (t : Bool) : (s.tagW k t).inbox = s.inbox := rfl
@[simp] theorem tagW_sent (s : State) (k : Nat) (t : Bool) : (s.tagW k t).sent = s.sent := rfl
@[simp] theorem tagW_far (s : State) (k : Nat) (t : Bool) : (s.tagW k t).far = s.far := rfl
@[simp] theorem tagW_slots (s : State) (k : Nat) (t : Bool) : (s.tagW k t).slots = s.slots := rfl
@[simp] theorem tagW_linkFail (s : State) (k : Nat) (t : Bool) : (s.tagW k t).linkFail = s.linkFail := rfl
@[simp] theorem tagW_linkDown (s : State) (k : Nat) (t : Bool) : (s.tagW k t).linkDown = s.linkDown := rfl
@[simp] theorem tagW_lost (s : State) (k : Nat) (t : Bool) : (s.tagW k t).lost = s.lost := rfl
@[simp] theorem tagW_keys (s : State) (k : Nat) (t : Bool) : (s.tagW k t).keys = s.keys := rfl
@[simp] theorem tagW_retired (s : State) (k : Nat) (t : Bool) : (s.tagW k t).retired = s.retired := rfl
@[simp] theorem tagW_remaps (s : State) (k : Nat) (t : Bool) : (s.tagW k t).remaps = s.remaps := rfl
@[simp] theorem tagW_conds (s : State) (k : Nat) (t : Bool) : (s.tagW k t).conds = s.conds := rfl
@[simp] theorem tagW_powered (s : State) (k : Nat) (t : Bool) : (s.tagW k t).powered = s.powered := rfl

/-! `State.sysW`, field by field. -/
@[simp] theorem sysW_mem (s : State) (n die vd i : Nat) (x : DWord) : (s.sysW n die vd i x).mem = s.mem := rfl
@[simp] theorem sysW_tags (s : State) (n die vd i : Nat) (x : DWord) : (s.sysW n die vd i x).tags = s.tags := rfl
@[simp] theorem sysW_units (s : State) (n die vd i : Nat) (x : DWord) : (s.sysW n die vd i x).units = s.units := rfl
@[simp] theorem sysW_sys (s : State) (n die vd i : Nat) (x : DWord) : (s.sysW n die vd i x).sys = store (sysReset n) s.sys (sysKey n die vd i) x := rfl
@[simp] theorem sysW_ctxs (s : State) (n die vd i : Nat) (x : DWord) : (s.sysW n die vd i x).ctxs = s.ctxs := rfl
@[simp] theorem sysW_gangs (s : State) (n die vd i : Nat) (x : DWord) : (s.sysW n die vd i x).gangs = s.gangs := rfl
@[simp] theorem sysW_launches (s : State) (n die vd i : Nat) (x : DWord) : (s.sysW n die vd i x).launches = s.launches := rfl
@[simp] theorem sysW_tiles (s : State) (n die vd i : Nat) (x : DWord) : (s.sysW n die vd i x).tiles = s.tiles := rfl
@[simp] theorem sysW_llc (s : State) (n die vd i : Nat) (x : DWord) : (s.sysW n die vd i x).llc = s.llc := rfl
@[simp] theorem sysW_tlb (s : State) (n die vd i : Nat) (x : DWord) : (s.sysW n die vd i x).tlb = s.tlb := rfl
@[simp] theorem sysW_scr (s : State) (n die vd i : Nat) (x : DWord) : (s.sysW n die vd i x).scr = s.scr := rfl
@[simp] theorem sysW_scrTags (s : State) (n die vd i : Nat) (x : DWord) : (s.sysW n die vd i x).scrTags = s.scrTags := rfl
@[simp] theorem sysW_crib (s : State) (n die vd i : Nat) (x : DWord) : (s.sysW n die vd i x).crib = s.crib := rfl
@[simp] theorem sysW_loft (s : State) (n die vd i : Nat) (x : DWord) : (s.sysW n die vd i x).loft = s.loft := rfl
@[simp] theorem sysW_handles (s : State) (n die vd i : Nat) (x : DWord) : (s.sysW n die vd i x).handles = s.handles := rfl
@[simp] theorem sysW_cmds (s : State) (n die vd i : Nat) (x : DWord) : (s.sysW n die vd i x).cmds = s.cmds := rfl
@[simp] theorem sysW_ops (s : State) (n die vd i : Nat) (x : DWord) : (s.sysW n die vd i x).ops = s.ops := rfl
@[simp] theorem sysW_sets (s : State) (n die vd i : Nat) (x : DWord) : (s.sysW n die vd i x).sets = s.sets := rfl
@[simp] theorem sysW_vds (s : State) (n die vd i : Nat) (x : DWord) : (s.sysW n die vd i x).vds = s.vds := rfl
@[simp] theorem sysW_parts (s : State) (n die vd i : Nat) (x : DWord) : (s.sysW n die vd i x).parts = s.parts := rfl
@[simp] theorem sysW_objs (s : State) (n die vd i : Nat) (x : DWord) : (s.sysW n die vd i x).objs = s.objs := rfl
@[simp] theorem sysW_replies (s : State) (n die vd i : Nat) (x : DWord) : (s.sysW n die vd i x).replies = s.replies := rfl
@[simp] theorem sysW_reqs (s : State) (n die vd i : Nat) (x : DWord) : (s.sysW n die vd i x).reqs = s.reqs := rfl
@[simp] theorem sysW_agenda (s : State) (n die vd i : Nat) (x : DWord) : (s.sysW n die vd i x).agenda = s.agenda := rfl
@[simp] theorem sysW_cur (s : State) (n die vd i : Nat) (x : DWord) : (s.sysW n die vd i x).cur = s.cur := rfl
@[simp] theorem sysW_now (s : State) (n die vd i : Nat) (x : DWord) : (s.sysW n die vd i x).now = s.now := rfl
@[simp] theorem sysW_free (s : State) (n die vd i : Nat) (x : DWord) : (s.sysW n die vd i x).free = s.free := rfl
@[simp] theorem sysW_ticket (s : State) (n die vd i : Nat) (x : DWord) : (s.sysW n die vd i x).ticket = s.ticket := rfl
@[simp] theorem sysW_part (s : State) (n die vd i : Nat) (x : DWord) : (s.sysW n die vd i x).part = s.part := rfl
@[simp] theorem sysW_ctlNow (s : State) (n die vd i : Nat) (x : DWord) : (s.sysW n die vd i x).ctlNow = s.ctlNow := rfl
@[simp] theorem sysW_launchNo (s : State) (n die vd i : Nat) (x : DWord) : (s.sysW n die vd i x).launchNo = s.launchNo := rfl
@[simp] theorem sysW_kernels (s : State) (n die vd i : Nat) (x : DWord) : (s.sysW n die vd i x).kernels = s.kernels := rfl
@[simp] theorem sysW_saved (s : State) (n die vd i : Nat) (x : DWord) : (s.sysW n die vd i x).saved = s.saved := rfl
@[simp] theorem sysW_posts (s : State) (n die vd i : Nat) (x : DWord) : (s.sysW n die vd i x).posts = s.posts := rfl
@[simp] theorem sysW_batches (s : State) (n die vd i : Nat) (x : DWord) : (s.sysW n die vd i x).batches = s.batches := rfl
@[simp] theorem sysW_batchSeq (s : State) (n die vd i : Nat) (x : DWord) : (s.sysW n die vd i x).batchSeq = s.batchSeq := rfl
@[simp] theorem sysW_serial (s : State) (n die vd i : Nat) (x : DWord) : (s.sysW n die vd i x).serial = s.serial := rfl
@[simp] theorem sysW_locked (s : State) (n die vd i : Nat) (x : DWord) : (s.sysW n die vd i x).locked = s.locked := rfl
@[simp] theorem sysW_regrows (s : State) (n die vd i : Nat) (x : DWord) : (s.sysW n die vd i x).regrows = s.regrows := rfl
@[simp] theorem sysW_results (s : State) (n die vd i : Nat) (x : DWord) : (s.sysW n die vd i x).results = s.results := rfl
@[simp] theorem sysW_narrow (s : State) (n die vd i : Nat) (x : DWord) : (s.sysW n die vd i x).narrow = s.narrow := rfl
@[simp] theorem sysW_quarantine (s : State) (n die vd i : Nat) (x : DWord) : (s.sysW n die vd i x).quarantine = s.quarantine := rfl
@[simp] theorem sysW_flight (s : State) (n die vd i : Nat) (x : DWord) : (s.sysW n die vd i x).flight = s.flight := rfl
@[simp] theorem sysW_marks (s : State) (n die vd i : Nat) (x : DWord) : (s.sysW n die vd i x).marks = s.marks := rfl
@[simp] theorem sysW_coreVd (s : State) (n die vd i : Nat) (x : DWord) : (s.sysW n die vd i x).coreVd = s.coreVd := rfl
@[simp] theorem sysW_level (s : State) (n die vd i : Nat) (x : DWord) : (s.sysW n die vd i x).level = s.level := rfl
@[simp] theorem sysW_pool (s : State) (n die vd i : Nat) (x : DWord) : (s.sysW n die vd i x).pool = s.pool := rfl
@[simp] theorem sysW_grants (s : State) (n die vd i : Nat) (x : DWord) : (s.sysW n die vd i x).grants = s.grants := rfl
@[simp] theorem sysW_errs (s : State) (n die vd i : Nat) (x : DWord) : (s.sysW n die vd i x).errs = s.errs := rfl
@[simp] theorem sysW_busy (s : State) (n die vd i : Nat) (x : DWord) : (s.sysW n die vd i x).busy = s.busy := rfl
@[simp] theorem sysW_lendOff (s : State) (n die vd i : Nat) (x : DWord) : (s.sysW n die vd i x).lendOff = s.lendOff := rfl
@[simp] theorem sysW_rmarks (s : State) (n die vd i : Nat) (x : DWord) : (s.sysW n die vd i x).rmarks = s.rmarks := rfl
@[simp] theorem sysW_epochs (s : State) (n die vd i : Nat) (x : DWord) : (s.sysW n die vd i x).epochs = s.epochs := rfl
@[simp] theorem sysW_gleans (s : State) (n die vd i : Nat) (x : DWord) : (s.sysW n die vd i x).gleans = s.gleans := rfl
@[simp] theorem sysW_measFw (s : State) (n die vd i : Nat) (x : DWord) : (s.sysW n die vd i x).measFw = s.measFw := rfl
@[simp] theorem sysW_fwNext (s : State) (n die vd i : Nat) (x : DWord) : (s.sysW n die vd i x).fwNext = s.fwNext := rfl
@[simp] theorem sysW_inbox (s : State) (n die vd i : Nat) (x : DWord) : (s.sysW n die vd i x).inbox = s.inbox := rfl
@[simp] theorem sysW_sent (s : State) (n die vd i : Nat) (x : DWord) : (s.sysW n die vd i x).sent = s.sent := rfl
@[simp] theorem sysW_far (s : State) (n die vd i : Nat) (x : DWord) : (s.sysW n die vd i x).far = s.far := rfl
@[simp] theorem sysW_slots (s : State) (n die vd i : Nat) (x : DWord) : (s.sysW n die vd i x).slots = s.slots := rfl
@[simp] theorem sysW_linkFail (s : State) (n die vd i : Nat) (x : DWord) : (s.sysW n die vd i x).linkFail = s.linkFail := rfl
@[simp] theorem sysW_linkDown (s : State) (n die vd i : Nat) (x : DWord) : (s.sysW n die vd i x).linkDown = s.linkDown := rfl
@[simp] theorem sysW_lost (s : State) (n die vd i : Nat) (x : DWord) : (s.sysW n die vd i x).lost = s.lost := rfl
@[simp] theorem sysW_keys (s : State) (n die vd i : Nat) (x : DWord) : (s.sysW n die vd i x).keys = s.keys := rfl
@[simp] theorem sysW_retired (s : State) (n die vd i : Nat) (x : DWord) : (s.sysW n die vd i x).retired = s.retired := rfl
@[simp] theorem sysW_remaps (s : State) (n die vd i : Nat) (x : DWord) : (s.sysW n die vd i x).remaps = s.remaps := rfl
@[simp] theorem sysW_conds (s : State) (n die vd i : Nat) (x : DWord) : (s.sysW n die vd i x).conds = s.conds := rfl
@[simp] theorem sysW_powered (s : State) (n die vd i : Nat) (x : DWord) : (s.sysW n die vd i x).powered = s.powered := rfl

/-! `State.draw`, field by field. -/
@[simp] theorem draw_mem (s : State) : (s.draw).mem = s.mem := rfl
@[simp] theorem draw_tags (s : State) : (s.draw).tags = s.tags := rfl
@[simp] theorem draw_units (s : State) : (s.draw).units = s.units := rfl
@[simp] theorem draw_sys (s : State) : (s.draw).sys = s.sys := rfl
@[simp] theorem draw_ctxs (s : State) : (s.draw).ctxs = s.ctxs := rfl
@[simp] theorem draw_gangs (s : State) : (s.draw).gangs = s.gangs := rfl
@[simp] theorem draw_launches (s : State) : (s.draw).launches = s.launches := rfl
@[simp] theorem draw_tiles (s : State) : (s.draw).tiles = s.tiles := rfl
@[simp] theorem draw_llc (s : State) : (s.draw).llc = s.llc := rfl
@[simp] theorem draw_tlb (s : State) : (s.draw).tlb = s.tlb := rfl
@[simp] theorem draw_scr (s : State) : (s.draw).scr = s.scr := rfl
@[simp] theorem draw_scrTags (s : State) : (s.draw).scrTags = s.scrTags := rfl
@[simp] theorem draw_crib (s : State) : (s.draw).crib = s.crib := rfl
@[simp] theorem draw_loft (s : State) : (s.draw).loft = s.loft := rfl
@[simp] theorem draw_handles (s : State) : (s.draw).handles = s.handles := rfl
@[simp] theorem draw_cmds (s : State) : (s.draw).cmds = s.cmds := rfl
@[simp] theorem draw_ops (s : State) : (s.draw).ops = s.ops := rfl
@[simp] theorem draw_sets (s : State) : (s.draw).sets = s.sets := rfl
@[simp] theorem draw_vds (s : State) : (s.draw).vds = s.vds := rfl
@[simp] theorem draw_parts (s : State) : (s.draw).parts = s.parts := rfl
@[simp] theorem draw_objs (s : State) : (s.draw).objs = s.objs := rfl
@[simp] theorem draw_replies (s : State) : (s.draw).replies = s.replies := rfl
@[simp] theorem draw_reqs (s : State) : (s.draw).reqs = s.reqs := rfl
@[simp] theorem draw_agenda (s : State) : (s.draw).agenda = s.agenda := rfl
@[simp] theorem draw_cur (s : State) : (s.draw).cur = s.cur := rfl
@[simp] theorem draw_now (s : State) : (s.draw).now = s.now := rfl
@[simp] theorem draw_free (s : State) : (s.draw).free = s.free + 1 := rfl
@[simp] theorem draw_ticket (s : State) : (s.draw).ticket = s.ticket := rfl
@[simp] theorem draw_part (s : State) : (s.draw).part = s.part := rfl
@[simp] theorem draw_ctlNow (s : State) : (s.draw).ctlNow = s.ctlNow := rfl
@[simp] theorem draw_launchNo (s : State) : (s.draw).launchNo = s.launchNo := rfl
@[simp] theorem draw_kernels (s : State) : (s.draw).kernels = s.kernels := rfl
@[simp] theorem draw_saved (s : State) : (s.draw).saved = s.saved := rfl
@[simp] theorem draw_posts (s : State) : (s.draw).posts = s.posts := rfl
@[simp] theorem draw_batches (s : State) : (s.draw).batches = s.batches := rfl
@[simp] theorem draw_batchSeq (s : State) : (s.draw).batchSeq = s.batchSeq := rfl
@[simp] theorem draw_serial (s : State) : (s.draw).serial = s.serial := rfl
@[simp] theorem draw_locked (s : State) : (s.draw).locked = s.locked := rfl
@[simp] theorem draw_regrows (s : State) : (s.draw).regrows = s.regrows := rfl
@[simp] theorem draw_results (s : State) : (s.draw).results = s.results := rfl
@[simp] theorem draw_narrow (s : State) : (s.draw).narrow = s.narrow := rfl
@[simp] theorem draw_quarantine (s : State) : (s.draw).quarantine = s.quarantine := rfl
@[simp] theorem draw_flight (s : State) : (s.draw).flight = s.flight := rfl
@[simp] theorem draw_marks (s : State) : (s.draw).marks = s.marks := rfl
@[simp] theorem draw_coreVd (s : State) : (s.draw).coreVd = s.coreVd := rfl
@[simp] theorem draw_level (s : State) : (s.draw).level = s.level := rfl
@[simp] theorem draw_pool (s : State) : (s.draw).pool = s.pool := rfl
@[simp] theorem draw_grants (s : State) : (s.draw).grants = s.grants := rfl
@[simp] theorem draw_errs (s : State) : (s.draw).errs = s.errs := rfl
@[simp] theorem draw_busy (s : State) : (s.draw).busy = s.busy := rfl
@[simp] theorem draw_lendOff (s : State) : (s.draw).lendOff = s.lendOff := rfl
@[simp] theorem draw_rmarks (s : State) : (s.draw).rmarks = s.rmarks := rfl
@[simp] theorem draw_epochs (s : State) : (s.draw).epochs = s.epochs := rfl
@[simp] theorem draw_gleans (s : State) : (s.draw).gleans = s.gleans := rfl
@[simp] theorem draw_measFw (s : State) : (s.draw).measFw = s.measFw := rfl
@[simp] theorem draw_fwNext (s : State) : (s.draw).fwNext = s.fwNext := rfl
@[simp] theorem draw_inbox (s : State) : (s.draw).inbox = s.inbox := rfl
@[simp] theorem draw_sent (s : State) : (s.draw).sent = s.sent := rfl
@[simp] theorem draw_far (s : State) : (s.draw).far = s.far := rfl
@[simp] theorem draw_slots (s : State) : (s.draw).slots = s.slots := rfl
@[simp] theorem draw_linkFail (s : State) : (s.draw).linkFail = s.linkFail := rfl
@[simp] theorem draw_linkDown (s : State) : (s.draw).linkDown = s.linkDown := rfl
@[simp] theorem draw_lost (s : State) : (s.draw).lost = s.lost := rfl
@[simp] theorem draw_keys (s : State) : (s.draw).keys = s.keys := rfl
@[simp] theorem draw_retired (s : State) : (s.draw).retired = s.retired := rfl
@[simp] theorem draw_remaps (s : State) : (s.draw).remaps = s.remaps := rfl
@[simp] theorem draw_conds (s : State) : (s.draw).conds = s.conds := rfl
@[simp] theorem draw_powered (s : State) : (s.draw).powered = s.powered := rfl

/-! `State.tick`, field by field. -/
@[simp] theorem tick_mem (s : State) : (s.tick).mem = s.mem := rfl
@[simp] theorem tick_tags (s : State) : (s.tick).tags = s.tags := rfl
@[simp] theorem tick_units (s : State) : (s.tick).units = s.units := rfl
@[simp] theorem tick_sys (s : State) : (s.tick).sys = s.sys := rfl
@[simp] theorem tick_ctxs (s : State) : (s.tick).ctxs = s.ctxs := rfl
@[simp] theorem tick_gangs (s : State) : (s.tick).gangs = s.gangs := rfl
@[simp] theorem tick_launches (s : State) : (s.tick).launches = s.launches := rfl
@[simp] theorem tick_tiles (s : State) : (s.tick).tiles = s.tiles := rfl
@[simp] theorem tick_llc (s : State) : (s.tick).llc = s.llc := rfl
@[simp] theorem tick_tlb (s : State) : (s.tick).tlb = s.tlb := rfl
@[simp] theorem tick_scr (s : State) : (s.tick).scr = s.scr := rfl
@[simp] theorem tick_scrTags (s : State) : (s.tick).scrTags = s.scrTags := rfl
@[simp] theorem tick_crib (s : State) : (s.tick).crib = s.crib := rfl
@[simp] theorem tick_loft (s : State) : (s.tick).loft = s.loft := rfl
@[simp] theorem tick_handles (s : State) : (s.tick).handles = s.handles := rfl
@[simp] theorem tick_cmds (s : State) : (s.tick).cmds = s.cmds := rfl
@[simp] theorem tick_ops (s : State) : (s.tick).ops = s.ops := rfl
@[simp] theorem tick_sets (s : State) : (s.tick).sets = s.sets := rfl
@[simp] theorem tick_vds (s : State) : (s.tick).vds = s.vds := rfl
@[simp] theorem tick_parts (s : State) : (s.tick).parts = s.parts := rfl
@[simp] theorem tick_objs (s : State) : (s.tick).objs = s.objs := rfl
@[simp] theorem tick_replies (s : State) : (s.tick).replies = s.replies := rfl
@[simp] theorem tick_reqs (s : State) : (s.tick).reqs = s.reqs := rfl
@[simp] theorem tick_agenda (s : State) : (s.tick).agenda = s.agenda := rfl
@[simp] theorem tick_cur (s : State) : (s.tick).cur = s.cur := rfl
@[simp] theorem tick_now (s : State) : (s.tick).now = s.now := rfl
@[simp] theorem tick_free (s : State) : (s.tick).free = s.free := rfl
@[simp] theorem tick_ticket (s : State) : (s.tick).ticket = s.ticket + 1 := rfl
@[simp] theorem tick_part (s : State) : (s.tick).part = s.part := rfl
@[simp] theorem tick_ctlNow (s : State) : (s.tick).ctlNow = s.ctlNow := rfl
@[simp] theorem tick_launchNo (s : State) : (s.tick).launchNo = s.launchNo := rfl
@[simp] theorem tick_kernels (s : State) : (s.tick).kernels = s.kernels := rfl
@[simp] theorem tick_saved (s : State) : (s.tick).saved = s.saved := rfl
@[simp] theorem tick_posts (s : State) : (s.tick).posts = s.posts := rfl
@[simp] theorem tick_batches (s : State) : (s.tick).batches = s.batches := rfl
@[simp] theorem tick_batchSeq (s : State) : (s.tick).batchSeq = s.batchSeq := rfl
@[simp] theorem tick_serial (s : State) : (s.tick).serial = s.serial := rfl
@[simp] theorem tick_locked (s : State) : (s.tick).locked = s.locked := rfl
@[simp] theorem tick_regrows (s : State) : (s.tick).regrows = s.regrows := rfl
@[simp] theorem tick_results (s : State) : (s.tick).results = s.results := rfl
@[simp] theorem tick_narrow (s : State) : (s.tick).narrow = s.narrow := rfl
@[simp] theorem tick_quarantine (s : State) : (s.tick).quarantine = s.quarantine := rfl
@[simp] theorem tick_flight (s : State) : (s.tick).flight = s.flight := rfl
@[simp] theorem tick_marks (s : State) : (s.tick).marks = s.marks := rfl
@[simp] theorem tick_coreVd (s : State) : (s.tick).coreVd = s.coreVd := rfl
@[simp] theorem tick_level (s : State) : (s.tick).level = s.level := rfl
@[simp] theorem tick_pool (s : State) : (s.tick).pool = s.pool := rfl
@[simp] theorem tick_grants (s : State) : (s.tick).grants = s.grants := rfl
@[simp] theorem tick_errs (s : State) : (s.tick).errs = s.errs := rfl
@[simp] theorem tick_busy (s : State) : (s.tick).busy = s.busy := rfl
@[simp] theorem tick_lendOff (s : State) : (s.tick).lendOff = s.lendOff := rfl
@[simp] theorem tick_rmarks (s : State) : (s.tick).rmarks = s.rmarks := rfl
@[simp] theorem tick_epochs (s : State) : (s.tick).epochs = s.epochs := rfl
@[simp] theorem tick_gleans (s : State) : (s.tick).gleans = s.gleans := rfl
@[simp] theorem tick_measFw (s : State) : (s.tick).measFw = s.measFw := rfl
@[simp] theorem tick_fwNext (s : State) : (s.tick).fwNext = s.fwNext := rfl
@[simp] theorem tick_inbox (s : State) : (s.tick).inbox = s.inbox := rfl
@[simp] theorem tick_sent (s : State) : (s.tick).sent = s.sent := rfl
@[simp] theorem tick_far (s : State) : (s.tick).far = s.far := rfl
@[simp] theorem tick_slots (s : State) : (s.tick).slots = s.slots := rfl
@[simp] theorem tick_linkFail (s : State) : (s.tick).linkFail = s.linkFail := rfl
@[simp] theorem tick_linkDown (s : State) : (s.tick).linkDown = s.linkDown := rfl
@[simp] theorem tick_lost (s : State) : (s.tick).lost = s.lost := rfl
@[simp] theorem tick_keys (s : State) : (s.tick).keys = s.keys := rfl
@[simp] theorem tick_retired (s : State) : (s.tick).retired = s.retired := rfl
@[simp] theorem tick_remaps (s : State) : (s.tick).remaps = s.remaps := rfl
@[simp] theorem tick_conds (s : State) : (s.tick).conds = s.conds := rfl
@[simp] theorem tick_powered (s : State) : (s.tick).powered = s.powered := rfl

/-! `State.request`, field by field. -/
@[simp] theorem request_mem (s : State) (kind inst vd cost : Nat) (w : ReqWhat) : (s.request kind inst vd cost w).mem = s.mem := rfl
@[simp] theorem request_tags (s : State) (kind inst vd cost : Nat) (w : ReqWhat) : (s.request kind inst vd cost w).tags = s.tags := rfl
@[simp] theorem request_units (s : State) (kind inst vd cost : Nat) (w : ReqWhat) : (s.request kind inst vd cost w).units = s.units := rfl
@[simp] theorem request_sys (s : State) (kind inst vd cost : Nat) (w : ReqWhat) : (s.request kind inst vd cost w).sys = s.sys := rfl
@[simp] theorem request_ctxs (s : State) (kind inst vd cost : Nat) (w : ReqWhat) : (s.request kind inst vd cost w).ctxs = s.ctxs := rfl
@[simp] theorem request_gangs (s : State) (kind inst vd cost : Nat) (w : ReqWhat) : (s.request kind inst vd cost w).gangs = s.gangs := rfl
@[simp] theorem request_launches (s : State) (kind inst vd cost : Nat) (w : ReqWhat) : (s.request kind inst vd cost w).launches = s.launches := rfl
@[simp] theorem request_tiles (s : State) (kind inst vd cost : Nat) (w : ReqWhat) : (s.request kind inst vd cost w).tiles = s.tiles := rfl
@[simp] theorem request_llc (s : State) (kind inst vd cost : Nat) (w : ReqWhat) : (s.request kind inst vd cost w).llc = s.llc := rfl
@[simp] theorem request_tlb (s : State) (kind inst vd cost : Nat) (w : ReqWhat) : (s.request kind inst vd cost w).tlb = s.tlb := rfl
@[simp] theorem request_scr (s : State) (kind inst vd cost : Nat) (w : ReqWhat) : (s.request kind inst vd cost w).scr = s.scr := rfl
@[simp] theorem request_scrTags (s : State) (kind inst vd cost : Nat) (w : ReqWhat) : (s.request kind inst vd cost w).scrTags = s.scrTags := rfl
@[simp] theorem request_crib (s : State) (kind inst vd cost : Nat) (w : ReqWhat) : (s.request kind inst vd cost w).crib = s.crib := rfl
@[simp] theorem request_loft (s : State) (kind inst vd cost : Nat) (w : ReqWhat) : (s.request kind inst vd cost w).loft = s.loft := rfl
@[simp] theorem request_handles (s : State) (kind inst vd cost : Nat) (w : ReqWhat) : (s.request kind inst vd cost w).handles = s.handles := rfl
@[simp] theorem request_cmds (s : State) (kind inst vd cost : Nat) (w : ReqWhat) : (s.request kind inst vd cost w).cmds = s.cmds := rfl
@[simp] theorem request_ops (s : State) (kind inst vd cost : Nat) (w : ReqWhat) : (s.request kind inst vd cost w).ops = s.ops := rfl
@[simp] theorem request_sets (s : State) (kind inst vd cost : Nat) (w : ReqWhat) : (s.request kind inst vd cost w).sets = s.sets := rfl
@[simp] theorem request_vds (s : State) (kind inst vd cost : Nat) (w : ReqWhat) : (s.request kind inst vd cost w).vds = s.vds := rfl
@[simp] theorem request_parts (s : State) (kind inst vd cost : Nat) (w : ReqWhat) : (s.request kind inst vd cost w).parts = s.parts := rfl
@[simp] theorem request_objs (s : State) (kind inst vd cost : Nat) (w : ReqWhat) : (s.request kind inst vd cost w).objs = s.objs := rfl
@[simp] theorem request_replies (s : State) (kind inst vd cost : Nat) (w : ReqWhat) : (s.request kind inst vd cost w).replies = s.replies := rfl
@[simp] theorem request_reqs (s : State) (kind inst vd cost : Nat) (w : ReqWhat) : (s.request kind inst vd cost w).reqs = s.reqs ++ [⟨kind, inst, vd, cost, s.ticket, w⟩] := rfl
@[simp] theorem request_agenda (s : State) (kind inst vd cost : Nat) (w : ReqWhat) : (s.request kind inst vd cost w).agenda = s.agenda := rfl
@[simp] theorem request_cur (s : State) (kind inst vd cost : Nat) (w : ReqWhat) : (s.request kind inst vd cost w).cur = s.cur := rfl
@[simp] theorem request_now (s : State) (kind inst vd cost : Nat) (w : ReqWhat) : (s.request kind inst vd cost w).now = s.now := rfl
@[simp] theorem request_free (s : State) (kind inst vd cost : Nat) (w : ReqWhat) : (s.request kind inst vd cost w).free = s.free := rfl
@[simp] theorem request_ticket (s : State) (kind inst vd cost : Nat) (w : ReqWhat) : (s.request kind inst vd cost w).ticket = s.ticket + 1 := rfl
@[simp] theorem request_part (s : State) (kind inst vd cost : Nat) (w : ReqWhat) : (s.request kind inst vd cost w).part = s.part := rfl
@[simp] theorem request_ctlNow (s : State) (kind inst vd cost : Nat) (w : ReqWhat) : (s.request kind inst vd cost w).ctlNow = s.ctlNow := rfl
@[simp] theorem request_launchNo (s : State) (kind inst vd cost : Nat) (w : ReqWhat) : (s.request kind inst vd cost w).launchNo = s.launchNo := rfl
@[simp] theorem request_kernels (s : State) (kind inst vd cost : Nat) (w : ReqWhat) : (s.request kind inst vd cost w).kernels = s.kernels := rfl
@[simp] theorem request_saved (s : State) (kind inst vd cost : Nat) (w : ReqWhat) : (s.request kind inst vd cost w).saved = s.saved := rfl
@[simp] theorem request_posts (s : State) (kind inst vd cost : Nat) (w : ReqWhat) : (s.request kind inst vd cost w).posts = s.posts := rfl
@[simp] theorem request_batches (s : State) (kind inst vd cost : Nat) (w : ReqWhat) : (s.request kind inst vd cost w).batches = s.batches := rfl
@[simp] theorem request_batchSeq (s : State) (kind inst vd cost : Nat) (w : ReqWhat) : (s.request kind inst vd cost w).batchSeq = s.batchSeq := rfl
@[simp] theorem request_serial (s : State) (kind inst vd cost : Nat) (w : ReqWhat) : (s.request kind inst vd cost w).serial = s.serial := rfl
@[simp] theorem request_locked (s : State) (kind inst vd cost : Nat) (w : ReqWhat) : (s.request kind inst vd cost w).locked = s.locked := rfl
@[simp] theorem request_regrows (s : State) (kind inst vd cost : Nat) (w : ReqWhat) : (s.request kind inst vd cost w).regrows = s.regrows := rfl
@[simp] theorem request_results (s : State) (kind inst vd cost : Nat) (w : ReqWhat) : (s.request kind inst vd cost w).results = s.results := rfl
@[simp] theorem request_narrow (s : State) (kind inst vd cost : Nat) (w : ReqWhat) : (s.request kind inst vd cost w).narrow = s.narrow := rfl
@[simp] theorem request_quarantine (s : State) (kind inst vd cost : Nat) (w : ReqWhat) : (s.request kind inst vd cost w).quarantine = s.quarantine := rfl
@[simp] theorem request_flight (s : State) (kind inst vd cost : Nat) (w : ReqWhat) : (s.request kind inst vd cost w).flight = s.flight := rfl
@[simp] theorem request_marks (s : State) (kind inst vd cost : Nat) (w : ReqWhat) : (s.request kind inst vd cost w).marks = s.marks := rfl
@[simp] theorem request_coreVd (s : State) (kind inst vd cost : Nat) (w : ReqWhat) : (s.request kind inst vd cost w).coreVd = s.coreVd := rfl
@[simp] theorem request_level (s : State) (kind inst vd cost : Nat) (w : ReqWhat) : (s.request kind inst vd cost w).level = s.level := rfl
@[simp] theorem request_pool (s : State) (kind inst vd cost : Nat) (w : ReqWhat) : (s.request kind inst vd cost w).pool = s.pool := rfl
@[simp] theorem request_grants (s : State) (kind inst vd cost : Nat) (w : ReqWhat) : (s.request kind inst vd cost w).grants = s.grants := rfl
@[simp] theorem request_errs (s : State) (kind inst vd cost : Nat) (w : ReqWhat) : (s.request kind inst vd cost w).errs = s.errs := rfl
@[simp] theorem request_busy (s : State) (kind inst vd cost : Nat) (w : ReqWhat) : (s.request kind inst vd cost w).busy = s.busy := rfl
@[simp] theorem request_lendOff (s : State) (kind inst vd cost : Nat) (w : ReqWhat) : (s.request kind inst vd cost w).lendOff = s.lendOff := rfl
@[simp] theorem request_rmarks (s : State) (kind inst vd cost : Nat) (w : ReqWhat) : (s.request kind inst vd cost w).rmarks = s.rmarks := rfl
@[simp] theorem request_epochs (s : State) (kind inst vd cost : Nat) (w : ReqWhat) : (s.request kind inst vd cost w).epochs = s.epochs := rfl
@[simp] theorem request_gleans (s : State) (kind inst vd cost : Nat) (w : ReqWhat) : (s.request kind inst vd cost w).gleans = s.gleans := rfl
@[simp] theorem request_measFw (s : State) (kind inst vd cost : Nat) (w : ReqWhat) : (s.request kind inst vd cost w).measFw = s.measFw := rfl
@[simp] theorem request_fwNext (s : State) (kind inst vd cost : Nat) (w : ReqWhat) : (s.request kind inst vd cost w).fwNext = s.fwNext := rfl
@[simp] theorem request_inbox (s : State) (kind inst vd cost : Nat) (w : ReqWhat) : (s.request kind inst vd cost w).inbox = s.inbox := rfl
@[simp] theorem request_sent (s : State) (kind inst vd cost : Nat) (w : ReqWhat) : (s.request kind inst vd cost w).sent = s.sent := rfl
@[simp] theorem request_far (s : State) (kind inst vd cost : Nat) (w : ReqWhat) : (s.request kind inst vd cost w).far = s.far := rfl
@[simp] theorem request_slots (s : State) (kind inst vd cost : Nat) (w : ReqWhat) : (s.request kind inst vd cost w).slots = s.slots := rfl
@[simp] theorem request_linkFail (s : State) (kind inst vd cost : Nat) (w : ReqWhat) : (s.request kind inst vd cost w).linkFail = s.linkFail := rfl
@[simp] theorem request_linkDown (s : State) (kind inst vd cost : Nat) (w : ReqWhat) : (s.request kind inst vd cost w).linkDown = s.linkDown := rfl
@[simp] theorem request_lost (s : State) (kind inst vd cost : Nat) (w : ReqWhat) : (s.request kind inst vd cost w).lost = s.lost := rfl
@[simp] theorem request_keys (s : State) (kind inst vd cost : Nat) (w : ReqWhat) : (s.request kind inst vd cost w).keys = s.keys := rfl
@[simp] theorem request_retired (s : State) (kind inst vd cost : Nat) (w : ReqWhat) : (s.request kind inst vd cost w).retired = s.retired := rfl
@[simp] theorem request_remaps (s : State) (kind inst vd cost : Nat) (w : ReqWhat) : (s.request kind inst vd cost w).remaps = s.remaps := rfl
@[simp] theorem request_conds (s : State) (kind inst vd cost : Nat) (w : ReqWhat) : (s.request kind inst vd cost w).conds = s.conds := rfl
@[simp] theorem request_powered (s : State) (kind inst vd cost : Nat) (w : ReqWhat) : (s.request kind inst vd cost w).powered = s.powered := rfl

/-! `State.setHandle`, field by field. -/
@[simp] theorem setHandle_mem (s : State) (c n : Nat) (h : Handle) : (s.setHandle c n h).mem = s.mem := rfl
@[simp] theorem setHandle_tags (s : State) (c n : Nat) (h : Handle) : (s.setHandle c n h).tags = s.tags := rfl
@[simp] theorem setHandle_units (s : State) (c n : Nat) (h : Handle) : (s.setHandle c n h).units = s.units := rfl
@[simp] theorem setHandle_sys (s : State) (c n : Nat) (h : Handle) : (s.setHandle c n h).sys = s.sys := rfl
@[simp] theorem setHandle_ctxs (s : State) (c n : Nat) (h : Handle) : (s.setHandle c n h).ctxs = s.ctxs := rfl
@[simp] theorem setHandle_gangs (s : State) (c n : Nat) (h : Handle) : (s.setHandle c n h).gangs = s.gangs := rfl
@[simp] theorem setHandle_launches (s : State) (c n : Nat) (h : Handle) : (s.setHandle c n h).launches = s.launches := rfl
@[simp] theorem setHandle_tiles (s : State) (c n : Nat) (h : Handle) : (s.setHandle c n h).tiles = s.tiles := rfl
@[simp] theorem setHandle_llc (s : State) (c n : Nat) (h : Handle) : (s.setHandle c n h).llc = s.llc := rfl
@[simp] theorem setHandle_tlb (s : State) (c n : Nat) (h : Handle) : (s.setHandle c n h).tlb = s.tlb := rfl
@[simp] theorem setHandle_scr (s : State) (c n : Nat) (h : Handle) : (s.setHandle c n h).scr = s.scr := rfl
@[simp] theorem setHandle_scrTags (s : State) (c n : Nat) (h : Handle) : (s.setHandle c n h).scrTags = s.scrTags := rfl
@[simp] theorem setHandle_crib (s : State) (c n : Nat) (h : Handle) : (s.setHandle c n h).crib = s.crib := rfl
@[simp] theorem setHandle_loft (s : State) (c n : Nat) (h : Handle) : (s.setHandle c n h).loft = s.loft := rfl
@[simp] theorem setHandle_handles (s : State) (c n : Nat) (h : Handle) : (s.setHandle c n h).handles = store default s.handles (64 * c + n) h := rfl
@[simp] theorem setHandle_cmds (s : State) (c n : Nat) (h : Handle) : (s.setHandle c n h).cmds = s.cmds := rfl
@[simp] theorem setHandle_ops (s : State) (c n : Nat) (h : Handle) : (s.setHandle c n h).ops = s.ops := rfl
@[simp] theorem setHandle_sets (s : State) (c n : Nat) (h : Handle) : (s.setHandle c n h).sets = s.sets := rfl
@[simp] theorem setHandle_vds (s : State) (c n : Nat) (h : Handle) : (s.setHandle c n h).vds = s.vds := rfl
@[simp] theorem setHandle_parts (s : State) (c n : Nat) (h : Handle) : (s.setHandle c n h).parts = s.parts := rfl
@[simp] theorem setHandle_objs (s : State) (c n : Nat) (h : Handle) : (s.setHandle c n h).objs = s.objs := rfl
@[simp] theorem setHandle_replies (s : State) (c n : Nat) (h : Handle) : (s.setHandle c n h).replies = s.replies := rfl
@[simp] theorem setHandle_reqs (s : State) (c n : Nat) (h : Handle) : (s.setHandle c n h).reqs = s.reqs := rfl
@[simp] theorem setHandle_agenda (s : State) (c n : Nat) (h : Handle) : (s.setHandle c n h).agenda = s.agenda := rfl
@[simp] theorem setHandle_cur (s : State) (c n : Nat) (h : Handle) : (s.setHandle c n h).cur = s.cur := rfl
@[simp] theorem setHandle_now (s : State) (c n : Nat) (h : Handle) : (s.setHandle c n h).now = s.now := rfl
@[simp] theorem setHandle_free (s : State) (c n : Nat) (h : Handle) : (s.setHandle c n h).free = s.free := rfl
@[simp] theorem setHandle_ticket (s : State) (c n : Nat) (h : Handle) : (s.setHandle c n h).ticket = s.ticket := rfl
@[simp] theorem setHandle_part (s : State) (c n : Nat) (h : Handle) : (s.setHandle c n h).part = s.part := rfl
@[simp] theorem setHandle_ctlNow (s : State) (c n : Nat) (h : Handle) : (s.setHandle c n h).ctlNow = s.ctlNow := rfl
@[simp] theorem setHandle_launchNo (s : State) (c n : Nat) (h : Handle) : (s.setHandle c n h).launchNo = s.launchNo := rfl
@[simp] theorem setHandle_kernels (s : State) (c n : Nat) (h : Handle) : (s.setHandle c n h).kernels = s.kernels := rfl
@[simp] theorem setHandle_saved (s : State) (c n : Nat) (h : Handle) : (s.setHandle c n h).saved = s.saved := rfl
@[simp] theorem setHandle_posts (s : State) (c n : Nat) (h : Handle) : (s.setHandle c n h).posts = s.posts := rfl
@[simp] theorem setHandle_batches (s : State) (c n : Nat) (h : Handle) : (s.setHandle c n h).batches = s.batches := rfl
@[simp] theorem setHandle_batchSeq (s : State) (c n : Nat) (h : Handle) : (s.setHandle c n h).batchSeq = s.batchSeq := rfl
@[simp] theorem setHandle_serial (s : State) (c n : Nat) (h : Handle) : (s.setHandle c n h).serial = s.serial := rfl
@[simp] theorem setHandle_locked (s : State) (c n : Nat) (h : Handle) : (s.setHandle c n h).locked = s.locked := rfl
@[simp] theorem setHandle_regrows (s : State) (c n : Nat) (h : Handle) : (s.setHandle c n h).regrows = s.regrows := rfl
@[simp] theorem setHandle_results (s : State) (c n : Nat) (h : Handle) : (s.setHandle c n h).results = s.results := rfl
@[simp] theorem setHandle_narrow (s : State) (c n : Nat) (h : Handle) : (s.setHandle c n h).narrow = s.narrow := rfl
@[simp] theorem setHandle_quarantine (s : State) (c n : Nat) (h : Handle) : (s.setHandle c n h).quarantine = s.quarantine := rfl
@[simp] theorem setHandle_flight (s : State) (c n : Nat) (h : Handle) : (s.setHandle c n h).flight = s.flight := rfl
@[simp] theorem setHandle_marks (s : State) (c n : Nat) (h : Handle) : (s.setHandle c n h).marks = s.marks := rfl
@[simp] theorem setHandle_coreVd (s : State) (c n : Nat) (h : Handle) : (s.setHandle c n h).coreVd = s.coreVd := rfl
@[simp] theorem setHandle_level (s : State) (c n : Nat) (h : Handle) : (s.setHandle c n h).level = s.level := rfl
@[simp] theorem setHandle_pool (s : State) (c n : Nat) (h : Handle) : (s.setHandle c n h).pool = s.pool := rfl
@[simp] theorem setHandle_grants (s : State) (c n : Nat) (h : Handle) : (s.setHandle c n h).grants = s.grants := rfl
@[simp] theorem setHandle_errs (s : State) (c n : Nat) (h : Handle) : (s.setHandle c n h).errs = s.errs := rfl
@[simp] theorem setHandle_busy (s : State) (c n : Nat) (h : Handle) : (s.setHandle c n h).busy = s.busy := rfl
@[simp] theorem setHandle_lendOff (s : State) (c n : Nat) (h : Handle) : (s.setHandle c n h).lendOff = s.lendOff := rfl
@[simp] theorem setHandle_rmarks (s : State) (c n : Nat) (h : Handle) : (s.setHandle c n h).rmarks = s.rmarks := rfl
@[simp] theorem setHandle_epochs (s : State) (c n : Nat) (h : Handle) : (s.setHandle c n h).epochs = s.epochs := rfl
@[simp] theorem setHandle_gleans (s : State) (c n : Nat) (h : Handle) : (s.setHandle c n h).gleans = s.gleans := rfl
@[simp] theorem setHandle_measFw (s : State) (c n : Nat) (h : Handle) : (s.setHandle c n h).measFw = s.measFw := rfl
@[simp] theorem setHandle_fwNext (s : State) (c n : Nat) (h : Handle) : (s.setHandle c n h).fwNext = s.fwNext := rfl
@[simp] theorem setHandle_inbox (s : State) (c n : Nat) (h : Handle) : (s.setHandle c n h).inbox = s.inbox := rfl
@[simp] theorem setHandle_sent (s : State) (c n : Nat) (h : Handle) : (s.setHandle c n h).sent = s.sent := rfl
@[simp] theorem setHandle_far (s : State) (c n : Nat) (h : Handle) : (s.setHandle c n h).far = s.far := rfl
@[simp] theorem setHandle_slots (s : State) (c n : Nat) (h : Handle) : (s.setHandle c n h).slots = s.slots := rfl
@[simp] theorem setHandle_linkFail (s : State) (c n : Nat) (h : Handle) : (s.setHandle c n h).linkFail = s.linkFail := rfl
@[simp] theorem setHandle_linkDown (s : State) (c n : Nat) (h : Handle) : (s.setHandle c n h).linkDown = s.linkDown := rfl
@[simp] theorem setHandle_lost (s : State) (c n : Nat) (h : Handle) : (s.setHandle c n h).lost = s.lost := rfl
@[simp] theorem setHandle_keys (s : State) (c n : Nat) (h : Handle) : (s.setHandle c n h).keys = s.keys := rfl
@[simp] theorem setHandle_retired (s : State) (c n : Nat) (h : Handle) : (s.setHandle c n h).retired = s.retired := rfl
@[simp] theorem setHandle_remaps (s : State) (c n : Nat) (h : Handle) : (s.setHandle c n h).remaps = s.remaps := rfl
@[simp] theorem setHandle_conds (s : State) (c n : Nat) (h : Handle) : (s.setHandle c n h).conds = s.conds := rfl
@[simp] theorem setHandle_powered (s : State) (c n : Nat) (h : Handle) : (s.setHandle c n h).powered = s.powered := rfl

/-! `State.zeroRange`, field by field. -/
@[simp] theorem zeroRange_units (s : State) (lo n : Nat) : (s.zeroRange lo n).units = s.units := rfl
@[simp] theorem zeroRange_sys (s : State) (lo n : Nat) : (s.zeroRange lo n).sys = s.sys := rfl
@[simp] theorem zeroRange_ctxs (s : State) (lo n : Nat) : (s.zeroRange lo n).ctxs = s.ctxs := rfl
@[simp] theorem zeroRange_gangs (s : State) (lo n : Nat) : (s.zeroRange lo n).gangs = s.gangs := rfl
@[simp] theorem zeroRange_launches (s : State) (lo n : Nat) : (s.zeroRange lo n).launches = s.launches := rfl
@[simp] theorem zeroRange_tiles (s : State) (lo n : Nat) : (s.zeroRange lo n).tiles = s.tiles := rfl
@[simp] theorem zeroRange_llc (s : State) (lo n : Nat) : (s.zeroRange lo n).llc = s.llc := rfl
@[simp] theorem zeroRange_tlb (s : State) (lo n : Nat) : (s.zeroRange lo n).tlb = s.tlb := rfl
@[simp] theorem zeroRange_scr (s : State) (lo n : Nat) : (s.zeroRange lo n).scr = s.scr := rfl
@[simp] theorem zeroRange_scrTags (s : State) (lo n : Nat) : (s.zeroRange lo n).scrTags = s.scrTags := rfl
@[simp] theorem zeroRange_crib (s : State) (lo n : Nat) : (s.zeroRange lo n).crib = s.crib := rfl
@[simp] theorem zeroRange_loft (s : State) (lo n : Nat) : (s.zeroRange lo n).loft = s.loft := rfl
@[simp] theorem zeroRange_handles (s : State) (lo n : Nat) : (s.zeroRange lo n).handles = s.handles := rfl
@[simp] theorem zeroRange_cmds (s : State) (lo n : Nat) : (s.zeroRange lo n).cmds = s.cmds := rfl
@[simp] theorem zeroRange_ops (s : State) (lo n : Nat) : (s.zeroRange lo n).ops = s.ops := rfl
@[simp] theorem zeroRange_sets (s : State) (lo n : Nat) : (s.zeroRange lo n).sets = s.sets := rfl
@[simp] theorem zeroRange_vds (s : State) (lo n : Nat) : (s.zeroRange lo n).vds = s.vds := rfl
@[simp] theorem zeroRange_parts (s : State) (lo n : Nat) : (s.zeroRange lo n).parts = s.parts := rfl
@[simp] theorem zeroRange_objs (s : State) (lo n : Nat) : (s.zeroRange lo n).objs = s.objs := rfl
@[simp] theorem zeroRange_replies (s : State) (lo n : Nat) : (s.zeroRange lo n).replies = s.replies := rfl
@[simp] theorem zeroRange_reqs (s : State) (lo n : Nat) : (s.zeroRange lo n).reqs = s.reqs := rfl
@[simp] theorem zeroRange_agenda (s : State) (lo n : Nat) : (s.zeroRange lo n).agenda = s.agenda := rfl
@[simp] theorem zeroRange_cur (s : State) (lo n : Nat) : (s.zeroRange lo n).cur = s.cur := rfl
@[simp] theorem zeroRange_now (s : State) (lo n : Nat) : (s.zeroRange lo n).now = s.now := rfl
@[simp] theorem zeroRange_free (s : State) (lo n : Nat) : (s.zeroRange lo n).free = s.free := rfl
@[simp] theorem zeroRange_ticket (s : State) (lo n : Nat) : (s.zeroRange lo n).ticket = s.ticket := rfl
@[simp] theorem zeroRange_part (s : State) (lo n : Nat) : (s.zeroRange lo n).part = s.part := rfl
@[simp] theorem zeroRange_ctlNow (s : State) (lo n : Nat) : (s.zeroRange lo n).ctlNow = s.ctlNow := rfl
@[simp] theorem zeroRange_launchNo (s : State) (lo n : Nat) : (s.zeroRange lo n).launchNo = s.launchNo := rfl
@[simp] theorem zeroRange_kernels (s : State) (lo n : Nat) : (s.zeroRange lo n).kernels = s.kernels := rfl
@[simp] theorem zeroRange_saved (s : State) (lo n : Nat) : (s.zeroRange lo n).saved = s.saved := rfl
@[simp] theorem zeroRange_posts (s : State) (lo n : Nat) : (s.zeroRange lo n).posts = s.posts := rfl
@[simp] theorem zeroRange_batches (s : State) (lo n : Nat) : (s.zeroRange lo n).batches = s.batches := rfl
@[simp] theorem zeroRange_batchSeq (s : State) (lo n : Nat) : (s.zeroRange lo n).batchSeq = s.batchSeq := rfl
@[simp] theorem zeroRange_serial (s : State) (lo n : Nat) : (s.zeroRange lo n).serial = s.serial := rfl
@[simp] theorem zeroRange_locked (s : State) (lo n : Nat) : (s.zeroRange lo n).locked = s.locked := rfl
@[simp] theorem zeroRange_regrows (s : State) (lo n : Nat) : (s.zeroRange lo n).regrows = s.regrows := rfl
@[simp] theorem zeroRange_results (s : State) (lo n : Nat) : (s.zeroRange lo n).results = s.results := rfl
@[simp] theorem zeroRange_narrow (s : State) (lo n : Nat) : (s.zeroRange lo n).narrow = s.narrow := rfl
@[simp] theorem zeroRange_quarantine (s : State) (lo n : Nat) : (s.zeroRange lo n).quarantine = s.quarantine := rfl
@[simp] theorem zeroRange_flight (s : State) (lo n : Nat) : (s.zeroRange lo n).flight = s.flight := rfl
@[simp] theorem zeroRange_marks (s : State) (lo n : Nat) : (s.zeroRange lo n).marks = s.marks := rfl
@[simp] theorem zeroRange_coreVd (s : State) (lo n : Nat) : (s.zeroRange lo n).coreVd = s.coreVd := rfl
@[simp] theorem zeroRange_level (s : State) (lo n : Nat) : (s.zeroRange lo n).level = s.level := rfl
@[simp] theorem zeroRange_pool (s : State) (lo n : Nat) : (s.zeroRange lo n).pool = s.pool := rfl
@[simp] theorem zeroRange_grants (s : State) (lo n : Nat) : (s.zeroRange lo n).grants = s.grants := rfl
@[simp] theorem zeroRange_errs (s : State) (lo n : Nat) : (s.zeroRange lo n).errs = s.errs := rfl
@[simp] theorem zeroRange_busy (s : State) (lo n : Nat) : (s.zeroRange lo n).busy = s.busy := rfl
@[simp] theorem zeroRange_lendOff (s : State) (lo n : Nat) : (s.zeroRange lo n).lendOff = s.lendOff := rfl
@[simp] theorem zeroRange_rmarks (s : State) (lo n : Nat) : (s.zeroRange lo n).rmarks = s.rmarks := rfl
@[simp] theorem zeroRange_epochs (s : State) (lo n : Nat) : (s.zeroRange lo n).epochs = s.epochs := rfl
@[simp] theorem zeroRange_gleans (s : State) (lo n : Nat) : (s.zeroRange lo n).gleans = s.gleans := rfl
@[simp] theorem zeroRange_measFw (s : State) (lo n : Nat) : (s.zeroRange lo n).measFw = s.measFw := rfl
@[simp] theorem zeroRange_fwNext (s : State) (lo n : Nat) : (s.zeroRange lo n).fwNext = s.fwNext := rfl
@[simp] theorem zeroRange_inbox (s : State) (lo n : Nat) : (s.zeroRange lo n).inbox = s.inbox := rfl
@[simp] theorem zeroRange_sent (s : State) (lo n : Nat) : (s.zeroRange lo n).sent = s.sent := rfl
@[simp] theorem zeroRange_far (s : State) (lo n : Nat) : (s.zeroRange lo n).far = s.far := rfl
@[simp] theorem zeroRange_slots (s : State) (lo n : Nat) : (s.zeroRange lo n).slots = s.slots := rfl
@[simp] theorem zeroRange_linkFail (s : State) (lo n : Nat) : (s.zeroRange lo n).linkFail = s.linkFail := rfl
@[simp] theorem zeroRange_linkDown (s : State) (lo n : Nat) : (s.zeroRange lo n).linkDown = s.linkDown := rfl
@[simp] theorem zeroRange_lost (s : State) (lo n : Nat) : (s.zeroRange lo n).lost = s.lost := rfl
@[simp] theorem zeroRange_keys (s : State) (lo n : Nat) : (s.zeroRange lo n).keys = s.keys := rfl
@[simp] theorem zeroRange_retired (s : State) (lo n : Nat) : (s.zeroRange lo n).retired = s.retired := rfl
@[simp] theorem zeroRange_remaps (s : State) (lo n : Nat) : (s.zeroRange lo n).remaps = s.remaps := rfl
@[simp] theorem zeroRange_conds (s : State) (lo n : Nat) : (s.zeroRange lo n).conds = s.conds := rfl
@[simp] theorem zeroRange_powered (s : State) (lo n : Nat) : (s.zeroRange lo n).powered = s.powered := rfl
/-! Updates that may find nothing to change, and folds of updates. -/

theorem modCtx_frame (s : State) (c : Nat) (f : Ctx → Ctx) : s.modCtx c f = { s with ctxs := (s.modCtx c f).ctxs } := by
  unfold State.modCtx
  split <;> rfl

theorem modGang_frame (s : State) (n : Nat) (f : Gang → Gang) : s.modGang n f = { s with gangs := (s.modGang n f).gangs } := by
  unfold State.modGang
  split <;> rfl

theorem modLaunch_frame (s : State) (n : Nat) (f : Launch → Launch) :
    s.modLaunch n f = { s with launches := (s.modLaunch n f).launches } := by
  unfold State.modLaunch
  split <;> rfl

theorem modPart_frame (s : State) (p : Nat) (f : Part → Part) : s.modPart p f = { s with parts := (s.modPart p f).parts } := by
  unfold State.modPart
  split <;> rfl

theorem noteRetire_frame (s : State) (x : Iss) : s.noteRetire x = { s with ctxs := (s.noteRetire x).ctxs } := by
  unfold State.noteRetire
  split
  · rfl
  · exact modCtx_frame s _ _

theorem retireTo_frame (s : State) (x : Iss) (g : Grp) (pc : DWord) :
    s.retireTo x g pc = { s with units := put s.units x.u (g.goTo (s.genOf g) x.b pc), ctxs := (s.retireTo x g pc).ctxs } := by
  unfold State.retireTo
  rw [noteRetire_frame]
  rfl

theorem block_frame (s : State) (u : Nat) (b : Bool) (w : Wait) : s.block u b w = { s with units := (s.block u b w).units } := by
  unfold State.block
  split <;> rfl

/-- Bytes written at keys change memory and tags only. -/
theorem wkeys_frame (ks : List Nat) : ∀ (bs : List Byte) (s : State),
    s.wkeys ks bs = { s with mem := (s.wkeys ks bs).mem, tags := (s.wkeys ks bs).tags } := by
  induction ks with
  | nil =>
    intro bs s
    cases bs <;> rfl
  | cons k ks ih =>
    intro bs s
    cases bs with
    | nil => rfl
    | cons b bs =>
      show State.wkeys ((s.wb k b).tagW k false) ks bs = _
      rw [ih]
      rfl

/-- Raw bytes change memory only. -/
theorem rawW_frame (k n x : Nat) (s : State) : s.rawW k n x = { s with mem := (s.rawW k n x).mem } := by
  suffices h : ∀ (ls : List Nat) (s : State),
      ls.foldl (fun (t : State) i => t.wb (k + i) (BitVec.ofNat 8 (x >>> (8 * i)))) s
        = { s with mem := (ls.foldl (fun (t : State) i => t.wb (k + i) (BitVec.ofNat 8 (x >>> (8 * i)))) s).mem } from
    h (List.range n) s
  intro ls
  induction ls with
  | nil => intro s; rfl
  | cons i r ih =>
    intro s
    rw [List.foldl_cons, ih]
    rfl

end Sys2Proof.Machine
end

