-- ==== Sys2Proof/Laws/Memory.lean ====
section
/-! SUPPORT. Memory: what a byte reads as after each operation, and that every operation that changes memory keeps its canonical
form. -/
namespace Sys2Proof.Machine

/-! Reading after writing. -/

@[simp] theorem rb_wb_self (s : State) (k : Nat) (x : Byte) : (s.wb k x).rb k = x := look_store_self 0 s.mem k x

theorem rb_wb_ne (s : State) (k j : Nat) (x : Byte) (h : j ≠ k) : (s.wb k x).rb j = s.rb j := look_store_ne 0 s.mem k j x h

@[simp] theorem rb_tagW (s : State) (k j : Nat) (t : Bool) : (s.tagW k t).rb j = s.rb j := rfl
@[simp] theorem tagR_wb (s : State) (k j : Nat) (x : Byte) : (s.wb k x).tagR j = s.tagR j := rfl

theorem tagR_tagW (s : State) (k j : Nat) (t : Bool) :
    (s.tagW k t).tagR j = if j / 16 = k / 16 then t else s.tagR j := look_store false s.tags (k / 16) (j / 16) t

/-- A byte at no written key reads as before. -/
theorem rb_wkeys_other (ks : List Nat) : ∀ (bs : List Byte) (s : State) (j : Nat), j ∉ ks → (s.wkeys ks bs).rb j = s.rb j := by
  induction ks with
  | nil =>
    intro bs s j _
    cases bs <;> rfl
  | cons k ks ih =>
    intro bs s j h
    cases bs with
    | nil => rfl
    | cons b bs =>
      have h1 : j ≠ k := fun e => h (by simp [e])
      have h2 : j ∉ ks := fun e => h (by simp [e])
      show ((((s.wb k b).tagW k false)).wkeys ks bs).rb j = s.rb j
      rw [ih bs _ j h2, rb_tagW, rb_wb_ne s k j b h1]

/-- The byte written at a key reads back, where no key is written twice. -/
theorem rb_wkeys_at (ks : List Nat) : ∀ (bs : List Byte) (s : State) (n k : Nat) (b : Byte), ks.Nodup →
    ks[n]? = some k → bs[n]? = some b → (s.wkeys ks bs).rb k = b := by
  induction ks with
  | nil => intro bs s n k b _ h; simp at h
  | cons j ks ih =>
    intro bs s n k b hd hk hb
    cases bs with
    | nil => simp at hb
    | cons c bs =>
      obtain ⟨hj, hd⟩ := List.nodup_cons.mp hd
      show ((((s.wb j c).tagW j false)).wkeys ks bs).rb k = b
      cases n with
      | zero =>
        simp only [List.getElem?_cons_zero, Option.some.injEq] at hk hb
        subst hk hb
        rw [rb_wkeys_other ks bs _ j hj, rb_tagW, rb_wb_self]
      | succ n =>
        simp only [List.getElem?_cons_succ] at hk hb
        exact ih bs _ n k b hd hk hb

/-! The canonical form. -/

theorem wf_reset : Memory.wf State.reset.mem = true := rfl

theorem wf_wb (s : State) (k : Nat) (x : Byte) (h : Memory.wf s.mem = true) : Memory.wf (s.wb k x).mem = true :=
  canonFrom_store 0 s.mem k x h

theorem wf_wkeys (ks : List Nat) : ∀ (bs : List Byte) (s : State), Memory.wf s.mem = true →
    Memory.wf (s.wkeys ks bs).mem = true := by
  induction ks with
  | nil =>
    intro bs s h
    cases bs <;> exact h
  | cons k ks ih =>
    intro bs s h
    cases bs with
    | nil => exact h
    | cons b bs => exact ih bs _ (wf_wb s k b h)

theorem wf_wn (s : State) (k n x : Nat) (h : Memory.wf s.mem = true) : Memory.wf (s.wn k n x).mem = true :=
  wf_wkeys _ _ s h

theorem wf_capPut (s : State) (k : Nat) (c : Cap) (h : Memory.wf s.mem = true) : Memory.wf (s.capPut k c).mem = true := by
  unfold State.capPut
  rw [tagW_mem]
  exact wf_wn s k 16 _ h

theorem wf_rawW (s : State) (k n x : Nat) (h : Memory.wf s.mem = true) : Memory.wf (s.rawW k n x).mem = true := by
  suffices hs : ∀ (ls : List Nat) (s : State), Memory.wf s.mem = true →
      Memory.wf (ls.foldl (fun (t : State) i => t.wb (k + i) (BitVec.ofNat 8 (x >>> (8 * i)))) s).mem = true from
    hs (List.range n) s h
  intro ls
  induction ls with
  | nil => intro s h; exact h
  | cons i r ih => intro s h; exact ih _ (wf_wb s _ _ h)

theorem wf_setTileState (s : State) (k n : Nat) (h : Memory.wf s.mem = true) : Memory.wf (s.setTileState k n).mem = true :=
  wf_wb s _ _ h

theorem wf_setTileVersion (s : State) (k n : Nat) (h : Memory.wf s.mem = true) :
    Memory.wf (s.setTileVersion k n).mem = true := wf_rawW s _ _ _ h

theorem wf_blankDesc (s : State) (k : Nat) (h : Memory.wf s.mem = true) : Memory.wf (s.blankDesc k).mem = true :=
  wf_setTileState _ _ _ (wf_capPut s _ _ h)

theorem wf_clearTile (s : State) (t : Tile) (h : Memory.wf s.mem = true) : Memory.wf (s.clearTile t).mem = true :=
  canonFrom_filter 0 _ s.mem 0 h

theorem wf_zeroRange (s : State) (lo n : Nat) (h : Memory.wf s.mem = true) : Memory.wf (s.zeroRange lo n).mem = true :=
  canonFrom_filter 0 _ s.mem 0 h

theorem wf_erasePa (s : State) (pa n : Nat) (h : Memory.wf s.mem = true) : Memory.wf (s.erasePa pa n).mem = true :=
  wf_zeroRange _ _ _ (wf_zeroRange s _ _ h)

theorem wf_dark (s : State) (h : Memory.wf s.mem = true) : Memory.wf s.dark.mem = true :=
  canonFrom_filter 0 _ s.mem 0 h

end Sys2Proof.Machine
end

