-- ==== Sys2Proof/Laws/Paths.lean ====
section
/-! SUPPORT. Paths: the rules of R42 to R44 read no data register and change none. -/
namespace Sys2Proof.Machine

/-- A group with the data registers, predicates, STATUS and STOCH of another. -/
def Grp.withData (g h : Grp) : Grp :=
  { g with v := h.v, vf := h.vf, s := h.s, p := h.p, status := h.status, stoch := h.stoch }

@[simp] theorem withData_slot (g h : Grp) (b : Bool) : (g.withData h).slot b = g.slot b := by cases b <;> rfl
@[simp] theorem withData_slotA (g h : Grp) : (g.withData h).slotA = g.slotA := rfl
@[simp] theorem withData_slotB (g h : Grp) : (g.withData h).slotB = g.slotB := rfl
@[simp] theorem withData_stack (g h : Grp) : (g.withData h).stack = g.stack := rfl
@[simp] theorem withData_fuel (g h : Grp) : (g.withData h).fuel = g.fuel := rfl
@[simp] theorem withData_gang (g h : Grp) : (g.withData h).gang = g.gang := rfl
@[simp] theorem setSlot_withData (g h : Grp) (b : Bool) (x : Option Path) :
    (g.withData h).setSlot b x = (g.setSlot b x).withData h := by cases b <;> rfl

theorem park_withData (n : Nat) (g h : Grp) (b : Bool) :
    Grp.park n (g.withData h) b = (Grp.park n g b).withData h := by
  induction n generalizing g with
  | zero => rfl
  | succ n ih =>
    unfold Grp.park
    simp only [withData_slot, withData_stack]
    split
    · rfl
    · split
      · rfl
      · split
        · split
          · split
            · exact (congrArg (fun z => Grp.park n z b) (setSlot_withData { g with stack := _ } h b _)).trans (ih _)
            · exact setSlot_withData { g with stack := _ } h b none
          · rfl
        · rfl

@[simp] theorem pick_withData (g h : Grp) (gen : Nat) : (g.withData h).pick gen = g.pick gen := rfl

/-- The slot that a fill takes: A, else B. -/
theorem fill_step (gen n : Nat) (g : Grp) (b : Bool) (k : Nat) (x : Path)
    (hb : (b = false ∧ g.slotA = none) ∨ (b = true ∧ g.slotA ≠ none ∧ g.slotB = none)) (hp : g.pick gen = some (k, x)) :
    Grp.fill gen (n + 1) g
      = Grp.fill gen n (Grp.park g.fuel ({ g with stack := del g.stack k, sinceFill := 0, recAt := [] }.setSlot b (some x)) b) := by
  rw [Grp.fill]
  rcases hb with ⟨rfl, h⟩ | ⟨rfl, h, h'⟩
  · simp only [h, hp, Option.isNone_none, if_true]
  · have : g.slotA.isNone = false := by cases hs : g.slotA <;> simp_all
    simp only [this, h', hp, Option.isNone_none, if_true, Bool.false_eq_true, if_false]

/-- A fill that finds no free slot, or no acceptable record, changes nothing. -/
theorem fill_stop (gen n : Nat) (g : Grp) (h : (g.slotA ≠ none ∧ g.slotB ≠ none) ∨ g.pick gen = none) :
    Grp.fill gen n g = g := by
  cases n with
  | zero => rfl
  | succ n =>
    rw [Grp.fill]
    rcases h with ⟨ha, hb⟩ | hp
    · have ha' : g.slotA.isNone = false := by cases hs : g.slotA <;> simp_all
      have hb' : g.slotB.isNone = false := by cases hs : g.slotB <;> simp_all
      simp only [ha', hb', Bool.false_eq_true, if_false]
    · rw [hp]
      split
      · next h => cases h
      · rfl

theorem fill_withData (gen n : Nat) (g h : Grp) : Grp.fill gen n (g.withData h) = (Grp.fill gen n g).withData h := by
  induction n generalizing g with
  | zero => rfl
  | succ n ih =>
    by_cases hs : (g.slotA ≠ none ∧ g.slotB ≠ none) ∨ g.pick gen = none
    · rw [fill_stop gen _ g hs, fill_stop gen _ (g.withData h) hs]
    · obtain ⟨⟨k, x⟩, hk⟩ : ∃ e, g.pick gen = some e := by
        cases hp : g.pick gen with
        | none => exact absurd (Or.inr hp) hs
        | some e => exact ⟨e, rfl⟩
      obtain ⟨b, hb⟩ : ∃ b, (b = false ∧ g.slotA = none) ∨ (b = true ∧ g.slotA ≠ none ∧ g.slotB = none) := by
        cases ha : g.slotA with
        | none => exact ⟨false, .inl ⟨rfl, rfl⟩⟩
        | some y =>
          cases hb : g.slotB with
          | none => exact ⟨true, .inr ⟨rfl, by simp, rfl⟩⟩
          | some z => exact absurd (Or.inl ⟨by simp [ha], by simp [hb]⟩) hs
      rw [fill_step gen n g b k x hb hk, fill_step gen n (g.withData h) b k x hb hk]
      have e := setSlot_withData { g with stack := del g.stack k, sinceFill := 0, recAt := [] } h b (some x)
      exact (congrArg (fun z => Grp.fill gen n (Grp.park g.fuel z b)) e).trans
        ((congrArg (Grp.fill gen n) (park_withData _ _ _ _)).trans (ih _))

theorem settled_withData (gen : Nat) (g h : Grp) (b : Bool) :
    (g.withData h).settled gen b = (g.settled gen b).withData h := by
  unfold Grp.settled
  simp only [withData_fuel, park_withData, fill_withData]

/-- A path goes on alike whatever the data registers hold. -/
theorem goTo_withData (gen : Nat) (g h : Grp) (b : Bool) (pc : DWord) :
    (g.withData h).goTo gen b pc = (g.goTo gen b pc).withData h := by
  unfold Grp.goTo
  simp only [withData_slot]
  split
  · rfl
  · rw [setSlot_withData, settled_withData]

end Sys2Proof.Machine
end

