-- ==== Sys2Proof/Laws/Regs.lean ====
section
/-! SUPPORT. Registers: what a destination holds after a write, and what the write leaves (R62, R173). -/
namespace Sys2Proof.Machine

/-- A group with the registers of another. -/
def Grp.withRegs (g h : Grp) : Grp := { g with v := h.v, vf := h.vf, s := h.s }

/-- A write changes registers v and s and capability flags only. -/
theorem wrLanes_withRegs (g : Grp) (r : Nat) (f : Nat → Word) (ls : List Nat) :
    g.wrLanes r f ls = g.withRegs (g.wrLanes r f ls) := by
  induction ls generalizing g with
  | nil => rfl
  | cons l ls ih =>
    rw [Grp.wrLanes, ih]
    rfl

theorem wr_withRegs (g : Grp) (r : Reg) (ls : List Nat) (f : Nat → Word) : g.wr r ls f = g.withRegs (g.wr r ls f) := by
  unfold Grp.wr
  split
  · exact wrLanes_withRegs ..
  · rfl

theorem wrLanes_s (g : Grp) (r : Nat) (f : Nat → Word) (ls : List Nat) : (g.wrLanes r f ls).s = g.s := by
  induction ls generalizing g with
  | nil => rfl
  | cons l ls ih => rw [Grp.wrLanes, ih]; rfl

/-- A lane of a v register after its lanes `ls` have been written. -/
theorem wrLanes_v (g : Grp) (r : Nat) (f : Nat → Word) (ls : List Nat) (hl : ∀ l ∈ ls, l < 64) (q l : Nat) (h : l < 64) :
    look 0 (g.wrLanes r f ls).v (64 * q + l) = if q = r ∧ l ∈ ls then f l else look 0 g.v (64 * q + l) := by
  induction ls generalizing g with
  | nil => simp [Grp.wrLanes]
  | cons a ls ih =>
    have ha : a < 64 := hl a (by simp)
    rw [Grp.wrLanes, ih _ (fun l hl' => hl l (by simp [hl']))]
    simp only [Grp.wrV, look_store, List.mem_cons]
    by_cases hq : q = r
    · subst hq
      by_cases hm : l ∈ ls
      · simp [hm]
      · by_cases e : l = a
        · subst e; simp [hm]
        · have : 64 * q + l ≠ 64 * q + a := by omega
          simp [hm, e, this]
    · have : 64 * q + l ≠ 64 * r + a := by omega
      simp [hq, this]

/-- The capability flags of quads after the lanes `ls` of a v register have been written (R62). -/
theorem wrLanes_vf (g : Grp) (r : Nat) (f : Nat → Word) (ls : List Nat) (hl : ∀ l ∈ ls, l < 64) (q l : Nat)
    (h : l < 64) :
    look false (g.wrLanes r f ls).vf (64 * q + l) = (decide (r / 4 = q → l ∉ ls) && look false g.vf (64 * q + l)) := by
  induction ls generalizing g with
  | nil => simp [Grp.wrLanes]
  | cons a ls ih =>
    have ha : a < 64 := hl a (by simp)
    rw [Grp.wrLanes, ih _ (fun l hl' => hl l (by simp [hl']))]
    simp only [Grp.wrV, look_store, List.mem_cons]
    by_cases hq : r / 4 = q
    · by_cases e : l = a
      · subst e; simp [hq]
      · have : 64 * q + l ≠ 64 * (r / 4) + a := by omega
        simp [hq, e, this]
    · have : 64 * q + l ≠ 64 * (r / 4) + a := by omega
      simp [hq, this]

end Sys2Proof.Machine
end

