-- ==== Sys2Proof/Laws/Results.lean ====
section
/-! SUPPORT. What an issue that retires leaves, and the shapes of results: registers, flags and predicates. -/
namespace Sys2Proof.Machine

/-- An instruction that runs does its own effect. -/
theorem issue_runs {i : Instr} {s : State} {x : Iss} {body : Iss → State → Res} (h : Runs i s x) :
    issue (Instr.sig i) s body = .next (finish s x (body x s)) := by
  obtain ⟨h1, h2, h3, h4⟩ := h
  have e : (Instr.sig i).w = wordOf i := rfl
  have h3' : ¬(x.act = 0 ∧ major x.w ≠ 0x3F) := fun h => h3 h.1
  rw [issue, e, h1]
  simp only [h2, h4, if_neg h3', Bool.false_eq_true, if_false]

@[simp] theorem noteRetire_units (s : State) (x : Iss) : (s.noteRetire x).units = s.units := by
  unfold State.noteRetire
  split
  · rfl
  · unfold State.modCtx
    split <;> rfl

/-- What a retire notes does not depend on the units. -/
theorem noteRetire_putU (s : State) (x : Iss) (u : Nat) (g : Grp) :
    (s.putU u g).noteRetire x = { s.noteRetire x with units := put s.units u g } := by
  unfold State.noteRetire
  split
  · rfl
  · unfold State.modCtx
    simp only [State.putU]
    split <;> rfl

@[simp] theorem genOf_withData (s : State) (g h : Grp) : s.genOf (g.withData h) = s.genOf g := rfl

/-- A retire of new data registers leaves what `After` says. -/
theorem after_retireTo (s : State) (x : Iss) (g : Grp) (pc : DWord) (h : g = x.g.withData g) :
    After s x pc (s.retireTo x g pc) ((x.g.goTo (s.genOf x.g) x.b pc).withData g) := by
  have e : g.goTo (s.genOf g) x.b pc = (x.g.goTo (s.genOf x.g) x.b pc).withData g := by
    have hg : s.genOf g = s.genOf x.g := by rw [h]; rfl
    rw [hg]
    conv => lhs; rw [h]
    exact goTo_withData ..
  unfold After State.retireTo
  rw [e, noteRetire_putU]
  refine ⟨rfl, find_put_self .., fun u hu => find_put_ne _ _ _ _ hu, rfl⟩

theorem plus_ne (d : Reg) (i j : Nat) (hi : i < 128) (hj : j < 128) (h : i ≠ j) : Reg.plus d i ≠ Reg.plus d j := by
  unfold Reg.plus
  intro e
  have := congrArg BitVec.toNat e
  simp only [BitVec.toNat_add, BitVec.toNat_ofNat] at this
  have := d.isLt
  omega

theorem isV_iff (r : Reg) : r.isV = true ↔ r.toNat < 96 := by
  simp [Reg.isV]

/-- A register after one has been written. -/
theorem wr_rd (g : Grp) (d : Reg) (ls : List Nat) (f : Nat → Word) (hl : ∀ l ∈ ls, l < 64) (r : Reg) (l : Nat)
    (h : l < 64) :
    (g.wr d ls f).rd r l = if r = d ∧ (r.isV = true → l ∈ ls) then (if r.isV then f l else f 0) else g.rd r l := by
  unfold Grp.wr Grp.rd
  by_cases hd : d.isV
  · by_cases hr : r.isV
    · simp only [hd, hr, if_true, wrLanes_v g d.toNat f ls hl r.toNat l h, forall_const]
      by_cases e : r = d
      · simp [e]
      · have : r.toNat ≠ d.toNat := fun h => e (BitVec.eq_of_toNat_eq h)
        simp [e, this]
    · have e : r ≠ d := fun h => hr (h ▸ hd)
      simp [hd, hr, e, wrLanes_s]
  · by_cases hr : r.isV
    · have e : r ≠ d := fun h => hd (h ▸ hr)
      simp [hd, hr, e, Grp.wrS]
    · simp only [hd, hr, Grp.wrS, look_store, Bool.false_eq_true, if_false, false_implies, and_true]
      by_cases e : r = d
      · simp [e]
      · have h1 : r.toNat ≠ d.toNat := fun h => e (BitVec.eq_of_toNat_eq h)
        have h2 : ¬ d.toNat < 96 := fun h => hd ((isV_iff d).2 h)
        have h3 : ¬ r.toNat < 96 := fun h => hr ((isV_iff r).2 h)
        have : r.toNat - 96 ≠ d.toNat - 96 := by omega
        simp [e, this]

theorem wr_vf (g : Grp) (d : Reg) (ls : List Nat) (f : Nat → Word) (hl : ∀ l ∈ ls, l < 64) (q l : Nat) (h : l < 64) :
    look false (g.wr d ls f).vf (64 * q + l)
      = (decide (d.isV = true → d.toNat / 4 = q → l ∉ ls) && look false g.vf (64 * q + l)) := by
  unfold Grp.wr
  by_cases hd : d.isV
  · simp [hd, wrLanes_vf g d.toNat f ls hl q l h]
  · simp [hd, Grp.wrS]

/-- A run of registers written in lanes below 64. -/
theorem wrote_wrRun (x : Iss) (d : Reg) (k : Nat) (ls : List Nat) (f : Nat → Nat → Word) (hl : ∀ l ∈ ls, l < 64)
    (hk : k ≤ 128) : Wrote x (x.g.wrRun d ls f k) d k ls f := by
  induction k with
  | zero =>
    refine ⟨fun j hj => absurd hj (Nat.not_lt_zero _), fun _ _ _ _ => rfl, fun q l _ => ?_⟩
    simp [Grp.wrRun]
  | succ k ih =>
    obtain ⟨h1, h2, h3⟩ := ih (by omega)
    refine ⟨fun j hj l hm => ?_, fun r l hl64 hr => ?_, fun q l hl64 => ?_⟩
    · have hl64 : l < 64 := by
        split at hm
        · exact hl l hm
        · simp only [List.mem_singleton] at hm; omega
      rw [Grp.wrRun, wr_rd _ _ _ _ hl _ _ hl64]
      by_cases e : j = k
      · subst e
        by_cases hv : (Reg.plus d j).isV
        · simp only [hv, if_true] at hm
          simp [hv, hm]
        · simp only [hv, Bool.false_eq_true, if_false, List.mem_singleton] at hm
          simp [hv, hm]
      · rw [if_neg (fun h => plus_ne d j k (by omega) (by omega) e h.1)]
        exact h1 j (by omega) l hm
    · rw [Grp.wrRun, wr_rd _ _ _ _ hl _ _ hl64, if_neg, h2 r l hl64 (fun j hj => hr j (by omega))]
      rintro ⟨e, hm⟩
      obtain ⟨a, b⟩ := hr k (by omega) e
      exact b (hm a)
    · rw [Grp.wrRun, wr_vf _ _ _ _ hl _ _ hl64, h3 q l hl64, ← Bool.and_assoc]
      congr 1
      rw [← Bool.decide_and]
      refine decide_eq_decide.2 ⟨fun ⟨a, b⟩ j hj => ?_, fun h => ⟨h k (by omega), fun j hj => h j (by omega)⟩⟩
      by_cases e : j = k
      · exact e ▸ a
      · exact b j (by omega)

theorem lanesOf_lt (w : Nat) (m : DWord) : ∀ l ∈ lanesOf w m, l < 64 := by
  intro l hl
  simp only [lanesOf, List.mem_filter] at hl
  exact BitVec.lt_of_getLsbD hl.2

theorem wrRun_withRegs (g : Grp) (d : Reg) (ls : List Nat) (f : Nat → Nat → Word) (k : Nat) :
    g.wrRun d ls f k = g.withRegs (g.wrRun d ls f k) := by
  induction k with
  | zero => rfl
  | succ k ih =>
    rw [Grp.wrRun, wr_withRegs]
    generalize Grp.wr (g.wrRun d ls f k) (Reg.plus d k) ls (fun l => f l k) = z
    rw [ih]
    rfl

theorem raise_zero (g : Grp) : g.raise 0 = g := by
  unfold Grp.raise
  simp

theorem wr_eq_wrRun (g : Grp) (d : Reg) (ls : List Nat) (f : Nat → Word) :
    g.wr d ls f = g.wrRun d ls (fun l _ => f l) 1 := by
  simp [Grp.wrRun, Reg.plus]

theorem wr2_eq_wrRun (g : Grp) (d : Reg) (ls : List Nat) (f : Nat → DWord) :
    g.wr2 d ls f = g.wrRun d ls (fun l j => (f l).extractLsb' (32 * j) 32) 2 := by
  simp [Grp.wr2, Grp.wrRun, Reg.plus]

/-- What `Wrote` says depends on registers and flags of quads only. -/
theorem wrote_congr {x : Iss} {g h : Grp} {d : Reg} {k : Nat} {ls : List Nat} {f f' : Nat → Nat → Word}
    (hw : Wrote x g d k ls f) (hv : h.v = g.v) (hs : h.s = g.s) (hf : h.vf = g.vf)
    (hff : ∀ l j, f l j = f' l j) : Wrote x h d k ls f' := by
  have e : ∀ r l, h.rd r l = g.rd r l := fun r l => by unfold Grp.rd; rw [hv, hs]
  obtain ⟨h1, h2, h3⟩ := hw
  refine ⟨fun j hj l hm => by rw [e, h1 j hj l hm, hff], fun r l hl hr => by rw [e, h2 r l hl hr], fun q l hl => ?_⟩
  rw [hf, h3 q l hl]

/-- An instruction whose meaning writes a run of registers and raises flags. -/
theorem setsRun_of {i : Instr} {d : Reg} {k : Nat} {ls : Iss → List Nat} {f f' : Iss → Nat → Nat → Word}
    {fl fl' : Iss → Nat} (hk : k ≤ 128) (hl : ∀ x, ∀ l ∈ ls x, l < 64) (hf : ∀ x l j, f x l j = f' x l j)
    (hfl : ∀ x, fl x = fl' x)
    (h : ∀ s, exec i s
      = issue (Instr.sig i) s (fun x s => .retire s ((x.g.wrRun d (ls x) (f x) k).raise (fl x)))) :
    SetsRun i d k ls f' fl' := by
  intro s x hr
  have he := h s
  rw [issue_runs hr] at he
  have e0 := wrRun_withRegs x.g d (ls x) (f x) k
  have hd : (x.g.wrRun d (ls x) (f x) k).raise (fl x)
      = x.g.withData ((x.g.wrRun d (ls x) (f x) k).raise (fl x)) := by
    conv => lhs; rw [e0]
    have h1 : (x.g.wrRun d (ls x) (f x) k).p = x.g.p := by rw [e0]; rfl
    have h2 : (x.g.wrRun d (ls x) (f x) k).status = x.g.status := by rw [e0]; rfl
    have h3 : (x.g.wrRun d (ls x) (f x) k).stoch = x.g.stoch := by rw [e0]; rfl
    simp only [Grp.raise, Grp.withRegs, Grp.withData, h1, h2, h3]
  refine ⟨_, _, he, after_retireTo s x _ _ hd, ?_, ?_, ?_, ?_⟩
  · exact wrote_congr (wrote_wrRun x d k (ls x) (f x) (hl x) hk) rfl rfl rfl (hf x)
  · change (x.g.wrRun d (ls x) (f x) k).p = _
    rw [e0]; rfl
  · change (x.g.wrRun d (ls x) (f x) k).status ||| _ = _
    rw [e0, hfl]; rfl
  · change (x.g.wrRun d (ls x) (f x) k).stoch = _
    rw [e0]; rfl

/-! The shapes. -/

theorem issueG_raise (i : Instr) (s : State) (f : Iss → Grp) :
    issueG (Instr.sig i) s f = issueG (Instr.sig i) s (fun x => (f x).raise 0) := by simp [raise_zero]

theorem setsFlags_of {i : Instr} {d : Reg} {f f' : Iss → Nat → Word × Nat} (hf : ∀ x l, f x l = f' x l)
    (h : ∀ s, exec i s = issueG (Instr.sig i) s (fun x => x.mapF d (f x))) : SetsFlags i d f' := by
  have : f = f' := by funext x l; exact hf x l
  subst this
  refine setsRun_of (by decide) (fun x => lanesOf_lt _ _) (f := fun x l _ => (f x l).1) (fun _ _ _ => rfl)
    (fl := fun x => x.flags d (fun l => (f x l).2)) (fun _ => rfl) (fun s => ?_)
  rw [h]
  unfold issueG
  simp only [Iss.mapF, wr_eq_wrRun]

theorem sets_of {i : Instr} {d : Reg} {f f' : Iss → Nat → Word} (hf : ∀ x l, f x l = f' x l)
    (h : ∀ s, exec i s = issueG (Instr.sig i) s (fun x => x.g.wr d x.lanes (f x))) : Sets i d f' := by
  refine setsRun_of (by decide) (fun x => lanesOf_lt _ _) (f := fun x l _ => f x l) (fun x l _ => hf x l)
    (fl := fun _ => 0) (fun _ => rfl) (fun s => ?_)
  rw [h]
  unfold issueG
  simp only [raise_zero, wr_eq_wrRun]

theorem setsPair_of {i : Instr} {d : Reg} {f f' : Iss → Nat → DWord} (hf : ∀ x l, f x l = f' x l)
    (h : ∀ s, exec i s = issueG (Instr.sig i) s (fun x => x.g.wr2 d x.lanes (f x))) : SetsPair i d f' := by
  refine setsRun_of (by decide) (fun x => lanesOf_lt _ _) (f := fun x l j => (f x l).extractLsb' (32 * j) 32)
    (fun x l j => by rw [hf]) (fl := fun _ => 0) (fun _ => rfl) (fun s => ?_)
  rw [h]
  unfold issueG
  simp only [raise_zero, wr2_eq_wrRun]

theorem setsPred_of {i : Instr} {k : Nat} {f : Iss → Nat → Bool} {fl : Iss → Nat} {new : Iss → DWord}
    (hf : ∀ x l, l ∈ x.lanes → (new x).getLsbD l = f x l)
    (h : ∀ s, exec i s = issueG (Instr.sig i) s (fun x => (x.g.pw k x.act (new x)).raise (fl x))) :
    SetsPred i k f fl := by
  intro s x hr
  have he := h s
  unfold issueG at he
  rw [issue_runs hr] at he
  refine ⟨_, _, he, after_retireTo s x _ _ rfl, fun l hl => ?_, fun l ha => ?_, fun j hj => ?_, rfl, rfl, rfl, rfl, rfl⟩
  · have ha : x.act.getLsbD l = true := by
      simp only [Iss.lanes, lanesOf, List.mem_filter] at hl
      exact hl.2
    have hl' : l < 64 := lanesOf_lt _ _ l hl
    change (look 0 (store 0 x.g.p k _) k).getLsbD l = _
    rw [look_store_self]
    simp [ha, hf x l hl]
  · change (look 0 (store 0 x.g.p k _) k).getLsbD l = _
    rw [look_store_self]
    simp only [BitVec.getLsbD_or, BitVec.getLsbD_and, BitVec.getLsbD_not, ha, Bool.and_false, Bool.or_false,
      Bool.not_false, Bool.and_true]
    by_cases hl : l < 64
    · simp [hl]
    · simp [hl, BitVec.getLsbD_of_ge _ _ (Nat.le_of_not_lt hl)]
  · exact look_store_ne _ _ _ _ _ hj

end Sys2Proof.Machine
end

