-- ==== Sys2Proof/Laws/Sigs.lean ====
section
/-! SUPPORT. The written-out signatures are those of the instructions. -/
namespace Sys2Proof.Machine

theorem sig_csetb (d : BitVec 4) (a : Reg) (q : BitVec 4) : Instr.sig (.csetb d a q) = sigCsetb d a q := rfl

theorem sig_csetbx (d : BitVec 4) (a : Reg) (q : BitVec 4) : Instr.sig (.csetbx d a q) = sigCsetbx d a q := rfl

theorem sig_candp (d : BitVec 4) (a : Reg) (q : BitVec 4) : Instr.sig (.candp d a q) = sigCandp d a q := rfl

theorem sig_cinc (d : BitVec 4) (a : Reg) (q : BitVec 4) : Instr.sig (.cinc d a q) = sigCinc d a q := rfl

theorem sig_cseta (d : BitVec 4) (a : Reg) (q : BitVec 4) : Instr.sig (.cseta d a q) = sigCseta d a q := rfl

theorem sig_cgetb (d : Reg) (q : BitVec 4) : Instr.sig (.cgetb d q) = sigCgetb d q := rfl

theorem sig_cgetbCur (d : Reg) (q : BitVec 4) : Instr.sig (.cgetbCur d q) = sigCgetbCur d q := rfl

theorem sig_cgetl (d : Reg) (q : BitVec 4) : Instr.sig (.cgetl d q) = sigCgetl d q := rfl

theorem sig_cgetp (d : Reg) (q : BitVec 4) : Instr.sig (.cgetp d q) = sigCgetp d q := rfl

theorem sig_cgeto (d : Reg) (q : BitVec 4) : Instr.sig (.cgeto d q) = sigCgeto d q := rfl

theorem sig_cgett (d : Reg) (q : BitVec 4) : Instr.sig (.cgett d q) = sigCgett d q := rfl

theorem sig_cmov (d : BitVec 4) (q : BitVec 4) : Instr.sig (.cmov d q) = sigCmov d q := rfl

theorem sig_cmovToLanes (d : Reg) (q : BitVec 4) : Instr.sig (.cmovToLanes d q) = sigCmovToLanes d q := rfl

theorem sig_cmovFromLane (d : BitVec 4) (a : Reg) : Instr.sig (.cmovFromLane d a) = sigCmovFromLane d a := rfl

theorem sig_cclr (d : BitVec 4) : Instr.sig (.cclr d) = sigCclr d := rfl

theorem sig_ctstsub (d : Reg) (a : BitVec 4) (q : BitVec 4) : Instr.sig (.ctstsub d a q) = sigCtstsub d a q := rfl

theorem sig_cseal (d : BitVec 4) (a : BitVec 4) (q : BitVec 4) : Instr.sig (.cseal d a q) = sigCseal d a q := rfl

theorem sig_cunseal (d : BitVec 4) (a : BitVec 4) (q : BitVec 4) : Instr.sig (.cunseal d a q) = sigCunseal d a q := rfl

theorem sig_cseale (d : BitVec 4) (q : BitVec 4) : Instr.sig (.cseale d q) = sigCseale d q := rfl

theorem sig_cinvoke (d : BitVec 4) (q : BitVec 4) : Instr.sig (.cinvoke d q) = sigCinvoke d q := rfl

theorem sig_send (d : Reg) (a : Reg) (q : BitVec 4) : Instr.sig (.send d a q) = sigSend d a q := rfl

theorem sig_recv (d : Reg) (q : BitVec 4) : Instr.sig (.recv d q) = sigRecv d q := rfl

theorem sig_callMsg (d : Reg) (a : Reg) (q : BitVec 4) : Instr.sig (.callMsg d a q) = sigCallMsg d a q := rfl

theorem sig_reply (d : Reg) (a : Reg) (q : BitVec 4) : Instr.sig (.reply d a q) = sigReply d a q := rfl

theorem sig_nbsend (d : Reg) (a : Reg) (q : BitVec 4) : Instr.sig (.nbsend d a q) = sigNbsend d a q := rfl

theorem sig_signal (q : BitVec 4) : Instr.sig (.signal q) = sigSignal q := rfl

theorem sig_waitn (d : Reg) (q : BitVec 4) : Instr.sig (.waitn d q) = sigWaitn d q := rfl

theorem sig_spawn (d : Reg) (q : BitVec 4) : Instr.sig (.spawn d q) = sigSpawn d q := rfl

theorem sig_join (a : Reg) (q : BitVec 4) : Instr.sig (.join a q) = sigJoin a q := rfl

theorem sig_svc (d : Reg) (a : Reg) : Instr.sig (.svc d a) = sigSvc d a := rfl

theorem sig_revoke (d : Reg) (q : BitVec 4) : Instr.sig (.revoke d q) = sigRevoke d q := rfl

theorem sig_bra (o : BitVec 20) : Instr.sig (.bra o) = sigBra o := rfl

theorem sig_brp (p : BitVec 3) (o : BitVec 20) : Instr.sig (.brp p o) = sigBrp p o := rfl

theorem sig_brn (p : BitVec 3) (o : BitVec 20) : Instr.sig (.brn p o) = sigBrn p o := rfl

theorem sig_brall (o : BitVec 20) : Instr.sig (.brall o) = sigBrall o := rfl

theorem sig_brany (o : BitVec 20) : Instr.sig (.brany o) = sigBrany o := rfl

theorem sig_brnone (o : BitVec 20) : Instr.sig (.brnone o) = sigBrnone o := rfl

theorem sig_branchCall (o : BitVec 20) : Instr.sig (.branchCall o) = sigBranchCall o := rfl

theorem sig_recMark (imm : BitVec 9) : Instr.sig (.recMark imm) = sigRecMark imm := rfl

theorem sig_path (a : Reg) (imm : BitVec 9) : Instr.sig (.path a imm) = sigPath a imm := rfl

theorem sig_pyield : Instr.sig (.pyield) = sigPyield := rfl

theorem sig_ret (a : Reg) : Instr.sig (.ret a) = sigRet a := rfl

theorem sig_jmpr (a : Reg) : Instr.sig (.jmpr a) = sigJmpr a := rfl

theorem sig_callr (d : Reg) (a : Reg) : Instr.sig (.callr d a) = sigCallr d a := rfl

theorem sig_srd (d : Reg) (b : Reg) : Instr.sig (.srd d b) = sigSrd d b := rfl

theorem sig_swr (a : Reg) (b : Reg) : Instr.sig (.swr a b) = sigSwr a b := rfl

theorem sig_xretRetry : Instr.sig (.xretRetry) = sigXretRetry := rfl

theorem sig_xretSkip : Instr.sig (.xretSkip) = sigXretSkip := rfl

theorem sig_nop : Instr.sig (.nop) = sigNop := rfl

theorem sig_exit : Instr.sig (.exit) = sigExit := rfl

theorem sig_brk (b : Reg) : Instr.sig (.brk b) = sigBrk b := rfl

theorem sig_clock (d : Reg) : Instr.sig (.clock d) = sigClock d := rfl

theorem sig_role (r : BitVec 2) : Instr.sig (.role r) = sigRole r := rfl

theorem sig_sysrd (d : Reg) (a : Reg) : Instr.sig (.sysrd d a) = sigSysrd d a := rfl

theorem sig_syswr (d : Reg) (a : Reg) (b : Reg) : Instr.sig (.syswr d a b) = sigSyswr d a b := rfl

theorem sig_tlbinv (a : Reg) (b : Reg) : Instr.sig (.tlbinv a b) = sigTlbinv a b := rfl

theorem sig_tlbinva (b : Reg) : Instr.sig (.tlbinva b) = sigTlbinva b := rfl

theorem sig_tlbinvaAll : Instr.sig (.tlbinvaAll) = sigTlbinvaAll := rfl

theorem sig_ptwsync : Instr.sig (.ptwsync) = sigPtwsync := rfl

theorem sig_eret (d : Reg) (a : Reg) (q : BitVec 4) : Instr.sig (.eret d a q) = sigEret d a q := rfl

theorem sig_haltctx (d : Reg) (q : BitVec 4) : Instr.sig (.haltctx d q) = sigHaltctx d q := rfl

theorem sig_haltctxSave (d : Reg) (q : BitVec 4) : Instr.sig (.haltctxSave d q) = sigHaltctxSave d q := rfl

theorem sig_resumectx (d : Reg) (a : Reg) (q : BitVec 4) : Instr.sig (.resumectx d a q) = sigResumectx d a q := rfl

theorem sig_stoprd (d : BitVec 4) (q : BitVec 4) : Instr.sig (.stoprd d q) = sigStoprd d q := rfl

theorem sig_qdrain (d : Reg) (q : BitVec 4) : Instr.sig (.qdrain d q) = sigQdrain d q := rfl

theorem sig_objnew (d : BitVec 4) (a : Reg) (q : BitVec 4) : Instr.sig (.objnew d a q) = sigObjnew d a q := rfl

theorem sig_pload (d : Reg) (a : Reg) (q : BitVec 4) : Instr.sig (.pload d a q) = sigPload d a q := rfl

theorem sig_pswap (d : Reg) (a : Reg) : Instr.sig (.pswap d a) = sigPswap d a := rfl

theorem sig_pstat (d : Reg) (a : Reg) (b : Reg) : Instr.sig (.pstat d a b) = sigPstat d a b := rfl

theorem sig_imm (h : BitVec 23) : Instr.sig (.imm h) = sigImm h := rfl

theorem sig_guard (p : BitVec 3) (n : BitVec 1) : Instr.sig (.guard p n) = sigGuard p n := rfl

theorem sig_sched (s : BitVec 4) (y : BitVec 1) (r : BitVec 3) : Instr.sig (.sched s y r) = sigSched s y r := rfl

theorem sig_rmode (rm : BitVec 3) (t : BitVec 2) : Instr.sig (.rmode rm t) = sigRmode rm t := rfl

theorem sig_chainop (a : BitVec 11) (b : BitVec 11) : Instr.sig (.chainop a b) = sigChainop a b := rfl

theorem sig_offhi (h : BitVec 23) : Instr.sig (.offhi h) = sigOffhi h := rfl

theorem sig_matx (k : BitVec 10) (start : BitVec 7) (strm : BitVec 2) : Instr.sig (.matx k start strm) = sigMatx k start strm := rfl

end Sys2Proof.Machine
end

