-- ==== Sys2Proof/Tests/Slice0.lean ====
section
/-! SUPPORT. Tests: words decoded, ill-formed terms refused, single steps with values from the spec's examples, and states
that meet the hypotheses of the statements of Certificates/Slice0/Obligations.lean. -/
namespace Sys2Proof.Tests
open Sys2Proof Sys2Proof.Machine

set_option Elab.async false

/-! Helpers. -/

/-- The issuing path of `i` in `s`, if no check refuses the word, some lane executes, and `h` holds of the two. -/
noncomputable def meets (i : Instr) (s : State) (h : State → Iss → Prop) [∀ s x, Decidable (h s x)] : Bool :=
  match s.issuer (wordOf i) with
  | none => false
  | some x => (refuse s x (Instr.sig i)).isNone && decide (x.act ≠ 0) && !(s.regError x) && decide (h s x)

/-- The hypotheses of a statement about `i` are met together in `s`. -/
def Meets (i : Instr) (s : State) (h : State → Iss → Prop) : Prop := ∃ x, Runs i s x ∧ h s x

theorem meets_of {i : Instr} {s : State} {h : State → Iss → Prop} [∀ s x, Decidable (h s x)] (w : meets i s h = true) :
    Meets i s h := by
  unfold meets at w
  split at w
  · cases w
  · next x e =>
    simp only [Bool.and_eq_true, Bool.not_eq_true', decide_eq_true_eq, Option.isNone_iff_eq_none] at w
    exact ⟨x, ⟨e, w.1.1.1, w.1.1.2, w.1.2⟩, w.2⟩

/-- Every instruction of a list runs in `s`. -/
theorem runs_all {is : List Instr} {s : State} (w : (is.all (fun i => meets i s (fun _ _ => True))) = true) :
    ∀ i ∈ is, Meets i s always := by
  intro i hi
  obtain ⟨x, hx, -⟩ := meets_of (List.all_eq_true.mp w i hi)
  exact ⟨x, hx, trivial⟩

/-- The word of `i` is issued in `s`, refused or not, and `h` holds. -/
noncomputable def issued (i : Instr) (s : State) (h : State → Iss → Prop) [∀ s x, Decidable (h s x)] : Bool :=
  match s.issuer (wordOf i) with
  | none => false
  | some x => decide (h s x)

def Issued (i : Instr) (s : State) (h : State → Iss → Prop) : Prop := ∃ x, s.issuer (wordOf i) = some x ∧ h s x

theorem issued_of {i : Instr} {s : State} {h : State → Iss → Prop} [∀ s x, Decidable (h s x)] (w : issued i s h = true) :
    Issued i s h := by
  unfold issued at w
  split at w
  · cases w
  · next x e => exact ⟨x, e, of_decide_eq_true w⟩

/-- The word of every instruction of a list is issued in `s`. -/
theorem issued_all {is : List Instr} {s : State} (w : (is.all (fun i => issued i s (fun _ _ => True))) = true) :
    ∀ i ∈ is, ∃ x, s.issuer (wordOf i) = some x := by
  intro i hi
  obtain ⟨x, hx, -⟩ := issued_of (List.all_eq_true.mp w i hi)
  exact ⟨x, hx⟩

/-- Is an outcome a next state? -/
def isNext (o : Host.Outcome State Fault Refusal) : Bool :=
  match o with
  | .next _ => true
  | .fault _ => false
  | .refused _ => false

theorem next_of {o : Host.Outcome State Fault Refusal} (w : isNext o = true) : ∃ t, o = .next t := by
  cases o with
  | next t => exact ⟨t, rfl⟩
  | fault f => cases w
  | refused f => cases w

/-- Control core 0 after reset with its thread changed. -/
def core0 (f : Grp → Grp) : State := { State.reset with units := [(81920, f bootThread)] }

/-- A group of 8 lanes on core 0, alone in gang 3 of context 5, with the whole address space in q0. -/
def grp8 : Grp :=
  { width := 8, level := .user, vd := 1, ctx := some 5, aspace := .boot, pcc := bootCap, q := [(0, rootCap)], gang := some 3,
    kern := { entry := 64, text := (0, 4096), width := 8, scratch := 4096, crib := 8192, cribN := 4, handler := some 128 },
    slotA := some { pc := 64, mask := 0xFF } }

def gang3 : Gang := { launch := none, core := 0, units := [some 0], scratch := 4096, cribLen := 8192, cribN := 4 }

def part0 : Part := { row0 := 0, row1 := 1, col0 := 0, col1 := 1 }

/-- That group's turn, with the group and the gang changed. -/
def onGrp (f : Grp → Grp) (k : Gang → Gang) : State :=
  { State.reset with
    agenda := [.issue 0 false], cur := (0, false), units := [(0, f grp8)], gangs := [(3, k gang3)]
    ctxs := [(5, { vd := 1, root := 0x4000 })], vds := [(1, { live := true })], parts := [(0, part0)] }

def grp : State := onGrp id id

/-- A group at level K. -/
def kgrp : State := onGrp (fun g => { g with level := .kernel }) id

/-- A group with a value in s0. -/
def withS0 (a : Nat) : State := onGrp (fun g => { g with s := [(0, BitVec.ofNat 32 a)] }) id

/-- A capability for the whole address space at an address. -/
def capTo (a : Nat) : Cap := rootCap.withCursor a

/-- A tile descriptor of one row of four FP32 elements, of a class, with its storage at an address. -/
def descOf (cls base : Nat) : Nat := 2 ^ 288 + 4 * 2 ^ 256 + 16 * 2 ^ 224 + cls * 2 ^ 216 + (capTo base).bits.toNat

/-- A timeline operand through q0 passes its checks, and `h` holds of its place. -/
def onTl (s : State) (x : Iss) (need : Need) (h : LaneAt → Bool) : Bool :=
  match x.timeline s 0#4 need with
  | .ok at_ => (x.gate s false [at_]).isNone && h at_
  | .error _ => false

/-- An object of VD 1 whose virtual and physical addresses are equal. -/
def objOf (otype pa : Nat) (count : Nat := 0) : Obj := { otype := otype, vd := 1, va := pa, pa := pa, count := count }

/-- A region at 0x4000 through q1, with its context. -/
def regionSt (f : Grp → Grp) (k : Ctx) (m : State → State) : State :=
  m { onGrp (fun g => f { g with level := .kernel, q := [(0, rootCap), (1, objCap 6 0x4000 0 0x0018)] }) id with
    objs := [objOf 6 0x4000], ctxs := [(5, { k with vd := 1, root := 0x4000 })] }

def ctx0 : Ctx := { vd := 1, root := 0x4000 }
def region0 : Obj := objOf 6 0x4000

/-- A launch record with capabilities in some granules, by slot of the record. -/
def recOf (caps : List (Nat × Cap)) : BitVec 6144 := BitVec.ofNat 6144 (caps.foldl (fun n e => n + e.2.bits.toNat * 2 ^ (128 * e.1)) 0)
def tagsOf (caps : List (Nat × Cap)) : BitVec 48 := BitVec.ofNat 48 (caps.foldl (fun n e => n + 2 ^ e.1) 0)

def lau (caps : List (Nat × Cap)) : Launch :=
  { vd := 1, num := 1, ctx := 5, bits := recOf caps, tags := tagsOf caps, kern := grp8.kern, aspace := .boot, region := 0x4000,
    state := .running }

/-- The group in gang 3 of launch 1. -/
def inLaunch (caps : List (Nat × Cap)) (us : List (Option Nat)) (m : State → State) : State :=
  m { onGrp (fun g => { g with launch := some 1 }) (fun k => { k with launch := some 1, units := us }) with launches := [(1, lau caps)] }

/-- Control core 0 with two VDs and a partition. -/
def ctl (f : Grp → Grp) (m : State → State) : State :=
  m { core0 f with vds := [(0, { live := true, root := 0x4000 }), (1, { live := true })], parts := onGrp id id |>.parts }

def saved0 : Saved := ⟨5, 0, gang3, [], [], [], [], [], []⟩


/-! Decoding: every encoded instruction's word, written field by field from the tables of spec/07 to spec/16. -/

/-- The decoder reads each word as its instruction. -/
noncomputable def reads (es : List (Nat × Instr)) : Bool := es.all (fun e => decide (decodeTableWord 32 e.1 = some e.2))

theorem decodes_ialu : reads [
    (0b00000100000_0000100_0001000_0001100, Instr.add 4#7 8#7 12#7),
    (0b00000100001_0000100_0001000_0001100, .sub 4#7 8#7 12#7), (0b00000100010_0000100_0001000_0001100, .minS 4#7 8#7 12#7),
    (0b00000100011_0000100_0001000_0001100, .minN 4#7 8#7 12#7), (0b00000100100_0000100_0001000_0001100, .maxS 4#7 8#7 12#7),
    (0b00000100101_0000100_0001000_0001100, .maxN 4#7 8#7 12#7), (0b00000100110_0000100_0001000_0001100, .and 4#7 8#7 12#7),
    (0b00000100111_0000100_0001000_0001100, .or 4#7 8#7 12#7), (0b00000101000_0000100_0001000_0001100, .xor 4#7 8#7 12#7),
    (0b00000101001_0000100_0001000_0001100, .andn 4#7 8#7 12#7), (0b00000101010_0000100_0001000_0001100, .shl 4#7 8#7 12#7),
    (0b00000101011_0000100_0001000_0001100, .shr 4#7 8#7 12#7), (0b00000101100_0000100_0001000_0001100, .sar 4#7 8#7 12#7),
    (0b00000101101_0000100_0001000_0001100, .rotl 4#7 8#7 12#7), (0b00000101110_0000100_0001000_0001100, .adds 4#7 8#7 12#7),
    (0b00000101111_0000100_0001000_0001100, .subs 4#7 8#7 12#7), (0b00000110000_0000100_0001000_0001100, .absd 4#7 8#7 12#7),
    (0b00000110001_0000100_0001000_0001100, .addW 4#7 8#7 12#7), (0b00000110010_0000100_0001000_0001100, .subW 4#7 8#7 12#7),
    (0b00000110011_0000100_0001000_0001100, .shlW 4#7 8#7 12#7), (0b00000110100_0000100_0001000_0001100, .shrW 4#7 8#7 12#7),
    (0b00000110101_0000100_0001000_0000000, .mov 4#7 8#7)] = true := by decide +kernel
theorem decodes_mul : reads [
    (0b00001000000_0000100_0001000_0001100, Instr.mul 4#7 8#7 12#7),
    (0b00001000001_0000100_0001000_0001100, .mulhS 4#7 8#7 12#7),
    (0b00001000010_0000100_0001000_0001100, .mulhN 4#7 8#7 12#7),
    (0b00001000011_0000100_0001000_0001100, .mulW 4#7 8#7 12#7), (0b00001000100_0000100_0001000_0001100, .mad 4#7 8#7 12#7),
    (0b00001000101_0000100_0001000_0001100, .divS 4#7 8#7 12#7), (0b00001000110_0000100_0001000_0001100, .divN 4#7 8#7 12#7),
    (0b00001000111_0000100_0001000_0001100, .remS 4#7 8#7 12#7),
    (0b00001001000_0000100_0001000_0001100, .remN 4#7 8#7 12#7)] = true := by decide +kernel
theorem decodes_icmp : reads [
    (0b000011000000000_010_0000100_0001000, Instr.eq 2#3 4#7 8#7), (0b000011000010000_010_0000100_0001000, .ne 2#3 4#7 8#7),
    (0b000011000100000_010_0000100_0001000, .ltS 2#3 4#7 8#7), (0b000011000110000_010_0000100_0001000, .leS 2#3 4#7 8#7),
    (0b000011001000000_010_0000100_0001000, .ltN 2#3 4#7 8#7), (0b000011001010000_010_0000100_0001000, .leN 2#3 4#7 8#7),
    (0b000011001100000_010_0000100_0001000, .tst 2#3 4#7 8#7),
    (0b000011001110000_010_0000100_0001000, .tstz 2#3 4#7 8#7)] = true := by decide +kernel
theorem decodes_bit : reads [
    (0b00010000000_0000100_0001000_0000000, Instr.popc 4#7 8#7), (0b00010000001_0000100_0001000_0000000, .clz 4#7 8#7),
    (0b00010000010_0000100_0001000_0000000, .ctz 4#7 8#7), (0b00010000011_0000100_0001000_0000000, .brev 4#7 8#7),
    (0b00010000100_0000100_0001000_0001100, .bfeS 4#7 8#7 12#7), (0b00010000101_0000100_0001000_0001100, .bfeN 4#7 8#7 12#7),
    (0b00010000110_0000100_0001000_0001100, .bfi 4#7 8#7 12#7),
    (0b00010000111_0000100_0001000_0001100, .permb 4#7 8#7 12#7)] = true := by decide +kernel
theorem decodes_pred : reads [
    (0b00010100_010_0000100_0001000_0001100, Instr.sel 2#3 4#7 8#7 12#7),
    (0b000101010000000_010_0000_010_0000_010, .pand 2#3 2#3 2#3),
    (0b000101010010000_010_0000_010_0000_010, .por 2#3 2#3 2#3),
    (0b000101010100000_010_0000_010_0000_010, .pxor 2#3 2#3 2#3),
    (0b000101010110000_010_0000_010_0000_010, .pandn 2#3 2#3 2#3), (0b00010101100_1100100_0000_010_0000000, .p2s 100#7 2#3),
    (0b000101011010000_010_1100100_0000000, .s2p 2#3 100#7)] = true := by decide +kernel
theorem decodes_dsp : reads [
    (0b00011000000_0000100_0001000_0001100, Instr.dmac2Ss 4#7 8#7 12#7),
    (0b00011000001_0000100_0001000_0001100, .dmac2 4#7 8#7 12#7),
    (0b00011000010_0000100_0001000_0001100, .add2S 4#7 8#7 12#7),
    (0b00011000011_0000100_0001000_0001100, .sub2S 4#7 8#7 12#7),
    (0b00011000100_0000100_0001000_0001100, .mul2Q15 4#7 8#7 12#7),
    (0b00011000101_0000100_0001000_0001100, .shrr 4#7 8#7 12#7),
    (0b00011000110_0000100_0001000_0001100, .pack2S 4#7 8#7 12#7),
    (0b00011000111_0000100_0001000_0000000, .unpk2 4#7 8#7)] = true := by decide +kernel
theorem decodes_imm : reads [
    (0b000111000_0000100_0001000_000000101, Instr.addi 4#7 8#7 5#9),
    (0b000111001_0000100_0001000_000000101, .andi 4#7 8#7 5#9), (0b000111010_0000100_0001000_000000101, .ori 4#7 8#7 5#9),
    (0b000111011_0000100_0001000_000000101, .xori 4#7 8#7 5#9), (0b000111100_0000100_0001000_000000101, .shli 4#7 8#7 5#9),
    (0b000111101_0000100_0001000_000000101, .shri 4#7 8#7 5#9), (0b000111110_0000100_0001000_000000101, .sari 4#7 8#7 5#9),
    (0b000111111_0000100_0000000_000000101, .movi 4#7 5#9)] = true := by decide +kernel
theorem decodes_major_08 : reads [
    (0b00100000_010_0000100_0001000_0001100, Instr.fadd 2#3 4#7 8#7 12#7),
    (0b00100001_010_0000100_0001000_0001100, .fsub 2#3 4#7 8#7 12#7),
    (0b00100010_010_0000100_0001000_0001100, .fmul 2#3 4#7 8#7 12#7),
    (0b00100011_010_0000100_0001000_0001100, .fdiv 2#3 4#7 8#7 12#7)] = true := by decide +kernel
theorem decodes_major_09 : reads [
    (0b00100100_010_0000100_0001000_0001100, Instr.fma 2#3 4#7 8#7 12#7),
    (0b00100101_010_0000100_0001000_0001100, .fms 2#3 4#7 8#7 12#7),
    (0b00100110_010_0000100_0001000_0001100, .fnma 2#3 4#7 8#7 12#7)] = true := by decide +kernel
theorem decodes_major_0a : reads [
    (0b00101000_010_0000100_0001000_0001100, Instr.hadd2 2#3 4#7 8#7 12#7),
    (0b00101001_010_0000100_0001000_0001100, .hmul2 2#3 4#7 8#7 12#7),
    (0b00101010_010_0000100_0001000_0001100, .hfma2 2#3 4#7 8#7 12#7)] = true := by decide +kernel
theorem decodes_major_0b : reads [
    (0b00101100_010_0000100_0001000_0001100, Instr.badd2 2#3 4#7 8#7 12#7),
    (0b00101101_010_0000100_0001000_0001100, .bmul2 2#3 4#7 8#7 12#7),
    (0b00101110_010_0000100_0001000_0001100, .bfma2 2#3 4#7 8#7 12#7)] = true := by decide +kernel
theorem decodes_fminmax : reads [
    (0b00110000000_0000100_0001000_0001100, Instr.fmin 4#7 8#7 12#7),
    (0b00110000001_0000100_0001000_0001100, .fmax 4#7 8#7 12#7),
    (0b00110000010_0000100_0001000_0001100, .fminNan 4#7 8#7 12#7),
    (0b00110000011_0000100_0001000_0001100, .fmaxNan 4#7 8#7 12#7), (0b00110000100_0000100_0001000_0000000, .fabs 4#7 8#7),
    (0b00110000101_0000100_0001000_0000000, .fneg 4#7 8#7), (0b00110000110_0000100_0001000_0000000, .fclass 4#7 8#7),
    (0b001100010000000_010_0000100_0001000, .fcmpEq 2#3 4#7 8#7),
    (0b001100010010000_010_0000100_0001000, .fcmpNe 2#3 4#7 8#7),
    (0b001100010100000_010_0000100_0001000, .fcmpLt 2#3 4#7 8#7),
    (0b001100010110000_010_0000100_0001000, .fcmpLe 2#3 4#7 8#7),
    (0b001100011000000_010_0000100_0001000, .fcmpUn 2#3 4#7 8#7),
    (0b00110001101_0000100_0001000_0001100, .hmin2 4#7 8#7 12#7),
    (0b00110001110_0000100_0001000_0001100, .hmax2 4#7 8#7 12#7),
    (0b00110001111_0000100_0001000_0001100, .bmin2 4#7 8#7 12#7),
    (0b00110010000_0000100_0001000_0001100, .bmax2 4#7 8#7 12#7)] = true := by decide +kernel
theorem decodes_sfu : reads [
    (0b00110100000_0000100_0001000_0000000, Instr.rcp 4#7 8#7), (0b00110100001_0000100_0001000_0000000, .rsq 4#7 8#7),
    (0b00110100010_0000100_0001000_0000000, .sqrt 4#7 8#7), (0b00110100011_0000100_0001000_0000000, .exp2 4#7 8#7),
    (0b00110100100_0000100_0001000_0000000, .log2 4#7 8#7), (0b00110100101_0000100_0001000_0000000, .sinpi 4#7 8#7),
    (0b00110100110_0000100_0001000_0000000, .cospi 4#7 8#7), (0b00110100111_0000100_0001000_0000000, .tanh 4#7 8#7),
    (0b00110101000_0000100_0001000_0000000, .sigm 4#7 8#7)] = true := by decide +kernel
theorem decodes_cvt : reads [
    (0b00111000_010_0000100_0001000_010_0011, Instr.cvt 2#3 4#7 8#7 2#3 3#4),
    (0b00111001_010_0000100_0001000_010_0011, .cvtPk 2#3 4#7 8#7 2#3 3#4),
    (0b00111010_010_0000100_0001000_010_0011, .cvtSat 2#3 4#7 8#7 2#3 3#4),
    (0b00111011_010_0000100_0001000_010_0011, .cvtXi 2#3 4#7 8#7 2#3 3#4)] = true := by decide +kernel
theorem decodes_quant : reads [
    (0b00111100000_0000100_1101000_1101100, Instr.cvtq 4#7 104#7 108#7),
    (0b00111100001_0000100_0001000_1101100, .mxscale 4#7 8#7 108#7),
    (0b00111100010_0000100_0001000_0001100, .mxpack 4#7 8#7 12#7)] = true := by decide +kernel
theorem decodes_lane : reads [
    (0b01000000000_0000100_1101000_1101100, Instr.slideup 4#7 104#7 108#7),
    (0b01000000001_0000100_1101000_1101100, .slidedn 4#7 104#7 108#7),
    (0b01000000010_0000100_0001000_0001100, .shuf 4#7 8#7 12#7),
    (0b01000000011_0000100_0001000_0001100, .xshuf 4#7 8#7 12#7),
    (0b01000000100_0000100_1101000_1101100, .bcast 4#7 104#7 108#7),
    (0b01000000101_0000100_1101000_1101100, .rot 4#7 104#7 108#7),
    (0b01000000110_1100100_1101000_1101100, .vtos 100#7 104#7 108#7),
    (0b01000000111_0000100_0001000_0000000, .first 4#7 8#7)] = true := by decide +kernel
theorem decodes_reduce : reads [
    (0b01000100000_0000100_0001000_0000000, Instr.radd 4#7 8#7), (0b01000100001_0000100_0001000_0000000, .rminS 4#7 8#7),
    (0b01000100010_0000100_0001000_0000000, .rmaxS 4#7 8#7), (0b01000100011_0000100_0001000_0000000, .fradd 4#7 8#7),
    (0b01000100100_0000100_0001000_0000000, .frmax 4#7 8#7), (0b01000100101_1100100_0000_010_0000000, .ballot 100#7 2#3),
    (0b010001001100000_010_0000_010_0000000, .anyOf 2#3 2#3), (0b010001001110000_010_0000_010_0000000, .allOf 2#3 2#3),
    (0b01000101000_0000100_0001000_0000000, .pscanEx 4#7 8#7), (0b01000101000_0000100_0001000_0000001, .pscanIn 4#7 8#7),
    (0b01000101001_0000100_0001000_0000000, .matchEq 4#7 8#7)] = true := by decide +kernel
theorem decodes_major_12 : reads [
    (0b01001000_010_0000100_0001000_0001100, Instr.dadd 2#3 4#7 8#7 12#7),
    (0b01001001_010_0000100_0001000_0001100, .dsub 2#3 4#7 8#7 12#7),
    (0b01001010_010_0000100_0001000_0001100, .dmul 2#3 4#7 8#7 12#7),
    (0b01001011_010_0000100_0001000_0001100, .ddiv 2#3 4#7 8#7 12#7)] = true := by decide +kernel
theorem decodes_major_13 : reads [
    (0b01001100_010_0000100_0001000_0001100, Instr.dfma 2#3 4#7 8#7 12#7),
    (0b01001101_010_0000100_0001000_0001100, .dfms 2#3 4#7 8#7 12#7),
    (0b01001110_010_0000100_0001000_0001100, .dfnma 2#3 4#7 8#7 12#7)] = true := by decide +kernel
theorem decodes_chain : reads [
    (0b01010000_010_1100100_1101000_000_0011, Instr.chain 2#3 100#7 104#7 3#4)] = true := by decide +kernel
theorem decodes_load : reads [
    (0b011000000_0000100_0001000_0011_00011, Instr.ldB 4#7 8#7 3#4 3#5),
    (0b011000001_0000100_0001000_0011_00011, .ldSb 4#7 8#7 3#4 3#5),
    (0b011000010_0000100_0001000_0011_00011, .ldH 4#7 8#7 3#4 3#5),
    (0b011000011_0000100_0001000_0011_00011, .ldSh 4#7 8#7 3#4 3#5),
    (0b011000100_0000100_0001000_0011_00011, .ldW 4#7 8#7 3#4 3#5),
    (0b011000101_0000100_0001000_0011_00011, .ldD 4#7 8#7 3#4 3#5),
    (0b011000110_0000100_0001000_0011_00011, .ldQ 4#7 8#7 3#4 3#5)] = true := by decide +kernel
theorem decodes_store : reads [
    (0b011001000_0000100_0001000_0011_00011, Instr.stB 4#7 8#7 3#4 3#5),
    (0b011001010_0000100_0001000_0011_00011, .stH 4#7 8#7 3#4 3#5),
    (0b011001100_0000100_0001000_0011_00011, .stW 4#7 8#7 3#4 3#5),
    (0b011001101_0000100_0001000_0011_00011, .stD 4#7 8#7 3#4 3#5),
    (0b011001110_0000100_0001000_0011_00011, .stQ 4#7 8#7 3#4 3#5)] = true := by decide +kernel
theorem decodes_scratch : reads [
    (0b011010000_0000100_0001000_000000101, Instr.ldsW 4#7 8#7 5#9),
    (0b011010001_0000100_0001000_000000101, .ldsD 4#7 8#7 5#9), (0b011010010_0000100_0001000_000000101, .ldsQ 4#7 8#7 5#9),
    (0b011010011_0000100_0001000_000000101, .ldsH 4#7 8#7 5#9), (0b011010100_0000100_0001000_000000101, .stsW 4#7 8#7 5#9),
    (0b011010101_0000100_0001000_000000101, .stsD 4#7 8#7 5#9), (0b011010110_0000100_0001000_000000101, .stsQ 4#7 8#7 5#9),
    (0b011010111_0000100_0001000_000000101, .stsH 4#7 8#7 5#9)] = true := by decide +kernel
theorem decodes_capmem : reads [
    (0b011011000_0000100_0001000_0011_00011, Instr.ldc 4#7 8#7 3#4 3#5),
    (0b011011001_0000100_0001000_0011_00011, .stc 4#7 8#7 3#4 3#5),
    (0b011011010_0000100_0001000_0000_00011, .ldcL 4#7 8#7 3#5),
    (0b011011011_0000100_0001000_0000_00011, .stcL 4#7 8#7 3#5)] = true := by decide +kernel
theorem decodes_atomic : reads [
    (0b01110000000_0000100_0001000_010_0011, Instr.aadd 4#7 8#7 2#3 3#4),
    (0b01110000001_0000100_0001000_010_0011, .aminS 4#7 8#7 2#3 3#4),
    (0b01110000010_0000100_0001000_010_0011, .amaxS 4#7 8#7 2#3 3#4),
    (0b01110000011_0000100_0001000_010_0011, .aminN 4#7 8#7 2#3 3#4),
    (0b01110000100_0000100_0001000_010_0011, .amaxN 4#7 8#7 2#3 3#4),
    (0b01110000101_0000100_0001000_010_0011, .aand 4#7 8#7 2#3 3#4),
    (0b01110000110_0000100_0001000_010_0011, .aor 4#7 8#7 2#3 3#4),
    (0b01110000111_0000100_0001000_010_0011, .axor 4#7 8#7 2#3 3#4),
    (0b01110001000_0000100_0001000_010_0011, .axchg 4#7 8#7 2#3 3#4),
    (0b01110001001_0000100_0001000_010_0011, .acas 4#7 8#7 2#3 3#4),
    (0b01110001010_0000100_0001000_010_0011, .afadd 4#7 8#7 2#3 3#4),
    (0b01110001011_0000100_0001000_010_0011, .abfadd2 4#7 8#7 2#3 3#4),
    (0b01110001100_0000100_0001000_010_0011, .axchgW 4#7 8#7 2#3 3#4),
    (0b01110001101_0000100_0001000_010_0011, .acasW 4#7 8#7 2#3 3#4),
    (0b01110010000_0000100_0001000_010_0011, .rdadd 4#7 8#7 2#3 3#4),
    (0b01110010001_0000100_0001000_010_0011, .rdmin 4#7 8#7 2#3 3#4),
    (0b01110010010_0000100_0001000_010_0011, .rdmax 4#7 8#7 2#3 3#4),
    (0b01110010011_0000100_0001000_010_0011, .rdfadd 4#7 8#7 2#3 3#4),
    (0b01110010100_0000100_0001000_010_0011, .rdbfadd2 4#7 8#7 2#3 3#4),
    (0b011100101010000000_0000100_010_0011, .rdinc 4#7 2#3 3#4)] = true := by decide +kernel
theorem decodes_txn : reads [
    (0b01110100000000000000000000000000, Instr.tbeg), (0b01110100001_0000100_00000000000000, .tend 4#7),
    (0b01110100010000000000000000000000, .tabt),
    (0b01110100011_0000100_00000000000000, .ttest 4#7)] = true := by decide +kernel
theorem decodes_sync : reads [
    (0b0111100000000000000000000_010_00_01, Instr.fence 2#3 1#2), (0b01111000001000000000000000000000, .barG),
    (0b01111000010000000000000000000000, .barL), (0b01111000010000000000000000000001, .barLYield),
    (0b011110000110000000_1100100_000000_0, .waitph 100#7 0#1), (0b011110001000000000_1100100_000_0011, .tlwait 100#7 3#4),
    (0b011110001000000000_1100100_001_0011, .tlwaitW 100#7 3#4), (0b011110001010000000_0000100_0001000, .waita 4#7 8#7),
    (0b01111000101001_0011_0000100_0001000, .waitaGlobal 3#4 4#7 8#7), (0b01111000110_1100100_00000000000000, .mfence 100#7),
    (0b011110001110000000_1100100_0000000, .mwait 100#7), (0b01111001000000000000000000000000, .learly),
    (0b01111001001000000000000000000000, .lwaitp), (0b01111001010000000000000000000000, .yield),
    (0b01111001011_1100100_0000000000_0011, .tlread 100#7 3#4)] = true := by decide +kernel
theorem decodes_engine : reads [
    (0b01111100000_1100100_1101000_000_0011, Instr.copy 100#7 104#7 3#4),
    (0b01111100001_1100100_1101000_000_0011, .copyg 100#7 104#7 3#4),
    (0b01111100010_1100100_1101000_000_0011, .copys 100#7 104#7 3#4),
    (0b01111100011_1100100_1101000_000_0011, .tilest 100#7 104#7 3#4),
    (0b01111100100_1100100_1101000_000_0011, .tileld 100#7 104#7 3#4),
    (0b01111100101_1100100_1101000_000_0011, .regroup 100#7 104#7 3#4),
    (0b01111100110_1100100_1101000_000_0011, .loftld 100#7 104#7 3#4),
    (0b01111100111_1100100_1101000_000_0011, .loftev 100#7 104#7 3#4),
    (0b01111101000_1100100_1101000_000_0011, .coll 100#7 104#7 3#4)] = true := by decide +kernel
theorem decodes_mma : reads [
    (0b100000000_00011_00011_1100100_00000_0, Instr.mma 3#5 3#5 100#7 0#1),
    (0b100000001_00011_00011_1100100_00000_0, .mmaZ 3#5 3#5 100#7 0#1),
    (0b100000010_00011_00011_1100100_00000_0, .mmaT 3#5 3#5 100#7 0#1),
    (0b100000011_00011_00011_1100100_00000_0, .mmas 3#5 3#5 100#7 0#1),
    (0b100000100_00011_00011_0000100_00000_0, .mmax 3#5 3#5 4#7 0#1)] = true := by decide +kernel
theorem decodes_crib : reads [
    (0b1000010000000_00011_1100100_0000000, Instr.cres 3#5 100#7), (0b1000010000100_00011_00000000000000, .crel 3#5),
    (0b10000100010_1100100_1101000_000_0011, .cld 100#7 104#7 3#4),
    (0b10000100011_1100100_1101000_000_0011, .cst 100#7 104#7 3#4), (0b1000010010000_00011_00000000000000, .czero 3#5),
    (0b100001001010000000_1100100_0000000, .mrow 100#7),
    (0b100001001100000000_1100100_0000000, .mcol 100#7)] = true := by decide +kernel
theorem decodes_drain : reads [
    (0b10001000000_1100100_1101000_000_0011, Instr.drain 100#7 104#7 3#4),
    (0b10001000001_0000100_0001000_0000000, .sieveRd 4#7 8#7), (0b10001000010000000000000000000000, .sieveClr),
    (0b100010000110000000_1100100_000_0011, .sieveCfg 100#7 3#4)] = true := by decide +kernel
theorem decodes_loft : reads [
    (0b100011000000000000_1100100_1101000, Instr.lhset 100#7 104#7), (0b100011000000000001_1100100_0000000, .lhsetRel 100#7),
    (0b100011000010000000_1100100_1101000, .lhget 100#7 104#7), (0b100011000100000000_1100100_0000000, .lhpin 100#7),
    (0b100011000110000000_1100100_0000000, .lhunpin 100#7)] = true := by decide +kernel
theorem decodes_regrow : reads [
    (0b10010000000_1100100_0000000000_0011, Instr.tdesc 100#7 3#4),
    (0b10010000000_1100100_0000000001_0011, .tdescRel 100#7 3#4),
    (0b10010000001_1100100_000_0011_000_0011, .recipe 100#7 3#4 3#4),
    (0b10010000010_1100100_0000000000_0011, .tpin 100#7 3#4), (0b10010000011_1100100_0000000000_0011, .tunpin 100#7 3#4),
    (0b10010000100_1100100_0000000000_0011, .tprobe 100#7 3#4), (0b10010000101_1100100_0000000000_0011, .tdrop 100#7 3#4),
    (0b10010000110000000000000000000000, .regrown)] = true := by decide +kernel
theorem decodes_cap : reads [
    (0b10100000000000_0011_1100100_000_0011, Instr.csetb 3#4 100#7 3#4),
    (0b10100000001000_0011_1100100_000_0011, .csetbx 3#4 100#7 3#4),
    (0b10100000010000_0011_1100100_000_0011, .candp 3#4 100#7 3#4),
    (0b10100000011000_0011_1100100_000_0011, .cinc 3#4 100#7 3#4),
    (0b10100000100000_0011_1100100_000_0011, .cseta 3#4 100#7 3#4),
    (0b10100000101_1100100_0000000000_0011, .cgetb 100#7 3#4), (0b10100000101_1100100_0000000001_0011, .cgetbCur 100#7 3#4),
    (0b10100000110_1100100_0000000000_0011, .cgetl 100#7 3#4), (0b10100000111_1100100_0000000000_0011, .cgetp 100#7 3#4),
    (0b10100001000_1100100_0000000000_0011, .cgeto 100#7 3#4), (0b10100001001_1100100_0000000000_0011, .cgett 100#7 3#4),
    (0b10100001010000_0011_0000000000_0011, .cmov 3#4 3#4), (0b10100001010_0000100_0000000001_0011, .cmovToLanes 4#7 3#4),
    (0b10100001010000_0011_0000100_0100000, .cmovFromLane 3#4 4#7), (0b10100001011000_0011_00000000000000, .cclr 3#4),
    (0b10100001100_1100100_000_0011_000_0011, .ctstsub 100#7 3#4 3#4)] = true := by decide +kernel
theorem decodes_seal : reads [
    (0b10100100000000_0011_000_0011_000_0011, Instr.cseal 3#4 3#4 3#4),
    (0b10100100001000_0011_000_0011_000_0011, .cunseal 3#4 3#4 3#4),
    (0b10100100010000_0011_0000000000_0011, .cseale 3#4 3#4),
    (0b10100100011000_0011_0000000000_0011, .cinvoke 3#4 3#4)] = true := by decide +kernel
theorem decodes_msg : reads [
    (0b10101000000_1100100_1101000_000_0011, Instr.send 100#7 104#7 3#4),
    (0b10101000001_1100100_0000000000_0011, .recv 100#7 3#4),
    (0b10101000010_1100100_1101000_000_0011, .callMsg 100#7 104#7 3#4),
    (0b10101000011_1100100_1101000_000_0011, .reply 100#7 104#7 3#4),
    (0b10101000100_1100100_1101000_000_0011, .nbsend 100#7 104#7 3#4), (0b1010100010100000000000000000_0011, .signal 3#4),
    (0b10101000110_1100100_0000000000_0011, .waitn 100#7 3#4)] = true := by decide +kernel
theorem decodes_kcall : reads [
    (0b10101100000_1100100_0000000000_0011, Instr.spawn 100#7 3#4), (0b101011000010000000_1100100_000_0011, .join 100#7 3#4),
    (0b10101100010_0000100_0001000_0000000, .svc 4#7 8#7),
    (0b10101100011_1100100_0000000000_0011, .revoke 100#7 3#4)] = true := by decide +kernel
theorem decodes_branch : reads [
    (0b110000000000_00000000000000001001, Instr.bra 9#20), (0b110000001_010_00000000000000001001, .brp 2#3 9#20),
    (0b110000010_010_00000000000000001001, .brn 2#3 9#20), (0b110000011000_00000000000000001001, .brall 9#20),
    (0b110000100000_00000000000000001001, .brany 9#20), (0b110000101000_00000000000000001001, .brnone 9#20),
    (0b110000110000_00000000000000001001, .branchCall 9#20)] = true := by decide +kernel
theorem decodes_path : reads [
    (0b11000100000000000000000_000000101, Instr.recMark 5#9), (0b1100010010000000_0000100_000000101, .path 4#7 5#9),
    (0b11000101000000000000000000000000, .pyield)] = true := by decide +kernel
theorem decodes_jump : reads [
    (0b110010000000000000_0000100_0000000, Instr.ret 4#7), (0b110010000010000000_0000100_0000000, .jmpr 4#7),
    (0b11001000010_0000100_0001000_0000000, .callr 4#7 8#7)] = true := by decide +kernel
theorem decodes_special : reads [
    (0b11001100000_0000100_0000000_0001000, Instr.srd 4#7 8#7), (0b110011000010000000_1100100_0001000, .swr 100#7 8#7),
    (0b11001100010000000000000000000000, .xretRetry), (0b11001100010000000000000000000001, .xretSkip),
    (0b11001100011000000000000000000000, .nop), (0b11001100100000000000000000000000, .exit),
    (0b1100110010100000000000000_0000100, .brk 4#7), (0b11001100110_1100100_00000000000000, .clock 100#7),
    (0b110011001110000000000000000000_01, .role 1#2)] = true := by decide +kernel
theorem decodes_sysreg : reads [
    (0b11100000000_1100100_1101000_0000000, Instr.sysrd 100#7 104#7),
    (0b11100000001_1100100_1101000_1101100, .syswr 100#7 104#7 108#7)] = true := by decide +kernel
theorem decodes_xlt : reads [
    (0b111001000000000000_1100100_1101000, Instr.tlbinv 100#7 104#7), (0b1110010000100000000000000_1100100, .tlbinva 100#7),
    (0b11100100001000000100000000000000, .tlbinvaAll),
    (0b11100100010000000000000000000000, .ptwsync)] = true := by decide +kernel
theorem decodes_context : reads [
    (0b11101000000_1100100_1101000_000_0011, Instr.eret 100#7 104#7 3#4),
    (0b11101000001_1100100_0000000000_0011, .haltctx 100#7 3#4),
    (0b11101000001_1100100_0000000001_0011, .haltctxSave 100#7 3#4),
    (0b11101000010_1100100_1101000_000_0011, .resumectx 100#7 104#7 3#4),
    (0b11101000011000_0011_0000000000_0011, .stoprd 3#4 3#4), (0b11101000100_1100100_0000000000_0011, .qdrain 100#7 3#4),
    (0b11101000101000_0011_1100100_000_0011, .objnew 3#4 100#7 3#4)] = true := by decide +kernel
theorem decodes_policy : reads [
    (0b11101100000_1100100_1101000_000_0011, Instr.pload 100#7 104#7 3#4),
    (0b11101100001_1100100_1101000_0000000, .pswap 100#7 104#7),
    (0b11101100010_1100000_1100001_0000100, .pstat 96#7 97#7 4#7)] = true := by decide +kernel
theorem decodes_hint : reads [
    (0b111111000_00000000000000000001001, Instr.imm 9#23), (0b111111001_010_0_0000000000000000000, .guard 2#3 0#1),
    (0b111111010_0011_0_010_000000000000000, .sched 3#4 0#1 2#3), (0b111111011_010_01_000000000000000000, .rmode 2#3 1#2),
    (0b111111101_00000000000000000001001, .offhi 9#23),
    (0b1111111000_00001010000_00110000000, .chainop 0b00001010000#11 0b00110000000#11),
    (0b111111110_0000001000_0000011_01_0000, .matx 8#10 3#7 1#2)] = true := by decide +kernel

/-- Words that the spec's examples write out (spec/07, 08, 09, 12, 16, 19). -/
theorem decodes_examples : reads [(0x1E010002, Instr.shli 1#7 0#7 2#9), (0x62020220, .ldW 2#7 1#7 1#4 0#5), (0xFE800020, .offhi 32#23),
    (0x2400C164, .fma 0#3 3#7 2#7 100#7), (0xFC1FC000, .imm 0x1FC000#23), (0x1FE60000, .movi 102#7 0#9), (0xCC800000, .exit),
    (0xFCA00000, .guard 2#3 0#1), (0xC0000002, .bra 2#20), (0x1C67CE01, .addi 103#7 103#7 1#9), (0xCC400001, .xretSkip),
    (0x39004405, .cvtPk 0#3 1#7 8#7 0#3 5#4), (0x390200A0, .cvtPk 0#3 8#7 1#7 2#3 0#4), (0x90190002, .tdesc 100#7 2#4),
    (0x90190012, .tdescRel 100#7 2#4), (0x90398104, .recipe 102#7 2#4 4#4), (0x90594003, .tpin 101#7 3#4),
    (0xE8390016, .haltctxSave 100#7 6#4), (0xE8593286, .resumectx 100#7 101#7 6#4)] = true := by decide +kernel

/-- A word of an unlisted major, an unlisted function code, or with a reserved bit set is refused (R169). -/
theorem decode_refuses : [0x00000000, 0xB0000000, 0x07E00000, 0x06A10081, 0xCC600001].all (fun w => (decodeTableWord 32 w).isNone) = true := by
  decide +kernel

/-! Fields that a check refuses, one for each check of Instr.wellFormed. -/

theorem ill_formed : [Instr.mov 96#7 1#7, .add 96#7 97#7 1#7, .addW 1#7 2#7 4#7, .addW 2#7 4#7 5#7, .shlW 2#7 5#7 1#7, .unpk2 3#7 1#7,
    .eq 7#3 0#7 0#7, .sel 0#3 96#7 0#7 0#7, .pand 7#3 0#3 0#3, .anyOf 7#3 0#3, .p2s 97#7 0#3, .p2s 2#7 0#3, .s2p 0#3 2#7,
    .s2p 7#3 96#7, .addi 96#7 0#7 0#9, .fadd 6#3 0#7 0#7 0#7, .fadd 0#3 96#7 0#7 0#7, .cvt 7#3 0#7 0#7 0#3 0#4,
    .cvt 0#3 0#7 0#7 0#3 13#4, .cvtPk 0#3 9#7 1#7 2#3 0#4, .cvtXi 0#3 8#7 1#7 5#3 0#4, .cvtq 0#7 0#7 126#7, .cvtq 0#7 0#7 5#7,
    .mxscale 0#7 0#7 1#7, .slideup 0#7 0#7 1#7, .shuf 96#7 0#7 0#7, .vtos 1#7 0#7 96#7, .pscanEx 0#7 96#7, .matchEq 1#7 0#7,
    .dadd 0#3 1#7 2#7 4#7, .chain 0#3 97#7 96#7 0#4, .ldB 96#7 1#7 0#4 0#5, .ldD 1#7 2#7 0#4 0#5, .ldQ 2#7 2#7 0#4 0#5,
    .stD 1#7 2#7 0#4 0#5, .stQ 2#7 2#7 0#4 0#5, .ldsQ 2#7 0#7 0#9, .stsQ 2#7 0#7 0#9, .ldc 1#7 0#7 0#4 0#5, .stc 112#7 96#7 0#4 0#5,
    .stc 96#7 0#7 0#4 0#5, .ldcL 2#7 0#7 0#5, .aadd 0#7 0#7 5#3 0#4, .acas 1#7 0#7 0#3 0#4, .acasW 2#7 0#7 0#3 0#4,
    .rdadd 0#7 0#7 1#3 0#4, .rdinc 0#7 3#3 0#4, .tend 96#7, .fence 0#3 0#2, .fence 5#3 0#2, .waitph 1#7 0#1, .tlwaitW 97#7 0#4,
    .mfence 1#7, .tlread 97#7 0#4, .copy 1#7 96#7 0#4, .mma 0#5 0#5 1#7 0#1, .mmax 0#5 0#5 96#7 0#1, .cres 0#5 97#7, .mcol 98#7,
    .sieveRd 96#7 0#7, .lhset 96#7 0#7, .tdesc 1#7 0#4, .csetb 0#4 97#7 0#4, .candp 0#4 1#7 0#4, .cmovToLanes 1#7 0#4,
    .cmovFromLane 0#4 2#7, .svc 4#7 4#7, .ret 1#7, .callr 2#7 1#7, .srd 0#7 13#7, .srd 96#7 12#7, .srd 96#7 0#7, .swr 1#7 6#7,
    .swr 96#7 0#7, .role 3#2, .sysrd 97#7 96#7, .syswr 96#7 96#7 97#7, .tlbinv 97#7 96#7, .tlbinva 1#7, .eret 96#7 97#7 0#4,
    .pstat 96#7 96#7 5#7, .rmode 7#3 0#2, .rmode 0#3 3#2, .chainop 0#11 0#11, .chainop 0b00001010001#11 0#11,
    .chainop 0b11110000000#11 0#11, .chainop 0b00110001000#11 0#11, .matx 0#10 0#7 3#2].all (fun i => !i.wellFormed) = true := by
  decide +kernel

/-! Steps: what one word does, the expected values from the examples and tables of the spec. -/

/-- A state with a word where the group fetches, and its turn. -/
def placed (s : State) (w : Nat) : State := { s.wkeys ((List.range 4).map (64 + ·)) (leBytes w 4) with agenda := [.issue 0 false] }

/-- What a function reads of the state, and of the group, after the step that runs a word. -/
noncomputable def out {α : Type} (s : State) (w : Nat) (f : State → Grp → α) : Option α :=
  match step (placed s w) with
  | .next t => (find t.units 0).map (f t)
  | .fault _ => none
  | .refused _ => none

/-- The group with v, s registers and pending hints. -/
def with_ (v s : Sparse Word) (hints : List Word := []) : State :=
  onGrp (fun g => { g with v := v, s := s, q := [(0, rootCap), (1, capTo 0)], slotA := some { pc := 64, mask := 0xFF, hints := hints } }) id

/-- spec/07, example 1: byte offsets 4l; a fused multiply-add; an immediate of a hint and nine bits; a store at 4,096. -/
theorem test_shli : out (with_ ((List.range 8).map (fun l => (l, BitVec.ofNat 32 l))) []) 0x1E010002
    (fun _ g => (g.rd 1#7 0, g.rd 1#7 3, g.rd 1#7 7)) = some (0, 12, 28) := by decide +kernel
theorem test_fma : out (with_ [(130, 0x3F800000), (194, 0x3F000000)] [(4, 0x40000000)]) 0x2400C164
    (fun _ g => (g.rd 3#7 2, g.status)) = some (0x40200000, 0) := by decide +kernel
theorem test_movi_hint : out (with_ [] [] [0xFC1FC000]) 0x1FE60000
    (fun _ g => (g.rd 102#7 0, g.slotA.map (fun p => (p.pc, p.hints)))) = some (0x3F800000, some (68, [])) := by decide +kernel
theorem test_store_hint : out (with_ [(64, 0x100), (65, 0x104), (193, 7)] [] [0xFE800020]) 0x66030220
    (fun t _ => (t.rn 0x1104 4, t.rn 0x104 4)) = some (7, 0) := by decide +kernel

/-- spec/07, example 2: a GUARD before a branch traps, with the values the handler reads. -/
theorem test_hint_trap : out (with_ [] [] [0xFCA00000]) 0xC0000002 (fun _ g => (g.x.cause, g.x.word, g.x.pc, g.slotA.map (·.pc)))
    = some (1, 0xC0000002, 64, some 128) := by decide +kernel

/-- spec/08, example 1: lanes 0 and 1 of DMAC2.SS and of SHRR. -/
theorem test_dmac2 : out (with_ [(64, 0x7FFF7FFF), (128, 0x7FFF7FFF), (192, 0x01000000), (65, 0xF83003E8), (129, 0x00050003)] [])
    0x1800C082 (fun _ g => (g.rd 3#7 0, g.rd 3#7 1, g.status)) = some (0x7FFFFFFF, 0xFFFFE4A8, 0x20) := by decide +kernel
theorem test_shrr : out (with_ [(192, 0x7FFFFFFF), (193, 0xFFFFE4A8)] [(5, 4)]) 0x18A101E5
    (fun _ g => (g.rd 4#7 0, g.rd 4#7 1, g.status)) = some (0x7FFF, 0xFFFFFE4A, 0x20) := by decide +kernel

/-- spec/09, example 5: the four I8 elements of v1 as FP32. -/
theorem test_cvt_xi : out (with_ [(64, 0x80FF7F01)] []) 0x3B0200A0
    (fun _ g => (g.rd 8#7 0, g.rd 9#7 0, g.rd 10#7 0, g.rd 11#7 0)) = some (0x3F800000, 0x42FE0000, 0xBF800000, 0xC3000000) := by
  decide +kernel

/-- spec/04, example 1: 500.0 to E4M3, where it overflows. -/
theorem test_cvt_e4m3 : out (with_ [(64, 0x43FA0000)] []) 0x38020083 (fun _ g => (g.rd 8#7 0, g.status)) = some (0x7F, 0x14) := by
  decide +kernel

/-- spec/09, example 2, with the first lanes alone. -/
def quant : Sparse Word := [(64, 0x40A00000), (65, 0xBFA00000), (66, 0x3E99999A), (67, 0x41400000), (68, 0x41600000)]
theorem test_mxscale : out (with_ quant [(5, 0x10)]) 0x3C2080E5 (fun _ g => (g.rd 2#7 0, g.rd 2#7 7, g.status)) = some (0x80, 0x80, 0) := by
  decide +kernel
theorem test_mxpack : out (with_ (quant ++ (List.range 8).map (fun l => (128 + l, 0x80))) []) 0x3C40C082
    (fun _ g => ((List.range 5).map (g.rd 3#7), g.status)) = some ([4, 9, 0, 7, 7], 0x1C) := by decide +kernel

/-- spec/09, example 3, on lanes 0 to 7: lanes below the distance keep their value. -/
theorem test_slideup : out (with_ ((List.range 8).flatMap (fun l => [(64 + l, BitVec.ofNat 32 (10 * l)), (128 + l, 0xFFFFFFFF)])) [(5, 3)])
    0x400080E5 (fun _ g => (g.rd 2#7 2, g.rd 2#7 3, g.rd 2#7 7)) = some (0xFFFFFFFF, 0, 40) := by decide +kernel

/-- spec/03, example 2: CSETB q3, s4:s5, q2 and CSETBX with the cursor at 0x10003 and a length of 100,000. -/
def setsQ2 : State := onGrp (fun g => { g with s := [(4, 100000)], q := [(2, capTo 0x10003)] }) id
theorem test_csetb : out setsQ2 0b10100000000000_0011_1100100_000_0010
    (fun _ g => let c := g.qr 3; (c.tag, c.base, c.top, c.cursor, fld c.bits.toNat 0 15, fld c.bits.toNat 15 15))
    = some (true, 0x10000, 0x286A4, 0x10003, 0x61A9, 0x4000) := by decide +kernel
theorem test_csetbx : out setsQ2 0b10100000001000_0011_1100100_000_0010 (fun _ g => (g.qr 3).tag) = some false := by decide +kernel

/-- spec/05, example 1: three lanes add 1 to one word that holds 10. -/
theorem test_aadd : out (onGrp (fun g => { g with slotA := some { pc := 64, mask := 0b100110 } }) (·) |>.wn 0x2000 4 10 |> fun s =>
      { s with units := s.units.map (fun e => (e.1, { e.2 with v := (List.range 8).flatMap (fun l => [(128 + l, 0x2000), (192 + l, 1)]) })) })
    0b01110000000_0000011_0000010_000_0000
    (fun t g => (g.rd 3#7 1, g.rd 3#7 2, g.rd 3#7 5, t.rn 0x2000 4)) = some (10, 11, 12, 13) := by decide +kernel

/-- R195: division by zero and its remainder; R193: an addition wraps. -/
theorem test_add_wraps : out (with_ [(64, 0xFFFFFFFF), (128, 2)] []) 0b00000100000_0000011_0000001_0000010 (fun _ g => g.rd 3#7 0)
    = some 1 := by decide +kernel

/-- spec/04, example 3: the order of a chunk's sums. -/
theorem test_chunk_tree : chunkTree ([0x4B800000, 0x3F800000, 0x3F800000, 0xCB800000] ++ List.replicate 12 0) = 0x3F800000 := by
  decide +kernel

/-- FIPS 180-4: the digest of the three bytes of abc, byte 0 the least significant (notes/assumptions/46.md). -/
theorem test_sha384 : (leBytes (sha384 [0x61, 0x62, 0x63]).toNat 48).take 8 = [0xCB, 0x00, 0x75, 0x3F, 0x45, 0xA3, 0x5E, 0x8B] := by
  decide +kernel

/-- R169: a word of an unlisted major enters the handler; NOP from reset advances the control core's pc by 4. -/
theorem test_illegal : out (with_ [] []) 0 (fun _ g => (g.x.cause, g.slotA.map (·.pc))) = some (0, some 128) := by decide +kernel
theorem test_reset_nop : (match step (State.reset.withFetchWord 32 0xCC600000) with
    | .next t => (find t.units 81920).bind (fun g => g.slotA.map (fun p => p.pc == bootThread.slotA.elim 0 (·.pc) + 4))
    | .fault _ => none
    | .refused _ => none) = some true := by decide +kernel

/-! Witnesses: states and operands that meet the hypotheses of the statements of Certificates/Slice0/Obligations.lean. -/

/-- IntegerResults, MultiplyAndDivide, BitOperations, PackedIntegers. -/
theorem witness_integer : ∀ i ∈ [Instr.add 1#7 2#7 3#7, .sub 1#7 1#7 96#7, .minS 95#7 2#7 3#7, .minN 127#7 126#7 96#7,
    .maxS 1#7 2#7 3#7, .maxN 1#7 2#7 3#7, .and 1#7 2#7 3#7, .or 1#7 2#7 3#7, .xor 1#7 2#7 3#7, .andn 1#7 2#7 3#7,
    .shl 1#7 2#7 3#7, .shr 1#7 2#7 3#7, .sar 1#7 2#7 3#7, .rotl 1#7 2#7 3#7, .absd 1#7 2#7 3#7, .mov 1#7 2#7,
    .adds 1#7 2#7 3#7, .subs 1#7 2#7 3#7, .addW 2#7 4#7 6#7, .subW 2#7 4#7 6#7, .shlW 2#7 4#7 7#7, .shrW 2#7 4#7 7#7,
    .addi 1#7 2#7 5#9, .andi 1#7 2#7 5#9, .ori 1#7 2#7 5#9, .xori 1#7 2#7 5#9, .shli 1#7 2#7 31#9, .shri 1#7 2#7 0#9,
    .sari 1#7 2#7 31#9, .movi 1#7 511#9, .mul 1#7 2#7 3#7, .mulhS 1#7 2#7 3#7, .mulhN 1#7 2#7 3#7, .mulW 2#7 4#7 6#7,
    .mad 1#7 2#7 3#7, .divS 1#7 2#7 3#7, .divN 1#7 2#7 3#7, .remS 1#7 2#7 3#7, .remN 1#7 2#7 3#7, .popc 1#7 2#7,
    .clz 1#7 2#7, .ctz 1#7 2#7, .brev 1#7 2#7, .bfeS 1#7 2#7 3#7, .bfeN 1#7 2#7 3#7, .bfi 1#7 2#7 3#7, .permb 1#7 2#7 3#7,
    .dmac2Ss 1#7 2#7 3#7, .dmac2 1#7 2#7 3#7, .add2S 1#7 2#7 3#7, .sub2S 1#7 2#7 3#7, .mul2Q15 1#7 2#7 3#7,
    .shrr 1#7 2#7 3#7, .pack2S 1#7 2#7 3#7, .unpk2 2#7 1#7], Meets i grp always := runs_all (by decide +kernel)

/-- IntegerResults: a shift by 32, the first immediate that is illegal. -/
theorem witness_shift : ∀ i ∈ [Instr.shli 1#7 2#7 32#9, .shri 1#7 2#7 32#9, .sari 1#7 2#7 32#9],
    Issued i grp (fun _ x => 32 ≤ (immOf x.p.hints 32#9).toNat) := by
  intro i hi
  simp only [List.mem_cons, List.not_mem_nil, or_false] at hi
  rcases hi with rfl | rfl | rfl <;> exact issued_of (by decide +kernel)

/-- PredicateOperations, FloatArithmetic, FloatSelects, SpecialFunctions, Conversions, LaneOperations. -/
theorem witness_vector : ∀ i ∈ [Instr.sel 7#3 1#7 2#7 3#7, .pand 0#3 7#3 1#3, .por 6#3 2#3 1#3, .pxor 0#3 2#3 1#3,
    .pandn 0#3 2#3 1#3, .p2s 96#7 7#3, .s2p 6#3 126#7, .eq 0#3 2#7 3#7, .ne 6#3 2#7 3#7, .ltS 0#3 2#7 96#7, .leS 0#3 2#7 3#7,
    .ltN 0#3 96#7 97#7, .leN 0#3 2#7 3#7, .tst 0#3 2#7 3#7, .tstz 0#3 2#7 3#7,
    .fadd 0#3 1#7 2#7 3#7, .fsub 1#3 1#7 2#7 3#7, .fmul 2#3 1#7 2#7 3#7, .fdiv 3#3 1#7 2#7 3#7, .fma 4#3 1#7 2#7 3#7,
    .fms 5#3 1#7 2#7 3#7, .fnma 0#3 1#7 2#7 3#7, .hadd2 0#3 1#7 2#7 3#7, .hmul2 0#3 1#7 2#7 3#7, .hfma2 0#3 1#7 2#7 3#7,
    .badd2 0#3 1#7 2#7 3#7, .bmul2 0#3 1#7 2#7 3#7, .bfma2 0#3 1#7 2#7 3#7, .fmin 1#7 2#7 3#7, .fmax 1#7 2#7 3#7,
    .fminNan 1#7 2#7 3#7, .fmaxNan 1#7 2#7 3#7, .hmin2 1#7 2#7 3#7, .hmax2 1#7 2#7 3#7, .bmin2 1#7 2#7 3#7,
    .bmax2 1#7 2#7 3#7, .fabs 1#7 2#7, .fneg 1#7 2#7, .fclass 1#7 2#7, .fcmpEq 0#3 2#7 3#7, .fcmpNe 0#3 2#7 3#7,
    .fcmpLt 0#3 2#7 3#7, .fcmpLe 0#3 2#7 3#7, .fcmpUn 6#3 2#7 3#7, .rcp 1#7 2#7, .sqrt 1#7 2#7, .rsq 1#7 2#7, .exp2 1#7 2#7,
    .log2 1#7 2#7, .sinpi 1#7 2#7, .cospi 1#7 2#7, .tanh 1#7 2#7, .sigm 1#7 2#7, .cvt 6#3 1#7 2#7 0#3 12#4,
    .cvtSat 0#3 1#7 2#7 0#3 6#4, .cvtPk 0#3 1#7 4#7 0#3 3#4, .cvtXi 0#3 4#7 1#7 2#3 1#4, .mxscale 1#7 2#7 96#7,
    .mxpack 1#7 2#7 3#7, .slideup 1#7 2#7 96#7, .slidedn 1#7 2#7 96#7, .shuf 1#7 2#7 3#7, .xshuf 1#7 2#7 3#7,
    .bcast 1#7 2#7 96#7, .rot 1#7 2#7 96#7, .vtos 97#7 2#7 96#7, .first 96#7 2#7, .radd 1#7 2#7, .rminS 1#7 2#7,
    .rmaxS 1#7 2#7, .fradd 1#7 2#7, .frmax 1#7 2#7, .pscanEx 1#7 2#7, .pscanIn 1#7 2#7, .matchEq 2#7 1#7, .ballot 96#7 7#3,
    .anyOf 0#3 7#3, .allOf 6#3 1#3], Meets i grp always := runs_all (by decide +kernel)

/-- SpecialFunctions: at the ends of the ranges of its clauses. -/
theorem witness_sfu : (∀ k ∈ [1, 126], 1 ≤ k ∧ k ≤ 126) ∧ (∀ k ∈ [127, 149], 127 ≤ k ∧ k ≤ 149) ∧ ((128 : Nat) ≤ 150 ∧ (16 : Nat) ≤ 150)
    ∧ ((((2 ^ 24 - 1 : Nat) : Int) - 0).natAbs < 2 ^ 24) ∧ (1 % 2 ^ 1 ≠ 0 ∧ 1 < 128 * 2 ^ 1) ∧ ((3 : Nat) ≠ 0 ∧ ∀ k < 3, (3 : Nat) ≠ 2 ^ k)
    ∧ (301 % 2 ^ 1 ≠ 0 ∧ 150 * 2 ^ 1 ≤ 301 ∧ 128 * 2 ^ 1 ≤ 256)
    ∧ (∀ e ∈ [(-149 : Int), 104], 0 < 3 ∧ 3 < 2 ^ 24 ∧ -149 ≤ e ∧ e ≤ 104) ∧ (1 = 2 ^ 0 ∧ (((0 : Nat) : Int) + 104) % 2 = 0) := by
  decide +kernel

/-- R227: EXP2 of −150, an exact tie of rounding, is +0; SINPI of −0 counts as a ≥ 0 (notes/assumptions/77.md). -/
theorem test_exp2_tie : (exp2F false (FF.fp32.decode 0xC3160000)).1 = 0 ∧ (rsqF false (FF.fp32.decode 0x40000000)).2 = fINX ∧ sinpiF false (FF.fp32.decode 0x80000000) = (0, 0) := by
  decide +kernel

/-- PredicateOperations: the operands that are illegal are issued all the same, and trap. -/
theorem witness_illegal : ∀ i ∈ [Instr.sel 0#3 96#7 2#7 3#7, .p2s 97#7 0#3, .p2s 95#7 0#3, .s2p 0#3 97#7, .s2p 7#3 96#7,
    .pand 7#3 0#3 0#3, .por 7#3 0#3 0#3, .pxor 7#3 0#3 0#3, .pandn 7#3 0#3 0#3, .eq 7#3 0#7 0#7, .ne 7#3 0#7 0#7,
    .ltS 7#3 0#7 0#7, .leS 7#3 0#7 0#7, .ltN 7#3 0#7 0#7, .leN 7#3 0#7 0#7, .tst 7#3 0#7 0#7, .tstz 7#3 0#7 0#7],
    ∃ x, grp.issuer (wordOf i) = some x := issued_all (by decide +kernel)

/-- DecodeEncode, both ways. -/
theorem witness_encode : (Instr.addi 96#7 97#7 511#9).wellFormed = true
    ∧ encode (.addi 96#7 97#7 511#9) = some 0b000111_000_1100000_1100001_111111111#32
    ∧ decode 0b000111_000_1100000_1100001_111111111#32 = .ok (.addi 96#7 97#7 511#9) := by decide +kernel

/-- StepRunsDecoded: a word where control core 0 fetches after reset. -/
def placed0 : State := State.reset.withFetchWord 32 0b000111_000_1100000_1100001_111111111

theorem fetched_none {s : State} {u : Nat} {g : Grp} {w : Word} {pl : Place} (h : (s.fetched u g w pl).1 = none) :
    ∃ t, s.fetched u g w pl = (none, t) := ⟨_, Prod.ext h rfl⟩

theorem witness_step : ∃ (s : State) (u va : Nat) (b0 b : Bool) (r : List Turn) (g : Grp) (p : Path) (pl : Place)
    (i : Instr), s.agenda = .issue u b0 :: r ∧ s.powered = true ∧ find s.units u = some g ∧
    let s0 : State := { s with agenda := r, free := s.free + 1, part := none }
    s0.idle u g = false ∧ g.pccAt = none ∧ (g.slot b0).bind (fun p => p.part) = none ∧ ageingDue s0 g = false ∧ s0.choose u g b0 = some (b, p) ∧
    let s1 := s0.begin_ u g b p
    capCheck g.pcc ((p.pc.toNat : Int) - g.pcc.cursor) 4 pEXEC = .ok va ∧ va % 4 = 0 ∧
    locate s1 (unitAg u b g) { x := true } va 4 = .ok pl ∧
    (∃ t, s1.fetched u g (BitVec.ofNat 32 (s1.rkeys pl.keys)) pl = (none, t)) ∧
    decode (BitVec.ofNat 32 (s1.rkeys pl.keys)) = .ok i := by
  let g : Grp := bootThread
  refine ⟨placed0, 81920, 0, false, false, [], g, { pc := 0, mask := 1 },
    ⟨[0, 1, 2, 3], true, none, [{ pa := 0, home := 0, aff := none, tagcap := true, leaf := none, len := 4 }]⟩,
    .addi 96#7 97#7 511#9, rfl, rfl, rfl, ?_, rfl, rfl, ?_, ?_, ?_, rfl, ?_, fetched_none (by decide +kernel), ?_⟩ <;> decide +kernel

/-- StepRunsDecoded: an instruction with an access left; units and records as those clauses need them. -/
theorem witness_go_on :
    (let p : Path := { pc := 64, mask := 0xFF, part := some { w := wordOf (.ldW 4#7 127#7 0#4 0#5), left := [], land := .store } }
    let s := onGrp (fun g => { g with slotA := some p }) id
    s.powered = true ∧ find s.units 0 = some { grp8 with slotA := some p } ∧ s.idle 0 { grp8 with slotA := some p } = false
      ∧ decode (wordOf (.ldW 4#7 127#7 0#4 0#5)) = .ok (.ldW 4#7 127#7 0#4 0#5))
    ∧ (∀ e ∈ grp.units, find grp.units e.1 = some e.2) := by decide +kernel

/-- StepRunsDecoded: path stacks at 0x9000 in PATHMEM. Group 0 frees its record 1 and makes its record 2; group 1, whose
record 0 is `r`, ends. -/
def stackSt (r : Rec) (now : Bool) : State :=
  let s := inLaunch [(47, capTo 0x9000)] [some 0] id
  let g (n : Nat) (l : Sparse Rec) : Grp := { grp8 with launch := some 1, pathNo := n, stack := l }
  { s with units := if now then [(0, g 0 [(2, r)])] else [(0, g 0 [(1, r)]), (1, g 1 [(0, r)])] }

/-- The records that the clause is about. -/
def stackUses (r : Rec) : List ((Nat × Grp) × Nat) :=
  let s := stackSt r true
  s.units.flatMap (fun e => [(e, 1), (e, 2)]) ++ (s.endedGrps (stackSt r false)).map (fun e => (e, 0))

theorem witness_records : ∀ r ∈ [Rec.deferred 64 0xF0 none none false none, .join none 0xFF 0x0F true (some 0)],
    let old := stackSt r false
    let s := stackSt r true
    (s.units.map Prod.fst).Nodup ∧ (old.units.map Prod.fst).Nodup
      ∧ (∀ e ∈ s.units, old.oldStack e.1 e.2 = [(1, r)] ∧ e.2.stack = [(2, r)])
      ∧ (s.endedGrps old).map (fun e => (e.1, e.2.stack)) = [(1, [(0, r)])]
      ∧ ∀ x ∈ stackUses r, (s.recKeys x.1.1 x.1.2 x.2).length = 32 ∧ (s.recKeys x.1.1 x.1.2 x.2).Nodup
        ∧ ∀ y ∈ stackUses r, (x.1.1, x.2) ≠ (y.1.1, y.2) → ∀ k ∈ s.recKeys x.1.1 x.1.2 x.2, k ∉ s.recKeys y.1.1 y.1.2 y.2 := by
  decide +kernel

theorem translate_boot (s : State) (m : List Host.Cell) (tg : Sparse Bool) (ag : Ag) (need : Need) (va : Nat) (h : ag.aspace = .boot) :
    Sys2Proof.Machine.translate { s with mem := m, tags := tg } ag need va = Sys2Proof.Machine.translate s ag need va := by
  unfold Sys2Proof.Machine.translate
  rw [h]
  rfl

theorem locate_boot (s : State) (m : List Host.Cell) (tg : Sparse Bool) (ag : Ag) (need : Need) (va n : Nat) (h : ag.aspace = .boot) :
    locate { s with mem := m, tags := tg } ag need va n = locate s ag need va n := by
  unfold locate reach
  simp only [translate_boot s m tg _ _ _ h]
  rfl

/-- StepRunsDecoded: in the boot map the places of records do not depend on what memory holds. -/
theorem witness_record_places (s : State) (m : List Host.Cell) (tg : Sparse Bool) (u i : Nat) (g : Grp)
    (h : ∀ n l, g.launch = some n → find s.launches n = some l → l.aspace = .boot) :
    ({ s with mem := m, tags := tg } : State).recKeys u g i = s.recKeys u g i := by
  unfold State.recKeys
  cases hg : g.launch with
  | none => rfl
  | some n =>
    cases hl : find s.launches n with
    | none => simp only [Option.bind, hl]
    | some l =>
      simp only [Option.bind, hl]
      rw [locate_boot s m tg l.ag _ _ _ (h n l hg hl)]

/-- R40, R41: the bits of a deferred record and of a join record. -/
theorem test_record_bits : (Rec.deferred 0x40 0xF0 (some 0x80) (some 1) true (some 3)).bits
      = 0x0000000000000040_00000000000000F0_0000000000000080_7800000000000003
    ∧ (Rec.join (some 0x80) 0xFF 0x0F false none).bits = 0x0000000000000080_00000000000000FF_000000000000000F_800000000000FFFF := by
  decide +kernel

theorem witness_event_turn : ownEvent (.fusedSetClose 0) = true ∧ ({ State.reset with agenda := [.event (.fusedSetClose 0)] } : State).agenda
    = .event (.fusedSetClose 0) :: [] ∧ ownEvent .powerOn = true := by decide +kernel

/-- EveryStepAnswers and MemoryStaysCanonical. -/
theorem witness_answers : isEvent (.add 1#7 2#7 3#7) = false ∧ grp.issuer (wordOf (.add 1#7 2#7 3#7)) ≠ none
    ∧ isEvent .powerOn = true := by decide +kernel

theorem witness_memory : ∃ s t, Memory.wf s.mem = true ∧ step s = .next t := by
  obtain ⟨t, h⟩ := next_of (show isNext (step placed0) = true by decide +kernel)
  exact ⟨placed0, t, by decide +kernel, h⟩

/-- PathsSplitAndAdvance. -/
theorem witness_paths : grp8.slot false = some { pc := 64, mask := 0xFF } ∧ grp8.pick 0 = none
    ∧ grp8.slot true = none ∧ grp8.alloc = some 0 ∧ (0x0F &&& 0xFF : DWord) ≠ 0
    ∧ (0xFF : DWord) &&& ~~~(0x0F &&& 0xFF) ≠ 0 ∧ grp8.rpc { pc := 64, mask := 0xFF } = none := by decide +kernel

/-- PathsSplitAndAdvance: the other slot taken, with and without records for both; no record at all. -/
theorem witness_split_full :
    (∀ n ∈ [1, 2], let g : Grp := { grp8 with slotB := some { pc := 96, mask := 0 }, kern := { grp8.kern with pathstack := n } }
      g.slot false = some { pc := 64, mask := 0xFF } ∧ g.slot true = some { pc := 96, mask := 0 } ∧ g.alloc = some 0
        ∧ g.rpc { pc := 64, mask := 0xFF } = none ∧ g.kern.pathstack = n)
    ∧ ({ grp8 with kern := { grp8.kern with pathstack := 0 } } : Grp).alloc = none := by decide +kernel

/-- PathsSplitAndAdvance: a path at its join; an exit from two join records, of which the inner is left without lanes. -/
def atJoin (arr : Nat) : Grp :=
  { grp8 with slotA := some { pc := 64, mask := 0x0F, link := some 0 }, stack := [(0, .join (some 128) 0xFF (BitVec.ofNat 64 arr) false none)] }
def atExit (arr : Nat) : Grp :=
  { grp8 with
    slotA := some { pc := 64, mask := 0x0F, link := some 0 }
    stack := [(0, .join none 0x0F 0 false (some 1)), (1, .join (some 128) 0xFF (BitVec.ofNat 64 arr) false none)] }

theorem witness_settle : (∀ arr ∈ [0xF0, 0],
      (atJoin arr).slot false = some { pc := 64, mask := 0x0F, link := some 0 }
        ∧ find (atJoin arr).stack 0 = some (.join (some 128) 0xFF (BitVec.ofNat 64 arr) false none)
        ∧ ∀ e ∈ (atJoin arr).stack, e.2.accept 0 = false)
    ∧ (0xF0 : DWord) ||| 0x0F = 0xFF ∧ (0 : DWord) ||| 0x0F ≠ 0xFF := by decide +kernel

theorem witness_exit_chain : ∀ arr ∈ [0xF0, 0x30],
    (atExit arr).slot false = some { pc := 64, mask := 0x0F, link := some 0 }
      ∧ find (atExit arr).stack 0 = some (.join none 0x0F 0 false (some 1))
      ∧ find (atExit arr).stack 1 = some (.join (some 128) 0xFF (BitVec.ofNat 64 arr) false none)
      ∧ (∀ e ∈ (atExit arr).stack, e.2.accept 0 = false)
      ∧ [0, 1].dropWhile (fun k => ([0x0F, 0xFF] : List DWord).getD k 0 &&& ~~~0x0F == 0) = [1] := by decide +kernel
def pset (k : Nat) (m : DWord) (g : Grp) : Grp := { g with p := [(k, m)] }

/-- Branches. -/
theorem witness_branches : Meets (.bra 4#20) grp always
    ∧ Meets (.brall 4#20) (onGrp (pset 0 0xFF) id) (fun _ x => x.p0 = x.act)
    ∧ Meets (.brall 4#20) (onGrp (pset 0 0x7F) id) (fun _ x => x.p0 ≠ x.act)
    ∧ Meets (.brany 4#20) (onGrp (pset 0 1) id) (fun _ x => x.p0 ≠ 0) ∧ Meets (.brany 4#20) grp (fun _ x => x.p0 = 0)
    ∧ Meets (.brnone 4#20) grp (fun _ x => x.p0 = 0) ∧ Meets (.brnone 4#20) (onGrp (pset 0 0x80) id) (fun _ x => x.p0 ≠ 0)
    ∧ Meets (.branchCall 4#20) grp always
    ∧ (∃ g, Meets (.brp 1#3 4#20) (onGrp (pset 1 0x0F) id)
        (fun s x => x.g.split (s.genOf x.g) x.b (x.g.pr 1) (x.target 4#20) (x.p.pc + 4) = some g))
    ∧ (∃ g, Meets (.brn 1#3 4#20) (onGrp (pset 1 0x0F) id)
        (fun s x => x.g.split (s.genOf x.g) x.b (~~~(x.g.pr 1)) (x.target 4#20) (x.p.pc + 4) = some g)) := by
  have h {i : Instr} {s : State} {f : State → Iss → Option Grp} (w : meets i s (fun s x => (f s x).isSome = true) = true) :
      ∃ g, Meets i s (fun s x => f s x = some g) := by
    obtain ⟨x, hx, hs⟩ := meets_of w
    obtain ⟨g, hg⟩ := Option.isSome_iff_exists.mp hs
    exact ⟨g, x, hx, hg⟩
  refine ⟨?_, ?_, ?_, ?_, ?_, ?_, ?_, ?_, h (by decide +kernel), h (by decide +kernel)⟩ <;>
    first
    | exact meets_of (h := fun _ _ => True) (by decide +kernel)
    | exact meets_of (by decide +kernel)

/-- Branches: a split with no record left on the stack. -/
theorem witness_split_none : Meets (.brp 1#3 4#20)
    (onGrp (fun g => { pset 1 0x0F g with kern := { g.kern with pathstack := 0 } }) id)
    (fun s x => x.g.split (s.genOf x.g) x.b (x.g.pr 1) (x.target 4#20) (x.p.pc + 4) = none) := meets_of (by decide +kernel)

theorem some_of {i : Instr} {s : State} {f : State → Iss → Option Grp} {c : Iss → Bool}
    (w : meets i s (fun s x => c x = true ∧ (f s x).isSome = true) = true) :
    ∃ g, Meets i s (fun s x => c x = true ∧ f s x = some g) := by
  obtain ⟨x, hx, hc, hs⟩ := meets_of w
  obtain ⟨g, hg⟩ := Option.isSome_iff_exists.mp hs
  exact ⟨g, x, hx, hc, hg⟩

/-- RegisterTransfers. -/
theorem witness_transfers : Meets (.jmpr 126#7) grp (fun _ x => Reg.isV 126#7 = false ∧ (x.g.rd2 126#7 x.low).toNat % 4 = 0)
    ∧ Meets (.ret 126#7) grp (fun _ x => Reg.isV 126#7 = false ∧ (x.g.rd2 126#7 x.low).toNat % 4 = 0)
    ∧ Meets (.jmpr 96#7) (onGrp (fun g => { g with s := [(0, 2)] }) id) (fun _ x => (x.g.rd2 96#7 x.low).toNat % 4 ≠ 0)
    ∧ Meets (.ret 2#7) (onGrp (fun g => { g with v := [(128, 1)] }) id) (fun _ x => (x.g.rd2 2#7 x.low).toNat % 4 ≠ 0)
    ∧ (∃ g, Meets (.jmpr 2#7) (onGrp (fun g => { g with v := [(128, 8)] }) id) (fun s x =>
        (Reg.isV 2#7 && (x.g.rd2 2#7 x.low).toNat % 4 == 0) = true
        ∧ x.g.split (s.genOf x.g) x.b (maskOf (x.lanes.filter (fun l => x.g.rd2 2#7 l == x.g.rd2 2#7 x.low)))
            (x.g.rd2 2#7 x.low) (x.p.pc - BitVec.ofNat 64 (4 * x.p.hints.length)) = some g))
    ∧ Meets (.callr 126#7 96#7) grp (fun _ x => Reg.isV 96#7 = false ∧ (x.g.rd2 96#7 x.low).toNat % 4 = 0)
    ∧ (∃ g, Meets (.path 1#7 3#9) (onGrp (fun g => { g with v := [(65, 7)] }) id) (fun s x => true = true
        ∧ x.g.split (s.genOf x.g) x.b (maskWhere x.width (fun l => x.g.rd 1#7 l != 0)) (x.offTarget 3#9) (x.p.pc + 4)
          = some g)) := by
  refine ⟨?_, ?_, ?_, ?_, some_of (by decide +kernel), ?_, some_of (c := fun _ => true) (by decide +kernel)⟩ <;>
    exact meets_of (by decide +kernel)

/-- RegisterTransfers: CALLR by lanes, and to a target that is not a multiple of 4. -/
theorem witness_callr : (∃ g, Meets (.callr 4#7 2#7) (onGrp (fun g => { g with v := [(128, 8)] }) id) (fun s x =>
        (Reg.isV 2#7 && (x.g.rd2 2#7 x.low).toNat % 4 == 0) = true
        ∧ (x.g.wr2 4#7 (lanesOf x.width (maskOf (x.lanes.filter (fun l => x.g.rd2 2#7 l == x.g.rd2 2#7 x.low))))
            (fun _ => x.p.pc + 4)).split (s.genOf x.g) x.b (maskOf (x.lanes.filter (fun l => x.g.rd2 2#7 l == x.g.rd2 2#7 x.low)))
            (x.g.rd2 2#7 x.low) (x.p.pc - BitVec.ofNat 64 (4 * x.p.hints.length)) = some g))
    ∧ Meets (.callr 4#7 2#7) (onGrp (fun g => { g with v := [(128, 1)] }) id) (fun _ x => (x.g.rd2 2#7 x.low).toNat % 4 ≠ 0) :=
  ⟨some_of (by decide +kernel), meets_of (by decide +kernel)⟩

/-- RegisterTransfers, SpecialRegisters, FencesAndBatches, Transactions: with no condition. -/
theorem witness_control : ∀ i ∈ [Instr.recMark 3#9, .pyield, .srd 1#7 0#7, .srd 96#7 30#7, .swr 96#7 6#7, .swr 96#7 7#7,
    .swr 96#7 8#7, .clock 96#7, .role 2#2, .nop, .imm 0#23, .guard 7#3 0#1, .rmode 6#3 0#2, .chainop 64#11 0#11, .offhi 5#23,
    .matx 1#10 2#7 0#2, .sched 15#4 1#1 7#3, .brk 0#7, .tabt, .ttest 1#7, .yield, .learly], Meets i grp always :=
  runs_all (by decide +kernel)

/-- The issuing path of `grp`, with its word. -/
noncomputable def issOf (i : Instr) : Iss := ⟨0, false, grp8.counted false, { pc := 64, mask := 0xFF }, wordOf i⟩

/-- TrapEntersHandler: into the handler; without one; in it. -/
theorem witness_trap : find grp.units 0 = some grp8 ∧ isControl 0 = false ∧ (grp8.counted false).kern.handler = some 128
    ∧ ({ pc := 64, mask := 0xFF } : Path).hnd = false ∧ grp8.otherInHandler false = false
    ∧ (grp8.counted false).slot false = some { pc := 64, mask := 0xFF } ∧ (grp8.counted false).pick (grp.genOf (grp8.counted false)) = none
    ∧ ({ grp8.kern with handler := none } : Kern).handler = none := by decide +kernel

/-- HandlerReturn. -/
theorem witness_xret : Meets .xretSkip (onGrp (fun g => { g with slotA := some { pc := 128, mask := 1, hnd := true } }) id)
      (fun _ x => x.p.hnd = true ∧ isControl x.u = false)
    ∧ Meets .xretRetry (onGrp (fun g => { g with slotA := some { pc := 128, mask := 1, hnd := true } }) id)
      (fun _ x => x.p.hnd = true ∧ isControl x.u = false)
    ∧ Meets .xretSkip grp (fun _ x => x.p.hnd = false) ∧ Meets .xretRetry grp (fun _ x => x.p.hnd = false) := by
  refine ⟨?_, ?_, ?_, ?_⟩ <;> exact meets_of (by decide +kernel)

/-- RefusalsTrap: privileged at level U; illegal; a hint that does not fit; a word of no instruction; FP64; a fetch that
fails. -/
theorem witness_refusals : Issued (.sysrd 96#7 98#7) grp (fun _ x => privileged (major x.w) = true ∧ x.g.level = .user)
    ∧ Issued (.add 1#7 2#7 3#7) (onGrp (fun g => { g with kern := { g.kern with vregs := 3 } }) id) (fun s x =>
        privileged (major x.w) = false ∧ major x.w ≠ 0x3F ∧ legal s x (Instr.sig (.add 1#7 2#7 3#7)) = false)
    ∧ Issued (.add 1#7 2#7 3#7) (onGrp (fun g => { g with slotA := some { pc := 64, mask := 1, hints := [wordOf (.imm 0#23)] } }) id)
        (fun s x => major x.w ≠ 0x3F ∧ legal s x (Instr.sig (.add 1#7 2#7 3#7)) = true
          ∧ hintsFit (Instr.sig (.add 1#7 2#7 3#7)) x.p.hints = false)
    ∧ Issued (.dadd 0#3 2#7 4#7 6#7) grp (fun s x => legal s x (Instr.sig (.dadd 0#3 2#7 4#7 6#7)) = true
        ∧ hintsFit (Instr.sig (.dadd 0#3 2#7 4#7 6#7)) x.p.hints = true)
    ∧ (∃ x, grp.issuer 0 = some x ∧ (privileged (major 0) = false ∨ x.g.level = .kernel)) := by
  refine ⟨?_, ?_, ?_, ?_, ⟨_, rfl, ?_⟩⟩ <;> first | exact issued_of (by decide +kernel) | decide +kernel

theorem witness_fetch : ∃ x f, (onGrp (fun g => { g with pcc := Cap.null }) id).issuer 0 = some x
    ∧ fetch (onGrp (fun g => { g with pcc := Cap.null }) id) x.g x.p = .error f := ⟨_, _, rfl, rfl⟩

/-- FaultHaltsContext. -/
theorem witness_fault : (2 : Nat) ≠ noAnswer ∧ find grp.units 0 = some grp8 ∧ isControl 0 = false ∧ grp8.ctx = some 5 ∧ grp8.regrow = none
    ∧ find grp.ctxs 5 = some { vd := 1, root := 0x4000 } ∧ ({ vd := 1, root := 0x4000 } : Ctx).state = .running
    ∧ grp8.slotA.all (fun p => p.part.isNone) = true ∧ grp8.slotB = none := by
  decide +kernel

/-- ThreadTraps: at level U; at level K with KVEC, without it, and in its handler. -/
theorem witness_thread : (∃ (s : State) (x : Iss) (g0 : Grp) (k : Bank) (p : Path) (r : Nat), find s.units x.u = some g0
      ∧ isControl x.u = true ∧ x.g.level = .user ∧ x.g.bank = some k ∧ x.g.slotA = some p ∧ x.g.eretRd = some r)
    ∧ (∃ (s : State) (x : Iss) (g0 : Grp), find s.units x.u = some g0 ∧ isControl x.u = true ∧ x.g.level = .kernel
      ∧ x.g.ownR 0x0603 ≠ 0 ∧ x.p.hnd = false)
    ∧ (∃ (s : State) (x : Iss) (g0 : Grp), find s.units x.u = some g0 ∧ isControl x.u = true ∧ x.g.level = .kernel
      ∧ x.g.ownR 0x0603 = 0)
    ∧ (∃ (s : State) (x : Iss) (g0 : Grp), find s.units x.u = some g0 ∧ isControl x.u = true ∧ x.g.level = .kernel
      ∧ x.p.hnd = true) := by
  let u (g : Grp) : Grp := { g with level := .user, eretRd := some 31 }
  let k (g : Grp) : Grp := { g with own := [(0x0603, 0x1000)] }
  refine ⟨⟨core0 u, ⟨81920, false, u bootThread, { pc := 0, mask := 1 }, 0⟩, u bootThread, {}, { pc := 0, mask := 1 }, 31, ?_⟩,
    ⟨core0 k, ⟨81920, false, k bootThread, { pc := 0, mask := 1 }, 0⟩, k bootThread, ?_⟩,
    ⟨core0 id, ⟨81920, false, bootThread, { pc := 0, mask := 1 }, 0⟩, bootThread, ?_⟩,
    ⟨core0 k, ⟨81920, false, k bootThread, { pc := 0, mask := 1, hnd := true }, 0⟩, k bootThread, ?_⟩⟩ <;> decide +kernel

/-- CapabilityResults. -/
theorem witness_capability : ∀ i ∈ [Instr.csetb 1#4 96#7 0#4, .csetbx 1#4 96#7 0#4, .candp 1#4 96#7 0#4, .cinc 1#4 96#7 0#4,
    .cseta 1#4 96#7 0#4, .cmov 1#4 0#4, .cmovFromLane 1#4 4#7, .cmovToLanes 4#7 0#4, .cclr 1#4, .cseal 1#4 2#4 3#4,
    .cunseal 1#4 2#4 3#4, .cseale 1#4 0#4, .cgetb 96#7 0#4, .cgetl 96#7 0#4, .cgetbCur 96#7 0#4, .cgetp 97#7 0#4,
    .cgeto 97#7 0#4, .cgett 97#7 0#4, .ctstsub 97#7 0#4 1#4], Meets i grp always := runs_all (by decide +kernel)

theorem witness_cinvoke : Meets (.cinvoke 1#4 2#4) (onGrp (fun g => { g with q := [(2, ⟨capBits 64 0x2000 7 43 0 16384, true⟩)] }) id)
      (fun _ x => x.g.reconverged = true ∧ (x.g.qr 2).tag = true ∧ (x.g.qr 2).otype = 7 ∧ (x.g.qr 2).has pEXEC = true
        ∧ (x.g.qr 2).cursor % 4 = 0)
    ∧ Meets (.cinvoke 1#4 2#4) (onGrp (fun g => { g with slotB := some { pc := 64, mask := 0x100 } }) id)
      (fun _ x => x.g.reconverged = false) := by
  refine ⟨?_, ?_⟩ <;> exact meets_of (by decide +kernel)

/-- Derivations and CapabilityCheck: the last byte passes, and the one after it fails; each other failure. -/
theorem witness_derivation : (setb rootCap 64 false).tag = true ∧ (setb rootCap 64 true).tag = true
    ∧ (rootCap.withCursor 5).tag = true ∧ (rootCap.withPerms 0x8000).tag = true
    ∧ capCheck (setb rootCap 64 true) 63 1 pLOAD = .ok 63 ∧ capCheck (setb rootCap 64 true) 64 1 pLOAD = .error ⟨0x04, 1, 64⟩
    ∧ capCheck (setb rootCap 64 true) 49 17 pLOAD = .error ⟨0x04, 0x20, 49⟩
    ∧ capCheck Cap.null 0 1 pLOAD = .error ⟨0x01, 0, 0⟩ ∧ capCheck (objCap 1 secEp 0 0x0240) 0 1 pLOAD = .error ⟨0x02, 0, 0⟩
    ∧ capCheck (rootCap.withPerms 0x8000) 0 1 (pLOAD ||| pSTORE ||| pEXEC) = .error ⟨0x03, 13, 0⟩
    ∧ objCheck (objCap 1 secEp 0 0x0240) 1 pSEND = .ok secEp ∧ objCheck (objCap 1 secEp 0 0x0240) 2 pSEND = .error ⟨0x02, 2, 0⟩
    ∧ objCheck (objCap 1 secEp 0 0x0200) 1 pSEND = .error ⟨0x03, 6, 0⟩ := by decide +kernel

/-- Every lane's checks pass and nothing is waited for, one access for all lanes where it is uniform; some lane's check fails. -/
def passes (s : State) (x : Iss) (a : Ask) (ls : List Nat) (open_ : Bool) (perLane : Bool := true) : Bool :=
  match x.places s a ls with
  | .ok ps => (x.gate s open_ (onePlace perLane ps) (if perLane then ps else ps.take 1)).isNone
  | .error _ => false
def stopsAt (s : State) (x : Iss) (a : Ask) (ls : List Nat) : Bool :=
  match x.places s a ls with
  | .ok _ => false
  | .error _ => true

/-- Loads and AccessFaults: through q0, and through the null capability of q1. -/
theorem witness_loads : ∀ e ∈ [(fun q => Instr.ldB 4#7 127#7 q 31#5, 1), (fun q => .ldSb 4#7 127#7 q 0#5, 1),
      (fun q => .ldH 4#7 127#7 q 0#5, 2), (fun q => .ldSh 4#7 127#7 q 0#5, 2), (fun q => .ldW 4#7 127#7 q 0#5, 4),
      (fun q => .ldD 4#7 127#7 q 0#5, 8), (fun q => .ldQ 4#7 127#7 q 0#5, 16)],
    meets (e.1 0#4) grp (fun s x => s.part = none ∧ x.p.part = none
      ∧ passes s x (accessAsk x 127#7 0#4 0#5 e.2 false) x.lanes true = true) = true
    ∧ meets (e.1 1#4) grp (fun s x => x.p.part = none ∧ stopsAt s x (accessAsk x 127#7 1#4 0#5 e.2 false) x.lanes = true) = true := by
  decide +kernel

/-- Loads, Stores and CapabilityMemory: their uniform forms. -/
theorem witness_uniform : (∀ d ∈ [97#7, 98#7], meets (.ldW d 127#7 0#4 0#5) grp (fun s x => s.part = none ∧ x.p.part = none
      ∧ passes s x (accessAsk x 127#7 0#4 0#5 4 false) x.lanes true false = true) = true)
    ∧ meets (.stW 97#7 127#7 0#4 0#5) grp (fun s x => s.part = none ∧ x.p.part = none
      ∧ passes s x (accessAsk x 127#7 0#4 0#5 4 true) x.lanes true false = true) = true
    ∧ meets (.ldc 4#7 127#7 0#4 0#5) grp (fun s x => passes s x (capLoadAsk x 127#7 0#4 0#5) x.lanes true = true) = true := by
  decide +kernel

/-- Stores and AccessFaults. -/
theorem witness_stores : ∀ e ∈ [(fun q => Instr.stB 4#7 127#7 q 0#5, 1), (fun q => .stH 4#7 127#7 q 0#5, 2),
      (fun q => .stW 4#7 127#7 q 0#5, 4), (fun q => .stD 4#7 127#7 q 0#5, 8), (fun q => .stQ 4#7 127#7 q 0#5, 16)],
    meets (e.1 0#4) grp (fun s x => s.part = none ∧ x.p.part = none
      ∧ passes s x (accessAsk x 127#7 0#4 0#5 e.2 true) x.lanes true = true) = true
    ∧ meets (e.1 1#4) grp (fun s x => x.p.part = none ∧ stopsAt s x (accessAsk x 127#7 1#4 0#5 e.2 true) x.lanes = true) = true := by
  decide +kernel

/-- Loads, Stores and Atomics, one access: no tile, no transaction, a place of as many keys as bytes, each once. -/
theorem witness_places : grp.tiles = [] ∧ grp8.isOpen 0 = false ∧ grp8.isDoomed 0 = false
    ∧ (leBytes 7 4).length = ([64, 65, 66, 67] : List Nat).length ∧ ([64, 65, 66, 67] : List Nat).Nodup
    ∧ ([64, 65, 66, 67] : List Nat)[3]? = some 67 ∧ (leBytes 7 4)[3]? = some 0 := by decide +kernel

/-- CapabilityMemory. -/
theorem witness_capmem : meets (.ldc 96#7 127#7 0#4 0#5) grp
      (fun s x => passes s x (capLoadAsk x 127#7 0#4 0#5) x.lanes true false = true) = true
    ∧ meets (.stc 4#7 127#7 0#4 1#5) grp (fun s x => passes s x (capStoreAsk x 4#7 127#7 0#4 1#5) x.lanes false = true) = true := by
  decide +kernel

/-- Atomics. -/
theorem witness_atomics : ∀ e ∈ [(Instr.aadd 4#7 127#7 0#3 0#4, 4), (.aminS 4#7 127#7 1#3 0#4, 4), (.amaxS 4#7 127#7 2#3 0#4, 4),
      (.aminN 4#7 127#7 3#3 0#4, 4), (.amaxN 4#7 127#7 4#3 0#4, 4), (.aand 4#7 127#7 0#3 0#4, 4), (.aor 4#7 127#7 0#3 0#4, 4),
      (.axor 4#7 127#7 0#3 0#4, 4), (.axchg 4#7 127#7 0#3 0#4, 4), (.acas 4#7 127#7 0#3 0#4, 4), (.afadd 4#7 127#7 0#3 0#4, 4),
      (.abfadd2 4#7 127#7 0#3 0#4, 4), (.axchgW 4#7 127#7 0#3 0#4, 8), (.acasW 4#7 127#7 0#3 0#4, 8)],
    meets e.1 grp (fun s x => passes s x (atomicAsk x 127#7 0#4 e.2 true) x.lanes false = true) = true := by decide +kernel

/-- Reductions. -/
theorem witness_reductions : ∀ i ∈ [Instr.rdadd 4#7 127#7 0#3 0#4, .rdmin 4#7 127#7 2#3 0#4, .rdmax 4#7 127#7 4#3 0#4,
      .rdfadd 4#7 127#7 0#3 0#4, .rdbfadd2 4#7 127#7 0#3 0#4, .rdinc 127#7 0#3 0#4],
    meets i grp (fun s x => passes s x (atomicAsk x 127#7 0#4 4 false) x.lanes false = true) = true := by decide +kernel

/-- Reductions: two requests of one word, the second with the largest operand. -/
theorem witness_reduction : (∀ a ∈ [({ lane := 0, pl := ⟨[64, 65, 66, 67], true, none, []⟩ } : LaneAt), ⟨1, ⟨[64, 65, 66, 67], true, none, []⟩⟩],
      a.pl.keys = [64, 65, 66, 67] ∧ (2 ^ 32 - 1) * a.lane < 2 ^ 32) ∧ ([64, 65, 66, 67] : List Nat).Nodup := by decide +kernel

/-- ScratchAccesses: at the last place of the scratch, and past it. -/
theorem witness_scratch : ∀ e ∈ [(Instr.ldsW 4#7 96#7 0#9, 4, false), (.ldsH 4#7 96#7 0#9, 2, false), (.ldsD 4#7 96#7 0#9, 8, false),
      (.ldsQ 4#7 96#7 0#9, 16, false), (.stsW 97#7 96#7 0#9, 4, true), (.stsH 97#7 96#7 0#9, 2, true), (.stsD 98#7 96#7 0#9, 8, true),
      (.stsQ 100#7 96#7 0#9, 16, true)],
    meets e.1 (withS0 (4096 - e.2.1)) (fun s x => x.scrFault s e.2.1 e.2.2 (x.scrAccs false 96#7 (scrDisp x.p.hints 0#9)) = none) = true
    ∧ meets e.1 (withS0 4096) (fun s x => (x.scrFault s e.2.1 e.2.2 (x.scrAccs false 96#7 (scrDisp x.p.hints 0#9))).isSome = true)
      = true := by decide +kernel

theorem witness_scratch_caps : Meets (.ldcL 96#7 96#7 0#5) (withS0 4080) (fun s x => x.scrFault s 16 false (x.capAccs 96#7 96#7 0#5) = none)
    ∧ Meets (.stcL 96#7 96#7 0#5) (withS0 0) (fun s x => x.scrFault s 16 true (x.capAccs 96#7 96#7 0#5) = none) := by
  refine ⟨?_, ?_⟩ <;> exact meets_of (by decide +kernel)

/-- QuantiseWithOutliers: control word with formats that are allowed, and without. -/
def cvtqSt (c : Nat) : State := onGrp (fun g => { g with s := [(2, BitVec.ofNat 32 c)] }) id

theorem witness_cvtq : Meets (.cvtq 1#7 2#7 96#7) (cvtqSt 0) (fun s x => cvtqOk (x.g.rd (Reg.plus 96#7 2) 0) = true
      ∧ (x.g.rd (Reg.plus 96#7 1) 0).toNat % 4 = 0
      ∧ x.scrFault s 4 true (((x.lanes.filter (fun l => outlier (FF.fp32.operand x.g.daz (x.g.rd 96#7 0).toNat)
          (FF.fp32.operand x.g.daz (x.g.rd 2#7 l).toNat))).mapIdx (fun n l => (⟨l, (((x.g.rd 97#7 0).toNat + 4 * n : Nat) : Int)⟩ : SAcc)))) = none)
    ∧ Meets (.cvtq 1#7 2#7 96#7) (cvtqSt 0x70000) (fun _ x => cvtqOk (x.g.rd (Reg.plus 96#7 2) 0) = false) := by
  refine ⟨?_, ?_⟩ <;> exact meets_of (by decide +kernel)

/-- Transactions. -/
theorem witness_txn : Meets .tbeg grp (fun s x => find s.serial (s.serialKey x.g.vd) = none ∧ ∀ l ∈ x.lanes, x.g.failsOf l < 16)
    ∧ Meets (.tend 1#7) (onGrp (fun g => { g with txn := [(0, { state := .opened, writes := [(64, 7)], granules := [4] })] }) id)
      (fun s x => s.locked = [] ∧ (∀ l ∈ x.lanes, (x.g.txnOf l).serial = false)
        ∧ s.meetTiles x.g.regrow x.g.ctx (some (x.u, x.b, x.low, x.p.pc))
            ((txnWinners x.g [] (x.lanes.filter x.g.isOpen)).map (fun l => (x.g.txnOf l).place)) = none) := by
  refine ⟨?_, ?_⟩ <;> exact meets_of (by decide +kernel)

/-- FencesAndBatches. -/
theorem witness_fences : Meets (.fence 1#3 0#2) grp (fun _ _ => (0#2 : BitVec 2) = 0)
    ∧ Meets (.fence 4#3 3#2) grp (fun _ _ => (3#2 : BitVec 2) ≠ 0)
    ∧ Meets (.mfence 96#7) (onGrp (fun g => { g with closed := List.replicate 255 0 }) id) (fun _ x => x.g.closed.length < 256)
    ∧ Meets (.mfence 96#7) (onGrp (fun g => { g with closed := List.replicate 256 0 }) id) (fun _ x => 256 ≤ x.g.closed.length)
    ∧ Meets (.mwait 96#7) grp (fun _ x => x.g.closed = []) ∧ Meets .lwaitp grp (fun _ x => x.g.launch = none) := by
  refine ⟨?_, ?_, ?_, ?_, ?_, ?_⟩ <;> exact meets_of (by decide +kernel)

/-- The machine whose group runs with a parameter block at offset 0 of its scratch: bits, and capabilities by granule. -/
def blockSt (b : Nat) (caps : List (Nat × Cap)) (f : Grp → Grp) (k : Gang → Gang) (m : State → State) : State :=
  caps.foldl (fun s e => s.scrCapW 3 (16 * e.1) e.2) ((m (onGrp f k)).scrW 3 0 80 b)

/-- Does a command enter its engine: block, capabilities, plan, timeline, and room? -/
def enters (s : State) (x : Iss) (size : Nat) (q : BitVec 4) (plan : State → Nat → Nat → (Nat → Cap) → Checked Plan) : Bool :=
  match x.readBlock s 0 size, capCheck (x.g.qr q.toNat) 0 16 pTL,
    plan s 0 (s.scrR x.gangNo 0 size) (fun k => s.scrCap x.gangNo (0 + 16 * k)), x.timeline s q { r := true, w := true } with
  | .ok _, .ok _, .ok p, .ok at_ =>
      (x.gate s false [at_]).isNone && decide (s.tlIssued (at_.pl.keys.headD 0) ≠ 2 ^ 64 - 1)
        && decide ((s.cmds.filter (fun e => e.2.tl == at_.pl.keys.headD 0 && e.2.engine == p.engine
          && (if p.engine = .coll then e.2.core / 64 == unitCore x.u / 64 else e.2.core == unitCore x.u)
          && !e.2.finished && e.2.ctx.isSome && (e.2.gang.bind (fun n => find s.saved n)).isNone)).length < 256)
  | _, _, _, _ => false

/-- CommandsIssue: one block for each command. -/
def held5 (k : Nat) : Handle := { bits := BitVec.ofNat 384 (2 ^ 44 + 2 ^ 34 + 3 * 2 ^ 68 + k * 2 ^ 73), holder := some 5 }

theorem witness_commands :
    Meets (.copy 97#7 96#7 0#4) (blockSt (16 * 2 ^ 256 + 2 ^ 352 + 64 * 2 ^ 384 + 128) [(1, capTo 0x2000)] id id id)
      (fun s x => enters s x 64 0#4 x.planCopy = true)
    ∧ Meets (.copyg 97#7 96#7 0#4) (blockSt (16 * 2 ^ 256 + 2 ^ 352) [(0, capTo 0x1000), (1, capTo 0x2000)] id id id)
      (fun s x => enters s x 64 0#4 (fun _ => x.planCopyg) = true)
    ∧ Meets (.copys 97#7 96#7 0#4) (blockSt (16 * 2 ^ 256 + 2 ^ 352 + 128 * 2 ^ 128) [(0, capTo 0x1000)] id id id)
      (fun s x => enters s x 64 0#4 x.planCopys = true)
    ∧ Meets (.tilest 97#7 96#7 0#4) (blockSt (128 * 2 ^ 128 + 16 * 2 ^ 160) [(0, capTo 0x1000)] id id
        (fun s => (s.wn 0x1000 64 (descOf 0 0x3000)).capPut 0x1000 (capTo 0x3000)))
      (fun s x => enters s x 48 0#4 x.planTilest = true)
    ∧ Meets (.tileld 97#7 96#7 0#4) (blockSt (128 * 2 ^ 128 + 16 * 2 ^ 160 + 256 * 2 ^ 192 + 260 * 2 ^ 224) [(0, capTo 0x1000)] id id
        (fun s => (s.wn 0x1000 64 (descOf 0 0x3000)).capPut 0x1000 (capTo 0x3000)))
      (fun s x => enters s x 48 0#4 x.planTileld = true)
    ∧ Meets (.regroup 97#7 96#7 0#4) (blockSt (2 ^ 592 + 2 ^ 576 + 2 ^ 544 + 2 ^ 512)
        [(0, capTo 0x1000), (1, capTo 0x2000), (2, capTo 0x3000)] id id id)
      (fun s x => enters s x 80 0#4 (fun _ => x.planRegroup) = true)
    ∧ Meets (.loftld 97#7 96#7 0#4) (blockSt 0 [(0, capTo 0x1000)] id id (fun s => s.setHandle 0 0 (held5 0)))
      (fun s x => enters s x 32 0#4 x.planLoftld = true)
    ∧ Meets (.loftev 97#7 96#7 0#4) (blockSt 0 [] id id (fun s => s.setHandle 0 0 (held5 2)))
      (fun s x => enters s x 32 0#4 x.planLoftev = true)
    ∧ Meets (.coll 97#7 96#7 0#4) (blockSt (4 * 2 ^ 512) [(0, objCap 8 0x8000 0 0x0240), (1, capTo 0x1000), (2, capTo 0x2000),
          (3, capTo 0x3000)] id id (fun s => { s with objs := [objOf 8 0x8000 1] }))
      (fun s x => enters s x 80 0#4 x.planColl = true)
    ∧ Meets (.chain 0#3 98#7 96#7 0#4) (blockSt (2 ^ 384) [(0, capTo 0x1000), (1, capTo 0x2000), (2, capTo 0x3000)]
          (fun g => { g with slotA := some { pc := 64, mask := 1, hints := [wordOf (.chainop 64#11 0#11)] } }) id id)
      (fun s x => enters s x 80 0#4 (fun _ => x.planChain 1) = true)
    ∧ Meets (.cld 97#7 96#7 0#4) (blockSt (256 * 2 ^ 256) [(0, capTo 0x1000)] id
          (fun k => { k with res := [(0, BitVec.ofNat 128 (2 ^ 86 + 64 * 2 ^ 20))] }) id)
      (fun s x => enters s x 48 0#4 (fun s => x.planCrib s true) = true)
    ∧ Meets (.cst 97#7 96#7 0#4) (blockSt 0 [(0, capTo 0x1000)] id
          (fun k => { k with res := [(0, BitVec.ofNat 128 (2 ^ 86 + 64 * 2 ^ 20))] }) id)
      (fun s x => enters s x 48 0#4 (fun s => x.planCrib s false) = true)
    ∧ Meets (.drain 97#7 96#7 0#4) (blockSt (16 * 2 ^ 128 + 4 * 2 ^ 232 + 2 ^ 192) [(0, capTo 0x1000)] id
          (fun k => { k with res := [(0, BitVec.ofNat 128 (2 ^ 86 + 2 ^ 85 + 64 * 2 ^ 20 + 16 * 2 ^ 40))] }) id)
      (fun s x => enters s x 64 0#4 x.planDrain = true) := by
  refine ⟨?_, ?_, ?_, ?_, ?_, ?_, ?_, ?_, ?_, ?_, ?_, ?_, ?_⟩ <;> exact meets_of (by decide +kernel)

/-- CommandsIssue: a COPY block, field by field. -/
theorem witness_copy_block : ∃ (b va : Nat) (c : Cap), fld b 416 96 = 0 ∧ fld b 32 96 = 0 ∧ copyLen b ≠ 0 ∧ copyRows b ≠ 0
    ∧ fld b 0 32 + ((copyRows b - 1) * copyDs b + copyLen b) ≤ gang3.scratch
    ∧ capCheck c 0 ((copyRows b - 1) * copySs b + copyLen b) pLOAD = .ok va ∧ fld b 384 32 % 8 = 0
    ∧ fld b 384 32 + 8 ≤ gang3.scratch :=
  ⟨16 * 2 ^ 256 + 2 ^ 352 + 4088 * 2 ^ 384 + 4080, 0x2000, capTo 0x2000, by decide +kernel⟩

/-- MatrixIssue: an MMA.Z of one octet on C reservation 0 and A reservation 1, against handle 0. -/
def cRec : BitVec 128 := BitVec.ofNat 128 (2 ^ 86 + 2 ^ 85 + 4096 * 2 ^ 20 + 512 * 2 ^ 40)
def aRec (stride : Nat) : BitVec 128 := BitVec.ofNat 128 (2 ^ 86 + 2 ^ 80 + 2048 * 2 ^ 20 + stride * 2 ^ 40 + 4096)
def matSt (stride : Nat) : State :=
  let s := onGrp id (fun k => { k with res := [(0, cRec), (1, aRec stride)] })
  s.setHandle 0 0 { bits := BitVec.ofNat 384 (2 ^ 44 + 2 ^ 34 + 2 ^ 68 + 2 * 2 ^ 73 + (capTo 0x4000).bits.toNat * 2 ^ 128),
                    backTag := true, holder := some 5 }

def forms (s : State) (x : Iss) (z t rz forced expert : Bool) (h : Nat → Nat) : Bool :=
  match find s.gangs x.gangNo with
  | none => false
  | some k => match x.formAll s x.gangNo k 0 1 z t rz forced expert h
      ((List.range (x.g.width / 8)).filter (fun o => x.liveRows o != 0)) with
    | .ok ms => decide (s.octets (unitCore x.u) + ms.length ≤ 256)
    | .error _ => false

theorem witness_matrix : Meets (.mma 0#5 1#5 96#7 0#1) (matSt 256) (fun s x => forms s x false false false false false (fun _ => (x.g.rd 96#7 0).toNat % 64) = true)
    ∧ Meets (.mmaZ 0#5 1#5 96#7 0#1) (matSt 256) (fun s x => forms s x true false false false false (fun _ => (x.g.rd 96#7 0).toNat % 64) = true)
    ∧ Meets (.mmaT 0#5 1#5 96#7 0#1) (matSt 16) (fun s x => forms s x false true false false false (fun _ => (x.g.rd 96#7 0).toNat % 64) = true)
    ∧ Meets (.mmas 0#5 1#5 96#7 0#1) (matSt 256) (fun s x => forms s x false false false true false (fun _ => (x.g.rd 96#7 0).toNat % 64) = true)
    ∧ Meets (.mmax 0#5 1#5 2#7 0#1) (matSt 256) (fun s x => forms s x false false false false true (fun k => (x.g.rd 2#7 (8 * k)).toNat % 64) = true) := by
  refine ⟨?_, ?_, ?_, ?_, ?_⟩ <;> exact meets_of (by decide +kernel)

/-- Waits: a TLWAIT that has waited since its target was 3 or 0. -/
theorem witness_kept : ∀ v ∈ [3, 0], Meets (.tlwait 96#7 0#4) (onGrp (fun g => { g with
      slotA := some { pc := 64, mask := 0xFF, wait := some (.timelines [(0, v)]) } }) id) (fun s x =>
    x.p.wait = some (.timelines [(0, v)])
      ∧ onTl s x { r := true } (fun at_ => decide ((v ≤ s.tlDone (at_.pl.keys.headD 0)) ↔ v = 0)) = true) := by
  intro v h
  simp only [List.mem_cons, List.not_mem_nil, or_false] at h
  obtain rfl | rfl := h <;> exact meets_of (by decide +kernel)

/-- Waits. -/
theorem witness_waits : Meets (.waitph 96#7 0#1) grp (fun s x => x.scrRange s (x.g.rd 96#7 0).toNat 8 x.low = none
      ∧ bit (s.scrR x.gangNo (x.g.rd 96#7 0).toNat 8) 63 = ((0#1 : BitVec 1) == 1#1))
    ∧ Meets (.waitph 96#7 1#1) (withS0 4088) (fun s x => x.scrRange s (x.g.rd 96#7 0).toNat 8 x.low = none
      ∧ bit (s.scrR x.gangNo (x.g.rd 96#7 0).toNat 8) 63 ≠ ((1#1 : BitVec 1) == 1#1))
    ∧ Meets (.tlwait 96#7 0#4) grp (fun s x => onTl s x { r := true } (fun at_ =>
      decide (nearTarget (max (s.tlIssued (at_.pl.keys.headD 0)) (s.tlDone (at_.pl.keys.headD 0))) (x.g.rd 96#7 0).toNat
        ≤ s.tlDone (at_.pl.keys.headD 0))) = true)
    ∧ Meets (.tlwait 96#7 0#4) (withS0 1) (fun s x => onTl s x { r := true } (fun at_ =>
      decide ((s.tlDone (at_.pl.keys.headD 0) : Int)
        < nearTarget (max (s.tlIssued (at_.pl.keys.headD 0)) (s.tlDone (at_.pl.keys.headD 0))) (x.g.rd 96#7 0).toNat)) = true)
    ∧ Meets (.tlwaitW 96#7 0#4) grp (fun s x => onTl s x { r := true } (fun at_ =>
      decide (((x.g.rd2 96#7 0).toNat : Int) ≤ s.tlDone (at_.pl.keys.headD 0))) = true)
    ∧ Meets (.tlwaitW 96#7 0#4) (withS0 1) (fun s x => onTl s x { r := true } (fun at_ =>
      decide ((s.tlDone (at_.pl.keys.headD 0) : Int) < ((x.g.rd2 96#7 0).toNat : Int))) = true)
    ∧ Meets (.tlread 98#7 0#4) grp (fun s x => onTl s x { r := true } (fun _ => true) = true)
    ∧ Meets (.waitaGlobal 0#4 127#7 96#7) (withS0 1) (fun s x => (match x.places s (waitAsk x 127#7 0#4)
          (x.reqLanes ((Reg.isV 127#7 && (127#7 : Reg) != 127#7) || Reg.isV 96#7)) with
        | .error _ => false
        | .ok as => (x.gate s false as).isNone && (x.reqLanes ((Reg.isV 127#7 && (127#7 : Reg) != 127#7) || Reg.isV 96#7)).all
            (fun l => (x.differing 96#7 (as.map (fun e => (e.lane, s.rkeys e.pl.keys)))).getLsbD l)) = true)
    ∧ Meets (.waita 127#7 96#7) (withS0 1) (fun s x => ∀ l ∈ x.reqLanes ((Reg.isV 127#7 && (127#7 : Reg) != 127#7) || Reg.isV 96#7),
        x.scrRange s (x.g.off 127#7 l).toNat 4 l = none
        ∧ s.scrR x.gangNo (x.g.off 127#7 l).toNat 4 ≠ (x.g.rd 96#7 l).toNat) := by
  refine ⟨?_, ?_, ?_, ?_, ?_, ?_, ?_, ?_, ?_⟩ <;> exact meets_of (by decide +kernel)

/-- BarriersAndExit: the gang of one group, and of two of which the other has not arrived; a launch whose phase records are
in memory. -/
def arrivedAt (s : State) (x : Iss) : State := s.putU x.u ((x.g.forbid x.lanes).setSlot x.b
  (((x.g.forbid x.lanes).slot x.b).map (fun p => { p with wait := some (.barrier (s.genOf x.g)) })))

def twoGroups : State := { onGrp id (fun k => { k with units := [some 0, some 1] }) with units := [(0, grp8), (1, grp8)] }

theorem witness_barG : Meets .barG grp (fun s x => x.g.gang = some 3 ∧ find s.gangs 3 = some gang3
      ∧ (arrivedAt s x).barrierFull gang3 = true)
    ∧ Meets .barG twoGroups (fun s x => x.g.gang = some 3 ∧ find s.gangs 3 = some { gang3 with units := [some 0, some 1] }
      ∧ (arrivedAt s x).barrierFull { gang3 with units := [some 0, some 1] } = false)
    ∧ Meets .barG (onGrp (fun g => { g with gang := none }) id) (fun _ x => x.g.gang = none)
    ∧ Meets .barL (onGrp (fun g => { g with slotB := some { pc := 64, mask := 0x100 } }) id) (fun _ x => x.g.reconverged = false)
    ∧ Meets .barLYield (onGrp (fun g => { g with slotB := some { pc := 64, mask := 0x100 } }) id)
      (fun _ x => x.g.reconverged = false) := by
  refine ⟨?_, ?_, ?_, ?_, ?_⟩ <;> exact meets_of (by decide +kernel)

theorem witness_barL : ∀ e ∈ [(Instr.barL, inLaunch [(46, capTo 0x8000)] [some 0] id, false, true),
      (.barLYield, inLaunch [(46, capTo 0x8000)] [some 0] id, true, true),
      (.barLYield, inLaunch [(46, capTo 0x8000)] [some 0] (fun s => { s with marks := [(0, ⟨9, 0⟩)] }), true, true),
      (.barL, { inLaunch [(46, capTo 0x8000)] [some 0, some 1] id with units := [(0, { grp8 with launch := some 1 }), (1, grp8)] }, false, false)],
    meets e.1 e.2.1 (fun s x => x.g.reconverged = true ∧ x.g.gang = some 3 ∧
      (match find s.gangs 3, find s.launches 1 with
        | some k, some l => k.launch == some 1 && (match x.recordPlaces s l k with
            | .ok _ => true
            | .error _ => false) && (s.launchBarFull k x.u e.2.2.1 == e.2.2.2) && !(s.matrixBusy 3)
        | _, _ => false) = true) = true := by decide +kernel

/-- BarriersAndExit: the last path of a group of no gang, the last path of its gang, and one path of two. -/
theorem witness_exit : Meets .exit (onGrp (fun g => { g with gang := none }) id) (fun _ x => x.g.gang = none)
    ∧ Meets .exit grp (fun s x => x.g.gang = some 3
      ∧ (((lanesOf x.width x.p.mask).foldl (fun g l => g.setTxn l {}) x.g).exitPath (s.genOf x.g) x.b).ended = true
      ∧ (x.lastOut s (((lanesOf x.width x.p.mask).foldl (fun g l => g.setTxn l {}) x.g).exitPath (s.genOf x.g) x.b) = false
        ∨ s.matrixBusy 3 = false))
    ∧ Meets .barLYield (onGrp (fun g => { g with gang := none }) id) (fun _ x => x.g.reconverged = true ∧ x.g.gang = none)
    ∧ Meets .barL (onGrp (fun g => { g with gang := none }) id) (fun _ x => x.g.reconverged = true ∧ x.g.gang = none)
    ∧ Meets .exit (onGrp (fun g => { g with slotB := some { pc := 64, mask := 0x100 } }) id) (fun s x => x.g.gang = some 3
      ∧ (((lanesOf x.width x.p.mask).foldl (fun g l => g.setTxn l {}) x.g).exitPath (s.genOf x.g) x.b).ended = false) := by
  refine ⟨?_, ?_, ?_, ?_, ?_⟩ <;> exact meets_of (by decide +kernel)

/-- FencesAndBatches: LWAITP in a launch with no predecessor left. -/
theorem witness_lwaitp : Meets .lwaitp (inLaunch [] [some 0] id) (fun s x => x.g.launch = some 1 ∧ find s.launches 1 = some (lau [])
    ∧ (lau []).aborted = none ∧ ∀ p ∈ s.preds (lau []), s.reached p.2 = true) := meets_of (by decide +kernel)

/-- ReservationsAndMasks. -/
theorem witness_reservations : Meets (.cres 3#5 96#7) (onGrp (fun g => { g with s := [(0, 0x01000000), (1, 0x1000), (2, 0x200000)] }) id)
      (fun s x => x.g.gang = some 3 ∧ find s.gangs 3 = some gang3 ∧ resOk (x.g.rd4 96#7 0) gang3.cribLen = true)
    ∧ Meets (.crel 3#5) grp (fun s x => x.g.gang = some 3 ∧ find s.gangs 3 = some gang3)
    ∧ Meets (.czero 3#5) grp (fun s x => x.g.gang = some 3 ∧ find s.gangs 3 = some gang3 ∧ (look 0 gang3.res 3).getLsbD 86 = false)
    ∧ Meets (.czero 0#5) (onGrp id (fun k => { k with res := [(0, 1#128 <<< 86)] })) (fun s x => x.g.gang = some 3
      ∧ find s.gangs 3 = some { gang3 with res := [(0, 1#128 <<< 86)] }
      ∧ (look 0 ({ gang3 with res := [(0, 1#128 <<< 86)] } : Gang).res 0).getLsbD 86 = true) := by
  refine ⟨?_, ?_, ?_, ?_⟩ <;> exact meets_of (by decide +kernel)

theorem witness_masks : ∀ i ∈ [Instr.mrow 96#7, .mcol 96#7, .sieveRd 1#7 2#7, .sieveCfg 96#7 0#4, .sieveClr], Meets i grp always :=
  runs_all (by decide +kernel)

/-- LoftHandles: a handle that is free, one that the context holds, in the state asked for, and one of another context. -/
def withHandle (st : Nat) (owner : Option Nat) : State :=
  (onGrp (fun g => { g with s := [(1, 64)] }) id).setHandle 0 0 { bits := BitVec.ofNat 384 (2 ^ 44 + 2 ^ 34 + 2 ^ 68 + st * 2 ^ 73), holder := owner }

theorem witness_lhset : Meets (.lhset 96#7 97#7) ((withHandle 0 none).scrW 3 64 48 (2 ^ 44 + 2 ^ 34 + 2 ^ 68)) (fun s x =>
    let h := s.handle (unitCore x.u) ((x.g.rd 96#7 0).toNat % 64)
    (h.holder = none ∨ h.holder = x.g.ctx) ∧ hState h ≠ 3 ∧ hState h ≠ 1
      ∧ s.loftBusy (unitCore x.u) ((x.g.rd 96#7 0).toNat % 64) = false ∧ x.scrFault s 16 false (x.three 97#7) = none
      ∧ (let cs := (x.three 97#7).map (fun c => s.swept x.g.vd (s.scrCap x.gangNo c.off.toNat))
        handleOk ⟨BitVec.ofNat 384 (cs.foldr (fun c n => c.bits.toNat + 2 ^ 128 * n) 0), (cs.getD 2 Cap.null).tag,
          (cs.getD 1 Cap.null).tag, x.g.ctx⟩ = true)) := meets_of (by decide +kernel)

def mine (s : State) (x : Iss) : Bool :=
  x.g.ctx.isSome && (s.handle (unitCore x.u) ((x.g.rd 96#7 0).toNat % 64)).holder == x.g.ctx
    && !(s.handleErr (unitCore x.u) ((x.g.rd 96#7 0).toNat % 64))
def hst (s : State) (x : Iss) : Nat := hState (s.handle (unitCore x.u) ((x.g.rd 96#7 0).toNat % 64))

theorem witness_handles : Meets (.lhsetRel 96#7) (withHandle 2 (some 5)) (fun s x => mine s x = true ∧ hst s x ≠ 3 ∧ hst s x ≠ 1
      ∧ s.loftBusy (unitCore x.u) ((x.g.rd 96#7 0).toNat % 64) = false)
    ∧ Meets (.lhpin 96#7) (withHandle 2 (some 5)) (fun s x => mine s x = true ∧ 2 ≤ hst s x)
    ∧ Meets (.lhunpin 96#7) (withHandle 3 (some 5)) (fun s x => mine s x = true ∧ hst s x = 3)
    ∧ Meets (.lhunpin 96#7) (withHandle 2 (some 5)) (fun s x => mine s x = true ∧ hst s x ≠ 3)
    ∧ (∀ i ∈ [Instr.lhsetRel 96#7, .lhpin 96#7, .lhunpin 96#7, .lhget 96#7 97#7],
      meets i (withHandle 2 (some 6)) (fun s x =>
        (s.handle (unitCore x.u) ((x.g.rd 96#7 0).toNat % 64)).holder = none
          ∨ (s.handle (unitCore x.u) ((x.g.rd 96#7 0).toNat % 64)).holder ≠ x.g.ctx) = true
      ∧ meets i { withHandle 2 (some 5) with errs := [(3, 2 ^ 41)] } (fun s x => x.g.ctx ≠ none
        ∧ (s.handle (unitCore x.u) ((x.g.rd 96#7 0).toNat % 64)).holder = x.g.ctx
        ∧ s.handleErr (unitCore x.u) ((x.g.rd 96#7 0).toNat % 64) = true) = true)
    ∧ Meets (.lhget 96#7 97#7) (withHandle 0 (some 5)) (fun s x => mine s x = true ∧ x.scrFault s 16 true (x.three 97#7) = none) := by
  refine ⟨?_, ?_, ?_, ?_, by decide +kernel, ?_⟩ <;> exact meets_of (by decide +kernel)

/-- An operand of a tile instruction passes its checks, and `h` holds of the state after the access and its key. -/
def opAt (s : State) (x : Iss) (q : BitVec 4) (n perm : Nat) (write : Bool) (h : State → Nat → Bool) : Bool :=
  match capCheck (x.g.qr q.toNat) 0 n perm with
  | .error _ => false
  | .ok va => va % n == 0 && match locate s x.ag { r := true, w := write } va n with
      | .error _ => false
      | .ok pl => (x.gate s false [⟨x.low, pl⟩]).isNone && h (s.touch x.ag write pl) (pl.keys.headD 0)

def opThen (s : State) (x : Iss) (q : BitVec 4) (n perm : Nat) (h : State → Iss → Nat → Bool) : Bool :=
  match capCheck (x.g.qr q.toNat) 0 n perm with
  | .error _ => false
  | .ok va => va % n == 0 && match locate s x.ag { r := true, w := true } va n with
      | .error _ => false
      | .ok pl => (x.gate s false [⟨x.low, pl⟩]).isNone && h (s.touch x.ag true pl) (x.saw pl) (pl.keys.headD 0)

/-- TileForms: a descriptor of a class at 0x1000, reached through q1; its recipe at 0x2000, through q2; a source at 0x5000. -/
def tile0 : Tile :=
  { aspace := .boot, desc := 0x1000, descVa := 0x1000, lo := 0x3000, len := 16, die := 0, slice := 3, vd := 1, ctx := some 5 }

def tileSt (cls : Nat) (m : State → State) : State :=
  let s := onGrp (fun g => { g with q := [(0, rootCap), (1, capTo 0x1000), (2, capTo 0x2000)] }) id
  m ((s.wn 0x1000 64 (descOf cls 0x3000)).capPut 0x1000 (capTo 0x3000))

/-- The descriptor in one of its STATEs, registered, with a recipe whose PINS are `pins`. -/
def regTile (st pins : Nat) (s : State) : State :=
  (({ s with tiles := [tile0] }.setTileState 0x1000 st).capPut (0x1000 + 48) (capTo 0x2000)).rawW (0x2000 + 120) 2 pins

/-- An address space of one 2 MiB page at 0 with affinity slice 3, its tables at 0x10000. -/
def paged (s : State) : State :=
  let t := ((s.wn 0x10000 16 (1 + 0x11000)).wn 0x11000 16 (1 + 0x12000)).wn 0x12000 16
    (3 + 2 ^ 72 + 2 ^ 73 + 2 ^ 74 + 2 ^ 76 + 2 ^ 77 + 3 * 2 ^ 78 + 2 ^ 89)
  { t with units := t.units.map (fun e => (e.1, { e.2 with aspace := .tables 0x10000 false 1 1 })) }

/-- The leaf by the `n`th of the cached entries, or by a walk from ROOT. -/
def leafPick (s : State) (ag : Ag) (root : Nat) (prot : Bool) (vd asid va n : Nat) : Except Fail (Nat × Nat) :=
  match (s.cached ag asid va)[n]? with
  | none => (walkFrom s prot vd asid va 4 root).1
  | some c =>
      if s.entryStops prot vd c.level c.addr c.addr c.bits.toNat then .error ⟨0x08, c.level, va⟩
      else if bit c.bits.toNat 1 then .ok (c.bits.toNat, c.level)
      else (walkFrom s prot vd asid va (c.level - 1) (fld c.bits.toNat 8 48 * 256)).1

/-- The leaf of a translation is known where every cached entry and the walk give the same. -/
theorem leafFor_fst {s : State} {ag : Ag} {root vd asid va : Nat} {prot : Bool} {r : Except Fail (Nat × Nat)}
    (h : ∀ n ≤ (s.cached ag asid va).length, leafPick s ag root prot vd asid va n = r) :
    (leafFor s ag root prot vd asid va).1 = r := by
  unfold leafFor
  split
  · next e => rw [← h 0 (by simp)]; simp [leafPick, e]
  · next t l e =>
    generalize Config.freePick s.free (va + 2 ^ 64 * ag.lane) = m
    have hm := Nat.mod_lt m (show 0 < l.length + 2 by omega)
    have hk := h (m % (l.length + 2)) (by rw [e]; simp only [List.length_cons]; omega)
    rw [← hk, leafPick, e]
    cases (t :: l)[m % (l.length + 2)]? with
    | none => rfl
    | some c => dsimp only; split; · rfl
                split <;> rfl

/-- The storage at 0x3000 of a REGROW tile whose descriptor has been read through its page. -/
def pagedTouched : State :=
  let s := tileSt 1 paged
  match s.issuer (wordOf (.tdesc 97#7 1#4)) with
  | none => s
  | some x => match locate s x.ag { r := true, w := true } 0x1000 64 with
    | .error _ => s
    | .ok pl => s.touch x.ag true pl
def pagedAg : Ag := { vd := 1, aspace := .tables 0x10000 false 1 1, ctx := some 5, core := some 0, who := 0 }

theorem witness_storage : pagedTouched.storageOf pagedAg (pagedTouched.descAt 0x1000) = some (0x3000, 0, 3)
    ∧ pagedTouched.sliceFull 0 3 1 (pagedTouched.descAt 0x1000).extent = false := by
  refine ⟨?_, by decide +kernel⟩
  have hl : (leafFor pagedTouched pagedAg 0x10000 false 1 1 (pagedTouched.descAt 0x1000).base.cursor).1
      = .ok (3 + 2 ^ 72 + 2 ^ 73 + 2 ^ 74 + 2 ^ 76 + 2 ^ 77 + 3 * 2 ^ 78 + 2 ^ 89, 2) := by
    refine leafFor_fst ?_
    have hn : (pagedTouched.cached pagedAg 1 (pagedTouched.descAt 0x1000).base.cursor).length ≤ 7 := by decide +kernel
    have hp : ∀ n < 8, leafPick pagedTouched pagedAg 0x10000 false 1 1 (pagedTouched.descAt 0x1000).base.cursor n
        = .ok (3 + 2 ^ 72 + 2 ^ 73 + 2 ^ 74 + 2 ^ 76 + 2 ^ 77 + 3 * 2 ^ 78 + 2 ^ 89, 2) := by decide +kernel
    exact fun n h => hp n (by omega)
  unfold State.storageOf Sys2Proof.Machine.translate
  simp only [pagedAg] at hl ⊢
  rw [hl]
  decide +kernel

theorem witness_tdesc : Meets (.tdesc 97#7 1#4) (tileSt 0 id) (fun s x => opAt s x 1#4 64 (pLOAD ||| pSTORE ||| pLOADCAP) true (fun t k =>
      (t.descAt k).ok && (t.tileOf k).isNone && (t.descAt k).cls == 0) = true)
    ∧ Meets (.tdesc 97#7 1#4) (tileSt 1 paged) (fun s x => opAt s x 1#4 64 (pLOAD ||| pSTORE ||| pLOADCAP) true (fun t k =>
      (t.descAt k).ok && (t.tileOf k).isNone && (t.descAt k).cls != 0
        && decide (t = pagedTouched ∧ x.ag = pagedAg ∧ k = 0x1000 ∧ x.g.vd = 1)) = true)
    ∧ Meets (.tdescRel 97#7 1#4) (tileSt 1 (regTile 0 0)) (fun s x => opAt s x 1#4 64 (pLOAD ||| pSTORE ||| pLOADCAP) true (fun t k =>
      (t.descAt k).ok && t.tileOf k == some tile0 && !(t.tileHeld tile0) && tileState t k != 2) = true) := by
  refine ⟨?_, ?_, ?_⟩ <;> exact meets_of (by decide +kernel)

/-- A recipe record at 0x2000 of a 1 × 1 × 1 grid whose OUT names the tile and whose first source is a PLAIN tile. -/
def recipe0 (s : State) : State :=
  let s := ({ s with tiles := [tile0] }.wn 0x2000 128 (2 ^ 896 + 2 ^ 912 + 2 ^ 928)).capPut 0x2010 (capTo 0x1000)
  ((s.capPut 0x2020 (capTo 0x5000)).wn 0x5000 64 (descOf 0 0x6000)).capPut 0x5000 (capTo 0x6000)

theorem witness_recipe : Meets (.recipe 97#7 1#4 2#4) (tileSt 1 recipe0) (fun s x =>
    opThen s x 1#4 64 (pLOAD ||| pSTORE ||| pLOADCAP ||| pSTORECAP) (fun s1 y k =>
      opThen s1 y 2#4 128 (pLOAD ||| pSTORE ||| pLOADCAP) (fun t _ r =>
        recFormOk (t.recBits r) && ((t.recCaps x.g.vd r).getD 1 Cap.null).cursor == (x.g.qr 1).cursor
          && (t.tileOf k).isSome && (t.descAt k).cls == 1 && (t.recipeOf k).isNone
          && t.recipeDepth y.ag (sourcesOf (t.recCaps x.g.vd r)) == some 1)) = true) := meets_of (by decide +kernel)

theorem witness_pins : Meets (.tpin 97#7 1#4) (tileSt 1 (regTile 0 65534)) (fun s x => opAt s x 1#4 64 (pLOAD ||| pSTORE) true (fun t k =>
      (t.descAt k).cls == 1 && t.tileOf k == some tile0 && t.recAt tile0 == some 0x2000 && recPins t 0x2000 != 65535) = true)
    ∧ Meets (.tunpin 97#7 1#4) (tileSt 1 (regTile 0 1)) (fun s x => opAt s x 1#4 64 (pLOAD ||| pSTORE) true (fun t k =>
      t.tileOf k == some tile0 && t.recAt tile0 == some 0x2000 && recPins t 0x2000 != 0) = true)
    ∧ Meets (.tdrop 97#7 1#4) (tileSt 1 (regTile 0 0)) (fun s x => opAt s x 1#4 64 (pLOAD ||| pSTORE) true (fun t k =>
      t.tileOf k == some tile0 && tileState t k == 0 && !(t.tileHeld tile0)) = true)
    ∧ Meets (.tdrop 97#7 1#4) (tileSt 1 (regTile 1 0)) (fun s x => opAt s x 1#4 64 (pLOAD ||| pSTORE) true (fun t k =>
      t.tileOf k == some tile0 && tileState t k == 1) = true)
    ∧ Meets (.tprobe 97#7 1#4) (tileSt 1 (regTile 0 0)) (fun s x => opAt s x 1#4 64 pLOAD false (fun _ _ => true) = true)
    ∧ Meets .regrown (onGrp id (fun k => { k with regrow := some 0x1000 })) (fun s x => x.g.gang = some 3
      ∧ find s.gangs 3 = some { gang3 with regrow := some 0x1000 } ∧ (some 0x1000 : Option Nat) ≠ none)
    ∧ Meets .regrown (onGrp (fun g => { g with gang := none }) id) (fun _ x => x.g.gang = none) := by
  refine ⟨?_, ?_, ?_, ?_, ?_, ?_, ?_⟩ <;> exact meets_of (by decide +kernel)

/-- Messages: an endpoint at 0x8000 through q1, and what waits there: group 1. -/
def epSt (c : Cap) (w : Option Wait) (m : State → State) : State :=
  m { onGrp (fun g => { g with q := [(0, rootCap), (1, c)] }) id with
    objs := [objOf 1 0x8000]
    units := [(0, { grp8 with q := [(0, rootCap), (1, c)] }), (1, { grp8 with slotA := some { pc := 64, mask := 0xFF, wait := w } })] }

def epCap : Cap := objCap 1 0x8000 65535 0x0260

def sends (s : State) (x : Iss) : Bool :=
  objCheck (x.g.qr 1) 1 pSEND == .ok 0x8000 && (s.replyOf (x.g.qr 1)).isNone && (farModule (s.objId 1 x.g.vd 0x8000)).isNone && !(s.resetEp x.g.vd 0x8000)

theorem witness_send : ∀ i ∈ [Instr.send 97#7 96#7 1#4, .nbsend 97#7 96#7 1#4, .reply 97#7 96#7 1#4, .callMsg 97#7 96#7 1#4],
    meets i (epSt epCap (some (.receiving 0x8000 0 3)) id) (fun s x => sends s x = true
      ∧ (s.receiver (s.objId 1 x.g.vd 0x8000)).isSome = true) = true
    ∧ meets i (epSt epCap none id) (fun s x => sends s x = true ∧ s.receiver (s.objId 1 x.g.vd 0x8000) = none) = true := by
  decide +kernel

/-- A reply capability whose caller, group 1, waits. -/
def replySt : State := epSt (replyBits 0x9000) (some (.calling 0 3)) (fun s =>
  { s with replies := [(0, { dest := .path 1 false, server := none, base := 0x9000 })] })

theorem witness_reply : ∀ i ∈ [Instr.send 97#7 96#7 1#4, .nbsend 97#7 96#7 1#4, .reply 97#7 96#7 1#4, .callMsg 97#7 96#7 1#4],
    meets i replySt (fun s x => objCheck (x.g.qr 1) 1 pSEND = .ok 0x9000
      ∧ s.replyOf (x.g.qr 1) = some (0, { dest := .path 1 false, server := none, base := 0x9000 })
      ∧ ((s.putU x.u x.g).answer 1 0 { dest := .path 1 false, server := none, base := 0x9000 }
        (s.message x.g (isControl x.u) (x.g.rd 96#7 0).toNat 0)).2 = true) = true := by decide +kernel

/-- A message of no path, queued at the endpoint. -/
def post0 : Post := ⟨0x8000, 0, { badge := 0, words := [7], caps := [] }, none⟩

theorem witness_recv : Meets (.recv 97#7 1#4) (epSt epCap none (fun s => { s with posts := [post0] })) (fun s x =>
      objCheck (x.g.qr 1) 1 pRECV = .ok 0x8000 ∧ s.sender (s.objId 1 x.g.vd 0x8000) = none
        ∧ s.posts.find? (fun p => p.ep == s.objId 1 x.g.vd 0x8000) = some post0)
    ∧ Meets (.recv 97#7 1#4) (epSt epCap none id) (fun s x =>
      objCheck (x.g.qr 1) 1 pRECV = .ok 0x8000 ∧ s.sender (s.objId 1 x.g.vd 0x8000) = none
        ∧ s.posts.find? (fun p => p.ep == s.objId 1 x.g.vd 0x8000) = none) := by
  refine ⟨?_, ?_⟩ <;> exact meets_of (by decide +kernel)

/-- An endpoint (otype 1) or notification (2) that lies at peer 4, before it is lost and after. -/
def farSt (ot : Nat) (lost : List Nat) : State :=
  epSt (objCap ot 0x8000 1 0x0260) none (fun s => { s with far := [(1, ot, 0x8000, 4)], lost := lost, objs := [] })

theorem witness_far : (∀ i ∈ [Instr.send 97#7 96#7 1#4, .nbsend 97#7 96#7 1#4, .reply 97#7 96#7 1#4, .callMsg 97#7 96#7 1#4],
    ∀ l ∈ [[], [4]], meets i (farSt 1 l) (fun s x => objCheck (x.g.qr 1) 1 pSEND = .ok 0x8000 ∧ s.replyOf (x.g.qr 1) = none
      ∧ s.resetEp x.g.vd 0x8000 = false ∧ farModule (s.objId 1 x.g.vd 0x8000) = some 4 ∧ s.lost.contains 4 = !l.isEmpty
      ∧ (match s.pay x.ag (4, 0, 1) with
        | .ok _ => true
        | .error _ => false) = true) = true)
    ∧ Meets (.signal 1#4) (farSt 2 []) (fun s x => objCheck (x.g.qr 1) 2 pSEND = .ok 0x8000
      ∧ farModule (s.objId 2 x.g.vd 0x8000) = some 4 ∧ s.lost.contains 4 = false) :=
  ⟨by decide +kernel, meets_of (by decide +kernel)⟩

/-- Messages: a message and a word that a peer holds for this VD. Whether its endpoint has a receiver is a free value. -/
theorem witness_far_receives : (let s := farSt 1 []
      let id := s.objId 1 1 0x8000
      Meets (.recv 97#7 1#4) { s with posts := [{ post0 with ep := id }] } (fun s x => objCheck (x.g.qr 1) 1 pRECV = .ok 0x8000
        ∧ s.objId 1 x.g.vd 0x8000 = id ∧ farModule id = some 4 ∧ s.sender id = none
        ∧ s.posts.find? (fun p => p.ep == id) = some { post0 with ep := id }))
    ∧ (∀ w ∈ [0, 5], let s := farSt 2 []
      let id := s.objId 2 1 0x8000
      meets (.waitn 97#7 1#4) (s.rawW id 2 w) (fun s x => (x.g.qr 1).otype = 2 ∧ objCheck (x.g.qr 1) 2 pRECV = .ok 0x8000
        ∧ s.objId 2 x.g.vd 0x8000 = id ∧ farModule id = some 4 ∧ noteWord s id = w) = true) :=
  ⟨meets_of (by decide +kernel), by decide +kernel⟩

/-- Messages: a reply capability whose caller waits for it. -/
theorem witness_answer : let r : Reply := { dest := .path 1 false, server := none, base := 0x9000 }
    ∃ g p, r.dest = .path 1 false ∧ find replySt.units 1 = some g ∧ g.slot false = some p ∧ p.wait = some (.calling 0 3) :=
  ⟨_, _, rfl, rfl, rfl, rfl⟩

/-- A notification or an interrupt line at 0x8000, with a word. -/
def noteSt (ot w : Nat) : State :=
  { (epSt (objCap ot 0x8000 1 0x0060) none id).rawW 0x8000 2 w with objs := [objOf ot 0x8000] }

theorem witness_notes : Meets (.signal 1#4) (noteSt 2 0) (fun _ x => objCheck (x.g.qr 1) 2 pSEND = .ok 0x8000)
    ∧ (∀ ot ∈ [2, 5], meets (.waitn 97#7 1#4) (noteSt ot 0x8000) (fun s x => (x.g.qr 1).otype = ot
        ∧ objCheck (x.g.qr 1) ot pRECV = .ok 0x8000 ∧ noteWord s (s.objId ot x.g.vd 0x8000) ≠ 0) = true
      ∧ meets (.waitn 97#7 1#4) (noteSt ot 0) (fun s x => (x.g.qr 1).otype = ot
        ∧ objCheck (x.g.qr 1) ot pRECV = .ok 0x8000 ∧ noteWord s (s.objId ot x.g.vd 0x8000) = 0) = true) :=
  ⟨meets_of (by decide +kernel), by decide +kernel⟩

/-- KernelCalls. -/
def asLaunch (x : Iss) (cs : List Cap) : Launch :=
  { vd := x.g.vd, num := 0, ctx := 0, bits := recordBits cs, tags := recordTagBits cs, kern := x.g.kern, aspace := x.g.aspace,
    region := 0 }

theorem witness_spawn : Meets (.spawn 97#7 0#4) grp (fun s x => (match capCheck (x.g.qr 0) 0 768 pLOAD with
    | .error _ => false
    | .ok va => match placesFrom s x.ag { r := true } va 48 with
        | .error _ => false
        | .ok ps =>
            let cs := (s.getCaps ps).map (fun k => if (x.g.qr 0).has pLOADCAP then k else ⟨k.bits, false⟩)
            (x.gate s false (ps.map (fun p => ⟨x.low, p⟩))).isNone
              && !(s.intakeFull x.g.vd (asLaunch x cs).regionCap)) = true) := meets_of (by decide +kernel)

theorem witness_join : Meets (.join 98#7 0#4) grp (fun s x => onTl s x { r := true } (fun k =>
      decide ((x.g.rd2 98#7 0).toNat ≤ s.tlDone (k.pl.keys.headD 0))) = true)
    ∧ Meets (.join 96#7 0#4) (withS0 1) (fun s x => onTl s x { r := true } (fun k =>
      decide (s.tlDone (k.pl.keys.headD 0) < (x.g.rd2 96#7 0).toNat)) = true) := by
  refine ⟨?_, ?_⟩ <;> exact meets_of (by decide +kernel)

theorem witness_svc : Meets (.svc 4#7 8#7) ((epSt epCap none id).sysW 0x0011 0 0 0 0x8000)
    (fun s x => (x.serviceDie s).filter (fun k => (s.serviceEp k).isSome) = some 0) := meets_of (by decide +kernel)

theorem witness_revoke : Meets (.revoke 98#7 1#4) (regionSt id ctx0 id) (fun s x => objCheck (x.g.qr 1) 6 pREVOKE = .ok 0x4000
    ∧ s.obj? 6 x.g.vd 0x4000 = some region0 ∧ s.partOfVd x.g.vd = some 0
    ∧ s.marksIn 0 + (s.regionRanges region0.vd region0).length ≤ 4096) := meets_of (by decide +kernel)

/-- KernelCalls: a batch of two lanes, of the group that sleeps in it. -/
def batch0 : Batch :=
  { die := 0, vd := 1, unit := 0, slotB := false, rd := 92, mask := 3, entries := [(0, []), (63, [])], age := 0, slot := some 0 }

theorem witness_batch_done : let s : State := { onGrp (fun g => { g with slotA := some { pc := 64, mask := 3, wait := some (.service 0) } }) id with
      batches := [(0, batch0)] }
    ∃ g p, find s.batches 0 = some batch0 ∧ find s.units batch0.unit = some g ∧ g.slot batch0.slotB = some p
      ∧ p.wait = some (.service 0) ∧ p.link = none ∧ g.pick (s.genOf g) = none ∧ batch0.rd + 3 < 96
      ∧ (batch0.entries.map Prod.fst).Nodup ∧ (∀ l ∈ batch0.entries.map Prod.fst, l < 64) :=
  ⟨_, _, rfl, rfl, rfl, rfl, rfl, by decide +kernel⟩

/-- A region table of one range at 0x40000 that the region owns. -/
def ranged (s : State) : State := ((s.sysW 0x0101 0 1 0 0x40001).wn 0x40000 16 (2 ^ 64)).capPut 0x40010 (objCap 6 0x4000 0 0x0018)

/-- KernelCalls: REVOKE with no room among the marks, and with ranges that it has read. -/
theorem witness_marking : Meets (.revoke 98#7 1#4)
      (regionSt id ctx0 (fun s => { ranged s with rmarks := List.replicate 4096 { part := 0, vd := 1, epoch := 1, lo := 0, hi := 16 } }))
      (fun s x => objCheck (x.g.qr 1) 6 pREVOKE = .ok 0x4000 ∧ s.obj? 6 x.g.vd 0x4000 = some region0 ∧ s.partOfVd x.g.vd = some 0
        ∧ x.p.wait = none ∧ 4096 < s.marksIn 0 + (s.regionRanges region0.vd region0).length)
    ∧ Meets (.revoke 98#7 1#4)
      (regionSt (fun g => { g with slotA := some { pc := 64, mask := 0xFF, wait := some (.marking [(0, 16)]) } }) ctx0 id)
      (fun s x => objCheck (x.g.qr 1) 6 pREVOKE = .ok 0x4000 ∧ s.obj? 6 x.g.vd 0x4000 = some region0 ∧ s.partOfVd x.g.vd = some 0
        ∧ x.p.wait = some (.marking [(0, 16)]) ∧ s.marksIn 0 + 1 ≤ 4096) :=
  ⟨meets_of (by decide +kernel), meets_of (by decide +kernel)⟩

/-- SystemRegisters: the last die's register, a register of no number, a write of each kind. -/
def s0s (vs : List (Nat × Word)) (g : Grp) : Grp := { g with s := vs, v := vs.map (fun e => (64 * e.1, e.2)) }

theorem witness_sysrd : Meets (.sysrd 98#7 96#7) (ctl (fun g => { g with s := [(0, 0x130500)] }) id) (fun _ x =>
      x.sysRef (x.g.rd 96#7 0).toNat = some (0x0500, 19))
    ∧ Meets (.sysrd 98#7 96#7) (ctl (fun g => { g with s := [(0, 0x0677)] }) id) (fun _ x =>
      x.sysRef (x.g.rd 96#7 0).toNat = some (0x0677, 0) ∧ bankReg 0x0677 = true)
    ∧ Meets (.sysrd 98#7 96#7) (ctl (fun g => { g with s := [(0, 0x140500)] }) id) (fun _ x => x.sysRef (x.g.rd 96#7 0).toNat = none)
    ∧ Meets (.syswr 98#7 96#7 100#7) (ctl (fun g => { g with s := [(0, 0x0004)] }) id) (fun _ x =>
      x.sysRef (x.g.rd 96#7 0).toNat = none) := by
  refine ⟨?_, ?_, ?_, ?_⟩ <;> exact meets_of (by decide +kernel)

theorem witness_syswr : Meets (.syswr 98#7 96#7 100#7) (ctl (fun g => { g with s := [(0, 0x0408)] }) id) (fun s x =>
      x.sysRef (x.g.rd 96#7 0).toNat = some (0x0408, 0) ∧ x.sysDeny s 0x0408 0 (x.g.rd2 100#7 0).toNat = true)
    ∧ Meets (.syswr 98#7 96#7 100#7) (ctl id id) (fun s x =>
      x.sysRef (x.g.rd 96#7 0).toNat = some (0, 0) ∧ x.sysDeny s 0 0 (x.g.rd2 100#7 0).toNat = false ∧ sysReadOnly 0 = true)
    ∧ Meets (.syswr 98#7 96#7 100#7) (ctl (fun g => { g with s := [(0, 0x0501), (5, 1)] }) id) (fun s x =>
      x.sysRef (x.g.rd 96#7 0).toNat = some (0x0501, 0) ∧ x.sysDeny s 0x0501 0 (x.g.rd2 100#7 0).toNat = false
        ∧ sysReadOnly 0x0501 = false ∧ sysReserved 0x0501 (x.g.rd2 100#7 0).toNat = true)
    ∧ Meets (.syswr 98#7 96#7 100#7) (ctl (fun g => { g with s := [(0, 0x0501), (4, 0xFFFF_FFFF)] }) id) (fun s x =>
      x.sysRef (x.g.rd 96#7 0).toNat = some (0x0501, 0) ∧ x.sysDeny s 0x0501 0 (x.g.rd2 100#7 0).toNat = false
        ∧ sysReadOnly 0x0501 = false ∧ sysReserved 0x0501 (x.g.rd2 100#7 0).toNat = false) := by
  refine ⟨?_, ?_, ?_, ?_⟩ <;> exact meets_of (by decide +kernel)

theorem witness_tlb : ∀ i ∈ [Instr.tlbinv 96#7 98#7, .tlbinva 98#7, .tlbinvaAll, .ptwsync], Meets i kgrp always :=
  runs_all (by decide +kernel)

/-- SystemRegisters: a TLB invalidation with nothing to wait for, with a command that holds the page, and when that is done. -/
def heldCmd (fin : Bool) : Cmd :=
  { engine := .copy, unit := 0, slotB := false, lane := 0, pc := 64, gang := some 3, core := 0, ctx := some 5, vd := 1,
    aspace := .boot, launch := none, tl := 0x7000, seq := 1, arrive := some 64,
    body := .move 1 16 (.mem 0x2000) (.scr 128) 16 16 false false true, pages := [(0, 1, 0)], finished := fin }
def invSt (w : Option Wait) (fin : Bool) : State :=
  { onGrp (fun g => { g with level := .kernel, slotA := some { pc := 64, mask := 0xFF, wait := w } }) id with cmds := [(0, heldCmd fin)] }

theorem witness_invalidate : (∀ e ∈ [(Instr.tlbinv 96#7 98#7, pageCovers 0 0), (.tlbinva 98#7, fun e => e.1 == 0), (.tlbinvaAll, fun _ => true)],
      meets e.1 kgrp (fun s x => x.p.wait = none ∧ s.holders x.owns e.2 = ([], [])) = true
      ∧ meets e.1 (invSt none false) (fun s x => x.p.wait = none ∧ s.holders x.owns e.2 = ([0], [])) = true
      ∧ meets e.1 (invSt (some (.performed [0] [])) true) (fun s x => x.p.wait = some (.performed [0] [])
        ∧ s.performed [0] [] = true) = true) := by decide +kernel

/-- ContextCalls: the region's context in each state. -/
def named0 (s : State) (x : Iss) : Bool :=
  objCheck (x.g.qr 1) 6 pSPAWN == .ok 0x4000 && x.rootArg s 0x4000 == .ok region0

/-- The caller of the group in gang 3. -/
def caller0 : Caller := ⟨0, some 3, 0⟩

theorem witness_haltctx : ∀ i ∈ [Instr.haltctx 97#7 1#4, .haltctxSave 97#7 1#4],
    (∀ st ∈ [CState.running, .halting], ∀ cs ∈ [[], [(caller0, 1, false)]],
      let k : Ctx := { ctx0 with state := st, callers := cs }
      meets i (regionSt id k id) (fun s x => (named0 s x = true ∧ (s.openCtx 1 0x4000).2 = 5
          ∧ find (s.openCtx 1 0x4000).1.ctxs 5 = some k) ∧ k.answers.find? (fun e => e.1 == x.caller) = none
        ∧ k.callers.any (fun e => e.1 == x.caller) = !cs.isEmpty) = true)
    ∧ (∀ st ∈ [CState.saved, .halted], ∀ as ∈ [[], [(caller0, 3)]],
      let k : Ctx := { ctx0 with state := st, answers := as }
      meets i (regionSt id k id) (fun s x => (named0 s x = true ∧ (s.openCtx 1 0x4000).2 = 5
          ∧ find (s.openCtx 1 0x4000).1.ctxs 5 = some k) ∧ k.answers.find? (fun e => e.1 == x.caller) = as.head?) = true) := by
  decide +kernel

def knownIn (st : CState) (s : State) (x : Iss) : Bool :=
  named0 s x && s.ctxNo 1 0x4000 == some 5 && find s.ctxs 5 == some { ctx0 with state := st }

def withS (v : Word) (g : Grp) : Grp := { g with s := [(0, v)] }

theorem witness_resumectx :
    Meets (.resumectx 97#7 96#7 1#4) (regionSt (withS 0) { ctx0 with state := .halted } id) (fun s x =>
      knownIn .halted s x = true ∧ (s.vd? 1).hstate = 0 ∧ (x.g.rd 96#7 0).toNat = 0)
    ∧ Meets (.resumectx 97#7 96#7 1#4) (regionSt (withS 0) { ctx0 with state := .saved } id) (fun s x =>
      knownIn .saved s x = true ∧ (s.vd? 1).hstate = 0 ∧ (x.g.rd 96#7 0).toNat = 0)
    ∧ Meets (.resumectx 97#7 96#7 1#4) (regionSt (withS 1) { ctx0 with state := .halted } id) (fun s x =>
      knownIn .halted s x = true ∧ (s.vd? 1).hstate = 0 ∧ (x.g.rd 96#7 0).toNat = 1)
    ∧ Meets (.resumectx 97#7 96#7 1#4) (regionSt (withS 0x00FFFF05) { ctx0 with state := .saved } id) (fun s x =>
      knownIn .saved s x = true ∧ (s.vd? 1).hstate = 0 ∧ (x.g.rd 96#7 0).toNat = 5 + 255 * 256 + 255 * 65536
        ∧ ((s.putU x.u x.g).restoreCtx 5 255 255).isSome = true)
    ∧ Meets (.resumectx 97#7 96#7 1#4) (regionSt (withS 1) { ctx0 with state := .saved } (fun s => { s with saved := [(7, saved0)] }))
      (fun s x => knownIn .saved s x = true ∧ (s.vd? 1).hstate = 0 ∧ (x.g.rd 96#7 0).toNat = 1
        ∧ (s.putU x.u x.g).restoreCtx 5 (s.origin 5).1 (s.origin 5).2 = none)
    ∧ Meets (.resumectx 97#7 96#7 1#4) (regionSt id ctx0 id) (fun s x => knownIn .running s x = true) := by
  refine ⟨?_, ?_, ?_, ?_, ?_, ?_⟩ <;> exact meets_of (by decide +kernel)

theorem witness_image_calls : (∀ e ∈ [(CState.running, none), (.halted, none), (.halted, some (0x100000, 0x4000)), (.saved, some (0x100000, 0x4000))],
      let k : Ctx := { ctx0 with state := e.1, image := e.2 }
      meets (.stoprd 2#4 1#4) (regionSt id k id) (fun s x => named0 s x = true ∧ s.ctxNo 1 0x4000 = some 5 ∧ find s.ctxs 5 = some k) = true)
    ∧ (∀ e ∈ [(CState.saved, []), (.saved, [(0, 3, Late.reg 0 96 5 9)]), (.halted, [])],
      meets (.qdrain 97#7 1#4) (regionSt id { ctx0 with state := e.1 } (fun s => { s with flight := e.2, saved := [(3, saved0)] }))
        (fun s x => knownIn e.1 s x = true
          ∧ s.flight.any (fun e => ((find s.saved e.2.1).map (fun v => v.ctx)) == some 5) = !e.2.isEmpty) = true)
    ∧ find (regionSt id ctx0 (fun s => { s with saved := [(3, saved0)] })).saved 3 = some saved0 := by
  decide +kernel

theorem witness_eret : Meets (.eret 97#7 96#7 0#4) (ctl id id) (fun s x => isControl x.u = true ∧ (x.g.qr 0).tag = true
      ∧ (x.g.qr 0).otype = 0 ∧ (x.g.qr 0).has pEXEC = true ∧ x.g.bank = some {} ∧ s.rootVa x.g.vd = some 0x4000)
    ∧ Meets (.eret 97#7 96#7 5#4) (ctl id id) (fun _ x => isControl x.u = true ∧ (x.g.qr 5).tag = false)
    ∧ Meets (.eret 97#7 96#7 0#4) kgrp (fun _ x => isControl x.u = false) := by
  refine ⟨?_, ?_, ?_⟩ <;> exact meets_of (by decide +kernel)

/-- PolicyCalls: a program of one REJECT in memory at 0. -/
theorem witness_pload : Meets (.pload 97#7 96#7 0#4) ((kgrp.wn 0 16 1).wn 16 2 0x8800) (fun s x => x.part s = some (x.g.rd 96#7 0).toNat
      ∧ find s.parts (x.g.rd 96#7 0).toNat = some part0 ∧ part0.swap = [] ∧ capCheck (x.g.qr 0) 0 16 pLOAD = .ok 0
      ∧ (match locate s x.ag { r := true } 0 16, capCheck (x.g.qr 0) 0 18 pLOAD, locate s x.ag { r := true } 0 18 with
        | .ok ph, .ok _, .ok pl => (x.gate s false [⟨x.low, ph⟩]).isNone && s.rkeys ph.keys == 1 && (x.gate s false [⟨x.low, pl⟩]).isNone
            && wReject [fld (s.rkeys pl.keys) 128 16] == none
        | _, _, _ => false) = true)
    ∧ Meets (.pload 97#7 96#7 0#4) (onGrp (fun g => { withS 1 g with level := .kernel }) id)
      (fun s x => x.part s ≠ some (x.g.rd 96#7 0).toNat) := by
  refine ⟨?_, ?_⟩ <;> exact meets_of (by decide +kernel)

def part1 : Part := { part0 with shadow := some [0x8800] }

theorem witness_pswap : (∀ k ∈ [part1, part0, { part1 with answers := [(caller0, 0)] }, { part1 with swap := [(caller0, 1)] }],
      meets (.pswap 97#7 96#7) { kgrp with parts := [(0, k)] } (fun s x =>
        x.part s = some (x.g.rd 96#7 0).toNat ∧ find s.parts (x.g.rd 96#7 0).toNat = some k
          ∧ k.swap.any (fun e => e.1 == x.caller) = !k.swap.isEmpty ∧ k.answers.find? (fun e => e.1 == x.caller) = k.answers.head?
          ∧ (match find s.units x.u with
            | some g => (g.slot (!x.b)).isNone && (g.pick (s.genOf g)).isNone && x.p.mask.getLsbD x.low
            | none => false) = true) = true)
    ∧ part1.shadow ≠ none ∧ part0.shadow = none
    ∧ Meets (.pstat 98#7 96#7 4#7) kgrp (fun s x => x.part s = some (x.g.rd 96#7 0).toNat ∧ find s.parts (x.g.rd 96#7 0).toNat = some part0) := by
  refine ⟨by decide +kernel, by decide +kernel, rfl, meets_of (by decide +kernel)⟩

/-- PolicyCalls: the path that asked is in its slot, or in none. -/
theorem witness_slot_swap : ∀ w ∈ [some Wait.other, none],
    let g : Grp := { grp8 with slotA := some { pc := 64, mask := 0xFF, wait := w } }
    let k : Part := { part1 with swap := [(caller0, 1)] }
    let s : State := { onGrp (fun _ => g) id with parts := [(0, k)] }
    find s.parts 0 = some k ∧ k.swap = [(caller0, 1)] ∧ k.shadow ≠ none ∧ find s.units caller0.unit = some g
      ∧ g.gang = caller0.gang ∧ g.slot true = none
      ∧ ((match g.slot false with
        | some y => y.mask.getLsbD caller0.lane && y.wait == some .other
        | none => false) = w.isSome) := by decide +kernel

/-- ObjectCreation: the request in s0 and s1, memory or an object through q0 or q1. -/
def objSt (lo hi : Word) (m : State → State) : State :=
  regionSt (fun g => { g with s := [(0, lo), (1, hi)] }) ctx0 m

def creates (s : State) (x : Iss) (ok : Bool) : Bool :=
  let r := newObjOf (x.g.rd2 96#7 0).toNat
  r.mode == 0 && objType r.otype && (if r.otype = 8 ∨ r.otype = 9 then decide (1 ≤ r.count) && decide (r.count ≤ 64) else r.count == 0)
    && match x.objMem s (x.g.qr 0) (objSize r.otype r.count) (objAlign r.otype) with
      | .error _ => false
      | .ok ks => r.perms &&& (65535 - objPerms r.otype) == 0 && match s.initObj x.g.vd r.otype r.count ks with
          | .ok _ => ok
          | .error _ => !ok

theorem witness_objnew : Meets (.objnew 2#4 96#7 0#4) (objSt 2 0 id) (fun s x => creates s x true = true)
    ∧ Meets (.objnew 2#4 96#7 0#4) (objSt 8 64 id) (fun s x => creates s x false = true)
    ∧ Meets (.objnew 2#4 96#7 0#4) (objSt 2 0 (fun s => s.wn 0 16 0x10000)) (fun s x => creates s x false = true)
    ∧ Meets (.objnew 2#4 96#7 0#4) (objSt 7 0 id) (fun _ x =>
      (newObjOf (x.g.rd2 96#7 0).toNat).mode = 0 ∧ objType (newObjOf (x.g.rd2 96#7 0).toNat).otype = false)
    ∧ Meets (.objnew 2#4 96#7 1#4) (objSt 0x00051006 0x00080000 id) (fun _ x =>
      let r := newObjOf (x.g.rd2 96#7 0).toNat
      r.mode = 1 ∧ (x.g.qr 1).otype ≠ 0 ∧ (x.g.qr 1).tag = true ∧ (x.g.qr 1).otype = r.otype
        ∧ ((x.g.qr 1).cursor : Int) = (x.g.qr 1).base ∧ r.perms &&& (65535 - (x.g.qr 1).perms) = 0)
    ∧ Meets (.objnew 1#4 96#7 0#4) (objSt 0x2003 0 (fun s => { s with
        objs := [objOf 3 0x4000], units := s.units.map (fun e => (e.1, { e.2 with q := [(0, rootCap), (1, objCap 3 0x4000 0 0x0010)] })) }))
      (fun s x =>
        let r := newObjOf (x.g.rd2 96#7 0).toNat
        r.mode = 2 ∧ r.otype = 3 ∧ (x.g.qr 1).badge = 0 ∧ objCheck (x.g.qr 1) 3 pSPAWN = .ok 0x4000
          ∧ s.obj? 3 x.g.vd 0x4000 = some (objOf 3 0x4000) ∧ (match x.objMem s (x.g.qr 0) 16 16 with
            | .ok ks => fld (s.rkeys ks) 9 119 == 0
            | .error _ => false) = true) := by
  refine ⟨?_, ?_, ?_, ?_, ?_, ?_⟩ <;> exact meets_of (by decide +kernel)

/-- ObjectCreation: MINT of a badge past the top of a sealed capability of 16 bytes, and one of a badge inside it. -/
def mintSt (lo : Word) : State :=
  objSt lo 0x00020000 (fun s => { s with units := s.units.map (fun e => (e.1, { e.2 with
    q := [(1, ⟨capBits 0x4000 2 300 0 0x4000 16, true⟩)] })) })

theorem witness_mint_top : ∀ e ∈ [(0x0040112C#32, false), (0x0010112C#32, true)],
    Meets (.objnew 2#4 96#7 1#4) (mintSt e.1) (fun _ x =>
      let r := newObjOf (x.g.rd2 96#7 0).toNat
      let c := x.g.qr 1
      r.mode = 1 ∧ c.otype ≠ 0 ∧ c.tag = true ∧ c.otype = r.otype ∧ (c.cursor : Int) = c.base
        ∧ r.perms &&& (65535 - c.perms) = 0 ∧ decide (((c.cursor + r.badge : Nat) : Int) ≤ c.top) = e.2) := by
  intro e he
  rcases List.mem_cons.mp he with rfl | he
  · exact meets_of (by decide +kernel)
  · rcases List.mem_singleton.mp he with rfl
    exact meets_of (by decide +kernel)

/-- EngineEvents: the update of an arrival object, at the byte that fills it and one short of it. -/
theorem witness_arrival : (fld (16 * 2 ^ 32 + 15) 32 31 ≠ 0 ∧ fld (16 * 2 ^ 32 + 15) 32 31 ≤ fld (16 * 2 ^ 32 + 15) 0 31 + 1)
    ∧ (fld (16 * 2 ^ 32 + 14) 0 31 + 1 < fld (16 * 2 ^ 32 + 14) 32 31) ∧ fld 7 32 31 = 0 := by decide +kernel

def cmd0 : Cmd :=
  { engine := .copy, unit := 0, slotB := false, lane := 0, pc := 64, gang := some 3, core := 0, ctx := some 5, vd := 1,
    aspace := .boot, launch := none, tl := 0x7000, seq := 1, arrive := some 64,
    body := .move 1 16 (.mem 0x2000) (.scr 128) 16 16 false false true }

def withCmd (c : Cmd) : State := { grp with cmds := [(0, c)] }

theorem witness_pieces : find (withCmd cmd0).cmds 0 = some cmd0 ∧ cmd0.live = true ∧ cmd0.unstaged = true
    ∧ (withCmd cmd0).collPaused cmd0 = false ∧ (withCmd cmd0).piecesLeft cmd0 = [0]
    ∧ cmd0.did.length < (withCmd cmd0).total cmd0 ∧ (match cmdPiece (withCmd cmd0).draw 0 cmd0 0 with
      | .ok _ _ _ => true
      | _ => false) = true := by decide +kernel

theorem witness_complete : find (withCmd { cmd0 with did := [0, 1, 2] }).cmds 0 = some { cmd0 with did := [0, 1, 2] }
    ∧ ({ cmd0 with did := [0, 1, 2] } : Cmd).live = true ∧ ({ cmd0 with did := [0, 1, 2] } : Cmd).unstaged = true
    ∧ (withCmd { cmd0 with did := [0, 1, 2] }).pending { cmd0 with did := [0, 1, 2] } = 0
    ∧ (withCmd { cmd0 with did := [0, 1, 2] }).collPaused { cmd0 with did := [0, 1, 2] } = false
    ∧ (withCmd { cmd0 with did := [0, 1, 2] }).locked.contains (cmd0.tl / 16) = false
    ∧ (match cmdEnd (withCmd { cmd0 with did := [0, 1, 2] }) 0 { cmd0 with did := [0, 1, 2] } with
      | .ok t c' _ => c'.gang == some 3 && (find t.gangs 3).isSome
      | _ => false) = true := by decide +kernel

theorem witness_advance : let s := withCmd { cmd0 with finished := true }
    (1 : Nat) < 2 ^ 64 ∧ s.tlDone 0x7000 < 2 ^ 64 ∧ (∀ e ∈ s.cmds, e.2.tl = 0x7000 → (e.2.finished = true ↔ e.2.seq ≤ 1))
    ∧ (∃ e ∈ s.cmds, e.2.tl = 0x7000 ∧ e.2.seq = 1 ∧ e.2.told = false) := by decide +kernel

/-- EngineEvents: whether an error is met is a free value; both clauses are of this state. -/
theorem witness_engine_fault : find (withCmd cmd0).cmds 0 = some cmd0 ∧ cmd0.live = true ∧ cmd0.ctx = some 5 ∧ cmd0.regrow = none ∧ find (withCmd cmd0).ctxs 5 = some ctx0
    ∧ ctx0.state = .running := by decide +kernel

/-- MatrixEvents. -/
def op0 : MOp :=
  { unit := 0, gang := 3, core := 0, ctx := some 5, vd := 1, aspace := .boot, pc := 64, slotB := false, batch := 1, k := 1, set := 0 }
def set0 : MSet := { core := 0, openedAt := 0 }
def matrix (now : Nat) (st : MSet) : State := { grp with ops := [(0, op0)], sets := [(0, st)], now := now }

theorem witness_sets : (find (matrix 8 set0).sets 0 = some set0 ∧ set0.closed = none ∧ set0.openedAt + 8 ≤ (matrix 8 set0).now)
    ∧ (((matrix 7 set0).setOps 0).length < 16 ∧ (matrix 7 set0).now < set0.openedAt + 8)
    ∧ (let st : MSet := { set0 with closed := some 0 }
      (matrix 8 st).nextSet 0 = some (0, st) ∧ (matrix 8 st).setOps 0 = (0, op0) :: []
        ∧ (∀ e ∈ (matrix 8 st).setOps 0, e.2.stopped = false ∧ e.2.ctr = none
          ∧ (matrix 8 st).passErr e.2 (op0.s + st.passes) = none) ∧ op0.streamed = false) := by decide +kernel

theorem witness_results : ({ grp with results := [⟨0, 0, [(0, 5)], true⟩] } : State).results.find? (fun r => r.core == 0)
    = some ⟨0, 0, [(0, 5)], true⟩ := by decide +kernel

theorem witness_batch : let s := onGrp (fun g => { g with closed := [1] }) id
    find s.units 0 = some { grp8 with closed := [1] } ∧ ({ grp8 with closed := [1] } : Grp).ctx = some 5
    ∧ (∀ e ∈ s.ops, e.2.unit = 0 → some e.2.gang = grp8.gang → 32768 ≤ (1 + 65536 - e.2.batch) % 65536) := by decide +kernel

def tile1 : Tile :=
  { aspace := .boot, desc := 0x1000, descVa := 0x1000, lo := 0x3000, len := 16, die := 0, slice := 3, vd := 1, ctx := some 5 }
def regrow0 : Regrow := { ctx := 5, checked := true, pins := [0x5000] }
def regrowing (r : Regrow) : State := { grp with tiles := [tile1], regrows := [(0x1000, r)] }

theorem witness_regrow : (∀ r ∈ [regrow0, { regrow0 with pos := 1 }], find (regrowing r).regrows 0x1000 = some r
      ∧ (regrowing r).tileOf 0x1000 = some tile1 ∧ r.failed = none ∧ (regrowing r).ctxRuns r.ctx = true ∧ r.checked = true
      ∧ r.launched = false)
    ∧ (regrow0.pins[regrow0.pos]? = some 0x5000 ∧ tileState (regrowing regrow0) 0x5000 ≠ 1 ∧ tileState (regrowing regrow0) 0x5000 ≠ 2)
    ∧ ({ regrow0 with pos := 1 } : Regrow).pins.length ≤ ({ regrow0 with pos := 1 } : Regrow).pos
    ∧ (let r : Regrow := { regrow0 with launched := true }
      find (regrowing r).regrows 0x1000 = some r ∧ (regrowing r).regrowOver 0x1000 r = true) := by decide +kernel

/-- LaunchEvents: launch 1 waiting, with a predecessor or a predicate. -/
def launchSt (l : Launch) : State := { grp with launches := [(1, l)] }
def wait1 (caps : List (Nat × Cap)) : Launch := { lau caps with state := .waiting }

theorem witness_ready : (let l : Launch := { wait1 [] with aborted := some 0 }
      find (launchSt l).launches 1 = some l ∧ l.state = .waiting ∧ l.aborted ≠ none)
    ∧ (let l := wait1 [(20, capTo 0x140_0000_0000)]
      l.aborted = none ∧ ∃ p ∈ (launchSt l).preds l, p.2.1 = none)
    ∧ (let l := wait1 [(20, capTo 0x7000)]
      l.aborted = none ∧ (∀ p ∈ (launchSt l).preds l, p.2.1 ≠ none) ∧ (launchSt l).ready l = true ∧ l.predicate.isNull = true)
    ∧ (let l := wait1 [(24, capTo 0x7000)]
      l.predicate.isNull = false ∧ (launchSt l).dispatchWaits l ((launchSt l).predicatePlace l).toList = none
        ∧ (launchSt l).predicateWord l = some 0)
    ∧ (let l := wait1 [(24, capTo 0x140_0000_0000)]
      l.predicate.isNull = false ∧ (launchSt l).dispatchWaits l ((launchSt l).predicatePlace l).toList = none
        ∧ (launchSt l).predicateWord l = none)
    ∧ (let l := wait1 [(24, capTo 0x7000)]
      let s := (launchSt l).wn 0x7000 8 1
      s.dispatchWaits l (s.predicatePlace l).toList = none ∧ s.predicateWord l = some (0 + 1)) := by decide +kernel

/-- A queued launch of two gangs on die 0 of partition 0, the second to continue from its record. -/
def queued (acc : Bool) : Launch :=
  { lau [(47, capTo 0x8000)] with state := .queued, order := [0], toGo := [0, 1], resume := [1], accepted := acc }

def partSt (l : Launch) (prog : Option (List (BitVec 16))) : State :=
  { (launchSt l).sysW 0x0400 0 0 0 0 with parts := [(0, { part0 with active := prog })] }

theorem witness_dispatch : (partSt (queued true) none).passes 1 (queued true) = true
    ∧ ((partSt (queued true) none).whereTo 1 (queued true)).isSome = true
    ∧ (partSt (queued true) none).placeSaved 1 (queued true) = none ∧ (partSt (queued true) none).predGone (queued true) = false
    ∧ (partSt (queued true) none).somewhere 1 (queued true) = true
    ∧ (queued true).toGo.filter (fun g => (queued true).resume.contains g == false) ≠ []
    ∧ (queued true).toGo.filter (fun g => (queued true).resume.contains g == true) ≠ [] := by decide +kernel

theorem witness_end : let l : Launch := { lau [(25, capTo 0x7000), (26, capTo 0x7010)] with state := .done 1 }
    let s : State := { State.reset with launches := [(1, l)] }
    s.endStatus 1 l = some 1 ∧ l.statusCap.isNull = false ∧ l.compl.isNull = false
    ∧ (match locate s l.ag { w := true } l.statusCap.cursor 4 with
      | .ok p => (match locate s l.ag { r := true, w := true } l.compl.cursor 16,
          locate ((s.touch l.ag true p).wkeys p.keys (leBytes 1 4)) l.ag { r := true, w := true } l.compl.cursor 16 with
        | .ok q0, .ok _ => (p.granules ++ q0.granules).all (fun k => !(s.locked.contains k))
            && (s.meetTiles none (some l.ctx) none [p, q0]).isNone && (s.unserved l.ag [p, q0]).isNone
        | _, _ => false)
      | .error _ => false) = true := by decide +kernel

/-- Decisions: ACCEPT of queue w2 = 0, a run with no end, PREEMPT, FAULTACT KILL and DEFER. -/
theorem witness_decisions :
    (let s := partSt (queued false) (some [0x8200])
     s.dispatchDue 0 = true ∧ s.decideAct 0 0 none = .accept 0 ∧ s.head 0 0 = some (1, queued false))
    ∧ (let s := partSt (queued false) (some (List.replicate 300 0x1000))
      s.dispatchDue 0 = true ∧ s.decideAct 0 0 none = .overrun ∧ s.fallbackHead 0 = some 1)
    ∧ (let l : Launch := { queued false with kern := { grp8.kern with groups := 64, width := 64 } }
      let s := partSt l (some [0x9200])
      s.pressureDue 0 = (1, l) :: [] ∧ s.decideAct 0 1 none = .preempt 0 1 ∧ s.head 0 0 = some (1, l))
    ∧ (∀ e ∈ [((0x9800 : BitVec 16), WAct.faultact 0), (0xA000, .defer)],
      let k : Ctx := { ctx0 with decide := true }
      let s : State := { partSt (queued false) (some [e.1]) with ctxs := [(5, k)] }
      s.faultDue 0 = (5, k) :: [] ∧ s.decideAct 0 2 (some 5) = e.2)
    ∧ (let k : Ctx := { ctx0 with decide := true }
      let s : State := { partSt (queued false) (some (List.replicate 300 0x1000)) with ctxs := [(5, k)] }
      s.faultDue 0 = (5, k) :: [] ∧ s.decideAct 0 2 (some 5) = .overrun) := by decide +kernel

/-- HaltEvents: context 5 in a state, with the region above. -/
def haltSt (k : Ctx) (m : State → State) : State := m { grp with ctxs := [(5, k)], objs := [region0] }

theorem witness_actions :
    (let k : Ctx := { ctx0 with act := some (0, false) }
    find (haltSt k id).ctxs 5 = some k)
    ∧ (∀ c ∈ [CState.halted, .saved], let k : Ctx := { ctx0 with act := some (1, true), state := c }
      find (haltSt k id).ctxs 5 = some k)
    ∧ (let k : Ctx := { ctx0 with act := some (2, true), escalate := 0x4000 }
      ((haltSt k id).rootOf (((haltSt k id).regionLine k.vd k.escalate).drop 1)) = none)
    ∧ (let k : Ctx := { ctx0 with act := some (2, true), escalate := 0x4000 }
      let s := haltSt k (fun s => { s.capPut 0x4010 (objCap 6 0x8000 0 0x0018) with objs := [region0, objOf 6 0x8000] })
      s.rootOf ((s.regionLine k.vd k.escalate).drop 1) = some (objOf 6 0x8000)) := by decide +kernel

theorem witness_unit_stop : let k : Ctx := { ctx0 with state := .halting }
    find (haltSt k id).units 0 = some grp8 ∧ grp8.ctx = some 5 ∧ find (haltSt k id).ctxs 5 = some k ∧ grp8.stopped = false := by
  decide +kernel

theorem witness_image :
    let k : Ctx := { ctx0 with state := .halting }
    let s := haltSt k (fun s => { s.sysW 0x0600 0 0 0 0x200001 with units := [(0, { grp8 with stopped := true })] })
    s.allStopped 5 = true ∧ k.callers = [] ∧ k.more = []
      ∧ ((s.modCtx 5 (fun _ => k.promoted)).writeImage 5 k.promoted 0).any (fun t => (find t.ctxs 5).isSome) = true := by
  decide +kernel

/-- HaltEvents: a fault that waits in the stop records, and one that is already the first. -/
theorem witness_promoted : (let k : Ctx := { ctx0 with more := [(0, { code := 1, detail := 0, pc := 0 })] }
      k.fault = none ∧ k.more = (0, { code := 1, detail := 0, pc := 0 }) :: [])
    ∧ ({ ctx0 with fault := some { code := 1, detail := 0, pc := 0 } } : Ctx).fault ≠ none ∧ ctx0.more = [] := by decide +kernel

theorem witness_watchdogs :
    (let k : Ctx := { ctx0 with hang := [(0, 1024)], deadlock := 2 ^ 20 }
    let s := (haltSt k id).sysW 0x0500 0 0 0 1 |>.sysW 0x0501 0 0 0 1
    fld (s.sysR 0x0500 0 0 0).toNat 0 32 * 1024 ≠ 0 ∧ fld (s.sysR 0x0500 0 0 0).toNat 0 32 * 1024 ≤ look 0 k.hang 0
      ∧ fld (s.sysR 0x0501 0 0 0).toNat 0 32 * 2 ^ 20 ≠ 0 ∧ fld (s.sysR 0x0501 0 0 0).toNat 0 32 * 2 ^ 20 ≤ k.deadlock)
    ∧ fld (((haltSt ctx0 id).sysW 0x0500 0 0 0 0).sysR 0x0500 0 0 0).toNat 0 32 = 0
    ∧ fld (((haltSt ctx0 id).sysW 0x0501 0 0 0 0).sysR 0x0501 0 0 0).toNat 0 32 = 0 := by decide +kernel

theorem witness_restore : let k : Ctx := { ctx0 with restore := some (0, 0) }
    find (haltSt k id).ctxs 5 = some k ∧ ((haltSt k id).restoreCtx 5 0 0).isSome = true := by decide +kernel

/-- The group on a core marked for launch 2. -/
def marked (now : Nat) (f : Grp → Grp) : State :=
  { onGrp (fun g => f { g with launch := some 1 }) id with marks := [(0, { launch := 2, at_ := 0 })], now := now }

theorem witness_marked :
    (∀ n ∈ [16384, 16383], ((marked n id).markedGang 0).isSome = true)
    ∧ (let s := marked 0 id
      (match s.markedGang 0 with
        | some (gid, k, g, _) => g.reconverged && !g.vacate && !g.stopped && !((s.gangUnits k).all (fun e => e.2.vacate)) && (match g.slotA with
          | some p => p.hints.isEmpty && !p.hnd
          | none => false) && k.res.all (fun e => !(resValid e.2)) && !(s.matrixBusy gid) && s.cmds.isEmpty
        | none => false) = true)
    ∧ (let s : State := { marked 0 id with units := [] }
      find s.marks 0 = some { launch := 2, at_ := 0 }
        ∧ ∀ e ∈ s.units, isControl e.1 = true ∨ unitCore e.1 ≠ 0 ∨ e.2.level = .kernel) := by decide +kernel

theorem witness_landing : let e : Late := .reg 0 96 5 9
    (let s : State := { State.reset with flight := [(7, 3, e)], saved := [(3, saved0)] }
    s.flight.find? (fun e => e.1 == 7) = some (7, 3, e) ∧ find s.gangs 3 = none ∧ find s.saved 3 = some saved0)
    ∧ (let s : State := { grp with flight := [(0, 3, e)] }
    s.flight.find? (fun e => e.1 == 0) = some (0, 3, e) ∧ find s.gangs 3 = some gang3) := by
  decide +kernel

theorem witness_reentry_swap :
    (let g : Grp := { bootThread with level := .user, own := [(0x0601, 0x6000)] }
    let s := (core0 (fun _ => g)).wn 0x6000 8 1
    find s.units (81920 + 0) = some g ∧ g.slotA.isSome = true ∧ g.ownR 0x0601 ≠ 0 ∧ noteWord s (g.ownR 0x0601).toNat ≠ 0
      ∧ g.dead = false)
    ∧ (let g : Grp := { grp8 with sinceFill := 1024, stack := [(2, .deferred 128 0xF00 none none false none)], slotB := some { pc := 64, mask := 0xF0 }, lastB := true }
      ∃ p, g.slot g.lastB = some p ∧ g.ageDue 0 = true) := by
  refine ⟨by decide +kernel, { pc := 64, mask := 0xF0 }, by decide +kernel⟩

/-- ShareEvents: two requests at arbiter kind 3. -/
def twoReqs : State :=
  { grp with reqs := [⟨3, 0, 1, 1, 5, .flit⟩, ⟨3, 0, 2, 1, 4, .flit⟩], vds := [(1, { live := true }), (2, { live := true })] }

theorem witness_rounds :
    (let ok := (twoReqs.waiting 3 0).filter twoReqs.acceptable
    ∃ c ≤ 2, (∀ q ∈ ok, c ≤ twoReqs.classOf (twoReqs.waiting 3 0) q)
      ∧ oldestReq (ok.filter (fun q => twoReqs.classOf (twoReqs.waiting 3 0) q == c)) = some ⟨3, 0, 2, 1, 4, .flit⟩)
    ∧ (grp.waiting 3 0).filter grp.acceptable = []
    ∧ (grp.contenders 0 = [(0, grp8)] ∧ grp.issuable 0 grp8 = some false) := by decide +kernel

theorem witness_epochs :
    (let s : State := { grp with epochs := [(1, { last := 1 })] }
    s.partOfVd 1 = some 0 ∧ (look {} s.epochs 1).begun < (look {} s.epochs 1).last
      ∧ (look {} s.epochs 1).complete = (look {} s.epochs 1).begun)
    ∧ (let s : State := { grp with epochs := [(1, { last := 1, begun := 1 })] }
      (look {} s.epochs 1).complete < (look {} s.epochs 1).begun ∧ (look {} s.epochs 1).reset ≠ some 1 ∧ s.reqs = [])
    ∧ (let s : State := { grp with epochs := [(1, { residents := [9, 2 ^ 61 + 81920] })] }
      ∀ g ∈ (look {} s.epochs 1).residents, s.stays g = false)
    ∧ (let g : Glean := { vd := 1, num := 1 }
      let s : State := { grp with gleans := [g] }
      s.gleans = [g] ∧ g.vd = 1 ∧ s.reqs = [] ∧ (s.vd? 1).resetting = false)
    ∧ (let v : Vd := { live := true, resetting := true, frames := [(8, 1, false, 3)] }
      let s : State := { grp with vds := [(1, v)], reqs := [⟨6, 0, 2, 1, 4, .wipe 2 0⟩] }
      (s.vd? 1).resetting = true ∧ (look {} s.epochs 1).reset = none ∧ (∀ r ∈ s.reqs, r.what ≠ .wipe 1 0)
        ∧ find s.vds 1 = some v ∧ v.caller = none) := by decide +kernel

/-- SecurityEvents: the group of VD 1 has called an endpoint with words in s0 to s7 and an info word of eight words. -/
def calls (ep badge : Nat) (ws : List (Nat × Word)) (info : Nat := 0x800000) : State :=
  onGrp (fun g => { g with s := ws, slotA := some { pc := 64, mask := 1, wait := some (.sending (2 ^ 58 + ep) 0 true 9 info badge) } }) id

noncomputable def theCall (s : State) (badge : Nat) (info : Nat := 0x800000) : SecCall :=
  { u := 0, b := false, g := (find s.units 0).getD grp8, ticket := 0, rd := 9, badge := badge
    words := (s.message ((find s.units 0).getD grp8) false info badge).words
    caps := (s.message ((find s.units 0).getD grp8) false info badge).caps }

theorem asked_calls (ep badge : Nat) (ws : List (Nat × Word)) (info : Nat) :
    Asked (calls ep badge ws info) ep (theCall (calls ep badge ws info) badge info) := by
  refine ⟨rfl, ⟨0, false, 0, .sending (2 ^ 58 + ep) 0 true 9 info badge⟩, 2 ^ 58 + ep, info, ?_, rfl, rfl, rfl, rfl, rfl, rfl⟩
  simp [State.sender, State.parties, calls, onGrp, grp8, Grp.slot, firstParty]

theorem witness_security :
    (∀ n ∈ [1, 2, 3, 4, 5, 6, 7, 8, 9, 10, 11], (theCall (calls secEp 0 [(0, BitVec.ofNat 32 n)]) 0).m 0 = n)
    ∧ (let c := theCall (calls secEp 3 [(0, 4), (1, 2)]) 3
      c.m 0 = 4 ∧ c.m 1 + 1 = c.badge)
    ∧ (let c := theCall (calls secEp 3 [(0, 1), (1, 2)]) 3
      c.m 0 = 1 ∧ c.badge ≠ 0)
    ∧ (let s := calls secEp 0 [(0, 6), (1, 1)]
      s.resetStatus ((theCall s 0).m 1) = 0)
    ∧ (let s := calls secEp 0 [(0, 6), (1, 9)]
      s.resetStatus ((theCall s 0).m 1) ≠ 0)
    ∧ (∀ n ∈ [1, 2], (let c := theCall (calls pageEp 2 [(0, BitVec.ofNat 32 n)]) 2
        c.m 0 = n ∧ c.caps.length ≠ 1)
      ∧ (let s := calls pageEp 2 [(0, BitVec.ofNat 32 n)] 0x1800000
        let c := theCall s 2 0x1800000
        c.m 0 = n ∧ c.badge ≠ 0 ∧ c.words.length = 8 ∧ c.caps.length = 1 ∧ s.pageHeld c = false)) := by decide +kernel

/-- SecurityEvents: VDCREATE of VD 2 with frame 16, and CLAIM of frame 8 for VD 1; their erasure is to begin, or is over. -/
def claims (ws : List (Nat × Word)) (claim : Option Nat) : State :=
  let s := (calls secEp 0 ws).sysW 0x0400 0 0 0 0
  { s with vds := [(1, { live := true, claim := claim }), (2, { claim := claim })] }

theorem witness_claims : ∀ k ∈ [none, some 0],
    (let s := claims [(0, 2), (1, 2), (4, 16), (5, 1)] k
    let c := theCall s 0
    s.secHeld = false ∧ c.m 0 = 2 ∧ (s.vdcreateCall c).1.isSome = true ∧ (s.vd? (c.m 1)).claim = k)
    ∧ (let s := claims [(0, 3), (1, 1), (2, 8), (3, 1)] k
    let c := theCall s 0
    s.secHeld = false ∧ c.m 0 = 3 ∧ (s.claimCall c).1.isSome = true ∧ (s.vd? (c.m 1)).claim = k) := by decide +kernel

/-- SecurityEvents: a line that the gleaner erases. -/
theorem witness_wipe : (⟨6, 0, 1, 1, 0, .wipe 1 131072⟩ : Req).what = .wipe 1 131072 := rfl

theorem witness_handover :
    (let v : Vd := { live := true, hstate := 1 }
    let s : State := { State.reset with vds := [(1, v)] }
    find s.vds 1 = some v ∧ v.live = true ∧ v.hstate = 1 ∧ v.released = none)
    ∧ (let v : Vd := { live := true, hstate := 2, released := some (3, false) }
    let s : State := { State.reset with vds := [(1, v)] }
    find s.vds 1 = some v ∧ v.released ≠ none ∧ v.hstate = 2) := by decide +kernel

/-- ModuleEvents. -/
theorem witness_writes :
    let grp := grp.sysW 0x0400 0 0 0 0
    (let v := 2 ^ 48
    sysReserved 0x0105 v = false ∧ grp.glRange 1 v = true ∧ grp.gleanFull 1 = false)
    ∧ (sysReserved 0x0201 0 = false ∧ grp.partOfVd 1 ≠ none ∧ grp.bcfgBad 0 0 1 0 = false)
    ∧ (sysReserved 0x0210 (2 ^ 63 + 1) = false ∧ grp.lendOk 0 (2 ^ 63 + 1) = true)
    ∧ grp.claimedIn (channelLo 0 3) (channelLo 0 4) = false ∧ (0, 3, none) ∉ grp.retired
    ∧ (let s : State := { State.reset with vds := [(1, { live := true, frames := [(0, 1, false, 0)] })] }
      s.claimedIn (channelLo 0 0) (channelLo 0 1) = true)
    ∧ grp.partOfDie 19 = none ∧ grp.partOfDie 0 ≠ none ∧ (grp.sysW 0x0700 19 0 0 1).dieUp 19 = false
    ∧ fld ((State.reset.sysW 0x0700 3 0 0 2).sysR 0x0700 3 0 0).toNat 0 2 = 2 := by decide +kernel

/-- A die with no spare row left, whatever its number of them; and one with a spare row, if the hardware gives it any. -/
theorem witness_rows (die : Nat) :
    ({ State.reset with retired := List.replicate (Config.spareRows die % 2 ^ 16) (die, 0, some 0) } : State).spareHbm die = 0
    ∧ (Config.spareRows die % 2 ^ 16 ≠ 0 → State.reset.spareHbm die ≠ 0)
    ∧ (0 < Config.spareRows 20 % 2 ^ 16 → 0 < State.reset.spareLoft 0)
    ∧ (State.reset.handles.all (fun e => e.1 / 64 != 0 || e.2.holder.isNone)) = true := by
  refine ⟨?_, ?_, ?_, by decide +kernel⟩
  · simp [State.spareHbm]
  · intro h
    simpa [State.spareHbm, State.reset] using h
  · intro h
    simpa [State.spareLoft, State.reset] using h

theorem witness_firmware : (∀ n ∈ [0, 3], (State.reset.setFw n).fwState = n) ∧ (∀ n ∈ [1, 2], (State.reset.setFw n).fwState = n)
    ∧ (∀ e ∈ (State.reset.setFw 2).vds, e.2.caller = none ∧ e.2.claim = none) ∧ (State.reset.setFw 2).ctlBoundary = true
    ∧ State.reset.powered = true
    ∧ ({ State.reset with powered := false } : State).powered = false := by decide +kernel

/-- OutsideEvents. -/
def gets (f : Frame) (m : State → State) : State := m { grp with inbox := [f] }

/-- An address space at 0x4000 whose tables map the first gigabyte for VD 1, readable and writable. -/
def tabled (s : State) : State :=
  ((s.wn 0x4000 16 (0x10000 + 2 ^ 64)).wn 0x10000 16 (0x11000 + 1)).wn 0x11000 16 (3 + 2 ^ 72 + 2 ^ 73 + 2 ^ 89)

/-- An access of a peer reaches memory, and `h` holds of its place. -/
def reachesPl (s : State) (need : Need) (va size : Nat) (h : Place → Bool) : Bool :=
  let o := objOf 4 0x4000
  s.objs.filter (fun o => o.otype == 4 && o.vd == 1) == [o] && match locate s (peerAg 1 (s.aspaceOf o)) need va size with
    | .ok pl => pl.peer.isNone && !(pl.granules.any s.locked.contains) && (s.meetTiles none none none [pl]).isNone
        && (s.unserved (peerAg 1 (s.aspaceOf o)) [pl]).isNone && h pl
    | .error _ => false

def peerSt (f : Frame) : State := gets f (fun s => { tabled s with objs := [objOf 4 0x4000] })

theorem witness_frames :
    (∀ f ∈ [Frame.link 0 1 false false, .link 0 1 true true], (gets f id).inbox = f :: [] ∧ (gets f id).linkDown.contains 1 = false)
    ∧ (gets (.link 0 1 true false) (fun s => { s with linkDown := [1] })).linkDown.contains 1 = true
    ∧ (let s := gets (.link 0 0 true false) id
      s.linkDown.contains 0 = false ∧ bit (s.sysR 0x0401 0 0 0).toNat 0 = false)
    ∧ (gets (.reset 4 1) id).inbox = .reset 4 1 :: []
    ∧ reachesPl (peerSt (.store 1 0x6000 [1, 2])) { w := true } 0x6000 2 (fun _ => true) = true
    ∧ reachesPl (peerSt (.load 1 4 0x6000 4)) { r := true } 0x6000 4 (fun _ => true) = true
    ∧ reachesPl (peerSt (.atomic 1 4 0x6000 4 0 7 0)) { r := true, w := true } 0x6000 4 (fun pl =>
      let s : State := { peerSt (.atomic 1 4 0x6000 4 0 7 0) with inbox := [] }
      (peerAtomic 0 4 7 0 ((s.touch (peerAg 1 (s.aspaceOf (objOf 4 0x4000))) true pl).rkeys pl.keys)).isSome) = true
    ∧ (∀ c ∈ [none, some 7],
      let s := gets (.message 1 0x4000 2 5 [1] [] c) (fun s => { s with objs := [objOf 1 0x4000] })
      s.obj? 1 1 0x4000 = some (objOf 1 0x4000) ∧ (s.vd? 1).resetting = false)
    ∧ (gets (.signal 1 2 0x4000 5) (fun s => { s with objs := [objOf 2 0x4000] })).obj? 2 1 0x4000 = some (objOf 2 0x4000)
    ∧ (Cap.null.tag = false ∧ (objCap 1 0x4000 0 0x0040).has pGLOBAL = false)
    ∧ (∀ ot ∈ [1, 2, 7, 8], (objCap ot 0x4000 0 0x0240).tag = true ∧ (objCap ot 0x4000 0 0x0240).has pGLOBAL = true
      ∧ (objCap ot 0x4000 0 0x0240).otype = ot) := by decide +kernel

theorem witness_links :
    (let s : State := { State.reset with linkFail := [(1, 16)] }
    16 ≤ look 0 s.linkFail 1 ∧ s.linkDown.contains 1 = false)
    ∧ look 0 ({ State.reset with linkFail := [(1, 15)] } : State).linkFail 1 < 16 := by decide +kernel

theorem witness_host :
    let o : Obj := objOf 1 0x4000
    let ws : List Word := 1 :: List.replicate 8 7
    let s := gets (.host 1 15 ws true) (fun s => { s.sysW 0x0406 0 1 15 0x4000 with objs := [o] })
    ws.length = 9 ∧ fld (s.sysR 0x0406 0 1 15).toNat 6 50 ≠ 0
      ∧ s.objs.find? (fun o => o.otype == 1 && o.pa == fld (s.sysR 0x0406 0 1 15).toNat 6 50 * 64) = some o
      ∧ (look {} s.slots (slotKey 1 15)).status = 0 ∧ (s.vd? o.vd).resetting = false
      ∧ s.linkDown.contains (240 + (s.vd? 1).port) = false := by decide +kernel

/-- A launch packet for entry 0 of a table of one entry that admits origin 2 with one gang at most. -/
def packetSt : State :=
  gets (.launch 1 0 2 (recOf []) 0) (fun s => (s.sysW 0x0581 0 0 0 0x8001).wn 0x8000 16 (1 + 2 ^ 32 + 2 ^ 66))

theorem witness_packet : let t : State := { packetSt with inbox := [] }
    (match t.packetRecord 1 0 2 (t.unsealRecord 1 2 (recOf []) 0) with
      | some cs => !(t.intakeFull 1 (cs.getD 1 Cap.null))
      | none => false) = true := by decide +kernel

theorem witness_sources :
    let o : Obj := objOf 5 0x4000
    let s : State := { grp with objs := [o] }
    s.objs.find? (fun x => x.otype == 5 && lineSource s x.pa == lineSource s 0x4000) = some o
      ∧ (∀ x ∈ s.objs, x.otype = 5 → lineSource s x.pa ≠ lineSource s 0x4000 + 1) := by decide +kernel

end Sys2Proof.Tests
end

section
/-! SUPPORT. What the caches and the arbiters note of accesses (R318, R400, R413, R422): which fields it leaves, which bytes
it may change, and that memory stays canonical. -/
namespace Sys2Proof.Machine

/-- Filtering by a test of the keys keeps every entry whose key passes. -/
theorem look_filter_key {α : Type} (d : α) (p : Nat → Bool) (m : List (Nat × α)) {k : Nat} (h : p k = true) :
    look d (m.filter (fun e => p e.1)) k = look d m k := by
  induction m with
  | nil => rfl
  | cons e m ih =>
    obtain ⟨j, v⟩ := e
    simp only [List.filter_cons, look]
    by_cases hj : j = k
    · simp [hj, h, look]
    · by_cases hp : p j = true
      · simp [hp, hj, look, ih]
      · simp [hp, hj, ih]

/-- A byte outside the storage of a tile and outside the fields STATE and VERSION of its descriptor (R315, R317). -/
def Tile.leaves (t : Tile) (k : Nat) : Prop :=
  ¬(tileKey t.lo ≤ k ∧ k < tileKey t.lo + t.len) ∧ ¬(t.desc + 26 ≤ k ∧ k < t.desc + 48)

/-- From `s` to `t` units, system registers and the registered tiles stay; without a tile memory and tags stay; no byte
changes but those of registered tiles; memory stays canonical. -/
structure Noted (s t : State) : Prop where
  units : t.units = s.units
  sys : t.sys = s.sys
  tiles : t.tiles = s.tiles
  bare : s.tiles = [] → t.mem = s.mem ∧ t.tags = s.tags
  rb : ∀ k, (∀ e ∈ s.tiles, e.leaves k) → t.rb k = s.rb k
  wf : Memory.wf s.mem = true → Memory.wf t.mem = true

namespace Noted

theorem refl (s : State) : Noted s s := ⟨rfl, rfl, rfl, fun _ => ⟨rfl, rfl⟩, fun _ _ => rfl, id⟩

theorem trans {s t u : State} (h : Noted s t) (k : Noted t u) : Noted s u where
  units := k.units.trans h.units
  sys := k.sys.trans h.sys
  tiles := k.tiles.trans h.tiles
  bare e := ⟨(k.bare (h.tiles.trans e)).1.trans (h.bare e).1, (k.bare (h.tiles.trans e)).2.trans (h.bare e).2⟩
  rb a ha := (k.rb a (h.tiles ▸ ha)).trans (h.rb a ha)
  wf e := k.wf (h.wf e)

/-- A step that changes other fields only. -/
theorem of_eq {s t : State} (hu : t.units = s.units) (hs : t.sys = s.sys) (ht : t.tiles = s.tiles) (hm : t.mem = s.mem)
    (hg : t.tags = s.tags) : Noted s t where
  units := hu
  sys := hs
  tiles := ht
  bare _ := ⟨hm, hg⟩
  rb k _ := by unfold State.rb; rw [hm]
  wf h := hm ▸ h

theorem foldl {α : Type} (f : State → α → State) (l : List α) (s : State) (hf : ∀ t, ∀ a ∈ l, Noted t (f t a)) :
    Noted s (l.foldl f s) := by
  induction l generalizing s with
  | nil => exact refl s
  | cons a l ih =>
    exact (hf s a (by simp)).trans (ih (f s a) fun t b hb => hf t b (by simp [hb]))

/-- The same where each turn is for one of the registered tiles. -/
theorem foldl_tiles (f : State → Tile → State) (l : List Tile) (s : State) (hl : ∀ e ∈ l, e ∈ s.tiles)
    (hf : ∀ t : State, ∀ e ∈ t.tiles, Noted t (f t e)) : Noted s (l.foldl f s) := by
  induction l generalizing s with
  | nil => exact refl s
  | cons a l ih =>
    have h := hf s a (hl a (by simp))
    exact h.trans (ih (f s a) fun e he => by rw [h.tiles]; exact hl e (by simp [he]))

end Noted

/-! Tiles lose storage (R317, R318). -/

theorem rb_rawW_other (s : State) (k n x : Nat) {j : Nat} (h : ¬(k ≤ j ∧ j < k + n)) : (s.rawW k n x).rb j = s.rb j := by
  suffices hs : ∀ (l : List Nat) (s : State), (∀ i ∈ l, i < n) →
      (l.foldl (fun (t : State) i => t.wb (k + i) (BitVec.ofNat 8 (x >>> (8 * i)))) s).rb j = s.rb j from
    hs (List.range n) s fun i hi => List.mem_range.mp hi
  intro l
  induction l with
  | nil => exact fun _ _ => rfl
  | cons i l ih =>
    intro s hl
    have hi : i < n := hl i (by simp)
    exact (ih _ fun a ha => hl a (by simp [ha])).trans (rb_wb_ne s _ _ _ (by omega))

theorem rb_clearTile (s : State) (t : Tile) {k : Nat} (h : t.leaves k) : (s.clearTile t).rb k = s.rb k := by
  unfold State.rb State.clearTile
  refine look_filter_key 0 (fun j => !(decide (tileKey t.lo ≤ j) && decide (j < tileKey t.lo + t.len))) s.mem ?_
  have h1 := h.1
  simp only [Bool.not_eq_true', Bool.and_eq_false_imp, decide_eq_true_eq, decide_eq_false_iff_not]
  omega

theorem rb_loseLine (s : State) (t : Tile) (line : Nat) {k : Nat} (h : t.leaves k) : (s.loseLine t line).rb k = s.rb k := by
  unfold State.rb State.loseLine
  refine look_filter_key 0 (fun j => !(decide (tileKey (max t.lo (128 * line)) ≤ j)
    && decide (j < tileKey (min (t.lo + t.len) (128 * line + 128))))) s.mem ?_
  have h1 := h.1
  have h2 : ¬(tileKey (max t.lo (128 * line)) ≤ k ∧ k < tileKey (min (t.lo + t.len) (128 * line + 128))) := by
    unfold tileKey at h1 ⊢
    omega
  simpa only [Bool.not_eq_true', Bool.and_eq_false_imp, decide_eq_true_eq, decide_eq_false_iff_not, not_and] using h2

theorem wf_loseLine (s : State) (t : Tile) (line : Nat) (h : Memory.wf s.mem = true) :
    Memory.wf (s.loseLine t line).mem = true := canonFrom_filter 0 _ s.mem 0 h

theorem noted_loseLine (s : State) (t : Tile) (line : Nat) (h : t ∈ s.tiles) : Noted s (s.loseLine t line) where
  units := rfl
  sys := rfl
  tiles := rfl
  bare e := by simp [e] at h
  rb k hk := rb_loseLine s t line (hk t h)
  wf := wf_loseLine s t line

theorem wf_dropTile (s : State) (t : Tile) (h : Memory.wf s.mem = true) : Memory.wf (s.dropTile t).mem = true :=
  wf_setTileState _ _ _ (wf_setTileVersion _ _ _ (wf_clearTile s t h))

theorem rb_dropTile (s : State) (t : Tile) {k : Nat} (h : t.leaves k) : (s.dropTile t).rb k = s.rb k := by
  have hd := h.2
  unfold State.dropTile State.setTileState State.setTileVersion
  rw [rb_wb_ne _ _ _ _ (by omega), rb_rawW_other _ _ _ _ (by omega), rb_clearTile s t h]

theorem dropTile_eq (s : State) (t : Tile) : s.dropTile t = { s.clearTile t with mem := (s.dropTile t).mem } := by
  unfold State.dropTile State.setTileVersion
  dsimp only
  generalize State.clearTile s t = u
  rw [rawW_frame]
  rfl

theorem noted_dropTile (s : State) (t : Tile) (h : t ∈ s.tiles) : Noted s (s.dropTile t) where
  units := by rw [dropTile_eq]; rfl
  sys := by rw [dropTile_eq]; rfl
  tiles := by rw [dropTile_eq]; rfl
  bare e := by simp [e] at h
  rb k hk := rb_dropTile s t (hk t h)
  wf := wf_dropTile s t

/-! The LLC, the TLBs and the arbiters. -/

theorem noted_cacheIn (s : State) (n : Nat) (e : Pte) : Noted s (s.cacheIn n e) := by
  unfold State.cacheIn
  dsimp only
  repeat' split
  all_goals exact .of_eq rfl rfl rfl rfl rfl

theorem noted_cacheWalk (s : State) (ag : Ag) (es : List Pte) : Noted s (s.cacheWalk ag es) :=
  .foldl _ es s fun t e _ => .foldl _ ag.tlbs t fun u n _ => noted_cacheIn u n e

theorem noted_charge (s : State) (c : Nat) (r : Req) : Noted s (s.charge c r) := by
  unfold State.charge
  repeat' split
  all_goals exact .of_eq rfl rfl rfl rfl rfl

theorem noted_takeWant (s : State) (ag : Ag) (w : Nat × Nat × Nat) : ∀ t ∈ s.takeWant ag w, Noted s t := by
  unfold State.takeWant
  dsimp only
  split
  · rintro t ⟨⟩
    exact .of_eq rfl rfl rfl rfl rfl
  · split
    · rintro t ⟨⟩
    · rintro t ⟨⟩
      refine .trans ?_ (noted_charge _ _ _)
      exact .of_eq rfl rfl rfl rfl rfl

/-- A line that leaves its slice takes storage of its tiles with it. -/
theorem noted_evict {s u : State} (n : Nat) (h : Noted s u) :
    Noted s ((u.tilesOn n).foldl (fun (v : State) t => if tileState v t.desc = 0 then v.dropTile t else v.loseLine t n) u) :=
  h.trans (.foldl_tiles _ _ u (fun _ he => List.mem_of_mem_filter he) fun v t ht => by
    split
    · exact noted_dropTile v t ht
    · exact noted_loseLine v t n ht)

theorem noted_touchLine (s : State) (ctx : Option Nat) (vd die slice line : Nat) (write : Bool) :
    Noted s (s.touchLine ctx vd die slice line write) := by
  unfold State.touchLine
  dsimp only
  generalize ite ((!(s.tilesOn line).isEmpty) = true) 0xFFFF _ = mask
  split
  · exact .of_eq rfl rfl rfl rfl rfl
  split
  · exact .of_eq rfl rfl rfl rfl rfl
  split
  · exact .refl s
  generalize hu : ite (_ ≤ 1) s s.draw = u
  have h : Noted s u := by
    rw [← hu]
    split
    · exact .refl s
    · exact .of_eq rfl rfl rfl rfl rfl
  split
  · split
    · exact .trans h (.of_eq rfl rfl rfl rfl rfl)
    · exact .trans h (.of_eq rfl rfl rfl rfl rfl)
  · exact noted_evict _ (.trans h (.of_eq rfl rfl rfl rfl rfl))

theorem noted_touchXl (s : State) (ag : Ag) (write : Bool) (x : Xl) : Noted s (s.touchXl ag write x) := by
  have h := noted_cacheWalk s ag x.walk
  unfold State.touchXl
  dsimp only
  split
  · exact h
  · exact h.trans (.foldl _ _ _ fun t l _ => noted_touchLine t ..)

theorem noted_touchAll (s : State) (ag : Ag) (write : Bool) (pls : List Place) : Noted s (s.touchAll ag write pls) := by
  refine .trans (.foldl _ _ s fun t w _ => ?_) (.foldl _ _ _ fun t x _ => noted_touchXl t ag write x)
  cases h : t.takeWant ag w with
  | none => exact .refl t
  | some u => exact noted_takeWant t ag w u h

theorem noted_touchLanes (s : State) (ag : Ag) (write : Bool) (as : List LaneAt) : Noted s (s.touchLanes ag write as) :=
  noted_touchAll s ag write _

end Sys2Proof.Machine
end

section
/-! Loads (R146, R248). -/
namespace Sys2Proof.Machine

theorem loadLanes_plain (s : State) (g : Grp) (as : List LaneAt) (h : ∀ a ∈ as, g.isOpen a.lane = false) :
    loadLanes s g as = (s, g, as.map (fun a => (a.lane, s.rkeys a.pl.keys))) := by
  induction as with
  | nil => rfl
  | cons a as ih =>
    have ha : g.isOpen a.lane = false := h a (by simp)
    have ih := ih fun b hb => h b (by simp [hb])
    simp [loadLanes, ha, ih]

/-- The register run that a load writes reads of its words those of the run. -/
theorem wrRun_congr (g : Grp) (d : Reg) (ls : List Nat) (f f' : Nat → Nat → Word) (n : Nat)
    (h : ∀ k, k < n → ∀ l, f l k = f' l k) : g.wrRun d ls f n = g.wrRun d ls f' n := by
  induction n with
  | zero => rfl
  | succ n ih =>
    have e : (fun l => f l n) = fun l => f' l n := funext fun l => h n (Nat.lt_succ_self n) l
    rw [Grp.wrRun, Grp.wrRun, ih fun k hk => h k (Nat.lt_succ_of_lt hk), e]

/-- An LD that makes all its accesses in one step (R146). -/
theorem ld_whole {s : State} {x : Iss} {d o : Reg} {q : BitVec 4} {d5 : BitVec 5} {size regs sx : Nat} {ps : List LaneAt}
    (hw : Whole s x) (hp : x.places s (accessAsk x o q d5 size false) x.lanes = .ok ps)
    (hg : x.gate s true (onePlace d.isV ps) (if d.isV then ps else ps.take 1) = none) :
    x.ld s d o q d5 size regs sx
      = .retire ((loadLanes s x.g (onePlace d.isV ps)).1.touchLanes x.ag false (if d.isV then ps else ps.take 1))
          ((loadLanes s x.g (onePlace d.isV ps)).2.1.wrRun d x.lanes
            (fun l k => extWord sx (look 0 (loadLanes s x.g (onePlace d.isV ps)).2.2 (x.valLane d l)) k) regs) := by
  obtain ⟨hs, hx⟩ := hw
  have hm : performedOf d.isV (onePlace d.isV ps) = if d.isV then ps else ps.take 1 := by
    unfold performedOf onePlace
    cases d.isV <;> cases ps <;> rfl
  have hp' : x.places s
      { c := x.qs q, q := q.toNat, size := size, need := { r := true }, perm := x.txnPerm pLOAD,
        off := x.memOff o d5 size, natural := x.g.isOpen } x.lanes = .ok ps := hp
  unfold Iss.ld
  simp only [hx, hp', hm, hg, hs]

/-- Sign extension from `n` bits to a word, by the model's integers and by bit vectors (R5). -/
theorem word_sint (n v : Nat) (hn : 0 < n) : word (sint n v) = (BitVec.ofNat n v).signExtend 32 := by
  have e : sint n v = (BitVec.ofNat n v).toInt := by
    unfold sint
    rw [BitVec.toInt_eq_toNat_cond, BitVec.toNat_ofNat]
    obtain ⟨m, rfl⟩ : ∃ m, n = m + 1 := ⟨n - 1, by omega⟩
    simp only [Nat.add_sub_cancel, Nat.pow_succ]
    exact if_congr (by omega) rfl rfl
  rw [e, BitVec.signExtend, word, wrap]
  refine BitVec.eq_of_toNat_eq ?_
  rw [BitVec.toNat_ofNat, BitVec.toNat_ofInt]
  omega

theorem extWord_zero (v k : Nat) : extWord 0 v k = BitVec.ofNat 32 (v / 2 ^ (32 * k)) := by
  simp [extWord, Nat.shiftRight_eq_div_pow]

theorem extWord_signed (sx v k : Nat) (h : 0 < sx) : extWord sx v k = (BitVec.ofNat sx v).signExtend 32 := by
  rw [extWord, if_neg (by omega), word_sint sx v h]

/-- What each LD form puts into its run of registers (R248). -/
theorem load_of {i : Instr} {d o : Reg} {q : BitVec 4} {d5 : BitVec 5} {size regs sx : Nat} {ext : Nat → Nat → Word}
    (hi : ∀ s, exec i s = issue (Instr.sig i) s (fun x s => x.ld s d o q d5 size regs sx))
    (he : ∀ v k, k < regs → extWord sx v k = ext v k) {s : State} {x : Iss} {ps : List LaneAt} (hr : Runs i s x)
    (hw : Whole s x) (hp : x.places s (accessAsk x o q d5 size false) x.lanes = .ok ps)
    (hg : x.gate s true (onePlace d.isV ps) (if d.isV then ps else ps.take 1) = none) :
    exec i s = .next (((loadLanes s x.g (onePlace d.isV ps)).1.touchLanes x.ag false
        (if d.isV then ps else ps.take 1)).retireTo x
      ((loadLanes s x.g (onePlace d.isV ps)).2.1.wrRun d x.lanes
        (fun l k => ext (look 0 (loadLanes s x.g (onePlace d.isV ps)).2.2 (x.valLane d l)) k) regs) (x.p.pc + 4)) := by
  rw [hi, issue_runs hr, ld_whole hw hp hg, finish,
    wrRun_congr _ d x.lanes _ _ regs fun k hk l => he (look 0 (loadLanes s x.g (onePlace d.isV ps)).2.2 (x.valLane d l)) k hk]

/-- Settles O30: the forms of LD by `load_of`, the values by induction on the lanes, and what the caches and the arbiters note
by `Noted`. -/
theorem loads : Obligations.Loads := by
  unfold Obligations.Loads
  refine ⟨?_, ?_, ?_, ?_⟩
  · intro i d o q d5 size regs ext hi s x ps hr hw hp as made hg
    simp only [List.mem_cons, Prod.mk.injEq, List.not_mem_nil, or_false] at hi
    have one (sx : Nat) (f : Nat → Word) (h : ∀ v, extWord sx v 0 = f v) :
        ∀ v k, k < 1 → extWord sx v k = (fun v _ => f v) v k := fun v k hk => by
      obtain rfl : k = 0 := by omega
      exact h v
    rcases hi with ⟨rfl, rfl, rfl, rfl⟩ | ⟨rfl, rfl, rfl, rfl⟩ | ⟨rfl, rfl, rfl, rfl⟩ | ⟨rfl, rfl, rfl, rfl⟩
      | ⟨rfl, rfl, rfl, rfl⟩ | ⟨rfl, rfl, rfl, rfl⟩ | ⟨rfl, rfl, rfl, rfl⟩
    · exact load_of (fun _ => rfl) (one 0 _ fun v => by simp [extWord_zero]) hr hw hp hg
    · exact load_of (fun _ => rfl) (one 8 _ fun v => extWord_signed 8 v 0 (by decide)) hr hw hp hg
    · exact load_of (fun _ => rfl) (one 0 _ fun v => by simp [extWord_zero]) hr hw hp hg
    · exact load_of (fun _ => rfl) (one 16 _ fun v => extWord_signed 16 v 0 (by decide)) hr hw hp hg
    · exact load_of (fun _ => rfl) (one 0 _ fun v => by simp [extWord_zero]) hr hw hp hg
    · exact load_of (fun _ => rfl) (fun v k _ => extWord_zero v k) hr hw hp hg
    · exact load_of (fun _ => rfl) (fun v k _ => extWord_zero v k) hr hw hp hg
  · intro s g as h
    simp only [loadLanes_plain s g as h, and_self]
  · exact fun a as => ⟨rfl, rfl⟩
  · intro s ag write as
    have h := noted_touchLanes s ag write as
    refine ⟨h.units, h.sys, fun e => ?_, h.rb⟩
    obtain ⟨hm, ht⟩ := h.bare e
    exact ⟨fun k => by unfold State.rb; rw [hm], fun k => by unfold State.tagR; rw [ht]⟩

end Sys2Proof.Machine
end

section
/-! SUPPORT. Memory stays canonical through a step (MemoryStaysCanonical; the canonical form is that of log 7): what
is asked of loops, of the end of an instruction and of a step. Of each function of the model that gives a state there
is one lemma below, file by file: that it leaves memory (`f_mem`), or that it keeps it canonical (`wf_f`). -/
namespace Sys2Proof.Machine

/-- A loop whose turns leave memory. -/
theorem foldl_mem {α : Type} {f : State → α → State} (hf : ∀ t a, (f t a).mem = t.mem) (l : List α) (s : State) :
    (l.foldl f s).mem = s.mem := by
  induction l generalizing s with
  | nil => rfl
  | cons a l ih => exact (ih _).trans (hf s a)

/-- A loop whose turns keep memory canonical. -/
theorem wf_foldl {α : Type} {f : State → α → State}
    (hf : ∀ t a, Memory.wf t.mem = true → Memory.wf (f t a).mem = true) (l : List α) (s : State)
    (h : Memory.wf s.mem = true) : Memory.wf (l.foldl f s).mem = true := by
  induction l generalizing s with
  | nil => exact h
  | cons a l ih => exact ih _ (hf s a h)

/-- A loop that may stop has stopped for good. -/
theorem foldl_bind_none {α : Type} (f : State → α → Option State) (l : List α) :
    l.foldl (fun (o : Option State) a => o.bind (fun s => f s a)) none = none := by
  induction l with
  | nil => rfl
  | cons a l ih => exact ih

/-- A loop that may stop, whose turns keep memory canonical. -/
theorem wf_foldl_bind {α : Type} {f : State → α → Option State}
    (hf : ∀ {s t a}, Memory.wf s.mem = true → f s a = some t → Memory.wf t.mem = true) {l : List α} {s t : State}
    (h : Memory.wf s.mem = true)
    (e : l.foldl (fun (o : Option State) a => o.bind (fun s => f s a)) (some s) = some t) :
    Memory.wf t.mem = true := by
  induction l generalizing s with
  | nil => exact Option.some.inj e ▸ h
  | cons a l ih =>
    rw [List.foldl_cons, Option.bind_some] at e
    cases hu : f s a with
    | none =>
      rw [hu, foldl_bind_none] at e
      cases e
    | some u => exact ih (hf h hu) (hu ▸ e)

/-- Memory is canonical in every state that the end of an instruction holds. -/
@[simp] def Res.Wf : Res → Prop
  | .retire s _ | .goto s _ _ | .done s | .part s _ _ | .wait s _ | .faultIn s _ => Memory.wf s.mem = true
  | .trap _ | .fault _ => True

/-- Memory is canonical in the state that a step gives. -/
@[simp] def Out.Wf : Out → Prop
  | .next s => Memory.wf s.mem = true
  | .fault _ | .refused _ => True

end Sys2Proof.Machine
end

section
/-! SUPPORT. Memory stays canonical: stores, buckets, caches and tiles (Machine/Mem.lean). -/
namespace Sys2Proof.Machine

theorem wf_openW (s : State) (ks : List Nat) (bs : List Byte) (h : Memory.wf s.mem = true) :
    Memory.wf (s.openW ks bs).mem = true := by
  unfold State.openW
  grind [wf_wkeys]

@[simp] theorem dropped_mem (s : State) (l : Nat) : (s.dropped l).mem = s.mem := sysW_mem ..

@[simp] theorem setLevel_mem (s : State) (kind inst vd n : Nat) : (s.setLevel kind inst vd n).mem = s.mem := rfl

@[simp] theorem setPool_mem (s : State) (kind inst part n : Nat) : (s.setPool kind inst part n).mem = s.mem := rfl

@[simp] theorem lend_mem (s : State) (kind inst vd n : Nat) : (s.lend kind inst vd n).mem = s.mem := by
  unfold State.lend
  repeat' split
  all_goals simp

@[simp] theorem charge_mem (s : State) (cls : Nat) (r : Req) : (s.charge cls r).mem = s.mem := by
  unfold State.charge
  repeat' split
  all_goals simp

@[simp] theorem cacheIn_mem (s : State) (n : Nat) (e : Pte) : (s.cacheIn n e).mem = s.mem := by
  unfold State.cacheIn
  dsimp only
  repeat' split
  all_goals simp

@[simp] theorem cacheWalk_mem (s : State) (ag : Ag) (es : List Pte) : (s.cacheWalk ag es).mem = s.mem := by
  unfold State.cacheWalk
  simp [foldl_mem]

theorem takeWant_mem {s t : State} {ag : Ag} {w : Nat × Nat × Nat} (e : s.takeWant ag w = some t) : t.mem = s.mem := by
  unfold State.takeWant at e
  grind [charge_mem]

theorem wf_touchAll (s : State) (ag : Ag) (write : Bool) (pls : List Place) (h : Memory.wf s.mem = true) :
    Memory.wf (s.touchAll ag write pls).mem = true := (noted_touchAll s ag write pls).wf h

theorem wf_touch (s : State) (ag : Ag) (write : Bool) (pl : Place) (h : Memory.wf s.mem = true) :
    Memory.wf (s.touch ag write pl).mem = true := wf_touchAll s ag write [pl] h

/-- Both answers of an arbiter leave memory. -/
theorem pay_mem (s : State) (ag : Ag) (w : Nat × Nat × Nat) :
    (∀ t, s.pay ag w = .ok t → t.mem = s.mem) ∧ ∀ t, s.pay ag w = .error t → t.mem = s.mem := by
  unfold State.pay
  split
  · next t e => exact ⟨fun u h => by cases h; exact takeWant_mem e, fun _ h => by cases h⟩
  · refine ⟨fun _ h => (by cases h), fun u h => ?_⟩
    cases h
    split <;> simp

theorem unserved_mem {s t : State} {ag : Ag} {pls : List Place} (e : s.unserved ag pls = some t) : t.mem = s.mem := by
  unfold State.unserved at e
  split at e
  · cases e
  · cases e
    refine foldl_mem (fun t r => ?_) _ s
    split <;> simp

@[simp] theorem scrTagW_mem (s : State) (gang off : Nat) (t : Bool) : (s.scrTagW gang off t).mem = s.mem := rfl

@[simp] theorem scrWb_mem (s : State) (gang off : Nat) (bs : List Byte) : (s.scrWb gang off bs).mem = s.mem := by
  induction bs generalizing s off with
  | nil => rfl
  | cons b bs ih => exact ih ..

@[simp] theorem scrW_mem (s : State) (gang off n x : Nat) : (s.scrW gang off n x).mem = s.mem := by
  simp [State.scrW]

@[simp] theorem scrCapW_mem (s : State) (gang off : Nat) (c : Cap) : (s.scrCapW gang off c).mem = s.mem := by
  simp [State.scrCapW]

end Sys2Proof.Machine
end

section
/-! SUPPORT. Memory stays canonical: the end of an instruction (Machine/Ops.lean). -/
namespace Sys2Proof.Machine

@[simp] theorem modCtx_mem (s : State) (c : Nat) (f : Ctx → Ctx) : (s.modCtx c f).mem = s.mem := by
  unfold State.modCtx
  repeat' split
  all_goals rfl

theorem wf_noteOr (s : State) (id badge : Nat) (h : Memory.wf s.mem = true) :
    Memory.wf (s.noteOr id badge).mem = true := by
  unfold State.noteOr
  grind [wf_rawW]

theorem wf_fire (s : State) (n : Nat) (h : Memory.wf s.mem = true) : Memory.wf (s.fire n).mem = true := by
  unfold State.fire
  grind [draw_mem, wf_noteOr]

@[simp] theorem ctxFault_mem (s : State) (c : Nat) (f : FaultInfo) : (s.ctxFault c f).mem = s.mem := by
  simp [State.ctxFault]

@[simp] theorem freeToken_mem (s : State) (u : Nat) : (s.freeToken u).mem = s.mem := rfl

@[simp] theorem unlock_mem (s : State) (g : Grp) : (s.unlock g).mem = s.mem := rfl

/-- A unit that stops makes the stores its slot has left. -/
theorem wf_landSlot (s : State) (u : Nat) (b : Bool) (h : Memory.wf s.mem = true) :
    Memory.wf (s.landSlot u b).mem = true := by
  unfold State.landSlot
  split
  · exact h
  split
  · exact h
  split
  · exact h
  dsimp only
  split
  · exact h
  split
  · exact wf_foldl (fun t e => wf_wkeys _ _ t) _ s h
  · repeat' split
    all_goals exact h

theorem wf_landUnit (s : State) (u : Nat) (h : Memory.wf s.mem = true) : Memory.wf (s.landUnit u).mem = true := by
  unfold State.landUnit
  grind [wf_landSlot]

theorem wf_stopUnit (s : State) (u : Nat) (h : Memory.wf s.mem = true) : Memory.wf (s.stopUnit u).mem = true := by
  unfold State.stopUnit
  grind [putU_mem, wf_landUnit, freeToken_mem, unlock_mem]

theorem wf_kernelEntry (s : State) (x : Iss) (g : Grp) (h : Memory.wf s.mem = true) :
    Memory.wf (s.kernelEntry x g).mem = true := by
  unfold State.kernelEntry
  grind [wf_fire, putU_mem]

@[simp] theorem cacheFault_mem (s : State) (ag : Ag) (f : FaultInfo) : (s.cacheFault ag f).mem = s.mem := by
  unfold State.cacheFault
  repeat' split
  all_goals simp

@[simp] theorem block_mem (s : State) (u : Nat) (b : Bool) (w : Wait) : (s.block u b w).mem = s.mem := by
  unfold State.block
  repeat' split
  all_goals simp

theorem wf_raise (s : State) (x : Iss) (f : FaultInfo) (h : Memory.wf s.mem = true) :
    Memory.wf (s.raise x f).mem = true := by
  unfold State.raise
  grind [ctxFault_mem, draw_mem, putU_mem, wf_stopUnit, wf_kernelEntry, cacheFault_mem, dropped_mem, block_mem]

theorem wf_trap (s : State) (x : Iss) (cause : Nat) (h : Memory.wf s.mem = true) :
    Memory.wf (s.trap x cause).mem = true := by
  unfold State.trap
  grind [putU_mem, wf_kernelEntry, wf_raise, block_mem]

@[simp] theorem noteRetire_mem (s : State) (x : Iss) : (s.noteRetire x).mem = s.mem := by
  unfold State.noteRetire
  repeat' split
  all_goals simp

@[simp] theorem retireTo_mem (s : State) (x : Iss) (g : Grp) (pc : DWord) : (s.retireTo x g pc).mem = s.mem := by
  simp [State.retireTo]

theorem wf_finish (s : State) (x : Iss) (r : Res) (h : Memory.wf s.mem = true) (hr : r.Wf) :
    Memory.wf (finish s x r).mem = true := by
  cases r with
  | retire t g => simpa [finish] using hr
  | goto t g pc => simpa [finish] using hr
  | done t => simpa [finish] using hr
  | part t g pt => exact hr
  | wait t w => simpa [finish] using hr
  | trap c => exact wf_trap s x c h
  | fault f => exact wf_raise s x f h
  | faultIn t f => exact wf_raise t x f hr

theorem wf_issue (i : Sig) (s : State) (body : Iss → State → Res) (h : Memory.wf s.mem = true)
    (hb : ∀ x, (body x s).Wf) : Out.Wf (issue i s body) := by
  unfold issue
  split
  · trivial
  · next x _ =>
    show Memory.wf (State.mem _) = true
    split
    · exact wf_trap s x _ h
    split
    · exact wf_raise s x _ h
    split
    · simpa using h
    · exact wf_finish s x _ h (hb x)

theorem wf_issueG (i : Sig) (s : State) (f : Iss → Grp) (h : Memory.wf s.mem = true) : Out.Wf (issueG i s f) :=
  wf_issue i s _ h fun _ => h

end Sys2Proof.Machine
end

section
/-! SUPPORT. Memory stays canonical: control flow (Machine/Control.lean). -/
namespace Sys2Proof.Machine

theorem wf_splitTo (x : Iss) (s : State) (g : Grp) (taken target fpc : DWord) (h : Memory.wf s.mem = true) :
    (x.splitTo s g taken target fpc).Wf := by
  unfold Iss.splitTo
  repeat' split
  all_goals simp [Res.Wf, h]

theorem wf_uniBranch (x : Iss) (s : State) (off : BitVec 20) (c : Bool) (h : Memory.wf s.mem = true) :
    (x.uniBranch s off c).Wf := by
  unfold Iss.uniBranch
  repeat' split
  all_goals simp [Res.Wf, h]

theorem wf_jump (x : Iss) (s : State) (a : Reg) (h : Memory.wf s.mem = true) : (x.jump s a).Wf := by
  unfold Iss.jump
  grind [Res.Wf, wf_splitTo]

theorem wf_callr (x : Iss) (s : State) (d a : Reg) (h : Memory.wf s.mem = true) : (x.callr s d a).Wf := by
  unfold Iss.callr
  grind [Res.Wf, wf_splitTo]

theorem wf_xret (x : Iss) (s : State) (skip : Bool) (h : Memory.wf s.mem = true) : (x.xret s skip).Wf := by
  unfold Iss.xret
  repeat' split
  all_goals simp [Res.Wf, h]

end Sys2Proof.Machine
end

section
/-! SUPPORT. Memory stays canonical: invocations (Machine/Capab.lean). -/
namespace Sys2Proof.Machine

theorem wf_invoke (x : Iss) (s : State) (d q : BitVec 4) (h : Memory.wf s.mem = true) : (x.invoke s d q).Wf := by
  unfold Iss.invoke
  grind [Res.Wf]

end Sys2Proof.Machine
end

section
/-! SUPPORT. Memory stays canonical: accesses to memory: tiles met on the way, loads and stores, atomics and
reductions (Machine/Access.lean). -/
namespace Sys2Proof.Machine

@[simp] theorem regrowFail_mem (s : State) (desc cause : Nat) : (s.regrowFail desc cause).mem = s.mem := by
  unfold State.regrowFail
  repeat' split
  all_goals simp

theorem wf_regrowOpen (s : State) (t : Tile) (ctx : Option Nat) (first : Option (Nat × Bool × Nat × DWord))
    (h : Memory.wf s.mem = true) : Memory.wf (s.regrowOpen t ctx first).mem = true := by
  unfold State.regrowOpen
  grind [wf_setTileState]

theorem wf_meetTiles {s t : State} {own ctx : Option Nat} {first : Option (Nat × Bool × Nat × DWord)} {pls : List Place}
    (h : Memory.wf s.mem = true) (e : s.meetTiles own ctx first pls = some t) : Memory.wf t.mem = true := by
  unfold State.meetTiles at e
  dsimp only at e
  split at e
  · cases e
  · cases e
    refine wf_foldl (fun t a ht => ?_) _ s h
    split
    · split
      · exact wf_regrowOpen t _ _ _ ht
      · simpa using ht
    · exact wf_regrowOpen t _ _ _ ht

theorem wf_gate {x : Iss} {s t : State} {txn : Bool} {as made : List LaneAt} {w : Wait} (h : Memory.wf s.mem = true)
    (e : x.gate s txn as made = some (t, w)) : Memory.wf t.mem = true := by
  unfold Iss.gate at e
  dsimp only at e
  split at e
  · cases e; exact h
  split at e
  · next t ht => cases e; exact wf_meetTiles h ht
  · obtain ⟨t, ht, e⟩ := Option.map_eq_some_iff.mp e
    cases e
    exact unserved_mem ht ▸ h

@[simp] theorem lock_mem (s : State) (t : Txn) (ks : List Nat) : (s.lock t ks).mem = s.mem := by
  unfold State.lock
  repeat' split
  all_goals rfl

@[simp] theorem txnLoad_mem (s : State) (g : Grp) (a : LaneAt) : (txnLoad s g a).1.mem = s.mem := by
  unfold txnLoad
  dsimp only
  split
  · rfl
  · split <;> simp

@[simp] theorem txnStore_mem (s : State) (g : Grp) (a : LaneAt) (bs : List Byte) :
    (txnStore s g a bs).1.mem = s.mem := by
  unfold txnStore
  dsimp only
  split
  · rfl
  · split <;> simp

@[simp] theorem loadLanes_mem (s : State) (g : Grp) (as : List LaneAt) : (loadLanes s g as).1.mem = s.mem := by
  induction as generalizing s g with
  | nil => rfl
  | cons a as ih =>
    refine (ih ..).trans ?_
    split <;> simp

theorem wf_storeLanes (bytes : Nat → List Byte) (s : State) (g : Grp) (as : List LaneAt) (h : Memory.wf s.mem = true) :
    Memory.wf (storeLanes bytes s g as).1.mem = true := by
  induction as generalizing s g with
  | nil => exact h
  | cons a as ih =>
    refine ih _ _ ?_
    split
    · simpa using h
    · split
      · exact h
      · exact wf_wkeys _ _ s h

theorem wf_touchLanes (s : State) (ag : Ag) (write : Bool) (as : List LaneAt) (h : Memory.wf s.mem = true) :
    Memory.wf (s.touchLanes ag write as).mem = true := wf_touchAll s ag write _ h

@[simp] theorem readPieces_mem (s : State) (g : Grp) (ps : List Piece) : (readPieces s g ps).1.mem = s.mem := by
  induction ps generalizing s g with
  | nil => rfl
  | cons e ps ih =>
    refine (ih ..).trans ?_
    split <;> simp

theorem wf_writePieces (s : State) (g : Grp) (ps : List Piece) (h : Memory.wf s.mem = true) :
    Memory.wf (writePieces s g ps).1.mem = true := by
  induction ps generalizing s g with
  | nil => exact h
  | cons e ps ih => exact ih _ _ (wf_storeLanes _ s g _ h)

theorem wf_goOn (x : Iss) (s : State) (pt : Progress) (h : Memory.wf s.mem = true) : (x.goOn s pt).Wf := by
  unfold Iss.goOn
  dsimp only
  generalize pickPieces _ _ _ = c
  split
  · next t e => exact wf_gate h e
  split
  · have hw := wf_touchLanes _ x.ag true (c.1.map (·.at_)) (wf_writePieces s x.g c.1 h)
    split <;> exact hw
  · have hr (ps : List Piece) :
        Memory.wf ((readPieces s x.g ps).1.touchLanes x.ag false (c.1.map (·.at_))).mem = true :=
      wf_touchLanes _ x.ag false _ (by simpa using h)
    split <;> exact hr _

theorem wf_ld (x : Iss) (s : State) (d o : Reg) (q : BitVec 4) (d5 : BitVec 5) (size regs sx : Nat)
    (h : Memory.wf s.mem = true) : (x.ld s d o q d5 size regs sx).Wf := by
  unfold Iss.ld
  split
  · exact wf_goOn x s _ h
  dsimp only
  split
  · trivial
  split
  · next t e => exact wf_gate h e
  split
  · exact wf_goOn x s _ h
  · exact wf_touchLanes _ _ _ _ (by simpa using h)

theorem wf_st (x : Iss) (s : State) (d o : Reg) (q : BitVec 4) (d5 : BitVec 5) (size regs : Nat)
    (h : Memory.wf s.mem = true) : (x.st s d o q d5 size regs).Wf := by
  unfold Iss.st
  split
  · exact wf_goOn x s _ h
  dsimp only
  split
  · trivial
  split
  · next t e => exact wf_gate h e
  split
  · exact wf_goOn x s _ h
  · exact wf_touchLanes _ _ _ _ (wf_storeLanes _ s x.g _ h)

theorem wf_atomLanes (size : Nat) (f : Nat → Nat → Option Nat) (s : State) (as : List LaneAt)
    (h : Memory.wf s.mem = true) : Memory.wf (atomLanes size f s as).1.mem = true := by
  induction as generalizing s with
  | nil => exact h
  | cons a as ih =>
    refine ih _ ?_
    split
    · exact wf_wkeys _ _ s h
    · exact h

theorem wf_atom (x : Iss) (s : State) (d a : Reg) (q : BitVec 4) (size regs : Nat) (f : Nat → Nat → Option Nat)
    (h : Memory.wf s.mem = true) : (x.atom s d a q size regs f).Wf := by
  unfold Iss.atom
  dsimp only
  split
  · trivial
  split
  · next t e => exact wf_gate h e
  · exact wf_touchLanes _ _ _ _ (wf_atomLanes size f s _ h)

@[simp] theorem combine_mem (f : Nat → Nat → Nat) (n : Nat) (s : State) (l : List Nat) :
    (combine f n s l).1.mem = s.mem := by
  induction n generalizing s l with
  | zero => rfl
  | succ n ih =>
    unfold combine
    split
    · rfl
    · exact ih ..

theorem wf_redPlaces (f : Nat → Nat → Nat) (v : Nat → Nat) (s : State) (ps : List (Place × List Nat))
    (h : Memory.wf s.mem = true) : Memory.wf (redPlaces f v s ps).mem = true := by
  induction ps generalizing s with
  | nil => exact h
  | cons e ps ih => exact ih _ (wf_wkeys _ _ _ (by simpa using h))

theorem wf_red (x : Iss) (s : State) (perLane : Bool) (a : Reg) (q : BitVec 4) (v : Nat → Nat) (f : Nat → Nat → Nat)
    (h : Memory.wf s.mem = true) : (x.red s perLane a q v f).Wf := by
  unfold Iss.red
  dsimp only
  split
  · trivial
  split
  · next t e => exact wf_gate h e
  · exact wf_touchLanes _ _ _ _ (wf_redPlaces f v s _ h)

theorem wf_ldc (x : Iss) (s : State) (d o : Reg) (q : BitVec 4) (d5 : BitVec 5) (h : Memory.wf s.mem = true) :
    (x.ldc s d o q d5).Wf := by
  unfold Iss.ldc
  dsimp only
  split
  · trivial
  split
  · next t e => exact wf_gate h e
  · exact wf_touchLanes _ _ _ _ (by simpa using h)

theorem wf_stcLanes (vd : Nat) (v : Nat → Cap) (s : State) (g : Grp) (as : List LaneAt) (h : Memory.wf s.mem = true) :
    Memory.wf (stcLanes vd v s g as).mem = true := by
  induction as generalizing s with
  | nil => exact h
  | cons a as ih =>
    refine ih _ ?_
    split
    · exact h
    · dsimp only
      split <;> exact wf_wkeys _ _ s h

theorem wf_stc (x : Iss) (s : State) (d o : Reg) (q : BitVec 4) (d5 : BitVec 5) (h : Memory.wf s.mem = true) :
    (x.stc s d o q d5).Wf := by
  unfold Iss.stc
  dsimp only
  split
  · trivial
  split
  · next t e => exact wf_gate h e
  · exact wf_touchLanes _ _ _ _ (wf_stcLanes _ _ s x.g _ h)

end Sys2Proof.Machine
end

section
/-! SUPPORT. Memory stays canonical: scratch (Machine/Scratch.lean). -/
namespace Sys2Proof.Machine

@[simp] theorem modGang_mem (s : State) (n : Nat) (f : Gang → Gang) : (s.modGang n f).mem = s.mem := by
  unfold State.modGang
  repeat' split
  all_goals rfl

@[simp] theorem scrNote_mem (x : Iss) (s : State) (size : Nat) (write : Bool) (as : List SAcc) (lds : Bool) :
    (x.scrNote s size write as lds).mem = s.mem := by
  unfold Iss.scrNote
  repeat' split
  all_goals simp

theorem wf_lds (x : Iss) (s : State) (d a : Reg) (imm : BitVec 9) (size regs : Nat) (h : Memory.wf s.mem = true) :
    (x.lds s d a imm size regs).Wf := by
  unfold Iss.lds
  grind [Res.Wf, scrNote_mem]

@[simp] theorem scrLanes_mem (s : State) (gang size : Nat) (v : Nat → Nat) (as : List SAcc) :
    (s.scrLanes gang size v as).mem = s.mem := by
  induction as generalizing s with
  | nil => rfl
  | cons c as ih =>
    unfold State.scrLanes
    simp [ih]

theorem wf_sts (x : Iss) (s : State) (d a : Reg) (imm : BitVec 9) (size regs : Nat) (h : Memory.wf s.mem = true) :
    (x.sts s d a imm size regs).Wf := by
  unfold Iss.sts
  grind [Res.Wf, scrLanes_mem, scrNote_mem]

theorem wf_ldcLoc (x : Iss) (s : State) (d o : Reg) (d5 : BitVec 5) (h : Memory.wf s.mem = true) :
    (x.ldcLoc s d o d5).Wf := by
  unfold Iss.ldcLoc
  grind [Res.Wf, scrNote_mem]

@[simp] theorem scrCaps_mem (s : State) (gang vd : Nat) (v : Nat → Cap) (as : List SAcc) :
    (s.scrCaps gang vd v as).mem = s.mem := by
  induction as generalizing s with
  | nil => rfl
  | cons c as ih =>
    unfold State.scrCaps
    simp [ih]

theorem wf_stcLoc (x : Iss) (s : State) (d o : Reg) (d5 : BitVec 5) (h : Memory.wf s.mem = true) :
    (x.stcLoc s d o d5).Wf := by
  unfold Iss.stcLoc
  grind [Res.Wf, scrCaps_mem, scrNote_mem]

theorem wf_cvtq (x : Iss) (s : State) (d a b : Reg) (h : Memory.wf s.mem = true) : (x.cvtq s d a b).Wf := by
  unfold Iss.cvtq
  grind [Res.Wf, scrLanes_mem, scrNote_mem, wf_foldl]

end Sys2Proof.Machine
end

section
/-! SUPPORT. Memory stays canonical: transactions (Machine/Txn.lean). -/
namespace Sys2Proof.Machine

@[simp] theorem endSerial_mem (s : State) (u : Nat) (g : Grp) (l : Nat) : (s.endSerial u g l).mem = s.mem := by
  unfold State.endSerial
  dsimp only
  repeat' split
  all_goals simp

theorem wf_tbeg (x : Iss) (s : State) (h : Memory.wf s.mem = true) : (x.tbeg s).Wf := by
  unfold Iss.tbeg
  grind [Res.Wf, wf_foldl]

theorem wf_commitTxn (s : State) (t : Txn) (h : Memory.wf s.mem = true) : Memory.wf (s.commitTxn t).mem = true := by
  unfold State.commitTxn
  grind [wf_wb, tagW_mem, wf_foldl]

theorem wf_tend (x : Iss) (s : State) (d : Reg) (h : Memory.wf s.mem = true) : (x.tend s d).Wf := by
  unfold Iss.tend
  grind [Res.Wf, wf_commitTxn, endSerial_mem, wf_meetTiles, wf_foldl]

theorem wf_tabt (x : Iss) (s : State) (h : Memory.wf s.mem = true) : (x.tabt s).Wf := by
  unfold Iss.tabt
  grind [Res.Wf, endSerial_mem, wf_foldl]

end Sys2Proof.Machine
end

section
/-! SUPPORT. Memory stays canonical: contexts, timelines and launches as they are made (Machine/Objects.lean). -/
namespace Sys2Proof.Machine

@[simp] theorem openCtx_mem (s : State) (vd root : Nat) : (s.openCtx vd root).1.mem = s.mem := by
  unfold State.openCtx
  split <;> simp

theorem wf_tlRaise (s : State) (k v : Nat) (h : Memory.wf s.mem = true) : Memory.wf (s.tlRaise k v).mem = true := by
  unfold State.tlRaise
  grind [wf_wn]

@[simp] theorem modLaunch_mem (s : State) (n : Nat) (f : Launch → Launch) : (s.modLaunch n f).mem = s.mem := by
  unfold State.modLaunch
  repeat' split
  all_goals rfl

end Sys2Proof.Machine
end

section
/-! SUPPORT. Memory stays canonical: launches from their submission to their completion (Machine/Launch.lean). -/
namespace Sys2Proof.Machine

@[simp] theorem sweepHandles_mem (s : State) (core vd : Nat) (ctx : Option Nat) :
    (s.sweepHandles core vd ctx).mem = s.mem := rfl

@[simp] theorem kernelAt_mem (s : State) (root : Nat) (e : Cap) : (s.kernelAt root e).1.mem = s.mem := by
  unfold State.kernelAt
  split
  · rfl
  split
  · rfl
  · dsimp only
    split <;> rfl

@[simp] theorem submit_mem (s : State) (vd : Nat) (bits : BitVec 6144) (tags0 : BitVec 48) :
    (s.submit vd bits tags0).1.mem = s.mem := by
  unfold State.submit
  grind [kernelAt_mem, openCtx_mem, tick_mem]

@[simp] theorem stir_mem (s : State) (part : Option Nat) : (s.stir part).mem = s.mem := by
  unfold State.stir
  repeat' split
  all_goals rfl

@[simp] theorem gained_mem (s : State) (core : Nat) : (s.gained core).mem = s.mem := by
  simp [State.gained]

@[simp] theorem clearMarks_mem (s : State) (p : Mark → Bool) : (s.clearMarks p).mem = s.mem := by
  unfold State.clearMarks
  simp [foldl_mem]

@[simp] theorem fixHeads_mem (s : State) : s.fixHeads.mem = s.mem := rfl

@[simp] theorem enqueue_mem (s : State) (n : Nat) : (s.enqueue n).mem = s.mem := by
  unfold State.enqueue
  repeat' split
  all_goals simp

@[simp] theorem makeQueueable_mem (s : State) (n : Nat) (l : Launch) (early : Bool) :
    (s.makeQueueable n l early).mem = s.mem := by
  simp [State.makeQueueable]

theorem wf_dispatchWaits {s t : State} {l : Launch} {pls : List Place} (h : Memory.wf s.mem = true)
    (e : s.dispatchWaits l pls = some t) : Memory.wf t.mem = true := by
  rcases (Option.orElse_eq_some _ _ _).mp e with e | ⟨-, e⟩
  · exact wf_meetTiles h e
  · exact unserved_mem e ▸ h

theorem wf_launchReady (s : State) (n : Nat) (h : Memory.wf s.mem = true) :
    Memory.wf (s.launchReady n).mem = true := by
  unfold State.launchReady
  grind [modLaunch_mem, wf_touchAll, makeQueueable_mem, wf_dispatchWaits]

theorem wf_putCaps (s : State) (ag : Ag) (ps : List Place) (cs : List Cap) (h : Memory.wf s.mem = true) :
    Memory.wf (s.putCaps ag ps cs).mem = true := by
  induction ps generalizing s cs with
  | nil => cases cs <;> exact h
  | cons p ps ih =>
    cases cs with
    | nil => exact h
    | cons c cs =>
      have hw := wf_wkeys p.keys (leBytes c.bits.toNat 16) _ (wf_touch s ag true p h)
      unfold State.putCaps
      refine ih _ _ ?_
      split <;> exact hw

@[simp] theorem clearCore_mem (s : State) (c : Nat) : (s.clearCore c).mem = s.mem := rfl

@[simp] theorem claimCore_mem (s : State) (c vd : Nat) : (s.claimCore c vd).mem = s.mem := by
  unfold State.claimCore
  repeat' split
  all_goals simp

@[simp] theorem moveQuarantine_mem (s : State) (c : Nat) : (s.moveQuarantine c).mem = s.mem := by
  unfold State.moveQuarantine
  dsimp only
  repeat' split
  all_goals simp

@[simp] theorem seat_mem (s : State) (lid : Nat) (l : Launch) (c n : Nat) (gs : List (Option Grp)) :
    (s.seat lid l c n gs).mem = s.mem := by
  unfold State.seat
  repeat' split
  all_goals simp

@[simp] theorem dispatched_mem (s : State) (lid : Nat) : (s.dispatched lid).mem = s.mem := by
  unfold State.dispatched
  repeat' split
  all_goals simp

@[simp] theorem startGang_mem (s : State) (lid : Nat) (l : Launch) (c n : Nat) :
    (s.startGang lid l c n).mem = s.mem := by
  simp [State.startGang]

@[simp] theorem restoreScr_mem (s : State) (vd gid : Nat) (rs : List (Nat × Nat)) (cs : List Cap) :
    (s.restoreScr vd gid rs cs).mem = s.mem := by
  induction rs generalizing s cs with
  | nil => rfl
  | cons r rs ih =>
    unfold State.restoreScr
    rw [ih]
    exact foldl_mem (fun t i => scrCapW_mem ..) _ s

theorem wf_resumeGang (s : State) (lid : Nat) (l : Launch) (c n : Nat) (h : Memory.wf s.mem = true) :
    Memory.wf (s.resumeGang lid l c n).mem = true := by
  unfold State.resumeGang
  grind [ctxFault_mem, seat_mem, wf_touchAll, dispatched_mem, restoreScr_mem, wf_dispatchWaits]

@[simp] theorem reclaim_mem (s : State) (n : Nat) (l : Launch) : (s.reclaim n l).mem = s.mem := by
  unfold State.reclaim
  repeat' split
  all_goals rfl

theorem wf_dispatchOne (s : State) (n : Nat) (cont : Bool) (h : Memory.wf s.mem = true) :
    Memory.wf (s.dispatchOne n cont).mem = true := by
  unfold State.dispatchOne
  grind [draw_mem, reclaim_mem, startGang_mem, wf_launchReady, modLaunch_mem, wf_resumeGang]

@[simp] theorem abortSuccessors_mem (s : State) (k v : Nat) : (s.abortSuccessors k v).mem = s.mem := rfl

theorem wf_launchComplete (s : State) (n : Nat) (h : Memory.wf s.mem = true) :
    Memory.wf (s.launchComplete n).mem = true := by
  unfold State.launchComplete
  split
  · exact h
  split
  · exact h
  extract_lets place pls s1 s2
  split
  · exact h
  split
  · next t e => exact wf_dispatchWaits h e
  have h1 : Memory.wf s1.mem = true := by
    unfold s1
    split
    · exact h
    · split
      · exact h
      · exact wf_wkeys _ _ _ (wf_touch s _ true _ h)
  have h2 : Memory.wf s2.mem = true := by
    unfold s2
    split
    · exact h1
    split
    · exact h1
    · extract_lets k s3
      have h3 : Memory.wf s3.mem = true := wf_tlRaise _ _ _ (wf_touch s1 _ true _ h1)
      split
      · simpa using h3
      · exact h3
  simpa using h2

end Sys2Proof.Machine
end

section
/-! SUPPORT. Memory stays canonical: gangs, barriers and exits (Machine/Gang.lean). -/
namespace Sys2Proof.Machine

@[simp] theorem freeScratch_mem (s : State) (gid : Nat) : (s.freeScratch gid).mem = s.mem := by
  unfold State.freeScratch
  repeat' split
  all_goals rfl

@[simp] theorem left_mem (s : State) (core : Nat) : (s.left core).mem = s.mem := by
  unfold State.left
  dsimp only
  repeat' split
  all_goals simp

@[simp] theorem dropGang_mem (s : State) (gid : Nat) (k : Gang) : (s.dropGang gid k).mem = s.mem := by
  simp [State.dropGang]

@[simp] theorem barrierCheck_mem (s : State) (gid : Nat) : (s.barrierCheck gid).mem = s.mem := by
  unfold State.barrierCheck
  repeat' split
  all_goals rfl

theorem wf_barG (x : Iss) (s : State) (h : Memory.wf s.mem = true) : (x.barG s).Wf := by
  unfold Iss.barG
  grind [Res.Wf, putU_mem, barrierCheck_mem]

@[simp] theorem phaseCheck_mem (s : State) (lid : Nat) : (s.phaseCheck lid).mem = s.mem := by
  unfold State.phaseCheck
  repeat' split
  all_goals simp

@[simp] theorem gangExited_mem (s : State) (k : Gang) : (s.gangExited k).mem = s.mem := by
  unfold State.gangExited
  repeat' split
  all_goals simp

@[simp] theorem regrowExited_mem (s : State) (k : Gang) : (s.regrowExited k).mem = s.mem := by
  unfold State.regrowExited
  dsimp only
  repeat' split
  all_goals simp

@[simp] theorem groupEnded_mem (s : State) (u gid gidx : Nat) : (s.groupEnded u gid gidx).mem = s.mem := by
  unfold State.groupEnded
  dsimp only
  repeat' split
  all_goals simp

theorem wf_exitLanes (x : Iss) (s : State) (h : Memory.wf s.mem = true) : (x.exitLanes s).Wf := by
  unfold Iss.exitLanes
  grind [Res.Wf, putU_mem, groupEnded_mem, endSerial_mem, barrierCheck_mem, wf_foldl]

theorem wf_retireGang (s : State) (x : Iss) (gid : Nat) (l : Launch) (k : Gang) (phase : Nat) (ps : List Place)
    (h : Memory.wf s.mem = true) : Memory.wf (s.retireGang x gid l k phase ps).mem = true := by
  unfold State.retireGang
  grind [sweepHandles_mem, freeToken_mem, wf_putCaps, dropGang_mem, unlock_mem, wf_foldl]

@[simp] theorem carryScr_mem (s : State) (vd old new : Nat) (rs : List (Nat × Nat)) :
    (s.carryScr vd old new rs).mem = s.mem := by
  unfold State.carryScr
  simp [foldl_mem]

@[simp] theorem resumeHere_mem (s : State) (gid : Nat) (k : Gang) : (s.resumeHere gid k).mem = s.mem := by
  unfold State.resumeHere
  grind [sweepHandles_mem, carryScr_mem, freeToken_mem, tick_mem, freeScratch_mem, unlock_mem, foldl_mem]

@[simp] theorem gangRetired_mem (s : State) (lid n : Nat) : (s.gangRetired lid n).mem = s.mem := by
  simp [State.gangRetired]

@[simp] theorem gangYielded_mem (s : State) (lid n : Nat) : (s.gangYielded lid n).mem = s.mem := by
  unfold State.gangYielded
  repeat' split
  all_goals simp

theorem wf_barL (x : Iss) (s : State) (yield : Bool) (h : Memory.wf s.mem = true) : (x.barL s yield).Wf := by
  unfold Iss.barL
  grind [Res.Wf, putU_mem, resumeHere_mem, gangYielded_mem, gangRetired_mem, wf_retireGang]

end Sys2Proof.Machine
end

section
/-! SUPPORT. Memory stays canonical: fences, waits and timelines (Machine/Sync.lean). -/
namespace Sys2Proof.Machine

@[simp] theorem modRace_mem (x : Iss) (s : State) (f : Race → Race) : (x.modRace s f).mem = s.mem := by
  simp [Iss.modRace]

theorem wf_fence (x : Iss) (s : State) (o sc : Nat) (h : Memory.wf s.mem = true) : (x.fence s o sc).Wf := by
  unfold Iss.fence
  repeat' split
  all_goals simp [Res.Wf, h]

theorem wf_waitph (x : Iss) (s : State) (a : Reg) (ph : Bool) (h : Memory.wf s.mem = true) :
    (x.waitph s a ph).Wf := by
  unfold Iss.waitph
  grind [Res.Wf, modRace_mem]

theorem wf_tlwait (x : Iss) (s : State) (q : BitVec 4) (target : State → Nat → Int) (h : Memory.wf s.mem = true) :
    (x.tlwait s q target).Wf := by
  unfold Iss.tlwait
  grind [Res.Wf, wf_touch, modRace_mem, wf_gate]

theorem wf_waitaScr (x : Iss) (s : State) (a b : Reg) (h : Memory.wf s.mem = true) : (x.waitaScr s a b).Wf := by
  unfold Iss.waitaScr
  grind [Res.Wf, modRace_mem, wf_foldl]

theorem wf_waitaMem (x : Iss) (s : State) (q : BitVec 4) (a b : Reg) (h : Memory.wf s.mem = true) :
    (x.waitaMem s q a b).Wf := by
  unfold Iss.waitaMem
  grind [Res.Wf, wf_gate, wf_touchLanes]

theorem wf_mfence (x : Iss) (s : State) (d : Reg) (h : Memory.wf s.mem = true) : (x.mfence s d).Wf := by
  unfold Iss.mfence
  repeat' split
  all_goals simp [Res.Wf, h]

theorem wf_mwait (x : Iss) (s : State) (a : Reg) (h : Memory.wf s.mem = true) : (x.mwait s a).Wf := by
  unfold Iss.mwait
  grind [Res.Wf]

@[simp] theorem learly_mem (x : Iss) (s : State) : (x.learly s).mem = s.mem := by
  unfold Iss.learly
  repeat' split
  all_goals simp

theorem wf_lwaitp (x : Iss) (s : State) (h : Memory.wf s.mem = true) : (x.lwaitp s).Wf := by
  unfold Iss.lwaitp
  grind [Res.Wf]

theorem wf_tlread (x : Iss) (s : State) (d : Reg) (q : BitVec 4) (h : Memory.wf s.mem = true) :
    (x.tlread s d q).Wf := by
  unfold Iss.tlread
  grind [Res.Wf, wf_touch, wf_gate]

end Sys2Proof.Machine
end

section
/-! SUPPORT. Memory stays canonical: hints (Machine/Hints.lean). -/
namespace Sys2Proof.Machine

theorem wf_pend (x : Iss) (s : State) (stall : Nat) (h : Memory.wf s.mem = true) : (x.pend s stall).Wf := h

end Sys2Proof.Machine
end

section
/-! SUPPORT. Memory stays canonical: records of the crib and the loft (Machine/Records.lean). -/
namespace Sys2Proof.Machine

@[simp] theorem cribW_mem (s : State) (core at_ : Nat) (bs : List Byte) : (s.cribW core at_ bs).mem = s.mem := by
  induction bs generalizing s at_ with
  | nil => rfl
  | cons b bs ih => exact ih ..

@[simp] theorem loftW_mem (s : State) (core slice at_ : Nat) (bs : List Byte) :
    (s.loftW core slice at_ bs).mem = s.mem := by
  induction bs generalizing s at_ with
  | nil => rfl
  | cons b bs ih => exact ih ..

end Sys2Proof.Machine
end

section
/-! SUPPORT. Memory stays canonical: engine commands as they run (Machine/Engine.lean). -/
namespace Sys2Proof.Machine

/-- Memory is canonical in the state that a part of a command's work ends in. -/
@[simp] def Eng.Wf {α : Type} : Eng α → Prop
  | .ok s _ _ | .wait s _ | .fail s _ _ => Memory.wf s.mem = true

/-- Work that keeps memory canonical, followed by work that does. -/
theorem Eng.Wf.bind {α β : Type} {e : Eng α} {f : State → Cmd → α → Eng β} (h : e.Wf)
    (hf : ∀ s c x, Memory.wf s.mem = true → (f s c x).Wf) : (e.bind f).Wf := by
  cases e with
  | ok s c x => exact hf s c x h
  | wait s c => exact h
  | fail s c e => exact h

theorem wf_engScr (s : State) (id : Nat) (c : Cmd) (runs : List (Nat × Nat)) (write : Bool)
    (h : Memory.wf s.mem = true) : (engScr s id c runs write).Wf := by
  unfold engScr
  grind [Eng.Wf, modGang_mem]

theorem wf_engPlace (s : State) (id : Nat) (c : Cmd) (need : Need) (va n : Nat) (skip : Option Nat)
    (h : Memory.wf s.mem = true) : (engPlace s id c need va n skip).Wf := by
  unfold engPlace
  split
  · exact h
  split
  · exact h
  split
  · next t e =>
    split at e
    · cases e
    · exact wf_meetTiles h e
  split
  · next t e => simpa [unserved_mem e] using h
  · exact h

theorem wf_engRead (s : State) (id : Nat) (c : Cmd) (l : Loc) (n : Nat) (h : Memory.wf s.mem = true) :
    (engRead s id c l n).Wf := by
  unfold engRead
  split
  · exact (wf_engPlace s id c _ _ n _ h).bind fun t d pl ht => wf_touch t _ _ _ ht
  · exact (wf_engScr s id c _ _ h).bind fun t d _ ht => ht
  · exact h

theorem wf_engWrite (s : State) (id : Nat) (c : Cmd) (l : Loc) (n v : Nat) (h : Memory.wf s.mem = true) :
    (engWrite s id c l n v).Wf := by
  unfold engWrite
  split
  · exact (wf_engPlace s id c _ _ n _ h).bind fun t d pl ht => wf_touch _ _ _ _ (wf_wkeys _ _ _ ht)
  · exact (wf_engScr s id c _ _ h).bind fun t d _ ht => by simpa using ht
  · exact h

theorem wf_engAdd (s : State) (id : Nat) (c : Cmd) (va n v : Nat) (h : Memory.wf s.mem = true) :
    (engAdd s id c va n v).Wf := by
  unfold engAdd
  split
  · exact h
  · exact (wf_engPlace s id c _ va n _ h).bind fun t d pl ht => wf_touch _ _ _ _ (wf_wkeys _ _ _ ht)

theorem wf_engRun (id : Nat) (l : Loc) (n f : Nat) (s : State) (c : Cmd) (h : Memory.wf s.mem = true) :
    (engRun id l n f s c).Wf := by
  induction f generalizing l n s c with
  | zero => exact h
  | succ f ih =>
    unfold engRun
    split
    · exact h
    · exact (wf_engRead s id c l _ h).bind fun t d v ht => (ih _ _ t d ht).bind fun u e r hu => hu

theorem wf_engGet (s : State) (id : Nat) (c : Cmd) (g : Loc) (lo hi : Nat) (h : Memory.wf s.mem = true) :
    (engGet s id c g lo hi).Wf := by
  unfold engGet
  split
  · exact h
  split
  · next va _ =>
    have hp := wf_engPlace s id c { r := true } va 16 none h
    split
    · next t d pl e => rw [e] at hp; exact wf_touch t _ _ pl hp
    · next t d e => rw [e] at hp; exact hp
    · next t d f e => rw [e] at hp; exact hp
  · exact (wf_engScr s id c _ _ h).bind fun t d _ ht => ht
  · split <;> exact h
  · dsimp only
    split <;> simpa using h
  · exact h

theorem wf_engGets (id : Nat) (es : List (Loc × Nat × Nat)) (s : State) (c : Cmd) (h : Memory.wf s.mem = true) :
    (engGets id es s c).Wf := by
  induction es generalizing s c with
  | nil => exact h
  | cons e es ih => exact (wf_engGet s id c _ _ _ h).bind fun t d _ ht => ih t d ht

theorem wf_engPatch (s : State) (id : Nat) (c : Cmd) (g : Loc) (bs : List (Nat × Byte)) (tag : Bool)
    (skip : Option Nat) (h : Memory.wf s.mem = true) : (engPatch s id c g bs tag skip).Wf := by
  unfold engPatch
  split
  · split
    · next va =>
      have hp := wf_engPlace s id c { w := true } va 16 skip h
      split
      · next t d pl e =>
        rw [e] at hp
        have hb : Memory.wf (bs.foldl (fun s b => (s.wb (pl.keys.getD b.1 0) b.2).tagW (pl.keys.getD b.1 0) false)
            t).mem = true := wf_foldl (fun u b hu => by simpa using wf_wb u _ _ hu) bs t hp
        refine wf_touch _ _ _ _ ?_
        split
        · simpa using hb
        · exact hb
      · next t d e => rw [e] at hp; exact hp
      · next t d f e => rw [e] at hp; exact hp
    · next off =>
      refine (wf_engScr s id c _ _ h).bind fun t d _ ht => ?_
      have hb : Memory.wf (bs.foldl (fun s b => s.scrWb (d.gang.getD 0) (off + b.1) [b.2]) t).mem = true := by
        rw [foldl_mem fun u b => scrWb_mem u _ _ _]
        exact ht
      simp only [Eng.Wf]
      split <;> exact hb
    · refine wf_foldl (fun u b hu => ?_) bs s h
      rw [cribW_mem]
      exact hu
    · dsimp only
      split
      · exact h
      · refine wf_foldl (fun u b hu => ?_) bs s h
        split
        · rw [loftW_mem]
          exact hu
        · exact hu
    · exact h
  · exact h

theorem wf_collGather (bytes : Nat) (ms : List (Nat × Nat × Cmd)) (rs : List Nat) (s : State) (c : Cmd)
    (h : Memory.wf s.mem = true) : (collGather bytes ms rs s c).Wf := by
  induction rs generalizing s c with
  | nil => exact h
  | cons r rs ih =>
    unfold collGather
    split
    · next m _ =>
      have hr := wf_engRun m.2.1 (.mem (collSrc m.2.2)) bytes (bytes / 16 + 2) s m.2.2 h
      split
      · next t _ bs e => rw [e] at hr; exact (ih t c hr).bind fun u d x hu => hu
      · next t _ e => rw [e] at hr; exact hr
      · next t d f e => rw [e] at hr; split <;> exact hr
    · refine (ih _ c ?_).bind fun u d x hu => ?_
      · exact h
      · exact hu

@[simp] theorem collSettle_mem (s : State) (ms : List (Nat × Nat × Cmd)) (status : Nat) (buf : List Byte) :
    (collSettle s ms status buf).mem = s.mem := rfl

theorem wf_collFar (s : State) (id : Nat) (c : Cmd) (group collid op fmt count root : Nat)
    (h : Memory.wf s.mem = true) : (collFar s id c group collid op fmt count root).Wf := by
  unfold collFar
  split
  · exact h
  extract_lets bytes
  split
  · next t e => simpa [(pay_mem _ _ _).2 _ e] using h
  · next t e =>
    have ht : Memory.wf t.mem = true := by simpa [(pay_mem _ _ _).1 _ e] using h
    extract_lets here n ms st all
    split
    · refine (wf_collGather _ _ _ _ c ?_).bind fun u d x hu => ?_
      · exact ht
      · exact hu
    · exact ht

theorem wf_collBegin (s : State) (id : Nat) (c : Cmd) (group collid op fmt count root : Nat)
    (h : Memory.wf s.mem = true) : (collBegin s id c group collid op fmt count root).Wf := by
  unfold collBegin
  split
  · exact h
  split
  · exact wf_collFar s id c group collid op fmt count root h
  extract_lets n me ms absent away agree t
  split
  · exact h
  split
  · exact h
  split
  · simp only [Eng.Wf]
    split <;> exact h
  have ht : Memory.wf t.mem = true := by
    unfold t
    split <;> exact h
  split
  · next u e =>
    split at e
    · cases e
    · simpa [(pay_mem _ _ _).2 _ e] using ht
  · next u e =>
    have hu : Memory.wf u.mem = true := by
      split at e
      · cases e; exact ht
      · simpa [(pay_mem _ _ _).1 _ e] using ht
    split
    · exact hu
    · refine (wf_collGather _ _ _ u c hu).bind fun v d x hv => ?_
      exact hv

@[simp] theorem abortColls_mem (s : State) (group : Nat) : (s.abortColls group).mem = s.mem := rfl

theorem wf_tileBytes (id base rb stride scales at_ n : Nat) (s : State) (c : Cmd) (h : Memory.wf s.mem = true) :
    (tileBytes id base rb stride scales at_ n s c).Wf := by
  induction n generalizing base s c with
  | zero => exact wf_engRun _ _ _ _ _ _ h
  | succ n ih => exact (wf_engRun _ _ _ _ s c h).bind fun t d a ht => (ih _ t d ht).bind fun u e b hu => hu

theorem wf_cmdBegin (s : State) (id : Nat) (c : Cmd) (h : Memory.wf s.mem = true) : (cmdBegin s id c).Wf := by
  unfold cmdBegin
  split
  · dsimp only
    split
    · exact h
    · exact wf_setTileVersion s _ _ h
  · extract_lets st
    split
    · exact h
    split
    · exact h
    generalize tileVersion s _ = v
    split
    · exact h
    · exact (wf_tileBytes _ _ _ _ _ _ _ s c h).bind fun t d bs ht => ht
  · exact (wf_engRun _ _ _ _ s c h).bind fun t d bs ht => ht
  · exact wf_collBegin s id c _ _ _ _ _ _ h
  · exact h

theorem wf_cmdPiece (s : State) (id : Nat) (c : Cmd) (k : Nat) (h : Memory.wf s.mem = true) :
    (cmdPiece s id c k).Wf := by
  unfold cmdPiece
  dsimp only
  split
  · split
    · exact h
    · exact (wf_engAdd s id c _ _ _ h).bind fun t d _ ht => ht
  · exact (wf_engGets id _ s c h).bind fun t d _ ht =>
      (wf_engPatch t id d _ _ _ _ ht).bind fun u e _ hu => hu

@[simp] theorem arrive_mem (s : State) (id : Nat) (c : Cmd) (b : Nat) : (s.arrive id c b).mem = s.mem := by
  unfold State.arrive
  repeat' split
  all_goals simp

theorem wf_cmdMove (s : State) (id : Nat) (c : Cmd) (pick : Nat) (h : Memory.wf s.mem = true) :
    (cmdMove s id c pick).Wf := by
  unfold cmdMove
  split
  · exact wf_cmdBegin s id c h
  split
  · exact h
  · exact (wf_cmdPiece s id c _ h).bind fun t d b ht => by simpa using ht

theorem wf_cmdRest (id n : Nat) (s : State) (c : Cmd) (h : Memory.wf s.mem = true) : (cmdRest id n s c).Wf := by
  induction n generalizing s c with
  | zero => exact h
  | succ n ih =>
    unfold cmdRest
    split
    · exact h
    · exact (wf_cmdMove s id c 0 h).bind fun t d _ ht => ih t d ht

@[simp] theorem sieveAdd_mem (s : State) (c : Cmd) : (s.sieveAdd c).mem = s.mem := by
  unfold State.sieveAdd
  repeat' split
  all_goals simp

@[simp] theorem handleMoves_mem (s : State) (id : Nat) (c : Cmd) (h src dst : Nat) :
    (s.handleMoves id c h src dst).mem = s.mem := by
  unfold State.handleMoves
  dsimp only
  repeat' split
  all_goals simp

theorem wf_cmdEnd (s : State) (id : Nat) (c : Cmd) (h : Memory.wf s.mem = true) : (cmdEnd s id c).Wf := by
  unfold cmdEnd
  split
  · split
    · exact h
    split
    · exact h
    · exact wf_setTileState _ _ _ (wf_setTileVersion s _ _ h)
  · exact (wf_engWrite s id c _ _ _ h).bind fun t d _ ht => by simpa using ht
  · exact wf_foldl (fun t f ht => by simpa using ht) _ s h
  · split
    · exact h
    · simpa using h
  · exact wf_engWrite s id c _ _ _ h
  · simpa using h
  · exact h

theorem wf_advance (s : State) (tl : Nat) (h : Memory.wf s.mem = true) : Memory.wf (s.advance tl).mem = true := by
  unfold State.advance
  grind [wf_tlRaise, wf_foldl]

@[simp] theorem pruneCmds_mem (s : State) : s.pruneCmds.mem = s.mem := rfl

theorem wf_cmdDone (id : Nat) (e : Eng Unit) (h : e.Wf) : Memory.wf (State.cmdDone id e).mem = true := by
  unfold State.cmdDone
  split
  · exact h
  · exact h
  · split <;> simpa using h

theorem wf_cmdKnown (s : State) (id : Nat) (c : Cmd) (g : Loc) (h : Memory.wf s.mem = true) :
    (cmdKnown s id c g).Wf := wf_engPatch s id c g _ _ _ h

theorem wf_cmdFlushOne (s : State) (id : Nat) (c : Cmd) (k : Nat) (h : Memory.wf s.mem = true) :
    Memory.wf (cmdFlushOne s id c k).1.mem = true := by
  unfold cmdFlushOne
  split
  · exact h
  next g _ =>
  split
  · exact h
  split
  · have hp := wf_cmdPiece s id c k h
    split
    · next t d b e => rw [e] at hp; simpa using hp
    · exact h
  · have hp := wf_cmdKnown s id c g h
    split
    · next t d b e => rw [e] at hp; exact hp
    · exact h

theorem wf_landPiece (s : State) (id k : Nat) (got : List (Loc × Nat × Bool)) (h : Memory.wf s.mem = true) :
    Memory.wf (s.landPiece id k got).mem = true := by
  unfold State.landPiece
  split
  · exact h
  split
  · exact h
  · exact wf_cmdFlushOne s id _ k h

theorem wf_sendPiece (s : State) (id : Nat) (c : Cmd) (k : Nat) (h : Memory.wf s.mem = true) :
    Memory.wf (s.sendPiece id c k).mem = true := by
  unfold State.sendPiece
  split
  · next g _ _ _ =>
    have hg := wf_engGets id (((c.segs s).filterMap (fun e => e.clip g)).flatMap c.needs) s { c with got := [] } h
    split
    · next t d _ e =>
      rw [e] at hg
      split
      · exact hg
      · exact h
    · exact h
  · exact h

theorem wf_stopCmd (s : State) (id : Nat) (h : Memory.wf s.mem = true) : Memory.wf (s.stopCmd id).mem = true := by
  unfold State.stopCmd
  split
  · exact h
  next c _ =>
  split
  · exact h
  · have hr : ∀ (ks : List Nat) (r : State × Cmd), Memory.wf r.1.mem = true →
        Memory.wf (ks.foldl (fun (r : State × Cmd) k => cmdFlushOne r.1 id r.2 k) r).1.mem = true := fun ks => by
      induction ks with
      | nil => exact fun r hr => hr
      | cons k ks ih => exact fun r hr => ih _ (wf_cmdFlushOne r.1 id r.2 k hr)
    exact wf_foldl (fun t k ht => wf_sendPiece t id _ k ht) _ _ (hr _ (s, c) h)

theorem wf_arrivalUpdate (s : State) (id : Nat) (h : Memory.wf s.mem = true) :
    Memory.wf (s.arrivalUpdate id).mem = true := by
  unfold State.arrivalUpdate
  split
  · exact h
  split
  · exact h
  · exact wf_cmdDone id _ (wf_cmdMove _ id _ _ (by simpa using h))

theorem wf_cmdComplete (s : State) (id : Nat) (h : Memory.wf s.mem = true) :
    Memory.wf (s.cmdComplete id).mem = true := by
  unfold State.cmdComplete
  split
  · exact h
  next c _ =>
  split
  · exact h
  extract_lets first
  have hf : first.Wf := by
    unfold first
    split
    · exact wf_cmdBegin s id c h
    · exact h
  generalize hr : first.bind _ = r
  have he : r.Wf := by
    rw [← hr]
    exact hf.bind fun t d _ ht => (wf_cmdRest id _ t d ht).bind fun u e _ hu => wf_cmdEnd u id e hu
  split
  · next t d _ =>
    have ha : Memory.wf (State.advance { t with cmds := put t.cmds id { d with finished := true, buf := [], got := [] } }
        d.tl).mem = true := wf_advance _ _ he
    simp only [pruneCmds_mem]
    split
    · simpa using ha
    · split <;> simpa using ha
  · exact wf_cmdDone id _ he

theorem wf_engineFault (s : State) (id : Nat) (h : Memory.wf s.mem = true) :
    Memory.wf (s.engineFault id).mem = true := by
  unfold State.engineFault
  split
  · split
    · exact wf_cmdDone id _ (by simpa using h)
    · exact h
  · exact wf_arrivalUpdate _ id (by simpa using h)

end Sys2Proof.Machine
end

section
/-! SUPPORT. Memory stays canonical: the issue of engine commands (Machine/Command.lean). -/
namespace Sys2Proof.Machine

/-- The checks of an issue keep memory canonical: in what they refuse, and in what the accepted command's issue
changes. -/
def Checked.Wf : Checked Plan → Prop
  | .ok p => ∀ s, Memory.wf s.mem = true → Memory.wf (p.post s).mem = true
  | .error r => r.Wf

theorem wf_blockCap (x : Iss) (c : Cap) (off : Int) (len perm : Nat) (k : Nat → Checked Plan)
    (hk : ∀ va, Checked.Wf (k va)) : Checked.Wf (x.blockCap c off len perm k) := by
  unfold Iss.blockCap
  split
  · trivial
  · exact hk _

theorem wf_blockScr (x : Iss) (s : State) (off len : Nat) (k : Checked Plan) (hk : Checked.Wf k) :
    Checked.Wf (x.blockScr s off len k) := by
  unfold Iss.blockScr
  extract_lets bad
  split
  · trivial
  split
  · exact hk
  · trivial

theorem wf_blockArrive (x : Iss) (s : State) (off : Nat) (k : Checked Plan) (hk : Checked.Wf k) :
    Checked.Wf (x.blockArrive s off k) := by
  unfold Iss.blockArrive
  split
  · trivial
  · exact hk

theorem readBlock_mem {x : Iss} {s t : State} {off size : Nat} (e : x.readBlock s off size = .ok t) :
    t.mem = s.mem := by
  unfold Iss.readBlock at e
  grind [modGang_mem]

theorem wf_enter (x : Iss) (s : State) (pl : Place) (n : Nat) (p : Plan) (h : Memory.wf s.mem = true) :
    Memory.wf (x.enter s pl n p).mem = true := by
  unfold Iss.enter
  grind [wf_touch, tick_mem, wf_wn, modGang_mem]

theorem wf_command (x : Iss) (s : State) (d a : Reg) (q : BitVec 4) (size : Nat) (pair : Bool)
    (plan : State → Nat → Nat → (Nat → Cap) → Checked Plan) (h : Memory.wf s.mem = true)
    (hp : ∀ off b cap, Checked.Wf (plan s off b cap)) : (x.command s d a q size pair plan).Wf := by
  unfold Iss.command
  extract_lets off
  split
  · trivial
  next s1 e1 =>
  have h1 : Memory.wf s1.mem = true := by simpa [readBlock_mem e1] using h
  split
  · trivial
  split
  · next r e =>
    have hr := hp off (s.scrR x.gangNo off size) (fun i => s.scrCap x.gangNo (off + 16 * i))
    rw [e] at hr
    exact hr
  next p e =>
  have hr := hp off (s.scrR x.gangNo off size) (fun i => s.scrCap x.gangNo (off + 16 * i))
  rw [e] at hr
  split
  · trivial
  split
  · next t e => exact wf_gate h e
  extract_lets k last held n g
  split
  · trivial
  split
  · exact h
  · exact hr _ (wf_enter x s1 _ _ p h1)

theorem wf_planCopy (x : Iss) (s : State) (off b : Nat) (cap : Nat → Cap) : Checked.Wf (x.planCopy s off b cap) := by
  unfold Iss.planCopy
  dsimp only
  split
  · trivial
  · exact wf_blockScr _ _ _ _ _ (wf_blockCap _ _ _ _ _ _ fun va => wf_blockArrive _ _ _ _ fun _ h => h)

theorem wf_planCopyg (x : Iss) (off b : Nat) (cap : Nat → Cap) : Checked.Wf (x.planCopyg off b cap) := by
  unfold Iss.planCopyg
  dsimp only
  split
  · trivial
  · exact wf_blockCap _ _ _ _ _ _ fun vd => wf_blockCap _ _ _ _ _ _ fun vs _ h => h

theorem wf_planCopys (x : Iss) (s : State) (off b : Nat) (cap : Nat → Cap) : Checked.Wf (x.planCopys s off b cap) := by
  unfold Iss.planCopys
  dsimp only
  split
  · trivial
  · exact wf_blockCap _ _ _ _ _ _ fun vd => wf_blockScr _ _ _ _ _ fun _ h => h

theorem wf_blockDesc (x : Iss) (s : State) (c : Cap) (perm : Nat) (need : Need) (k : Place → Nat → Desc → Checked Plan)
    (h : Memory.wf s.mem = true) (hk : ∀ pl dk d, Checked.Wf (k pl dk d)) :
    Checked.Wf (x.blockDesc s c perm need k) := by
  unfold Iss.blockDesc
  split
  · trivial
  split
  · trivial
  split
  · trivial
  split
  · next t e => exact wf_gate h e
  dsimp only
  split
  · trivial
  · exact hk _ _ _

theorem wf_planTilest (x : Iss) (s : State) (off b : Nat) (cap : Nat → Cap) (h : Memory.wf s.mem = true) :
    Checked.Wf (x.planTilest s off b cap) := by
  unfold Iss.planTilest
  dsimp only
  split
  · trivial
  refine wf_blockDesc _ s _ _ _ _ h fun pl dk d => ?_
  split
  · trivial
  · exact wf_blockScr _ _ _ _ _ fun t ht => wf_touch t _ _ _ ht

theorem wf_planTileld (x : Iss) (s : State) (off b : Nat) (cap : Nat → Cap) (h : Memory.wf s.mem = true) :
    Checked.Wf (x.planTileld s off b cap) := by
  unfold Iss.planTileld
  split
  · trivial
  refine wf_blockDesc _ s _ _ _ _ h fun pl dk d => ?_
  split
  · trivial
  · exact wf_blockScr _ _ _ _ _ (wf_blockArrive _ _ _ _ (wf_blockScr _ _ _ _ _ fun t ht => wf_touch t _ _ _ ht))

theorem wf_planRegroup (x : Iss) (off b : Nat) (cap : Nat → Cap) : Checked.Wf (x.planRegroup off b cap) := by
  unfold Iss.planRegroup
  dsimp only
  split
  · trivial
  refine wf_blockCap _ _ _ _ _ _ fun tok => wf_blockCap _ _ _ _ _ _ fun bucket =>
    wf_blockCap _ _ _ _ _ _ fun counts => ?_
  split
  · exact fun _ h => h
  · exact wf_blockCap _ _ _ _ _ _ fun c _ h => h

theorem wf_blockHandle (x : Iss) (s : State) (n : Nat) (k : Handle → Checked Plan) (h : Memory.wf s.mem = true)
    (hk : ∀ r, Checked.Wf (k r)) : Checked.Wf (x.blockHandle s n k) := by
  unfold Iss.blockHandle
  dsimp only
  split
  · trivial
  split
  · trivial
  split
  · trivial
  split
  · exact h
  · exact hk _

theorem wf_blockImage (x : Iss) (s : State) (pa : Nat) (is : List Nat) (k : List (Nat × Nat × Handle) → Checked Plan)
    (h : Memory.wf s.mem = true) (hk : ∀ es, Checked.Wf (k es)) : Checked.Wf (x.blockImage s pa is k) := by
  induction is generalizing k with
  | nil => exact hk []
  | cons i is ih =>
    unfold Iss.blockImage
    dsimp only
    split
    · trivial
    split
    · trivial
    split
    · exact h
    split
    · trivial
    · exact wf_blockCap _ _ _ _ _ _ fun va => ih _ fun t => hk _

theorem wf_planLoftld (x : Iss) (s : State) (off b : Nat) (cap : Nat → Cap) (h : Memory.wf s.mem = true) :
    Checked.Wf (x.planLoftld s off b cap) := by
  unfold Iss.planLoftld
  extract_lets core hn
  split
  · trivial
  split
  · split
    · trivial
    split
    · trivial
    generalize List.range _ = is
    refine wf_blockImage x s _ _ _ h fun es => ?_
    intro t ht
    refine wf_foldl (fun u e hu => ?_) es t ht
    rw [setHandle_mem]
    exact hu
  · exact wf_blockHandle x s _ _ h fun r => wf_blockCap _ _ _ _ _ _ fun va t ht => by
      rw [setHandle_mem]
      exact ht

theorem wf_planLoftev (x : Iss) (s : State) (off b : Nat) (cap : Nat → Cap) (h : Memory.wf s.mem = true) :
    Checked.Wf (x.planLoftev s off b cap) := by
  unfold Iss.planLoftev
  dsimp only
  split
  · trivial
  refine wf_blockHandle x s _ _ h fun r => ?_
  split
  · exact fun _ ht => ht
  · exact wf_blockCap _ _ _ _ _ _ fun va _ ht => ht

theorem wf_planColl (x : Iss) (s : State) (off b : Nat) (cap : Nat → Cap) : Checked.Wf (x.planColl s off b cap) := by
  unfold Iss.planColl
  dsimp only
  split
  · trivial
  split
  · trivial
  split
  · trivial
  split
  · trivial
  · exact wf_blockCap _ _ _ _ _ _ fun src => wf_blockCap _ _ _ _ _ _ fun dst =>
      wf_blockCap _ _ _ _ _ _ fun stat _ h => h

theorem wf_planChain (x : Iss) (n off b : Nat) (cap : Nat → Cap) : Checked.Wf (x.planChain n off b cap) := by
  unfold Iss.planChain
  dsimp only
  split
  · trivial
  refine wf_blockCap _ _ _ _ _ _ fun dst => wf_blockCap _ _ _ _ _ _ fun src0 => ?_
  split
  · exact wf_blockCap _ _ _ _ _ _ fun src1 _ h => h
  · exact fun _ h => h

theorem wf_planCrib (x : Iss) (s : State) (load : Bool) (off b : Nat) (cap : Nat → Cap) :
    Checked.Wf (x.planCrib s load off b cap) := by
  unfold Iss.planCrib
  extract_lets space n roff rows rb ms counts len
  split
  · trivial
  split
  · trivial
  extract_lets r rlen resOk at_ go
  have hgo : ∀ mem, Checked.Wf (go mem) := fun mem => by
    unfold go
    dsimp only
    split
    · exact wf_blockArrive _ _ _ _ fun _ h => h
    · exact fun _ h => h
  split
  · trivial
  split
  · exact wf_blockScr _ _ _ _ _ (hgo _)
  · exact wf_blockCap _ _ _ _ _ _ fun va => hgo _

theorem wf_planDrain (x : Iss) (s : State) (off b : Nat) (cap : Nat → Cap) : Checked.Wf (x.planDrain s off b cap) := by
  unfold Iss.planDrain
  extract_lets sieve blk space ofmt n tid ncol col0 rows row0 ms rb scales len ctr base
  split
  · trivial
  split
  · trivial
  extract_lets r last go withSieve
  have hgo : ∀ dst sv, Checked.Wf (go dst sv) := fun dst sv => by
    unfold go
    dsimp only
    split
    · exact wf_blockArrive _ _ _ _ fun _ h => h
    · exact fun _ h => h
  have hs : ∀ dst, Checked.Wf (withSieve dst) := fun dst => by
    unfold withSieve
    split
    · exact hgo _ _
    split
    · exact hgo _ _
    · exact wf_blockCap _ _ _ _ _ _ fun va => hgo _ _
  split
  · trivial
  split
  · trivial
  split
  · trivial
  split
  · exact wf_blockScr _ _ _ _ _ (hs _)
  · exact wf_blockCap _ _ _ _ _ _ fun va => hs _

end Sys2Proof.Machine
end

section
/-! SUPPORT. Memory stays canonical: the matrix engine (Machine/Matrix.lean). -/
namespace Sys2Proof.Machine

/-- The state in which a pass waits for a place. -/
theorem wf_opPlace {s t : State} {o : MOp} {need : Need} {va n : Nat} (h : Memory.wf s.mem = true)
    (e : s.opPlace o need va n = .error (.inl t)) : Memory.wf t.mem = true := by
  unfold State.opPlace at e
  split at e
  · cases e
  split at e
  · cases e
    exact h
  split at e
  · next u eu =>
    cases e
    exact wf_meetTiles h eu
  split at e
  · next u eu =>
    cases e
    simpa [unserved_mem eu] using h
  · cases e

/-- Memory is canonical in the state that a streamed read ends in. -/
@[simp] def Streamed.Wf : Streamed → Prop
  | .ok s _ | .wait s => Memory.wf s.mem = true
  | .fail _ => True

theorem wf_streamRun (o : MOp) (f va n : Nat) (s : State) (h : Memory.wf s.mem = true) :
    (streamRun o f va n s).Wf := by
  induction f generalizing va n s with
  | zero => exact h
  | succ f ih =>
    unfold streamRun
    dsimp only
    split
    · exact h
    split
    · trivial
    · next t e => exact wf_opPlace h e
    · next pl _ =>
      have hr := ih (va + min n (16 - va % 16)) (n - min n (16 - va % 16)) _ (wf_touch s o.ag false pl h)
      split
      · next t r e => rw [e] at hr; exact hr
      · exact hr

/-- Memory is canonical in the state in which a pass waits, or goes on with its data. -/
@[simp] def PassEnd {α : Type} (st : α → State) : Except (Sum State Fail) α → Prop
  | .ok a => Memory.wf (st a).mem = true
  | .error (.inl s) => Memory.wf s.mem = true
  | .error (.inr _) => True

theorem wf_bStream (o : MOp) (c : Nat) (ns : List Nat) (s : State) (h : Memory.wf s.mem = true) :
    PassEnd Prod.fst (State.bStream o c ns s) := by
  induction ns generalizing s with
  | nil => exact h
  | cons n ns ih =>
    unfold State.bStream
    extract_lets hr nb at_
    have h1 := wf_streamRun o 32 (at_ + 256 * c) 256 s h
    split
    · next t e => rw [e] at h1; exact h1
    · trivial
    next s1 bs e1 =>
    rw [e1] at h1
    have h2 := wf_streamRun o 8 (at_ + hElems hr + c * nb) (if isMx (hFormat hr) then nb else 0) s1 h1
    split
    · next t e => rw [e] at h2; exact h2
    · trivial
    next s2 xs e2 =>
    rw [e2] at h2
    have h3 := ih s2 h2
    split
    · next e e3 => rw [e3] at h3; cases e <;> exact h3
    · next s3 r e3 => rw [e3] at h3; exact h3

theorem wf_formOct {x : Iss} {s : State} {gid : Nat} {k : Gang} {cn an : Nat} {z t rz forced expert : Bool}
    {hn oct : Nat} {r : Res} (e : x.formOct s gid k cn an z t rz forced expert hn oct = .error r) : r.Wf := by
  unfold Iss.formOct at e
  grind [Res.Wf]

theorem wf_formAll {x : Iss} {s : State} {gid : Nat} {k : Gang} {cn an : Nat} {z t rz forced expert : Bool}
    {handle : Nat → Nat} {os : List Nat} {r : Res}
    (e : x.formAll s gid k cn an z t rz forced expert handle os = .error r) : r.Wf := by
  induction os generalizing r with
  | nil => cases e
  | cons o os ih =>
    unfold Iss.formAll at e
    split at e
    · next r' er => cases e; exact wf_formOct er
    split at e
    · next r' er => cases e; exact ih er
    · cases e

@[simp] theorem joinSet_mem (s : State) (o : MOp) : (s.joinSet o).mem = s.mem := by
  unfold State.joinSet
  repeat' split
  all_goals simp

theorem wf_mma (x : Iss) (s : State) (cn an : BitVec 5) (z t rz forced expert : Bool) (handle : Nat → Nat)
    (h : Memory.wf s.mem = true) : (x.mma s cn an z t rz forced expert handle).Wf := by
  unfold Iss.mma
  split
  · exact h
  dsimp only
  split
  · next r e => exact wf_formAll e
  split
  · exact h
  · exact wf_foldl (fun t o ht => by simpa using ht) _ s h

theorem wf_cres (x : Iss) (s : State) (c : BitVec 5) (a : Reg) (h : Memory.wf s.mem = true) : (x.cres s c a).Wf := by
  unfold Iss.cres
  grind [Res.Wf, modGang_mem]

@[simp] theorem crel_mem (x : Iss) (s : State) (c : BitVec 5) : (x.crel s c).mem = s.mem := by
  simp [Iss.crel]

theorem wf_czero (x : Iss) (s : State) (c : BitVec 5) (h : Memory.wf s.mem = true) : (x.czero s c).Wf := by
  unfold Iss.czero
  grind [Res.Wf, joinSet_mem]

@[simp] theorem passOne_mem (s : State) (id : Nat) (o : MOp) (c : Nat) (b : List (Nat × List Nat × List Nat))
    (last : Bool) : (s.passOne id o c b last).mem = s.mem := rfl

/-- Memory is canonical in the state in which a pass waits, stops, or goes on. -/
@[simp] def PassAdded : Except (Sum State (MOp × Fail × State)) State → Prop
  | .ok s | .error (.inl s) | .error (.inr (_, _, s)) => Memory.wf s.mem = true

theorem wf_passAdds (os : List (Nat × MOp)) (s : State) (h : Memory.wf s.mem = true) : PassAdded (passAdds os s) := by
  induction os generalizing s with
  | nil => exact h
  | cons e os ih =>
    obtain ⟨id, o⟩ := e
    unfold passAdds
    split
    · exact ih s h
    split
    · exact h
    · next t e =>
      split at e
      · exact wf_opPlace h e
      · cases e
    · exact ih _ (wf_touch _ _ _ _ (wf_wkeys _ _ _ h))

@[simp] theorem splitSets_mem (s : State) (gid : Nat) : (s.splitSets gid).mem = s.mem := by
  unfold State.splitSets
  grind [tick_mem, foldl_mem]

@[simp] theorem moveSets_mem (s : State) (gid core : Nat) : (s.moveSets gid core).mem = s.mem := rfl

theorem wf_pass (s : State) (core : Nat) (h : Memory.wf s.mem = true) : Memory.wf (s.pass core).mem = true := by
  unfold State.pass
  split
  · exact h
  next n st _ =>
  extract_lets os halt
  have hhalt : ∀ t o f, Memory.wf t.mem = true → Memory.wf (halt t o f).mem = true := fun t o f ht => by
    unfold halt
    dsimp only
    split <;> simpa using ht
  clear_value halt os
  split
  · exact h
  next id o os =>
  split
  · exact h
  extract_lets c last cols b
  have hb : PassEnd Prod.fst b := by
    unfold b
    split
    · exact h
    split
    · exact wf_bStream o c cols s h
    · exact h
  clear_value b
  split
  · exact hhalt s _ _ h
  split
  · exact hb
  · exact hhalt s _ _ h
  next t b' =>
  have ha : PassAdded (if last then passAdds ((id, o) :: os) t else .ok t) := by
    split
    · exact wf_passAdds _ t hb
    · exact hb
  split
  · next u eu => rw [eu] at ha; exact ha
  · next o f u eu => rw [eu] at ha; exact hhalt u o f ha
  · next u eu =>
    rw [eu] at ha
    exact wf_foldl (fun v e hv => by simpa using hv) _ u ha

@[simp] theorem landResults_mem (s : State) (core n : Nat) : (s.landResults core n).mem = s.mem := by
  induction n generalizing s with
  | zero => rfl
  | succ n ih =>
    unfold State.landResults
    split
    · rfl
    · simp only [ih]
      split <;> exact foldl_mem (fun t e => by simp) _ _

@[simp] theorem resultWrite_mem (s : State) (core : Nat) : (s.resultWrite core).mem = s.mem := by
  unfold State.resultWrite
  grind [cribW_mem, foldl_mem]

@[simp] theorem closeSet_mem (s : State) (n : Nat) : (s.closeSet n).mem = s.mem := by
  unfold State.closeSet
  repeat' split
  all_goals simp

@[simp] theorem batchEnd_mem (s : State) (u : Nat) : (s.batchEnd u).mem = s.mem := by
  unfold State.batchEnd
  repeat' split
  all_goals simp

end Sys2Proof.Machine
end

section
/-! SUPPORT. Memory stays canonical: loft handles (Machine/Loft.lean). -/
namespace Sys2Proof.Machine

theorem wf_held (x : Iss) (s : State) (a : Reg) (k : Nat → Handle → Res) (hk : ∀ n r, (k n r).Wf) :
    (x.held s a k).Wf := by
  unfold Iss.held
  dsimp only
  split
  · trivial
  split
  · trivial
  · exact hk _ _

theorem wf_lhset (x : Iss) (s : State) (a b : Reg) (h : Memory.wf s.mem = true) : (x.lhset s a b).Wf := by
  unfold Iss.lhset
  dsimp only
  split
  · trivial
  split
  · trivial
  split
  · trivial
  split
  · trivial
  split
  · exact h
  · simpa using h

theorem wf_lhrel (x : Iss) (s : State) (a : Reg) (h : Memory.wf s.mem = true) : (x.lhrel s a).Wf := by
  refine wf_held x s a _ fun n r => ?_
  split
  · trivial
  split
  · exact h
  · simpa using h

theorem wf_lhget (x : Iss) (s : State) (a b : Reg) (h : Memory.wf s.mem = true) : (x.lhget s a b).Wf := by
  unfold Iss.lhget
  grind [Res.Wf, scrCapW_mem, wf_held, scrNote_mem]

theorem wf_lhpin (x : Iss) (s : State) (a : Reg) (h : Memory.wf s.mem = true) : (x.lhpin s a).Wf := by
  refine wf_held x s a _ fun n r => ?_
  split
  · trivial
  · exact h
  · simpa using h

theorem wf_lhunpin (x : Iss) (s : State) (a : Reg) (h : Memory.wf s.mem = true) : (x.lhunpin s a).Wf := by
  unfold Iss.lhunpin
  grind [Res.Wf, wf_held, setHandle_mem]

end Sys2Proof.Machine
end

section
/-! SUPPORT. Memory stays canonical: messages (Machine/Ipc.lean). -/
namespace Sys2Proof.Machine

@[simp] theorem sendOut_mem (s : State) (vd : Nat) (f : Frame) : (s.sendOut vd f).mem = s.mem := by
  unfold State.sendOut
  dsimp only
  repeat' split
  all_goals simp

@[simp] theorem complete_mem (s : State) (u : Nat) (b : Bool) (f : Grp → Grp) (lanes : Option (List Nat)) :
    (s.complete u b f lanes).mem = s.mem := by
  unfold State.complete
  repeat' split
  all_goals simp

theorem answerCaller_mem {s t : State} {c : Caller} {rd st : Nat} (e : s.answerCaller c rd st = some t) :
    t.mem = s.mem := by
  unfold State.answerCaller at e
  grind [complete_mem]

@[simp] theorem newReply_mem (s : State) (whom : ReplyTo) (server : Option Nat) :
    (s.newReply whom server).1.mem = s.mem := rfl

@[simp] theorem serve_mem (s : State) (n : Option Nat) (ctx : Option Nat) (vd : Option Nat) :
    (s.serve n ctx vd).mem = s.mem := by
  unfold State.serve
  repeat' split
  all_goals rfl

@[simp] theorem batchStatus_mem (s : State) (b : Batch) (lanes : List Nat) (st : Nat) :
    (s.batchStatus b lanes st).mem = s.mem := by
  simp [State.batchStatus]

@[simp] theorem svcEnd_mem (s : State) (id : Nat) (st : Nat) : (s.svcEnd id st).mem = s.mem := by
  unfold State.svcEnd
  dsimp only
  repeat' split
  all_goals simp

@[simp] theorem batchDone_mem (s : State) (id : Nat) : (s.batchDone id).mem = s.mem := by
  unfold State.batchDone
  repeat' split
  all_goals simp

@[simp] theorem slotReply_mem (s : State) (vd slot status : Nat) (m : Msg) :
    (s.slotReply vd slot status m).mem = s.mem := rfl

@[simp] theorem answer_mem (s : State) (vd n : Nat) (r : Reply) (m : Msg) : (s.answer vd n r m).1.mem = s.mem := by
  unfold State.answer
  extract_lets t
  have ht : t.mem = s.mem := rfl
  clear_value t
  split
  · split
    · split <;> simp [ht]
    · exact ht
  all_goals simp [ht]

@[simp] theorem deliver_mem (s : State) (p : Party) (m : Msg) : (s.deliver p m).mem = s.mem := by
  simp [State.deliver]

@[simp] theorem tellPeer_mem (s : State) (vd ep : Nat) (peer : Option Nat) (status : Nat) :
    (s.tellPeer vd ep peer status).mem = s.mem := by
  unfold State.tellPeer
  repeat' split
  all_goals simp

@[simp] theorem post_mem (s : State) (ep : Nat) (m : Msg) (peer : Option Nat) : (s.post ep m peer).mem = s.mem := by
  unfold State.post
  repeat' split
  all_goals simp

theorem wf_replyOn (x : Iss) (s : State) (d : Reg) (info n : Nat) (r : Reply) (h : Memory.wf s.mem = true) :
    (x.replyOn s d info n r).Wf := by
  unfold Iss.replyOn
  dsimp only
  split
  · exact h
  · simpa using h

theorem wf_sendFar (x : Iss) (s : State) (d : Reg) (c : Cap) (info ep m : Nat) (call wait : Bool)
    (h : Memory.wf s.mem = true) : (x.sendFar s d c info ep m call wait).Wf := by
  unfold Iss.sendFar
  dsimp only
  split
  · trivial
  split
  · next t e => simpa [(pay_mem _ _ _).2 _ e] using h
  · next t e =>
    have ht : Memory.wf t.mem = true := by simpa [(pay_mem _ _ _).1 _ e] using h
    split
    · exact ht
    split <;> exact ht

theorem wf_sendOn (x : Iss) (s : State) (d a : Reg) (q : BitVec 4) (call wait : Bool) (h : Memory.wf s.mem = true) :
    (x.sendOn s d a q call wait).Wf := by
  unfold Iss.sendOn
  dsimp only
  split
  · trivial
  split
  · exact wf_replyOn x s _ _ _ _ h
  split
  · exact h
  split
  · exact wf_sendFar x s _ _ _ _ _ _ _ h
  split
  · split <;> exact h
  · split <;> simpa using h

theorem wf_recvOn (x : Iss) (s : State) (d : Reg) (q : BitVec 4) (h : Memory.wf s.mem = true) :
    (x.recvOn s d q).Wf := by
  unfold Iss.recvOn
  extract_lets c t
  split
  · trivial
  extract_lets ep post far take takePost
  have ht : Memory.wf t.mem = true := h
  have htake : ∀ u m, Memory.wf u.mem = true → (take u m).Wf := fun u m hu => by simpa [take] using hu
  have hpost : ∀ k, (takePost k).Wf := fun k => htake _ _ (by simpa using ht)
  clear_value take takePost t
  split
  · exact h
  · split
    · exact hpost _
    · dsimp only
      split <;> exact htake _ _ (by simpa using ht)
    · exact h
  · exact hpost _

theorem wf_signalOn (x : Iss) (s : State) (q : BitVec 4) (h : Memory.wf s.mem = true) : (x.signalOn s q).Wf := by
  unfold Iss.signalOn
  grind [Res.Wf, sendOut_mem, wf_noteOr]

theorem wf_waitnOn (x : Iss) (s : State) (d : Reg) (q : BitVec 4) (h : Memory.wf s.mem = true) :
    (x.waitnOn s d q).Wf := by
  unfold Iss.waitnOn
  grind [Res.Wf, wf_rawW]

end Sys2Proof.Machine
end

section
/-! SUPPORT. Memory stays canonical: kernel calls (Machine/Kcall.lean). -/
namespace Sys2Proof.Machine

theorem wf_spawn (x : Iss) (s : State) (d : Reg) (q : BitVec 4) (h : Memory.wf s.mem = true) :
    (x.spawn s d q).Wf := by
  unfold Iss.spawn
  grind [Res.Wf, wf_gate, submit_mem, wf_touchAll]

theorem wf_join (x : Iss) (s : State) (a : Reg) (q : BitVec 4) (h : Memory.wf s.mem = true) : (x.join s a q).Wf := by
  unfold Iss.join
  grind [Res.Wf, wf_touch, wf_gate]

theorem wf_svc (x : Iss) (s : State) (d a : Reg) (h : Memory.wf s.mem = true) : (x.svc s d a).Wf := by
  unfold Iss.svc
  repeat' split
  all_goals simp [Res.Wf, h]

theorem wf_revoke (x : Iss) (s : State) (d : Reg) (q : BitVec 4) (h : Memory.wf s.mem = true) :
    (x.revoke s d q).Wf := by
  unfold Iss.revoke
  grind [Res.Wf]

end Sys2Proof.Machine
end

section
/-! SUPPORT. Memory stays canonical: decisions of Winnow code (Machine/Winnow.lean). -/
namespace Sys2Proof.Machine

@[simp] theorem modPart_mem (s : State) (p : Nat) (f : Part → Part) : (s.modPart p f).mem = s.mem := by
  unfold State.modPart
  repeat' split
  all_goals rfl

@[simp] theorem counted_mem (s : State) (p : Nat) (overrun invalid : Bool) :
    (s.counted p overrun invalid).mem = s.mem := by
  simp [State.counted]

@[simp] theorem dispatchDecision_mem (s : State) (p : Nat) (only : Bool) :
    (s.dispatchDecision p only).mem = s.mem := by
  unfold State.dispatchDecision
  repeat' split
  all_goals simp

@[simp] theorem markCores_mem (s : State) (p n : Nat) (l : Launch) (k : Nat) : (s.markCores p n l k).mem = s.mem := by
  induction k generalizing s with
  | zero => rfl
  | succ k ih =>
    unfold State.markCores
    split
    · rfl
    · exact ih _

@[simp] theorem pressureDecision_mem (s : State) (p : Nat) (only : Bool) : (s.pressureDecision p only).mem = s.mem := by
  unfold State.pressureDecision
  split
  · rfl
  extract_lets t
  have ht : t.mem = s.mem := modLaunch_mem ..
  clear_value t
  split
  · simp [ht]
  · split
    · rfl
    · split <;> simp [ht]
  all_goals split <;> simp [ht]

theorem wf_pload (x : Iss) (s : State) (d a : Reg) (q : BitVec 4) (h : Memory.wf s.mem = true) :
    (x.pload s d a q).Wf := by
  unfold Iss.pload
  extract_lets p c st
  have hst : ∀ n, (st n).Wf := fun _ => h
  clear_value st
  split
  · exact hst _
  split
  · exact hst _
  split
  · exact hst _
  split
  · next t w e => exact wf_gate h e
  extract_lets n
  split
  · exact hst _
  split
  · exact hst _
  split
  · exact hst _
  split
  · next t w e => exact wf_gate h e
  extract_lets m prog
  split
  · exact hst _
  split
  · exact hst _
  split
  · exact hst _
  · rw [Res.Wf, modPart_mem]
    exact wf_touch s _ _ _ h

theorem wf_pswap (x : Iss) (s : State) (d a : Reg) (h : Memory.wf s.mem = true) : (x.pswap s d a).Wf := by
  unfold Iss.pswap
  grind [Res.Wf, modPart_mem]

@[simp] theorem slotSwap_mem (s : State) (p : Nat) : (s.slotSwap p).mem = s.mem := by
  unfold State.slotSwap
  split
  · rfl
  split
  · rfl
  dsimp only
  generalize hr : State.answerCaller _ _ _ _ = r
  cases r with
  | none => simp
  | some t => simp [answerCaller_mem hr]

theorem wf_pstat (x : Iss) (s : State) (d a b : Reg) (h : Memory.wf s.mem = true) : (x.pstat s d a b).Wf := by
  unfold Iss.pstat
  repeat' split
  all_goals simp [Res.Wf, h]

end Sys2Proof.Machine
end

section
/-! SUPPORT. Memory stays canonical: context images (Machine/Images.lean). -/
namespace Sys2Proof.Machine

theorem wf_writeImage {s t : State} {c : Nat} {k : Ctx} {st : Nat} (h : Memory.wf s.mem = true)
    (e : s.writeImage c k st = some t) : Memory.wf t.mem = true := by
  unfold State.writeImage at e
  dsimp only at e
  split at e
  · cases e
  · rw [← Option.some.inj e, modCtx_mem]
    exact wf_openW _ _ _ h

@[simp] theorem showImage_mem (s : State) (c : Nat) (cap : Cap) : (s.showImage c cap).mem = s.mem := by
  simp [State.showImage]

@[simp] theorem areaFull_mem (s : State) (c : Nat) (k : Ctx) : (s.areaFull c k).mem = s.mem := by
  unfold State.areaFull
  repeat' split
  all_goals simp

theorem wf_stopCmds (s : State) (gid : Nat) (h : Memory.wf s.mem = true) : Memory.wf (s.stopCmds gid).mem = true := by
  unfold State.stopCmds
  grind [wf_stopCmd, wf_foldl]

theorem wf_saveGang (s : State) (gid : Nat) (k : Gang) (h : Memory.wf s.mem = true) :
    Memory.wf (s.saveGang gid k).mem = true := by
  unfold State.saveGang
  grind [sweepHandles_mem, landResults_mem, left_mem, wf_stopUnit, wf_stopCmds, splitSets_mem, wf_foldl]

theorem wf_landQ (s : State) (k : Gang) (e : Late) (h : Memory.wf s.mem = true) :
    Memory.wf (s.landQ k e).mem = true := by
  unfold State.landQ
  grind [putU_mem, wf_landPiece]

theorem wf_landFlights (s : State) (p : Nat → Bool) (h : Memory.wf s.mem = true) :
    Memory.wf (s.landFlights p).mem = true := by
  unfold State.landFlights
  grind [wf_landQ, wf_foldl]

theorem wf_unsave (s : State) (gid core : Nat) (h : Memory.wf s.mem = true) :
    Memory.wf (s.unsave gid core).mem = true := by
  unfold State.unsave
  grind [moveQuarantine_mem, wf_landQ, claimCore_mem, moveSets_mem, wf_landFlights, wf_foldl]

@[simp] theorem faultMessage_mem (s : State) (c : Nat) (root : Obj) : (s.faultMessage c root).mem = s.mem := by
  unfold State.faultMessage
  dsimp only
  repeat' split
  all_goals simp

end Sys2Proof.Machine
end

section
/-! SUPPORT. Memory stays canonical: halts, saves and restores (Machine/Halt.lean). -/
namespace Sys2Proof.Machine

theorem wf_setPins (s : State) (desc : Nat) (f : Nat → Nat) (h : Memory.wf s.mem = true) :
    Memory.wf (s.setPins desc f).mem = true := by
  unfold State.setPins
  grind [wf_rawW]

theorem wf_breakTile (s : State) (c : Cmd) (h : Memory.wf s.mem = true) : Memory.wf (s.breakTile c).mem = true := by
  unfold State.breakTile
  grind [wf_setTileState, wf_setTileVersion]

@[simp] theorem abortPeers_mem (s : State) (c : Cmd) : (s.abortPeers c).mem = s.mem := by
  unfold State.abortPeers
  repeat' split
  all_goals simp

theorem wf_endCmds (s : State) (p : Cmd → Bool) (h : Memory.wf s.mem = true) :
    Memory.wf (s.endCmds p).mem = true := by
  unfold State.endCmds
  grind [wf_breakTile, abortPeers_mem, wf_foldl]

@[simp] theorem endOps_mem (s : State) (p : MOp → Bool) : (s.endOps p).mem = s.mem := by
  simp [State.endOps]

theorem wf_killGang (s : State) (gid : Nat) (k : Gang) (h : Memory.wf s.mem = true) :
    Memory.wf (s.killGang gid k).mem = true := by
  unfold State.killGang
  grind [wf_endCmds, freeToken_mem, dropGang_mem, endOps_mem, unlock_mem, wf_foldl]

theorem wf_killSaved (s : State) (p : Saved → Bool) (h : Memory.wf s.mem = true) :
    Memory.wf (s.killSaved p).mem = true := by
  unfold State.killSaved
  grind [wf_endCmds, endOps_mem]

theorem wf_undoRegrow (s : State) (d : Nat) (h : Memory.wf s.mem = true) : Memory.wf (s.undoRegrow d).mem = true := by
  unfold State.undoRegrow
  grind [wf_setTileState, wf_endCmds, wf_setPins, endOps_mem, wf_killGang, wf_killSaved, wf_foldl]

@[simp] theorem noReply_mem (s : State) (n : Nat) (r : Reply) (status : Nat) :
    (s.noReply n r status).mem = s.mem := by
  unfold State.noReply
  repeat' split
  all_goals simp

@[simp] theorem consume_mem (s : State) (c : Nat) : (s.consume c).mem = s.mem := by
  unfold State.consume
  dsimp only
  repeat' split
  all_goals simp

theorem wf_killCtx (s : State) (c : Nat) (status : Nat) (h : Memory.wf s.mem = true) :
    Memory.wf (s.killCtx c status).mem = true := by
  unfold State.killCtx
  grind [wf_undoRegrow, wf_endCmds, noReply_mem, endOps_mem, wf_killGang, stir_mem, modCtx_mem, consume_mem,
    clearMarks_mem, fixHeads_mem, wf_killSaved, wf_foldl]

theorem wf_runOn (s : State) (c : Nat) (h : Memory.wf s.mem = true) : Memory.wf (s.runOn c).mem = true := by
  unfold State.runOn
  extract_lets s1 s2 here s3
  have h1 : Memory.wf s1.mem = true := by
    rw [show s1.mem = s.mem from consume_mem s c]
    exact h
  have h2 : Memory.wf s2.mem = true := wf_foldl (fun t e ht => by
    split
    · exact wf_undoRegrow t _ ht
    · exact ht) _ s1 h1
  have h3 : Memory.wf s3.mem = true := wf_landFlights s2 _ h2
  rw [modCtx_mem]
  exact h3

theorem wf_unsaveOk {s t : State} {gid core : Nat} (h : Memory.wf s.mem = true) (e : s.unsaveOk gid core = some t) :
    Memory.wf t.mem = true := by
  unfold State.unsaveOk at e
  split at e
  · exact Option.some.inj e ▸ h
  split at e
  · exact Option.some.inj e ▸ wf_unsave s gid core h
  · cases e

@[simp] theorem saveThreads_mem (s : State) (c : Nat) : (s.saveThreads c).mem = s.mem := by
  simp [State.saveThreads]

theorem placeThreads_mem {s t : State} {ts : List (Nat × Grp)} (e : s.placeThreads ts = some t) : t.mem = s.mem := by
  induction ts generalizing s with
  | nil => exact Option.some.inj e ▸ rfl
  | cons x ts ih =>
    unfold State.placeThreads at e
    dsimp only at e
    split at e
    · cases e
    split at e
    · cases e
    · simpa using ih e

theorem wf_restoreCtx {s t : State} {c row0 col0 : Nat} (h : Memory.wf s.mem = true)
    (e : s.restoreCtx c row0 col0 = some t) : Memory.wf t.mem = true := by
  unfold State.restoreCtx at e
  obtain ⟨u, hu, rfl⟩ := Option.map_eq_some_iff.1 e
  obtain ⟨ts, _, hts⟩ := Option.bind_eq_some_iff.1 hu
  obtain ⟨v, hv, hp⟩ := Option.bind_eq_some_iff.1 hts
  refine wf_runOn u c ?_
  rw [placeThreads_mem hp]
  exact wf_foldl_bind wf_unsaveOk h hv

theorem wf_resume (s : State) (c : Nat) (h : Memory.wf s.mem = true) : Memory.wf (s.resume c).mem = true := by
  unfold State.resume
  split
  · exact wf_runOn s c h
  · simpa using h
  · exact h

@[simp] theorem notifyOwn_mem (s : State) (c : Nat) : (s.notifyOwn c).mem = s.mem := by
  unfold State.notifyOwn
  split
  · rfl
  · exact faultMessage_mem ..

theorem wf_escalate (s : State) (c : Nat) (h : Memory.wf s.mem = true) : Memory.wf (s.escalate c).mem = true := by
  unfold State.escalate
  split
  · exact h
  split
  · exact wf_killCtx s c _ h
  · simpa using h

@[simp] theorem answerCallers_mem (s : State) (c : Nat) (cs : List (Caller × Nat × Bool)) (st : Bool → Nat) :
    (s.answerCallers c cs st).mem = s.mem := by
  unfold State.answerCallers
  refine foldl_mem (fun t e => ?_) cs s
  cases hr : t.answerCaller e.1 e.2.1 (st e.2.2) with
  | none => simp
  | some u => simp [answerCaller_mem hr]

theorem wf_saveCtx (s : State) (c : Nat) (h : Memory.wf s.mem = true) : Memory.wf (s.saveCtx c).1.mem = true := by
  unfold State.saveCtx
  extract_lets t
  have ht : Memory.wf t.mem = true := by
    unfold t
    rw [saveThreads_mem]
    exact wf_foldl (fun u e hu => wf_saveGang u _ _ hu) _ s h
  clear_value t
  split
  · exact h
  split
  · exact h
  · next u e => simpa using wf_writeImage ht e

theorem wf_finishHalt (s : State) (c : Nat) (h : Memory.wf s.mem = true) :
    Memory.wf (s.finishHalt c).mem = true := by
  unfold State.finishHalt
  split
  · exact h
  next k _ =>
  split
  · exact h
  split
  · rw [answerCallers_mem]
    exact wf_killCtx _ c _ (by simpa using h)
  next t e =>
  have ht : Memory.wf t.mem = true := wf_writeImage (by simpa using h) e
  extract_lets u r
  have hu : Memory.wf u.mem = true := by
    rw [show u.mem = t.mem from modCtx_mem ..]
    exact ht
  have hr : Memory.wf r.1.mem = true := by
    unfold r
    split
    · exact wf_saveCtx u c hu
    · exact hu
  rw [answerCallers_mem]
  exact hr

theorem wf_settleHalts (s : State) (h : Memory.wf s.mem = true) : Memory.wf s.settleHalts.mem = true := by
  unfold State.settleHalts
  grind [wf_finishHalt, wf_foldl]

theorem wf_unitStop (s : State) (u : Nat) (h : Memory.wf s.mem = true) : Memory.wf (s.unitStop u).mem = true := by
  unfold State.unitStop
  grind [landResults_mem, wf_stopUnit, wf_stopCmd, wf_finishHalt]

theorem wf_faultDecision (s : State) (p : Nat) (only : Bool) (h : Memory.wf s.mem = true) :
    Memory.wf (s.faultDecision p only).mem = true := by
  unfold State.faultDecision
  split
  · exact h
  next c k _ _ =>
  extract_lets t dog
  have ht : Memory.wf t.mem = true := by
    rw [show t.mem = s.mem from modCtx_mem ..]
    exact h
  clear_value t dog
  split
  · simpa using ht
  · split
    · exact h
    · exact wf_killCtx _ c _ (by simpa using ht)
  · split
    · exact h
    split
    · exact wf_resume _ c (by simpa using ht)
    · simpa using ht
  all_goals
    split
    · exact h
    · simpa using ht

theorem wf_budgetOverrun (s : State) (p : Nat) (h : Memory.wf s.mem = true) :
    Memory.wf (s.budgetOverrun p).mem = true := by
  unfold State.budgetOverrun
  grind [dispatchDecision_mem, wf_faultDecision, pressureDecision_mem]

theorem wf_vacateCheck (s : State) (gid : Nat) (h : Memory.wf s.mem = true) :
    Memory.wf (s.vacateCheck gid).mem = true := by
  unfold State.vacateCheck
  grind [wf_saveGang]

theorem wf_vacateUnit (s : State) (u gid : Nat) (h : Memory.wf s.mem = true) :
    Memory.wf (s.vacateUnit u gid).mem = true := by
  unfold State.vacateUnit
  grind [wf_vacateCheck, putU_mem, wf_stopUnit]

theorem wf_reconvergenceHalt (s : State) (u : Nat) (h : Memory.wf s.mem = true) :
    Memory.wf (s.reconvergenceHalt u).mem = true := by
  unfold State.reconvergenceHalt
  grind [wf_vacateCheck, wf_vacateUnit]

theorem wf_forcedSave (s : State) (u : Nat) (h : Memory.wf s.mem = true) : Memory.wf (s.forcedSave u).mem = true := by
  unfold State.forcedSave
  grind [wf_vacateUnit]

theorem wf_fillCore (s : State) (n c k : Nat) (h : Memory.wf s.mem = true) :
    Memory.wf (s.fillCore n c k).mem = true := by
  induction k generalizing s with
  | zero => exact h
  | succ k ih =>
    unfold State.fillCore
    split
    · exact h
    split
    · exact h
    split
    · exact h
    · refine ih _ ?_
      split
      · exact wf_resumeGang _ _ _ _ _ (by simpa using h)
      · simpa using h

theorem wf_coreHandover (s : State) (c : Nat) (h : Memory.wf s.mem = true) :
    Memory.wf (s.coreHandover c).mem = true := by
  unfold State.coreHandover
  split
  · exact h
  next m _ =>
  split
  · exact h
  have ht := wf_fillCore s m.launch c 64 h
  dsimp only
  split
  · exact wf_settleHalts _ ht
  · refine wf_settleHalts _ ?_
    rw [gained_mem]
    exact ht

theorem wf_quarantineLanding (s : State) (c : Nat) (h : Memory.wf s.mem = true) :
    Memory.wf (s.quarantineLanding c).mem = true := by
  unfold State.quarantineLanding
  grind [wf_landQ]

theorem wf_placeSaved {s t : State} {n : Nat} {l : Launch} (h : Memory.wf s.mem = true)
    (e : s.placeSaved n l = some t) : Memory.wf t.mem = true := by
  unfold State.placeSaved at e
  obtain ⟨x, _, hx⟩ := List.exists_of_findSome?_eq_some e
  split at hx
  · cases hx
  · obtain ⟨c, _, rfl⟩ := Option.map_eq_some_iff.1 hx
    exact wf_unsave s _ c h

theorem wf_gangDispatch (s : State) (n : Nat) (h : Memory.wf s.mem = true) :
    Memory.wf (s.gangDispatch n).mem = true := by
  unfold State.gangDispatch
  split
  · exact wf_dispatchOne s n _ h
  next t e =>
  obtain ⟨l, _, hl⟩ := Option.bind_eq_some_iff.1 e
  split
  · simpa using wf_placeSaved h hl
  · exact wf_dispatchOne _ n _ (by simpa using h)

theorem wf_phaseStart (s : State) (n : Nat) (h : Memory.wf s.mem = true) : Memory.wf (s.phaseStart n).mem = true :=
  wf_settleHalts _ (wf_dispatchOne s n true h)

theorem wf_noUnitFault (s : State) (c code detail : Nat) (h : Memory.wf s.mem = true) :
    Memory.wf (s.noUnitFault c code detail).mem = true := by
  unfold State.noUnitFault
  split
  · exact h
  · exact wf_finishHalt _ c (by simpa using h)

theorem wf_watchdogHang (s : State) (c d : Nat) (h : Memory.wf s.mem = true) :
    Memory.wf (s.watchdogHang c d).mem = true := by
  unfold State.watchdogHang
  grind [wf_noUnitFault, modCtx_mem]

theorem wf_watchdogDeadlock (s : State) (c : Nat) (h : Memory.wf s.mem = true) :
    Memory.wf (s.watchdogDeadlock c).mem = true := by
  unfold State.watchdogDeadlock
  grind [wf_noUnitFault, modCtx_mem]

theorem wf_haltctx (x : Iss) (s : State) (d : Reg) (q : BitVec 4) (save : Bool) (h : Memory.wf s.mem = true) :
    (x.haltctx s d q save).Wf := by
  unfold Iss.haltctx
  extract_lets c
  split
  · trivial
  split
  · exact h
  next o _ =>
  have hr : Memory.wf (s.openCtx o.vd o.va).1.mem = true := by simpa using h
  dsimp only
  generalize s.openCtx o.vd o.va = r at hr ⊢
  split
  · exact h
  split
  · simpa using h
  split
  · exact h
  · split
    · exact h
    · exact wf_saveCtx r.1 r.2 hr
  · split
    · exact h
    · exact wf_finishHalt _ r.2 (by simpa using hr)

theorem wf_resumectx (x : Iss) (s : State) (d a : Reg) (q : BitVec 4) (h : Memory.wf s.mem = true) :
    (x.resumectx s d a q).Wf := by
  unfold Iss.resumectx
  extract_lets c v move st ok s1
  have hst : ∀ n, (st n).Wf := fun _ => h
  have hok : ∀ t, Memory.wf t.mem = true → (ok t).Wf := fun t ht => ht
  have h1 : Memory.wf s1.mem = true := h
  clear_value st ok s1
  split
  · trivial
  split
  · exact h
  split
  · exact hst _
  next n k _ =>
  extract_lets at_
  clear_value at_
  split
  · exact hst _
  split
  · exact hst _
  split
  · exact hok _ (wf_killCtx s1 n _ h1)
  split
  · exact hok _ (wf_runOn s1 n h1)
  split
  · exact hst _
  · next t e => exact hok t (wf_restoreCtx h1 e)

theorem wf_stoprd (x : Iss) (s : State) (d q : BitVec 4) (h : Memory.wf s.mem = true) : (x.stoprd s d q).Wf := by
  unfold Iss.stoprd
  grind [Res.Wf, showImage_mem]

@[simp] theorem drainQuarantine_mem (s : State) (n c : Nat) : (s.drainQuarantine n c).mem = s.mem := by
  simp [State.drainQuarantine]

theorem wf_qdrain (x : Iss) (s : State) (d : Reg) (q : BitVec 4) (h : Memory.wf s.mem = true) :
    (x.qdrain s d q).Wf := by
  unfold Iss.qdrain
  grind [Res.Wf, drainQuarantine_mem, gained_mem, wf_foldl]

theorem wf_eret (x : Iss) (s : State) (d a : Reg) (q : BitVec 4) (h : Memory.wf s.mem = true) :
    (x.eret s d a q).Wf := by
  unfold Iss.eret
  grind [Res.Wf, putU_mem, openCtx_mem]

@[simp] theorem kernelReentry_mem (s : State) (n : Nat) : (s.kernelReentry n).mem = s.mem := by
  unfold State.kernelReentry
  dsimp only
  repeat' split
  all_goals simp

end Sys2Proof.Machine
end

section
/-! SUPPORT. Memory stays canonical: shares and arbiters (Machine/Shares.lean). -/
namespace Sys2Proof.Machine

@[simp] theorem settleLevel_mem (s : State) (kind inst vd n : Nat) : (s.settleLevel kind inst vd n).mem = s.mem := by
  simp [State.settleLevel]

@[simp] theorem refill_mem (s : State) (kind inst : Nat) : (s.refill kind inst).mem = s.mem := by
  unfold State.refill
  grind [settleLevel_mem, foldl_mem]

@[simp] theorem bcfgSet_mem (s : State) (die kind vd value : Nat) : (s.bcfgSet die kind vd value).mem = s.mem := by
  unfold State.bcfgSet
  grind [sysW_mem, settleLevel_mem, foldl_mem]

theorem wf_admitBatch (s : State) (id : Nat) (h : Memory.wf s.mem = true) :
    Memory.wf (s.admitBatch id).mem = true := by
  unfold State.admitBatch
  grind [post_mem, newReply_mem, svcEnd_mem, tagW_mem, wf_openW]

@[simp] theorem examine_mem (s : State) (vd epoch key : Nat) : (s.examine vd epoch key).mem = s.mem := by
  unfold State.examine
  grind [scrTagW_mem, tagW_mem, foldl_mem]

theorem wf_serveReq (s : State) (r : Req) (h : Memory.wf s.mem = true) : Memory.wf (s.serveReq r).mem = true := by
  unfold State.serveReq
  grind [wf_erasePa, examine_mem, wf_admitBatch]

theorem wf_round (s : State) (kind inst : Nat) (h : Memory.wf s.mem = true) :
    Memory.wf (s.round kind inst).mem = true := by
  unfold State.round
  grind [wf_serveReq, charge_mem]

@[simp] theorem chargeIssue_mem (s : State) (u : Nat) (g : Grp) : (s.chargeIssue u g).mem = s.mem := by
  unfold State.chargeIssue
  repeat' split
  all_goals simp

@[simp] theorem occupy_mem (s : State) (u : Nat) (g : Grp) (b : Bool) : (s.occupy u g b).mem = s.mem := by
  unfold State.occupy
  dsimp only
  repeat' split
  all_goals simp

@[simp] theorem issueRound_mem (s : State) (core : Nat) : (s.issueRound core).mem = s.mem := by
  unfold State.issueRound
  repeat' split
  all_goals simp

end Sys2Proof.Machine
end

section
/-! SUPPORT. Memory stays canonical: bring-up, health and service (Machine/Health.lean). -/
namespace Sys2Proof.Machine

@[simp] theorem setNarrow_mem (s : State) (die : Nat) : (s.setNarrow die).mem = s.mem := by
  simp [State.setNarrow]

theorem wf_raiseAlarm (s : State) (die bits : Nat) (h : Memory.wf s.mem = true) :
    Memory.wf (s.raiseAlarm die bits).mem = true := by
  unfold State.raiseAlarm
  grind [wf_fire, sysW_mem, setNarrow_mem]

@[simp] theorem clearAlarm_mem (s : State) (die bits : Nat) : (s.clearAlarm die bits).mem = s.mem := by
  simp [State.clearAlarm]

theorem retireRow_mem {s t : State} {die ch row : Nat} (e : s.retireRow die ch row = some t) : t.mem = s.mem := by
  unfold State.retireRow at e
  split at e
  · cases e
  · rw [← Option.some.inj e]

theorem retireChannel_mem {s t : State} {die ch : Nat} (e : s.retireChannel die ch = some t) : t.mem = s.mem := by
  unfold State.retireChannel at e
  split at e
  · cases e
  · rw [← Option.some.inj e]
    split <;> rfl

@[simp] theorem remapLoft_mem (s : State) (core : Nat) : (s.remapLoft core).mem = s.mem := by
  rw [State.remapLoft]
  simp only [apply_ite State.mem, loftW_mem, ite_self]

@[simp] theorem setDie_mem (s : State) (die st : Nat) : (s.setDie die st).mem = s.mem := by
  simp [State.setDie]

@[simp] theorem setLinks_mem (s : State) (die open_ : Nat) : (s.setLinks die open_).mem = s.mem := by
  simp [State.setLinks]

@[simp] theorem relink_mem (s : State) : s.relink.mem = s.mem := by
  unfold State.relink
  simp [foldl_mem]

theorem dieOffline_mem {s t : State} {die : Nat} (e : s.dieOffline die = some t) : t.mem = s.mem := by
  unfold State.dieOffline at e
  split at e
  · cases e
  · rw [← Option.some.inj e]
    simp

theorem wf_clearDie (s : State) (die : Nat) (h : Memory.wf s.mem = true) : Memory.wf (s.clearDie die).mem = true := by
  unfold State.clearDie
  extract_lets on here t
  have ht : Memory.wf t.mem = true := wf_foldl (fun u x hu => wf_clearTile u x hu) _ _ (wf_zeroRange s _ _ h)
  clear_value t
  exact ht

theorem wf_dieTested (s : State) (die : Nat) (h : Memory.wf s.mem = true) :
    Memory.wf (s.dieTested die).mem = true := by
  unfold State.dieTested
  split
  · rw [relink_mem, setDie_mem]
    exact wf_clearDie _ die (by simpa using h)
  · exact h

@[simp] theorem setFw_mem (s : State) (n : Nat) : (s.setFw n).mem = s.mem := by
  simp [State.setFw]

@[simp] theorem fwGo_mem (s : State) : s.fwGo.mem = s.mem := by
  unfold State.fwGo
  repeat' split
  all_goals simp

@[simp] theorem fwStep_mem (s : State) : s.fwStep.mem = s.mem := by
  unfold State.fwStep
  repeat' split
  all_goals simp

theorem wf_wearStep (s : State) (die : Nat) (h : Memory.wf s.mem = true) : Memory.wf (s.wearStep die).mem = true := by
  unfold State.wearStep
  grind [draw_mem, sysW_mem, wf_raiseAlarm]

@[simp] theorem bringUp_mem (s : State) : s.bringUp.mem = s.mem := by
  unfold State.bringUp
  split
  · rfl
  · refine foldl_mem (fun t d => ?_) _ _
    rw [setNarrow_mem]
    split <;> simp

theorem wf_setSt (s : State) (pa i st : Nat) (h : Memory.wf s.mem = true) :
    Memory.wf (s.setSt pa i st).mem = true := by
  unfold State.setSt
  grind [wf_rawW]

theorem wf_nextGen (s : State) (pa : Nat) (h : Memory.wf s.mem = true) : Memory.wf (s.nextGen pa).mem = true := by
  unfold State.nextGen
  grind [wf_rawW]

theorem wf_excludeIn (s : State) (pa : Nat) (p : Nat → Nat → Bool) (h : Memory.wf s.mem = true) :
    Memory.wf (s.excludeIn pa p).mem = true := by
  unfold State.excludeIn
  grind [wf_setSt, wf_nextGen, abortColls_mem, wf_foldl]

theorem wf_exclude (s : State) (p : Nat → Nat → Bool) (h : Memory.wf s.mem = true) :
    Memory.wf (s.exclude p).mem = true := by
  unfold State.exclude
  grind [wf_excludeIn, wf_foldl]

end Sys2Proof.Machine
end

section
/-! SUPPORT. Memory stays canonical: system registers (Machine/Sys.lean). -/
namespace Sys2Proof.Machine

theorem wf_sysrd (x : Iss) (s : State) (d a : Reg) (h : Memory.wf s.mem = true) : (x.sysrd s d a).Wf := by
  unfold Iss.sysrd
  repeat' split
  all_goals simp [Res.Wf, h]

@[simp] theorem queueGlean_mem (s : State) (vd v : Nat) : (s.queueGlean vd v).mem = s.mem := by
  unfold State.queueGlean
  grind [sysW_mem, request_mem, foldl_mem]

@[simp] theorem lendSet_mem (s : State) (die v : Nat) : (s.lendSet die v).mem = s.mem := by
  unfold State.lendSet
  dsimp only
  repeat' split
  all_goals simp

@[simp] theorem sysApply_mem (x : Iss) (s : State) (r die : Nat) (v : DWord) :
    (x.sysApply s r die v).1.mem = s.mem := by
  unfold Iss.sysApply
  extract_lets n g
  split
  · rfl
  split
  · rfl
  split
  · split <;> rfl
  dsimp only
  split
  case h_4 => exact queueGlean_mem ..
  case h_5 | h_6 => exact bcfgSet_mem ..
  case h_7 => exact lendSet_mem ..
  case h_13 =>
    split
    · cases e : s.dieOffline die with
      | none => rfl
      | some t => exact dieOffline_mem e
    · exact setDie_mem ..
  case h_14 =>
    split
    · cases e : s.retireChannel die (fld n 0 7) with
      | none => rfl
      | some t => exact retireChannel_mem e
    · cases e : s.retireRow die (fld n 0 7) (fld n 16 32) with
      | none => rfl
      | some t => exact retireRow_mem e
  case h_15 => exact clearAlarm_mem ..
  case h_16 =>
    split
    · exact fwGo_mem ..
    · rfl
  all_goals exact sysW_mem ..

theorem wf_syswr (x : Iss) (s : State) (d a b : Reg) (h : Memory.wf s.mem = true) : (x.syswr s d a b).Wf := by
  unfold Iss.syswr
  grind [Res.Wf, sysApply_mem]

end Sys2Proof.Machine
end

section
/-! SUPPORT. Memory stays canonical: translation caches (Machine/Xlt.lean). -/
namespace Sys2Proof.Machine

@[simp] theorem tlbRemove_mem (s : State) (part : Option Nat) (covers : Nat × Nat × Nat → Bool) :
    (s.tlbRemove part covers).mem = s.mem := by
  simp [State.tlbRemove]

theorem wf_invalidate (x : Iss) (s : State) (covers : Nat × Nat × Nat → Bool) (h : Memory.wf s.mem = true) :
    (x.invalidate s covers).Wf := by
  unfold Iss.invalidate
  grind [Res.Wf, tlbRemove_mem]

theorem wf_tlbinv (x : Iss) (s : State) (a b : Reg) (h : Memory.wf s.mem = true) : (x.tlbinv s a b).Wf := by
  unfold Iss.tlbinv
  grind [Res.Wf, wf_invalidate]

theorem wf_tlbinva (x : Iss) (s : State) (b : Reg) (h : Memory.wf s.mem = true) : (x.tlbinva s b).Wf := by
  unfold Iss.tlbinva
  grind [Res.Wf, wf_invalidate]

end Sys2Proof.Machine
end

section
/-! SUPPORT. Memory stays canonical: new objects (Machine/Objnew.lean). -/
namespace Sys2Proof.Machine

/-- Memory is canonical in the state with an object's hardware fields. -/
@[simp] def InitWf : Except Nat State → Prop
  | .ok s => Memory.wf s.mem = true
  | .error _ => True

theorem wf_initObj (s : State) (vd t count : Nat) (keys : List Nat) (h : Memory.wf s.mem = true) :
    InitWf (s.initObj vd t count keys) := by
  unfold State.initObj
  extract_lets pa n busy parent es names u es' hs
  have hbusy : ∀ r, InitWf r → InitWf (busy r) := fun r hr => by
    unfold busy
    split
    · trivial
    · exact hr
  clear_value busy n
  split
  · split
    · trivial
    · exact hbusy _ h
  · split
    · trivial
    · exact hbusy _ h
  · split
    · trivial
    · exact hbusy _ h
  · split
    · trivial
    split
    · trivial
    · exact hbusy _ (wf_rawW s.draw _ _ _ h)
  · split
    · trivial
    split
    · trivial
    · exact hbusy _ h
  · split
    · trivial
    split
    · trivial
    split
    · trivial
    dsimp only
    split
    · trivial
    split
    · trivial
    · exact hbusy _ (wf_rawW s _ _ _ h)
  · split
    · trivial
    · exact hbusy _ (wf_foldl (fun v i hv => wf_rawW v _ _ _ hv) _ _ (wf_rawW s _ _ _ h))
  · split
    · trivial
    · exact hbusy _ (wf_rawW s _ _ _ h)

theorem wf_objEnd (x : Iss) (s : State) (d : BitVec 4) (st : Nat) (c : Option Cap) (h : Memory.wf s.mem = true) :
    (x.objEnd s d st c).Wf := h

theorem wf_objCreate (x : Iss) (s : State) (d : BitVec 4) (r : NewObj) (c : Cap) (h : Memory.wf s.mem = true) :
    (x.objCreate s d r c).Wf := by
  unfold Iss.objCreate
  extract_lets fail
  have hfail : ∀ st, (fail st).Wf := fun st => wf_objEnd x s d st _ h
  clear_value fail
  split
  · exact hfail _
  generalize (ite (r.otype = 8 ∨ r.otype = 9) _ _ : Bool) = bad
  split
  · exact hfail _
  split
  · exact hfail _
  next keys _ =>
  split
  · exact hfail _
  have ht := wf_initObj s x.g.vd r.otype r.count keys h
  split
  · exact hfail _
  · next t e =>
    rw [e] at ht
    exact ht

theorem wf_objMint (x : Iss) (s : State) (d : BitVec 4) (r : NewObj) (c : Cap) (h : Memory.wf s.mem = true) :
    (x.objMint s d r c).Wf := by
  unfold Iss.objMint
  grind [Res.Wf, wf_objEnd]

theorem wf_objSet (x : Iss) (s : State) (d : BitVec 4) (r : NewObj) (c : Cap) (h : Memory.wf s.mem = true) :
    (x.objSet s d r c).Wf := by
  unfold Iss.objSet
  grind [Res.Wf, wf_rawW, wf_objEnd, wf_wn, wf_capPut]

theorem wf_objnew (x : Iss) (s : State) (d : BitVec 4) (a : Reg) (q : BitVec 4) (h : Memory.wf s.mem = true) :
    (x.objnew s d a q).Wf := by
  unfold Iss.objnew
  grind [Res.Wf, wf_objCreate, wf_objSet, wf_objMint, wf_objEnd]

end Sys2Proof.Machine
end

section
/-! SUPPORT. Memory stays canonical: epochs and erasure (Machine/Sweep.lean). -/
namespace Sys2Proof.Machine

@[simp] theorem beginEpoch_mem (s : State) (vd : Nat) : (s.beginEpoch vd).mem = s.mem := by
  unfold State.beginEpoch
  grind [request_mem, foldl_mem]

theorem wf_raiseAt (s : State) (reg vd v : Nat) (h : Memory.wf s.mem = true) :
    Memory.wf (s.raiseAt reg vd v).mem = true := by
  unfold State.raiseAt
  grind [wf_tlRaise]

@[simp] theorem wipeFrames_mem (s : State) (vd lo n : Nat) : (s.wipeFrames vd lo n).mem = s.mem := by
  unfold State.wipeFrames
  grind [request_mem, foldl_mem]

@[simp] theorem resetErase_mem (s : State) (vd : Nat) : (s.resetErase vd).mem = s.mem := by
  unfold State.resetErase
  simp [foldl_mem]

theorem wf_resetFinish (s : State) (vd : Nat) (h : Memory.wf s.mem = true) :
    Memory.wf (s.resetFinish vd).mem = true := by
  unfold State.resetFinish
  grind [wf_fire, answer_mem, wf_exclude, sendOut_mem]

@[simp] theorem retireObjs_mem (s : State) (vd epoch : Nat) : (s.retireObjs vd epoch).mem = s.mem := by
  simp [State.retireObjs]

theorem wf_endEpoch (s : State) (vd : Nat) (h : Memory.wf s.mem = true) : Memory.wf (s.endEpoch vd).mem = true := by
  unfold State.endEpoch
  grind [wf_raiseAt, retireObjs_mem, resetErase_mem]

@[simp] theorem releaseMarks_mem (s : State) (vd : Nat) : (s.releaseMarks vd).mem = s.mem := by
  unfold State.releaseMarks
  dsimp only
  repeat' split
  all_goals simp

theorem wf_gleanDone (s : State) (vd : Nat) (h : Memory.wf s.mem = true) : Memory.wf (s.gleanDone vd).mem = true := by
  unfold State.gleanDone
  grind [wf_raiseAt]

end Sys2Proof.Machine
end

section
/-! SUPPORT. Memory stays canonical: the security core (Machine/Security.lean). -/
namespace Sys2Proof.Machine

@[simp] theorem secReply_mem (s : State) (c : SecCall) (st : Nat) (caps : List Cap) :
    (s.secReply c st caps).mem = s.mem := by
  simp [State.secReply]

theorem wf_serveAt (s : State) (ep : Nat) (mine : Nat → Bool) (f : SecCall → State) (h : Memory.wf s.mem = true)
    (hf : ∀ c, Memory.wf (f c).mem = true) : Memory.wf (s.serveAt ep mine f).mem = true := by
  unfold State.serveAt
  split
  · exact h
  split
  · exact h
  split
  · dsimp only
    split
    · split
      · exact hf _
      · simpa using h
    · exact h
  · exact h

/-- Memory is canonical in the state that a call of the security core leaves. -/
@[simp] def Called : Option (State × List Cap) × Nat → Prop
  | (some (s, _), _) => Memory.wf s.mem = true
  | (none, _) => True

theorem called_secNo (st : Nat) : Called (secNo st) := trivial

theorem called_secOk (s : State) (caps : List Cap) (h : Memory.wf s.mem = true) : Called (secOk s caps) := h

@[simp] theorem setDies_mem (s : State) (ds : List Nat) (p : Nat) : (s.setDies ds p).mem = s.mem := by
  unfold State.setDies
  grind [sysW_mem, relink_mem, foldl_mem]

theorem called_partdef (s : State) (c : SecCall) (h : Memory.wf s.mem = true) : Called (s.partdef c) := by
  unfold State.partdef
  extract_lets p v r0 r1 c0 c1 old new t
  split
  · trivial
  split
  · trivial
  split
  · trivial
  · refine called_secOk _ _ ?_
    simpa [t] using h

@[simp] theorem claimFrames_mem (s : State) (vd lo n : Nat) (prot : Bool) :
    (s.claimFrames vd lo n prot).mem = s.mem := by
  simp [State.claimFrames]

@[simp] theorem startMeas_mem (s : State) (vd : Nat) : (s.startMeas vd).mem = s.mem := by
  simp [State.startMeas]

theorem called_claimCall (s : State) (c : SecCall) (h : Memory.wf s.mem = true) : Called (s.claimCall c) := by
  unfold State.claimCall
  dsimp only
  split
  · trivial
  split
  · trivial
  split
  · exact called_secOk _ _ (by simpa using h)
  · trivial

theorem called_vdcreateCall (s : State) (c : SecCall) (h : Memory.wf s.mem = true) : Called (s.vdcreateCall c) := by
  unfold State.vdcreateCall
  extract_lets vd p lo at_ v t1 t2 t3 o
  have h2 : Memory.wf t2.mem = true := wf_wn _ _ _ _ (by simpa using h)
  have h3 : Memory.wf t3.mem = true := wf_capPut t2 _ _ h2
  clear_value t3
  split
  · trivial
  split
  · trivial
  split
  · exact called_secOk _ _ h3
  · trivial

theorem gleanStart_mem {s t : State} {c : SecCall} (e : s.gleanStart c = some t) : t.mem = s.mem := by
  unfold State.gleanStart at e
  split at e
  · cases e
  split at e
  · cases e
  · rw [← Option.some.inj e, wipeFrames_mem]

theorem wf_secCall (s : State) (op : Nat → Bool) (own : Bool) (f : SecCall → Option (State × List Cap) × Nat)
    (h : Memory.wf s.mem = true) (hf : ∀ c, Called (f c)) : Memory.wf (s.secCall op own f).mem = true := by
  refine wf_serveAt s secEp op _ h fun c => ?_
  split
  · simpa using h
  split
  · next t e => simpa [gleanStart_mem e] using h
  have hc := hf c
  split
  · next t st e =>
    rw [e] at hc
    simpa using hc
  · simpa using h

theorem wf_putBuffer {s t : State} {c : SecCall} {q : Cap} {bs : List Byte} (h : Memory.wf s.mem = true)
    (e : s.putBuffer c q bs = some t) : Memory.wf t.mem = true := by
  unfold State.putBuffer at e
  split at e
  · cases e
  split at e
  · cases e
  · rw [← Option.some.inj e]
    exact wf_foldl (fun u x hu => by
      rw [tagW_mem]
      exact wf_wb u _ _ hu) _ s h

theorem called_measureCall (s : State) (c : SecCall) (h : Memory.wf s.mem = true) : Called (s.measureCall c) := by
  unfold State.measureCall
  dsimp only
  split
  · trivial
  split
  · trivial
  split
  · trivial
  · next t e => exact called_secOk t _ (wf_putBuffer (by simpa using h) e)

theorem called_extendCall (s : State) (c : SecCall) (h : Memory.wf s.mem = true) : Called (s.extendCall c) := by
  unfold State.extendCall
  dsimp only
  split
  · trivial
  split
  · trivial
  · exact called_secOk _ _ h

@[simp] theorem resetParties_mem (s : State) (vd : Nat) : (s.resetParties vd).mem = s.mem := by
  unfold State.resetParties
  grind [noReply_mem, complete_mem, foldl_mem]

theorem wf_resetBegin (s : State) (vd : Nat) (caller : Option Nat) (h : Memory.wf s.mem = true) :
    Memory.wf (s.resetBegin vd caller).mem = true := by
  unfold State.resetBegin
  grind [post_mem, svcEnd_mem, wf_killCtx, noReply_mem, resetParties_mem, wf_foldl]

theorem wf_vfresetCall (s : State) (c : SecCall) (h : Memory.wf s.mem = true) :
    Memory.wf (s.vfresetCall c).mem = true := by
  unfold State.vfresetCall
  grind [putU_mem, newReply_mem, secReply_mem, wf_resetBegin]

theorem wf_haltSave {s t : State} {c : Nat} {k : Ctx} (h : Memory.wf s.mem = true) (e : s.haltSave c k = some t) :
    Memory.wf t.mem = true := by
  unfold State.haltSave at e
  split at e
  · exact Option.some.inj e ▸ h
  extract_lets t1 t2 t3 r at e
  have h1 : Memory.wf t1.mem = true := wf_foldl (fun u x hu => wf_stopUnit u _ hu) _ s h
  have h2 : Memory.wf t2.mem = true := wf_foldl (fun u x hu => wf_stopCmd u _ hu) _ t1 h1
  have hr : Memory.wf r.1.mem = true := wf_saveCtx t3 c h2
  split at e
  · rw [← Option.some.inj e, answerCallers_mem, modCtx_mem]
    exact hr
  · cases e

theorem wf_haltAll {s t : State} {vd : Nat} (h : Memory.wf s.mem = true) (e : s.haltAll vd = some t) :
    Memory.wf t.mem = true := 
  wf_foldl_bind (f := fun t (x : Nat × Ctx) => t.haltSave x.1 x.2) wf_haltSave h e

theorem called_exportCall (s : State) (c : SecCall) (h : Memory.wf s.mem = true) : Called (s.exportCall c) := by
  unfold State.exportCall
  dsimp only
  split
  · trivial
  split
  · trivial
  split
  · trivial
  split
  · trivial
  split
  · trivial
  next t e =>
  split
  · trivial
  · next u eu =>
    have hu := wf_putBuffer (wf_haltAll h e) eu
    exact called_secOk _ _ hu

theorem wf_restoreBlob {s t : State} {vd part : Nat} {b : Blob} (h : Memory.wf s.mem = true)
    (e : s.restoreBlob vd part b = some t) : Memory.wf t.mem = true := by
  unfold State.restoreBlob at e
  split at e
  · cases e
  extract_lets b' root v t1 t2 v' t3 t4 at e
  have h1 : Memory.wf t1.mem = true := h
  have h2 : Memory.wf t2.mem = true := wf_foldl (fun u f hu => wf_erasePa _ _ _ (by simpa using hu)) _ t1 h1
  have h3 : Memory.wf t3.mem = true := wf_foldl (fun u x hu => wf_wb u _ _ hu) _ t2 h2
  have h4 : Memory.wf t4.mem = true := wf_foldl (fun u x hu => by simpa using hu) _ t3 h3
  rw [← Option.some.inj e, startMeas_mem]
  exact h4

theorem called_importCall (s : State) (c : SecCall) (h : Memory.wf s.mem = true) : Called (s.importCall c) := by
  unfold State.importCall
  dsimp only
  split
  · trivial
  split
  · trivial
  split
  · exact h
  split
  · exact h
  · next t e =>
    obtain ⟨b, _, hb⟩ := Option.bind_eq_some_iff.1 e
    exact called_secOk t _ (wf_restoreBlob (by simpa using h) hb)

@[simp] theorem releaseAsked_mem (s : State) (vd dest : Nat) : (s.releaseAsked vd dest).mem = s.mem := by
  unfold State.releaseAsked
  dsimp only
  repeat' split
  all_goals simp

theorem wf_eraseVd (s : State) (vd : Nat) (h : Memory.wf s.mem = true) : Memory.wf (s.eraseVd vd).mem = true := by
  unfold State.eraseVd
  grind [wf_killCtx, wf_erasePa, wf_foldl]

theorem wf_confirmed (s : State) (vd : Nat) (h : Memory.wf s.mem = true) : Memory.wf (s.confirmed vd).mem = true := by
  unfold State.confirmed
  grind [wf_eraseVd]

theorem called_eraseCall (s : State) (c : SecCall) (h : Memory.wf s.mem = true) : Called (s.eraseCall c) := by
  unfold State.eraseCall
  dsimp only
  split
  · trivial
  split
  · trivial
  · exact called_secOk _ _ (wf_eraseVd s _ h)

theorem called_abandonCall (s : State) (c : SecCall) (h : Memory.wf s.mem = true) : Called (s.abandonCall c) := by
  unfold State.abandonCall
  dsimp only
  split
  · trivial
  split
  · trivial
  · exact called_secOk _ _ h

theorem called_admitCall (s : State) (c : SecCall) (h : Memory.wf s.mem = true) : Called (s.admitCall c) := by
  unfold State.admitCall
  extract_lets i meas k
  split
  · trivial
  next o _ =>
  extract_lets e local_ mine t
  have ht : Memory.wf t.mem = true := by
    unfold t
    split
    · exact h
    · simpa using h
  clear_value mine t
  split
  · trivial
  generalize (ite (local_ = true) _ _ : Bool) = ok
  split
  · exact called_secOk _ _ (wf_nextGen _ _ (wf_setSt _ _ _ _ (wf_rawW t _ _ _ ht)))
  · exact ht

theorem wf_pageCall (s : State) (c : SecCall) (set : Bool) (h : Memory.wf s.mem = true) :
    Memory.wf (s.pageCall c set).1.mem = true := by
  unfold State.pageCall
  extract_lets vd va lvl e k named addr t
  have ht : Memory.wf t.mem = true := by
    unfold t
    split
    · exact wf_zeroRange s _ _ h
    · exact h
  clear_value t
  split
  · exact h
  generalize (ite (bit e 0 = true) _ _ : Nat) = b
  generalize (ite (bit e 1 = true) _ _ : Nat) = len
  dsimp only
  split
  · exact h
  split
  · exact h
  split
  · exact h
  split
  · exact h
  rw [tlbRemove_mem]
  exact wf_wn t _ _ _ ht

theorem wf_servePage (s : State) (op : Nat → Bool) (set : Bool) (h : Memory.wf s.mem = true) :
    Memory.wf (s.servePage op set).mem = true := by
  refine wf_serveAt s pageEp op _ h fun c => ?_
  split
  · simpa using h
  split
  · exact h
  · dsimp only
    rw [secReply_mem]
    exact wf_pageCall s c set h

end Sys2Proof.Machine
end

section
/-! SUPPORT. Memory stays canonical: links and peers (Machine/Links.lean). -/
namespace Sys2Proof.Machine

@[simp] theorem linkFrame_mem (s : State) (die dir : Nat) (ok transit : Bool) :
    (s.linkFrame die dir ok transit).mem = s.mem := by
  unfold State.linkFrame
  dsimp only
  repeat' split
  all_goals simp

@[simp] theorem lose_mem (s : State) (n : Nat) : (s.lose n).mem = s.mem := by
  unfold State.lose
  repeat' split
  all_goals simp

@[simp] theorem takeDown_mem (s : State) (l : Nat) : (s.takeDown l).mem = s.mem := by
  unfold State.takeDown
  repeat' split
  all_goals simp

@[simp] theorem peerGone_mem (s : State) (n : Nat) : (s.peerGone n).mem = s.mem := by
  simp [State.peerGone]

@[simp] theorem learnFar_mem (s : State) (vd peer : Nat) (c : Cap) : (s.learnFar vd peer c).mem = s.mem := by
  unfold State.learnFar
  dsimp only
  repeat' split
  all_goals simp

@[simp] theorem unsealAll_mem (s : State) (vd peer : Nat) (cs : List Cap) :
    (s.unsealAll vd peer cs).1.mem = s.mem :=
  foldl_mem (f := fun t c => t.learnFar vd peer c) (fun t c => learnFar_mem t vd peer c) _ s

theorem wf_peerAccess (s : State) (vd va size : Nat) (need : Need) (f : State → Place → State)
    (h : Memory.wf s.mem = true) (hf : ∀ t pl, Memory.wf t.mem = true → Memory.wf (f t pl).mem = true) :
    Memory.wf (s.peerAccess vd va size need f).mem = true := by
  unfold State.peerAccess
  extract_lets spaces gone
  split
  · exact h
  next a pl _ =>
  split
  · exact h
  split
  · next t e =>
    cases hm : s.meetTiles none none none [pl] with
    | some u =>
      rw [hm] at e
      exact Option.some.inj e ▸ wf_meetTiles h hm
    | none =>
      rw [hm] at e
      rw [unserved_mem (show s.unserved (peerAg vd a) [pl] = some t from e)]
      exact h
  · exact hf _ pl (wf_touch gone _ _ pl h)

theorem wf_peerAsk (s : State) (vd peer va size : Nat) (w : Bool) (f : Nat → Option Nat) (h : Memory.wf s.mem = true) :
    Memory.wf (s.peerAsk vd peer va size w f).mem = true := by
  refine wf_peerAccess s vd va size _ _ h fun t pl ht => ?_
  dsimp only
  rw [sendOut_mem]
  split
  · exact ht
  · exact wf_wkeys _ _ t ht

@[simp] theorem peerMessage_mem (s : State) (vd ep peer badge : Nat) (words : List Word) (tokens : List Cap)
    (call : Option Nat) : (s.peerMessage vd ep peer badge words tokens call).mem = s.mem := by
  unfold State.peerMessage
  extract_lets u r m
  have hr : r.1.mem = s.mem := by
    unfold r
    split <;> simp [u]
  clear_value r
  split
  · split
    · split <;> simp
    · simp [hr]
  · split
    · rfl
    · simp [hr]

@[simp] theorem peerMatched_mem (s : State) (peer ep status : Nat) : (s.peerMatched peer ep status).mem = s.mem := by
  unfold State.peerMatched
  repeat' split
  all_goals simp

@[simp] theorem peerReply_mem (s : State) (peer n status : Nat) (words : List Word) (tokens : List Cap) :
    (s.peerReply peer n status words tokens).mem = s.mem := by
  unfold State.peerReply
  split
  · rfl
  split
  · rfl
  split
  · simp
  · dsimp only
    rw [answer_mem, unsealAll_mem]

theorem wf_frame (s : State) (h : Memory.wf s.mem = true) : Memory.wf s.frame.mem = true := by
  unfold State.frame
  split
  · simpa using h
  · exact wf_peerAccess s _ _ _ _ _ h fun t pl ht => wf_wkeys _ _ t ht
  · exact wf_peerAsk s _ _ _ _ _ _ h
  · exact wf_peerAsk s _ _ _ _ _ _ h
  · exact h
  · simpa using h
  · simpa using h
  · dsimp only
    split
    · exact wf_noteOr _ _ _ h
    · exact h
  · simpa using h
  · exact wf_exclude _ _ h
  · exact h

@[simp] theorem tellFurrow_mem (s : State) (vd k : Nat) (bytes : List Byte) :
    (s.tellFurrow vd k bytes).mem = s.mem := by
  simp [State.tellFurrow]

theorem wf_rejectAtPeer (s : State) (vd : Nat) (l : Launch) (h : Memory.wf s.mem = true) :
    Memory.wf (s.rejectAtPeer vd l).mem = true := by
  unfold State.rejectAtPeer
  grind [tellFurrow_mem, wf_wn, wf_tlRaise]

theorem wf_launchPacket (s : State) (h : Memory.wf s.mem = true) : Memory.wf s.launchPacket.mem = true := by
  unfold State.launchPacket
  grind [learnFar_mem, wf_rejectAtPeer, submit_mem, wf_foldl]

@[simp] theorem hostRequest_mem (s : State) : s.hostRequest.mem = s.mem := by
  unfold State.hostRequest
  dsimp only
  repeat' split
  all_goals simp

end Sys2Proof.Machine
end

section
/-! SUPPORT. Memory stays canonical: words that cannot be fetched (Machine/Illegal.lean). -/
namespace Sys2Proof.Machine

theorem wf_fetchFault (x : Iss) (s : State) (h : Memory.wf s.mem = true) : Memory.wf (x.fetchFault s).mem = true := by
  unfold Iss.fetchFault
  grind [wf_raise]

end Sys2Proof.Machine
end

section
/-! SUPPORT. Memory stays canonical: tiles and their regrowth (Machine/Regrow.lean). -/
namespace Sys2Proof.Machine

theorem wf_recSet (s : State) (r depth : Nat) (h : Memory.wf s.mem = true) :
    Memory.wf (s.recSet r depth).mem = true := by
  unfold State.recSet
  grind [wf_rawW]

theorem wf_operand (x : Iss) (s : State) (q : BitVec 4) (n perm : Nat) (write : Bool)
    (k : Iss → State → Nat → Place → Res) (h : Memory.wf s.mem = true)
    (hk : ∀ y t va pl, Memory.wf t.mem = true → (k y t va pl).Wf) : (x.operand s q n perm write k).Wf := by
  unfold Iss.operand
  dsimp only
  split
  · trivial
  split
  · trivial
  split
  · trivial
  split
  · next t w e => exact wf_gate h e
  · exact hk _ _ _ _ (wf_touch s _ _ _ h)

theorem wf_status (x : Iss) (d : Reg) (s : State) (n : Nat) (h : Memory.wf s.mem = true) : (x.status d s n).Wf := h

theorem wf_tdesc (x : Iss) (s : State) (d : Reg) (q : BitVec 4) (h : Memory.wf s.mem = true) : (x.tdesc s d q).Wf := by
  refine wf_operand x s q _ _ _ _ h fun y t va pl ht => ?_
  dsimp only
  split
  · trivial
  split
  · exact wf_status y d t _ ht
  split
  · exact wf_status y d _ _ (wf_setTileState _ _ _ (wf_setTileVersion t _ _ ht))
  split
  · exact wf_status y d t _ ht
  split
  · exact wf_status y d t _ ht
  · exact wf_status y d _ _ (wf_setTileVersion _ _ _ (wf_blankDesc _ _ (wf_clearTile _ _ ht)))

theorem wf_tdescRel (x : Iss) (s : State) (d : Reg) (q : BitVec 4) (h : Memory.wf s.mem = true) :
    (x.tdescRel s d q).Wf := by
  refine wf_operand x s q _ _ _ _ h fun y t va pl ht => ?_
  dsimp only
  split
  · trivial
  split
  · exact wf_status y d t _ ht
  next e _ =>
  generalize (t.tileHeld e || _) = held
  split
  · exact wf_status y d t _ ht
  · exact wf_status y d _ _ (wf_blankDesc _ _ (wf_clearTile t e ht))

theorem wf_recipe (x : Iss) (s : State) (d : Reg) (a q : BitVec 4) (h : Memory.wf s.mem = true) :
    (x.recipe s d a q).Wf := by
  refine wf_operand x s a _ _ _ _ h fun y t _ pl ht => wf_operand y t q _ _ _ _ ht fun z u rva rpl hu => ?_
  dsimp only
  split
  · trivial
  split
  · exact wf_status z d u _ hu
  split
  · exact wf_status z d u _ hu
  split
  · exact wf_status z d u _ hu
  · exact wf_status z d _ _ (wf_capPut _ _ _ (wf_recSet u _ _ hu))

theorem wf_tileForm (x : Iss) (s : State) (q : BitVec 4) (perm : Nat) (write : Bool)
    (k : Iss → State → Nat → Option Tile → Option Nat → Res) (h : Memory.wf s.mem = true)
    (hk : ∀ y u key t r, Memory.wf u.mem = true → (k y u key t r).Wf) : (x.tileForm s q perm write k).Wf :=
  wf_operand x s q _ _ _ _ h fun y u _ _ hu => hk y u _ _ _ hu

theorem wf_tpin (x : Iss) (s : State) (d : Reg) (q : BitVec 4) (h : Memory.wf s.mem = true) : (x.tpin s d q).Wf := by
  refine wf_tileForm x s q _ _ _ h fun y u key t r hu => ?_
  split
  · exact wf_status y d u _ hu
  split
  · exact wf_status y d u _ hu
  split
  · exact wf_status y d u _ hu
  · exact wf_status y d _ _ (wf_rawW u _ _ _ hu)

theorem wf_tunpin (x : Iss) (s : State) (d : Reg) (q : BitVec 4) (h : Memory.wf s.mem = true) :
    (x.tunpin s d q).Wf := by
  refine wf_tileForm x s q _ _ _ h fun y u key t r hu => ?_
  split
  · exact wf_status y d u _ hu
  split
  · exact wf_status y d u _ hu
  · exact wf_status y d _ _ (wf_rawW u _ _ _ hu)

theorem wf_tprobe (x : Iss) (s : State) (d : Reg) (q : BitVec 4) (h : Memory.wf s.mem = true) : (x.tprobe s d q).Wf :=
  wf_tileForm x s q _ _ _ h fun _ _ _ _ _ hu => hu

theorem wf_tdrop (x : Iss) (s : State) (d : Reg) (q : BitVec 4) (h : Memory.wf s.mem = true) : (x.tdrop s d q).Wf := by
  refine wf_tileForm x s q _ _ _ h fun y u key t r hu => ?_
  split
  · exact wf_status y d u _ hu
  split
  · exact wf_status y d u _ hu
  split
  · exact wf_status y d _ _ (wf_dropTile _ _ hu)
  · exact wf_status y d u _ hu

theorem wf_regrown (x : Iss) (s : State) (h : Memory.wf s.mem = true) : (x.regrown s).Wf := by
  unfold Iss.regrown
  repeat' split
  all_goals simp [Res.Wf, h]

@[simp] theorem recipeKern_mem (s : State) (root n : Nat) (cs : List Cap) : (s.recipeKern root n cs).1.mem = s.mem := by
  unfold State.recipeKern
  dsimp only
  split
  · exact kernelAt_mem ..
  · rfl

theorem wf_pinSources (s : State) (ag : Ag) (depth : Nat) (cs : List Cap) (h : Memory.wf s.mem = true) :
    Memory.wf (s.pinSources ag depth cs).1.mem = true := by
  induction cs generalizing s with
  | nil => exact h
  | cons c cs ih =>
    unfold State.pinSources
    split
    · exact h
    · exact ih s h
    split
    · exact h
    · exact ih _ (wf_setPins s _ _ h)

theorem wf_regrowCheck (s : State) (t : Tile) (r : Regrow) (h : Memory.wf s.mem = true) :
    Memory.wf (s.regrowCheck t r).mem = true := by
  unfold State.regrowCheck
  extract_lets vd sp fail
  have hfail : ∀ u c, Memory.wf u.mem = true → Memory.wf (fail u c).mem = true := fun u c hu => by simpa [fail] using hu
  clear_value fail
  split
  · exact hfail s _ h
  · exact hfail s _ h
  next p _ _ =>
  extract_lets n cs k u
  have hk : Memory.wf k.1.mem = true := by simpa [k] using h
  have hu : Memory.wf u.1.mem = true := wf_pinSources k.1 _ _ _ hk
  clear_value u k
  split
  · exact hfail _ _ hk
  next kern _ =>
  extract_lets v
  have hv : Memory.wf v.mem = true := hu
  clear_value v
  split
  · exact hv
  · exact hfail _ _ hv

theorem wf_regrowSource (s : State) (d : Nat) (r : Regrow) (h : Memory.wf s.mem = true) :
    Memory.wf (s.regrowSource d r).mem = true := by
  unfold State.regrowSource
  extract_lets go n next u
  have hgo : ∀ u f, Memory.wf u.mem = true → Memory.wf (go u f).mem = true := fun _ _ hu => hu
  have hnext : ∀ u, Memory.wf u.mem = true → Memory.wf (next u).mem = true := fun _ hu => hu
  have hu : Memory.wf u.mem = true := h
  clear_value u go next
  split
  · exact hgo s _ h
  split
  · split
    · exact hnext s h
    split
    · exact hnext s h
    · exact wf_setTileState u _ _ hu
  · exact hgo s _ h
  · exact hnext s h

@[simp] theorem regrowGang_mem (s : State) (d : Nat) (r : Regrow) (k : Kern) (core n : Nat) :
    (s.regrowGang d r k core n).mem = s.mem := by
  simp [State.regrowGang]

theorem wf_regrowRun (s : State) (d : Nat) (r : Regrow) (h : Memory.wf s.mem = true) :
    Memory.wf (s.regrowRun d r).mem = true := by
  unfold State.regrowRun
  grind [draw_mem, wf_unsave, regrowGang_mem]

theorem wf_regrowServe (s : State) (d : Nat) (h : Memory.wf s.mem = true) :
    Memory.wf (s.regrowServe d).mem = true := by
  unfold State.regrowServe
  grind [wf_regrowCheck, wf_regrowRun, wf_regrowSource]

theorem wf_regrowComplete (s : State) (d : Nat) (h : Memory.wf s.mem = true) :
    Memory.wf (s.regrowComplete d).mem = true := by
  unfold State.regrowComplete
  grind [wf_setTileState, wf_setPins, modCtx_mem, wf_setTileVersion, wf_foldl]

end Sys2Proof.Machine
end

section
/-! SUPPORT. Memory stays canonical: path-stack memory (Machine/Stacks.lean). -/
namespace Sys2Proof.Machine

theorem wf_syncRec (s : State) (u : Nat) (g : Grp) (was now : Option Rec) (i : Nat) (h : Memory.wf s.mem = true) :
    Memory.wf (s.syncRec u g was now i).mem = true := by
  unfold State.syncRec
  grind [wf_wkeys]

theorem wf_syncStack (s old : State) (u : Nat) (g : Grp) (h : Memory.wf s.mem = true) :
    Memory.wf (s.syncStack old u g).mem = true := by
  unfold State.syncStack
  grind [wf_syncRec, wf_foldl]

theorem wf_freeStack (s : State) (u : Nat) (g : Grp) (h : Memory.wf s.mem = true) :
    Memory.wf (s.freeStack u g).mem = true := by
  unfold State.freeStack
  grind [wf_syncRec, wf_foldl]

theorem wf_syncStacks (s old : State) (h : Memory.wf s.mem = true) : Memory.wf (s.syncStacks old).mem = true := by
  unfold State.syncStacks
  grind [wf_syncStack, wf_freeStack, wf_foldl]

end Sys2Proof.Machine
end

section
/-! SUPPORT. Memory stays canonical: the issue of a path, and time (Machine/Time.lean). -/
namespace Sys2Proof.Machine

@[simp] theorem begin_mem (s : State) (u : Nat) (g : Grp) (b : Bool) (p : Path) : (s.begin_ u g b p).mem = s.mem := by
  unfold State.begin_
  repeat' split
  all_goals simp

@[simp] theorem elapse_mem (s : State) (core ctl : Nat) : (s.elapse core ctl).mem = s.mem := by
  simp [State.elapse]

theorem wf_fetched (s : State) (u : Nat) (g : Grp) (w : Word) (pl : Place) (h : Memory.wf s.mem = true) :
    (∀ t, (s.fetched u g w pl).1 = some t → Memory.wf t.mem = true) ∧ Memory.wf (s.fetched u g w pl).2.mem = true := by
  unfold State.fetched
  extract_lets t
  have ht : Memory.wf t.mem = true := wf_touch s _ false pl h
  clear_value t
  split
  · exact ⟨fun _ e => (by cases e), ht⟩
  · refine ⟨fun v e => ?_, ht⟩
    obtain ⟨⟨y, w⟩, hy, rfl⟩ := Option.map_eq_some_iff.1 e
    rw [block_mem]
    exact wf_gate h hy

end Sys2Proof.Machine
end

section
/-! SUPPORT. Memory stays canonical: every instruction and event (Machine/Dispatch.lean). -/
namespace Sys2Proof.Machine

/-- A state whose memory is that of a canonical one. -/
theorem wf_of_mem {s t : State} (h : Memory.wf s.mem = true) (e : t.mem = s.mem) : Memory.wf t.mem = true := by
  rw [e]
  exact h

theorem wf_execKill (ctx : Nat) (s : State) (h : Memory.wf s.mem = true) : Out.Wf (execKill ctx s) := by
  unfold execKill
  split
  · exact wf_killCtx s ctx _ h
  · exact h

theorem wf_execResume (ctx : Nat) (s : State) (h : Memory.wf s.mem = true) : Out.Wf (execResume ctx s) := by
  unfold execResume
  split
  · exact wf_resume s ctx h
  · exact h

theorem wf_execNotify (ctx : Nat) (s : State) (h : Memory.wf s.mem = true) : Out.Wf (execNotify ctx s) := by
  unfold execNotify
  split
  · exact wf_escalate s ctx h
  · exact h

theorem wf_execContextRestore (ctx row0 col0 : Nat) (s : State) (h : Memory.wf s.mem = true) :
    Out.Wf (execContextRestore ctx row0 col0 s) := by
  unfold execContextRestore
  split
  · cases e : s.restoreCtx ctx row0 col0 with
    | none => exact h
    | some t => exact wf_restoreCtx h e
  · exact h

theorem wf_execAgeingSwap (u : Nat) (s : State) (h : Memory.wf s.mem = true) : Out.Wf (execAgeingSwap u s) := by
  unfold execAgeingSwap
  split
  · exact h
  · dsimp only
    split
    · exact h
    · exact h

theorem wf_execArbitrationRound (kind inst : Nat) (s : State) (h : Memory.wf s.mem = true) :
    Out.Wf (execArbitrationRound kind inst s) := by
  unfold execArbitrationRound
  split
  · exact wf_of_mem h (issueRound_mem ..)
  · exact wf_round s kind inst h

theorem wf_execRowRetire (die channel row : Nat) (s : State) (h : Memory.wf s.mem = true) :
    Out.Wf (execRowRetire die channel row s) := by
  unfold execRowRetire
  cases e : s.retireRow die channel row with
  | none => exact h
  | some t => exact wf_of_mem h (retireRow_mem e)

theorem wf_execChannelRetire (die channel : Nat) (s : State) (h : Memory.wf s.mem = true) :
    Out.Wf (execChannelRetire die channel s) := by
  unfold execChannelRetire
  cases e : s.retireChannel die channel with
  | none => exact h
  | some t => exact wf_of_mem h (retireChannel_mem e)

theorem wf_execDiestateOffline (die : Nat) (s : State) (h : Memory.wf s.mem = true) :
    Out.Wf (execDiestateOffline die s) := by
  unfold execDiestateOffline
  cases e : s.dieOffline die with
  | none => exact h
  | some t => exact wf_of_mem h (dieOffline_mem e)

theorem wf_execAlarmRaise (die bits : Nat) (s : State) (h : Memory.wf s.mem = true) :
    Out.Wf (execAlarmRaise die bits s) := by
  unfold execAlarmRaise
  split
  · exact wf_raiseAlarm _ die bits h
  · exact h

theorem wf_execWearRecompute (die : Nat) (s : State) (h : Memory.wf s.mem = true) :
    Out.Wf (execWearRecompute die s) := by
  unfold execWearRecompute
  split
  · exact wf_wearStep s die h
  · exact h

theorem wf_execGlreqWrite (vd value : Nat) (s : State) (h : Memory.wf s.mem = true) :
    Out.Wf (execGlreqWrite vd value s) := by
  unfold execGlreqWrite
  generalize (_ || _ || _) = refused
  split
  · exact h
  · exact wf_of_mem h (queueGlean_mem ..)

theorem wf_execBcfgWrite (die kind vd value : Nat) (s : State) (h : Memory.wf s.mem = true) :
    Out.Wf (execBcfgWrite die kind vd value s) := by
  unfold execBcfgWrite
  generalize (_ || _ || _) = refused
  split
  · exact h
  · exact wf_of_mem h (bcfgSet_mem ..)

theorem wf_execSvclendWrite (die value : Nat) (s : State) (h : Memory.wf s.mem = true) :
    Out.Wf (execSvclendWrite die value s) := by
  unfold execSvclendWrite
  generalize (_ || _) = refused
  split
  · exact h
  · exact wf_of_mem h (lendSet_mem ..)

theorem wf_execGleanerRequestComplete (vd : Nat) (s : State) (h : Memory.wf s.mem = true) :
    Out.Wf (execGleanerRequestComplete vd s) := by
  unfold execGleanerRequestComplete
  split
  · exact wf_resetFinish s vd h
  · exact wf_gleanDone s vd h

theorem wf_execPartdef (s : State) (h : Memory.wf s.mem = true) : Out.Wf (execPartdef s) := by
  refine wf_secCall s _ _ _ h fun c => ?_
  split
  · exact called_partdef s c h
  · exact called_secNo 2

theorem wf_execVfreset (s : State) (h : Memory.wf s.mem = true) : Out.Wf (execVfreset s) := by
  refine wf_serveAt s _ _ _ h fun c => ?_
  split
  · exact wf_vfresetCall s c h
  · exact wf_of_mem h (secReply_mem ..)

theorem wf_execFunctionLevelReset (vd : Nat) (s : State) (h : Memory.wf s.mem = true) :
    Out.Wf (execFunctionLevelReset vd s) := by
  unfold execFunctionLevelReset
  split
  · exact wf_resetBegin s vd none h
  · exact h

theorem wf_execPeerTimeout (peer : Nat) (s : State) (h : Memory.wf s.mem = true) : Out.Wf (execPeerTimeout peer s) := by
  unfold execPeerTimeout
  split
  · exact wf_of_mem h (peerGone_mem ..)
  · exact h

theorem wf_execInstructionFetchFault (s : State) (h : Memory.wf s.mem = true) :
    Out.Wf (execInstructionFetchFault s) := by
  unfold execInstructionFetchFault
  split
  · trivial
  · exact wf_fetchFault _ s h

/-- Every instruction and every event keeps memory canonical. An instruction that only changes its group's registers
falls to the last case. -/
theorem wf_exec (i : Instr) (s : State) (h : Memory.wf s.mem = true) : Out.Wf (exec i s) := by
  unfold exec
  cases i with
  | brp | brn | path => exact wf_issue _ _ _ h fun x => wf_splitTo (h := h) ..
  | brall | brany | brnone => exact wf_issue _ _ _ h fun x => wf_uniBranch (h := h) ..
  | ret | jmpr => exact wf_issue _ _ _ h fun x => wf_jump (h := h) ..
  | callr => exact wf_issue _ _ _ h fun x => wf_callr (h := h) ..
  | xretRetry | xretSkip => exact wf_issue _ _ _ h fun x => wf_xret (h := h) ..
  | cinvoke => exact wf_issue _ _ _ h fun x => wf_invoke (h := h) ..
  | ldsW | ldsD | ldsQ | ldsH => exact wf_issue _ _ _ h fun x => wf_lds (h := h) ..
  | stsW | stsD | stsQ | stsH => exact wf_issue _ _ _ h fun x => wf_sts (h := h) ..
  | ldcL => exact wf_issue _ _ _ h fun x => wf_ldcLoc (h := h) ..
  | stcL => exact wf_issue _ _ _ h fun x => wf_stcLoc (h := h) ..
  | cvtq => exact wf_issue _ _ _ h fun x => wf_cvtq (h := h) ..
  | tbeg => exact wf_issue _ _ _ h fun x => wf_tbeg (h := h) ..
  | tend => exact wf_issue _ _ _ h fun x => wf_tend (h := h) ..
  | tabt => exact wf_issue _ _ _ h fun x => wf_tabt (h := h) ..
  | barG => exact wf_issue _ _ _ h fun x => wf_barG (h := h) ..
  | barL | barLYield => exact wf_issue _ _ _ h fun x => wf_barL (h := h) ..
  | exit => exact wf_issue _ _ _ h fun x => wf_exitLanes (h := h) ..
  | fence => exact wf_issue _ _ _ h fun x => wf_fence (h := h) ..
  | waitph => exact wf_issue _ _ _ h fun x => wf_waitph (h := h) ..
  | tlwait | tlwaitW => exact wf_issue _ _ _ h fun x => wf_tlwait (h := h) ..
  | waita => exact wf_issue _ _ _ h fun x => wf_waitaScr (h := h) ..
  | waitaGlobal => exact wf_issue _ _ _ h fun x => wf_waitaMem (h := h) ..
  | mfence => exact wf_issue _ _ _ h fun x => wf_mfence (h := h) ..
  | mwait => exact wf_issue _ _ _ h fun x => wf_mwait (h := h) ..
  | lwaitp => exact wf_issue _ _ _ h fun x => wf_lwaitp (h := h) ..
  | tlread => exact wf_issue _ _ _ h fun x => wf_tlread (h := h) ..
  | imm | guard | sched | rmode | chainop | offhi | matx => exact wf_issue _ _ _ h fun x => wf_pend (h := h) ..
  | mma | mmaZ | mmaT | mmas | mmax => exact wf_issue _ _ _ h fun x => wf_mma (h := h) ..
  | cres => exact wf_issue _ _ _ h fun x => wf_cres (h := h) ..
  | czero => exact wf_issue _ _ _ h fun x => wf_czero (h := h) ..
  | lhset => exact wf_issue _ _ _ h fun x => wf_lhset (h := h) ..
  | lhsetRel => exact wf_issue _ _ _ h fun x => wf_lhrel (h := h) ..
  | lhget => exact wf_issue _ _ _ h fun x => wf_lhget (h := h) ..
  | lhpin => exact wf_issue _ _ _ h fun x => wf_lhpin (h := h) ..
  | lhunpin => exact wf_issue _ _ _ h fun x => wf_lhunpin (h := h) ..
  | send | callMsg | reply | nbsend => exact wf_issue _ _ _ h fun x => wf_sendOn (h := h) ..
  | recv => exact wf_issue _ _ _ h fun x => wf_recvOn (h := h) ..
  | signal => exact wf_issue _ _ _ h fun x => wf_signalOn (h := h) ..
  | waitn => exact wf_issue _ _ _ h fun x => wf_waitnOn (h := h) ..
  | spawn => exact wf_issue _ _ _ h fun x => wf_spawn (h := h) ..
  | join => exact wf_issue _ _ _ h fun x => wf_join (h := h) ..
  | svc => exact wf_issue _ _ _ h fun x => wf_svc (h := h) ..
  | revoke => exact wf_issue _ _ _ h fun x => wf_revoke (h := h) ..
  | pload => exact wf_issue _ _ _ h fun x => wf_pload (h := h) ..
  | pswap => exact wf_issue _ _ _ h fun x => wf_pswap (h := h) ..
  | pstat => exact wf_issue _ _ _ h fun x => wf_pstat (h := h) ..
  | haltctx | haltctxSave => exact wf_issue _ _ _ h fun x => wf_haltctx (h := h) ..
  | resumectx => exact wf_issue _ _ _ h fun x => wf_resumectx (h := h) ..
  | stoprd => exact wf_issue _ _ _ h fun x => wf_stoprd (h := h) ..
  | qdrain => exact wf_issue _ _ _ h fun x => wf_qdrain (h := h) ..
  | eret => exact wf_issue _ _ _ h fun x => wf_eret (h := h) ..
  | ldB | ldSb | ldH | ldSh | ldW | ldD | ldQ => exact wf_issue _ _ _ h fun x => wf_ld (h := h) ..
  | stB | stH | stW | stD | stQ => exact wf_issue _ _ _ h fun x => wf_st (h := h) ..
  | ldc => exact wf_issue _ _ _ h fun x => wf_ldc (h := h) ..
  | stc => exact wf_issue _ _ _ h fun x => wf_stc (h := h) ..
  | aadd | aminS | amaxS | aminN | amaxN | aand | aor | axor | axchg | acas | afadd | abfadd2 | axchgW | acasW =>
    exact wf_issue _ _ _ h fun x => wf_atom (h := h) ..
  | rdadd | rdmin | rdmax | rdfadd | rdbfadd2 | rdinc => exact wf_issue _ _ _ h fun x => wf_red (h := h) ..
  | sysrd => exact wf_issue _ _ _ h fun x => wf_sysrd (h := h) ..
  | syswr => exact wf_issue _ _ _ h fun x => wf_syswr (h := h) ..
  | tlbinv => exact wf_issue _ _ _ h fun x => wf_tlbinv (h := h) ..
  | tlbinva => exact wf_issue _ _ _ h fun x => wf_tlbinva (h := h) ..
  | tlbinvaAll => exact wf_issue _ _ _ h fun x => wf_invalidate (h := h) ..
  | objnew => exact wf_issue _ _ _ h fun x => wf_objnew (h := h) ..
  | tdesc => exact wf_issue _ _ _ h fun x => wf_tdesc (h := h) ..
  | tdescRel => exact wf_issue _ _ _ h fun x => wf_tdescRel (h := h) ..
  | recipe => exact wf_issue _ _ _ h fun x => wf_recipe (h := h) ..
  | tpin => exact wf_issue _ _ _ h fun x => wf_tpin (h := h) ..
  | tunpin => exact wf_issue _ _ _ h fun x => wf_tunpin (h := h) ..
  | tprobe => exact wf_issue _ _ _ h fun x => wf_tprobe (h := h) ..
  | tdrop => exact wf_issue _ _ _ h fun x => wf_tdrop (h := h) ..
  | regrown => exact wf_issue _ _ _ h fun x => wf_regrown (h := h) ..
  | dadd | dsub | dmul | ddiv | dfma | dfms | dfnma | brk | illegalEncoding => exact wf_issue _ _ _ h fun _ => trivial
  | bra | branchCall | recMark | pyield | srd | swr | nop | clock | role | ttest | yield | ptwsync =>
    exact wf_issue _ _ _ h fun _ => h
  | launchReady => exact wf_launchReady (h := h) ..
  | launchCompletion => exact wf_launchComplete (h := h) ..
  | learly => exact wf_issue _ _ _ h fun x => wf_of_mem h (learly_mem ..)
  | arrivalUpdate => exact wf_arrivalUpdate (h := h) ..
  | engineCommandComplete => exact wf_cmdComplete (h := h) ..
  | engineFault => exact wf_engineFault (h := h) ..
  | copy => exact wf_issue _ _ _ h fun _ => wf_command (h := h) (hp := fun _ _ _ => wf_planCopy ..) ..
  | copyg => exact wf_issue _ _ _ h fun _ => wf_command (h := h) (hp := fun _ _ _ => wf_planCopyg ..) ..
  | copys => exact wf_issue _ _ _ h fun _ => wf_command (h := h) (hp := fun _ _ _ => wf_planCopys ..) ..
  | tilest => exact wf_issue _ _ _ h fun _ => wf_command (h := h) (hp := fun _ _ _ => wf_planTilest (h := h) ..) ..
  | tileld => exact wf_issue _ _ _ h fun _ => wf_command (h := h) (hp := fun _ _ _ => wf_planTileld (h := h) ..) ..
  | regroup => exact wf_issue _ _ _ h fun _ => wf_command (h := h) (hp := fun _ _ _ => wf_planRegroup ..) ..
  | loftld => exact wf_issue _ _ _ h fun _ => wf_command (h := h) (hp := fun _ _ _ => wf_planLoftld (h := h) ..) ..
  | loftev => exact wf_issue _ _ _ h fun _ => wf_command (h := h) (hp := fun _ _ _ => wf_planLoftev (h := h) ..) ..
  | coll => exact wf_issue _ _ _ h fun _ => wf_command (h := h) (hp := fun _ _ _ => wf_planColl ..) ..
  | chain => exact wf_issue _ _ _ h fun _ => wf_command (h := h) (hp := fun _ _ _ => wf_planChain ..) ..
  | cld | cst => exact wf_issue _ _ _ h fun _ => wf_command (h := h) (hp := fun _ _ _ => wf_planCrib ..) ..
  | drain => exact wf_issue _ _ _ h fun _ => wf_command (h := h) (hp := fun _ _ _ => wf_planDrain ..) ..
  | crel => exact wf_issue _ _ _ h fun x => wf_of_mem h (crel_mem ..)
  | fusedSetClose => exact wf_of_mem h (closeSet_mem ..)
  | pass => exact wf_pass (h := h) ..
  | cribResultWrite => exact wf_of_mem h (resultWrite_mem ..)
  | batchEnd => exact wf_of_mem h (batchEnd_mem ..)
  | dispatchDecision => exact wf_of_mem h (dispatchDecision_mem ..)
  | pressureDecision => exact wf_of_mem h (pressureDecision_mem ..)
  | policySlotSwap => exact wf_of_mem h (slotSwap_mem ..)
  | kill => exact wf_execKill (h := h) ..
  | resume => exact wf_execResume (h := h) ..
  | notify => exact wf_execNotify (h := h) ..
  | phaseStart => exact wf_phaseStart (h := h) ..
  | unitStop => exact wf_unitStop (h := h) ..
  | faultDecision => exact wf_faultDecision (h := h) ..
  | stepBudgetOverrun => exact wf_budgetOverrun (h := h) ..
  | watchdogHang => exact wf_watchdogHang (h := h) ..
  | watchdogDeadlock => exact wf_watchdogDeadlock (h := h) ..
  | eccNoConsumer => exact wf_noUnitFault (h := h) ..
  | forcedSave => exact wf_forcedSave (h := h) ..
  | reconvergenceHalt => exact wf_reconvergenceHalt (h := h) ..
  | coreHandover => exact wf_coreHandover (h := h) ..
  | quarantineLanding => exact wf_quarantineLanding (h := h) ..
  | contextRestore => exact wf_execContextRestore (h := h) ..
  | gangDispatch => exact wf_gangDispatch (h := h) ..
  | kernelReentry => exact wf_of_mem h (kernelReentry_mem ..)
  | ageingSwap => exact wf_execAgeingSwap (h := h) ..
  | bucketRefill => exact wf_of_mem h (refill_mem ..)
  | arbitrationRound => exact wf_execArbitrationRound (h := h) ..
  | rowRetire => exact wf_execRowRetire (h := h) ..
  | channelRetire => exact wf_execChannelRetire (h := h) ..
  | diestateOffline => exact wf_execDiestateOffline (h := h) ..
  | diestateOnline => exact wf_of_mem h (setDie_mem ..)
  | alarmClear => exact wf_of_mem h (clearAlarm_mem ..)
  | fwctlGo => exact wf_of_mem h (fwGo_mem ..)
  | dieTestComplete => exact wf_dieTested (h := h) ..
  | alarmRaise => exact wf_execAlarmRaise (h := h) ..
  | alarmConditionGone | keyReplace => exact h
  | fwSwap => exact wf_of_mem h (fwStep_mem ..)
  | wearRecompute => exact wf_execWearRecompute (h := h) ..
  | loftRowRemap => exact wf_of_mem h (remapLoft_mem ..)
  | powerOn => exact wf_of_mem h (bringUp_mem ..)
  | powerLoss => exact wf_dark (h := h) ..
  | moduleLeavesDomain => exact wf_exclude (h := h) ..
  | glreqWrite => exact wf_execGlreqWrite (h := h) ..
  | bcfgWrite => exact wf_execBcfgWrite (h := h) ..
  | svclendWrite => exact wf_execSvclendWrite (h := h) ..
  | epochBegin => exact wf_of_mem h (beginEpoch_mem ..)
  | epochComplete => exact wf_endEpoch (h := h) ..
  | markRelease => exact wf_of_mem h (releaseMarks_mem ..)
  | gleanerRequestComplete => exact wf_execGleanerRequestComplete (h := h) ..
  | partdef => exact wf_execPartdef (h := h) ..
  | vdcreate => exact wf_secCall s _ _ _ h fun c => called_vdcreateCall s c h
  | claim => exact wf_secCall s _ _ _ h fun c => called_claimCall s c h
  | measure => exact wf_secCall s _ _ _ h fun c => called_measureCall s c h
  | extend => exact wf_secCall s _ _ _ h fun c => called_extendCall s c h
  | vfreset => exact wf_execVfreset (h := h) ..
  | functionLevelReset => exact wf_execFunctionLevelReset (h := h) ..
  | exportVd => exact wf_secCall s _ _ _ h fun c => called_exportCall s c h
  | importVd => exact wf_secCall s _ _ _ h fun c => called_importCall s c h
  | releaseRequest => exact wf_of_mem h (releaseAsked_mem ..)
  | confirm => exact wf_confirmed (h := h) ..
  | erase => exact wf_secCall s _ _ _ h fun c => called_eraseCall s c h
  | abandon => exact wf_secCall s _ _ _ h fun c => called_abandonCall s c h
  | admitVd => exact wf_secCall s _ _ _ h fun c => called_admitCall s c h
  | pageSet | pageClear => exact wf_servePage (h := h) ..
  | frameReceive => exact wf_frame (h := h) ..
  | linkDown => exact wf_of_mem h (takeDown_mem ..)
  | peerTimeout => exact wf_execPeerTimeout (h := h) ..
  | furrowLaunchPacket => exact wf_launchPacket (h := h) ..
  | hostSlotRequest => exact wf_of_mem h (hostRequest_mem ..)
  | interruptSourceFire => exact wf_fire (h := h) ..
  | instructionFetchFault => exact wf_execInstructionFetchFault (h := h) ..
  | regrowServe => exact wf_regrowServe (h := h) ..
  | regrowLaunchComplete => exact wf_regrowComplete (h := h) ..
  | _ => exact wf_issueG _ _ _ h

end Sys2Proof.Machine
end

section
/-! PROOF. Memory stays canonical through a turn and a step (Machine/Step.lean). -/
namespace Sys2Proof.Machine

theorem wf_issueWord (s : State) (u : Nat) (g : Grp) (p : Path) (h : Memory.wf s.mem = true) :
    Out.Wf (issueWord s u g p) := by
  unfold issueWord
  split
  · exact wf_exec _ s h
  next w pl _ =>
  have hf := wf_fetched s u g w pl h
  split
  · next t _ e => exact hf.1 t (by rw [e])
  next t e =>
  have ht : Memory.wf t.mem = true := by
    rw [e] at hf
    exact hf.2
  split <;> exact wf_exec _ t ht

theorem wf_goOnWord (s : State) (w : Word) (h : Memory.wf s.mem = true) : Out.Wf (goOnWord s w) := by
  unfold goOnWord
  split
  · exact h
  · exact wf_exec _ s h

theorem wf_issueTurn (s : State) (u : Nat) (b0 : Bool) (h : Memory.wf s.mem = true) : Out.Wf (issueTurn s u b0) := by
  unfold issueTurn
  split
  · exact h
  split
  · exact h
  split
  · exact wf_goOnWord _ _ h
  split
  · exact wf_exec _ s h
  split
  · exact h
  · exact wf_issueWord _ _ _ _ (by simpa using h)

theorem wf_turn (s : State) (t : Turn) (h : Memory.wf s.mem = true) : Out.Wf (turn s t) := by
  unfold turn
  split
  · split
    · exact wf_issueTurn _ _ _ h
    · exact h
  · split
    · exact wf_issueTurn _ _ _ h
    · exact h
  · exact h
  · split
    · exact wf_exec _ s h
    · exact h
  · rw [Out.Wf, elapse_mem]
    exact h

theorem wf_synced (old : State) (o : Out) (h : o.Wf) : (synced old o).Wf := by
  cases o with
  | next t => exact wf_syncStacks t old h
  | fault f => trivial
  | refused r => trivial

/-- Memory is canonical after a step that was canonical before. -/
theorem wf_step (s : State) (h : Memory.wf s.mem = true) : Out.Wf (step s) := by
  unfold step
  refine wf_synced s _ ?_
  split
  · exact wf_turn _ _ h
  · exact wf_turn _ _ h

/-- Settles O6: a step is a turn, whose instruction or event keeps memory canonical, followed by stores to path-stack
memory, which keep it canonical too. -/
theorem memoryStaysCanonical : Obligations.MemoryStaysCanonical := by
  unfold Obligations.MemoryStaysCanonical
  intro s t h e
  have ht := wf_step s h
  rw [e] at ht
  exact ht

end Sys2Proof.Machine
end

section
/-! Finite maps: what is found is an entry, and a key of an entry is found. -/
namespace Sys2Proof.Machine

theorem mem_of_find {α : Type} {m : List (Nat × α)} {k : Nat} {v : α} (h : find m k = some v) : (k, v) ∈ m := by
  induction m with
  | nil => cases h
  | cons e r ih =>
    obtain ⟨j, w⟩ := e
    by_cases hk : j = k
    · simp only [find, if_pos hk, Option.some.injEq] at h
      simp [hk, h]
    · simp only [find, if_neg hk] at h
      simp [ih h]

theorem find_of_mem {α : Type} {m : List (Nat × α)} {k : Nat} {v : α} (h : (k, v) ∈ m) : ∃ w, find m k = some w := by
  induction m with
  | nil => cases h
  | cons e r ih =>
    obtain ⟨j, w⟩ := e
    by_cases hk : j = k
    · exact ⟨w, by simp only [find, if_pos hk]⟩
    · obtain ⟨x, hx⟩ := ih ((List.mem_cons.mp h).resolve_left fun he => hk (Prod.mk.inj he).1.symm)
      exact ⟨x, by simp only [find, if_neg hk, hx]⟩

end Sys2Proof.Machine
end

section
/-! What reset leaves (R15, R351, R473). -/
namespace Sys2Proof.Machine

/-- Every unit at reset is a control core, and the thread of control core 0 is the only one. -/
theorem bootCores_mem {e : Nat × Grp} (h : e ∈ bootCores) : isControl e.1 = true ∧ e.1 < 81984
    ∧ (e.1 ≠ 81920 → e.2.slotA = none ∧ e.2.slotB = none ∧ e.2.stack = []) := by
  simp only [bootCores, List.mem_cons, List.mem_map, List.mem_range] at h
  rcases h with rfl | ⟨n, hn, rfl⟩
  · exact ⟨rfl, by decide, fun h => absurd rfl h⟩
  · exact ⟨by simp [isControl]; omega, by omega, fun _ => ⟨rfl, rfl, rfl⟩⟩

/-- All 64 control cores hold registers at reset (R15). -/
theorem find_bootCores {n : Nat} (h : n < 64) : ∃ g, find bootCores (81920 + n) = some g := by
  cases n with
  | zero => exact ⟨bootThread, rfl⟩
  | succ n =>
    refine find_of_mem (v := { bootThread with q := [], slotA := none }) (List.mem_cons_of_mem _ ?_)
    exact List.mem_map.mpr ⟨n, List.mem_range.mpr (by omega), by rw [show 81921 + n = 81920 + (n + 1) by omega]⟩

theorem sysR_reset (num die vd sub : Nat) : State.reset.sysR num die vd sub = sysReset num := rfl

/-- Settles O1: memory, tags and the tables are empty, the units are those of `bootCores`, and an unwritten system register
reads as its reset value. -/
theorem resetState : Obligations.ResetState := by
  unfold Obligations.ResetState
  refine ⟨wf_reset, fun k => ⟨rfl, rfl⟩, ⟨bootThread, { pc := 0, mask := 1 }, rfl, rfl, rfl, rfl, rfl, rfl, rfl, rfl⟩,
    fun n hn => find_bootCores hn, fun u g h => bootCores_mem (mem_of_find h), rfl, rfl, rfl, rfl, rfl, rfl, rfl, rfl,
    fun die => sysR_reset .., sysR_reset .., fun die => sysR_reset .., sysR_reset .., fun die vd slice => sysR_reset ..,
    fun die => sysR_reset .., sysR_reset ..⟩

end Sys2Proof.Machine
end

section
/-! Halts (R436, R437, R439): the context that a unit stops for, the fault that a halt delivers, the end of a halt. -/
namespace Sys2Proof.Machine

theorem find_modCtx {s : State} {c : Nat} {k : Ctx} (f : Ctx → Ctx) (h : find s.ctxs c = some k) :
    find (s.modCtx c f).ctxs c = some (f k) := by
  simp [State.modCtx, h]

theorem unitCtx_of_group {s : State} {u c : Nat} {g : Grp} (hu : u < 2 ^ 20) (h : find s.units u = some g)
    (hc : g.ctx = some c) : s.unitCtx u = some c := by
  simp only [State.unitCtx, if_pos hu, h, Option.bind_some, hc, Option.orElse_some]

theorem unitStop_of_group {s : State} {u c : Nat} {g : Grp} {k : Ctx} (hu : u < 2 ^ 20) (h : find s.units u = some g)
    (hc : g.ctx = some c) (hk : find s.ctxs c = some k) (hs : k.state = .halting) (hg : g.stopped = false) :
    s.unitStop u = (s.stopUnit u).finishHalt c := by
  simp only [State.unitStop, unitCtx_of_group hu h hc, hk, hs, if_pos hu, h, hg, Option.map_some, ne_eq, not_true_eq_false,
    if_false, if_true]

theorem promoted_of_more {k : Ctx} {e : Nat × FaultInfo} {r : List (Nat × FaultInfo)} (hf : k.fault = none)
    (hm : k.more = e :: r) : k.promoted = { k with fault := some e.2, more := r, seq := (k.seq + 1) % 65536 } := by
  simp only [Ctx.promoted, hf, hm]

theorem promoted_of_no_more {k : Ctx} (h : k.fault ≠ none ∨ k.more = []) : k.promoted = k := by
  unfold Ctx.promoted
  split
  · next hf hm => simp [hf, hm] at h
  · rfl

/-- The fault that is delivered late changes neither the state nor the callers of a context. -/
theorem promoted_frame (k : Ctx) : k.promoted.state = k.state ∧ k.promoted.callers = k.callers := by
  unfold Ctx.promoted
  split <;> exact ⟨rfl, rfl⟩

/-- A halt that no HALTCTX waits for ends with the image (R439, R442). -/
theorem finishHalt_of_image {s t : State} {c : Nat} {k : Ctx} (hk : find s.ctxs c = some k) (hs : k.state = .halting)
    (ha : s.allStopped c = true) (hc : k.callers = [])
    (hw : (s.modCtx c (fun _ => k.promoted)).writeImage c k.promoted 0 = some t) :
    s.finishHalt c = t.modCtx c (fun k => { k with state := .halted, decide := k.fault.isSome, callers := [] }) := by
  obtain ⟨hps, hpc⟩ := promoted_frame k
  simp [State.finishHalt, hk, hps, hpc, hs, ha, hc, hw, State.answerCallers]

end Sys2Proof.Machine
end

section
/-! Watchdogs and errors without a consumer (R23, R396, R397). -/
namespace Sys2Proof.Machine

theorem watchdogHang_due {s : State} {c d : Nat} {k : Ctx} (hk : find s.ctxs c = some k)
    (h0 : fld (s.sysR 0x0500 d 0 0).toNat 0 32 * 1024 ≠ 0)
    (hl : fld (s.sysR 0x0500 d 0 0).toNat 0 32 * 1024 ≤ look 0 k.hang d) (hs : k.state = .running) :
    s.watchdogHang c d = (s.modCtx c (fun k => { k with hang := del k.hang d })).noUnitFault c 0x1C 0 := by
  simp only [State.watchdogHang, hk]
  exact if_pos ⟨h0, hl, hs⟩

theorem watchdogHang_off {s : State} {c d : Nat} (h : fld (s.sysR 0x0500 d 0 0).toNat 0 32 * 1024 = 0) :
    s.watchdogHang c d = s := by
  unfold State.watchdogHang
  split
  · rfl
  · exact if_neg fun hd => hd.1 h

theorem watchdogDeadlock_due {s : State} {c : Nat} {k : Ctx} (hk : find s.ctxs c = some k)
    (h0 : fld (s.sysR 0x0501 0 0 0).toNat 0 32 * 2 ^ 20 ≠ 0)
    (hl : fld (s.sysR 0x0501 0 0 0).toNat 0 32 * 2 ^ 20 ≤ k.deadlock) (hs : k.state = .running) :
    s.watchdogDeadlock c = (s.modCtx c (fun k => { k with deadlock := 0 })).noUnitFault c 0x1D 0 := by
  simp only [State.watchdogDeadlock, hk]
  exact if_pos ⟨h0, hl, hs⟩

theorem watchdogDeadlock_off {s : State} {c : Nat} (h : fld (s.sysR 0x0501 0 0 0).toNat 0 32 * 2 ^ 20 = 0) :
    s.watchdogDeadlock c = s := by
  unfold State.watchdogDeadlock
  split
  · rfl
  · exact if_neg fun hd => hd.1 h

theorem noUnitFault_of_ctx {s : State} {c code detail : Nat} {k : Ctx} (hk : find s.ctxs c = some k) :
    s.noUnitFault c code detail = (s.ctxFault c { code := code, detail := detail, pc := k.lastPc }).finishHalt c := by
  simp only [State.noUnitFault, hk]

end Sys2Proof.Machine
end

section
/-! Pre-emption (R393, R394): a group halts on its marked core, and a core that has emptied is handed over. -/
namespace Sys2Proof.Machine

theorem forcedSave_due {s : State} {u gid : Nat} {k : Gang} {g : Grp} {m : Mark}
    (h : s.markedGang u = some (gid, k, g, m)) (hv : g.vacate = false) (hs : g.stopped = false)
    (hm : m.at_ + 16384 ≤ s.now) : s.forcedSave u = s.vacateUnit u gid := by
  simp [State.forcedSave, h, hv, hs, hm]

theorem forcedSave_early {s : State} {u gid : Nat} {k : Gang} {g : Grp} {m : Mark}
    (h : s.markedGang u = some (gid, k, g, m)) (hm : s.now < m.at_ + 16384) : s.forcedSave u = s := by
  simp only [State.forcedSave, h]
  exact if_neg fun hd => absurd hd.1 (by omega)

theorem reconvergenceHalt_of_calm {s : State} {u gid : Nat} {k : Gang} {g : Grp} {m : Mark} {p : Path}
    (h : s.markedGang u = some (gid, k, g, m)) (hv : g.vacate = false) (hs : g.stopped = false)
    (ha : (s.gangUnits k).all (fun e => e.2.vacate) = false) (hr : g.reconverged = true)
    (hp : (g.slotA.orElse (fun _ => g.slotB)) = some p) (hh : p.hints = []) (hn : p.hnd = false)
    (hres : k.res.all (fun e => !(resValid e.2)) = true) (hb : s.matrixBusy gid = false)
    (hc : s.cmds.all (fun e => e.2.gang != some gid || e.2.finished || !e.2.writesScr) = true) :
    s.reconvergenceHalt u = s.vacateUnit u gid := by
  simp only [State.reconvergenceHalt, h, ha, hp, hr, hv, hs, hres, hb, hc, hh, hn]
  rfl

/-- No user group is left on a core whose groups are all at level K. -/
theorem no_user_group {s : State} {c : Nat}
    (h : ∀ e ∈ s.units, isControl e.1 = true ∨ unitCore e.1 ≠ c ∨ e.2.level = .kernel) :
    s.units.any (fun e => !(isControl e.1) && unitCore e.1 == c && e.2.level == .user) = false := by
  rw [List.any_eq_false]
  intro e he
  rcases h e he with h | h | h <;> simp [h]

theorem coreHandover_of_empty {s : State} {c : Nat} {m : Mark} (hm : find s.marks c = some m)
    (h : ∀ e ∈ s.units, isControl e.1 = true ∨ unitCore e.1 ≠ c ∨ e.2.level = .kernel) :
    s.coreHandover c = if (s.fillCore m.launch c 64).keepsMark m.launch c then (s.fillCore m.launch c 64).settleHalts
      else (State.gained { s.fillCore m.launch c 64 with marks := del (s.fillCore m.launch c 64).marks c } c).settleHalts := by
  simp only [State.coreHandover, hm, no_user_group h]
  rfl

end Sys2Proof.Machine
end

section
/-! Landing reads (R445) and re-entry to level K (R450). -/
namespace Sys2Proof.Machine

theorem quarantineLanding_of_saved {s : State} {c core gid : Nat} {e : Late} {sv : Saved}
    (h : s.flight.find? (fun e => e.1 == c) = some (core, gid, e)) (hg : find s.gangs gid = none)
    (hs : find s.saved gid = some sv) :
    s.quarantineLanding c = { s with
      flight := s.flight.erase (core, gid, e)
      quarantine := put s.quarantine c (look [] s.quarantine c ++ [(sv.ctx, gid, e)]) } := by
  simp only [State.quarantineLanding, h, hg, hs]

theorem quarantineLanding_of_resident {s : State} {c core gid : Nat} {e : Late} {k : Gang}
    (h : s.flight.find? (fun e => e.1 == c) = some (core, gid, e)) (hg : find s.gangs gid = some k) :
    s.quarantineLanding c = ({ s with flight := s.flight.erase (core, gid, e) } : State).landQ k e := by
  simp only [State.quarantineLanding, h, hg]

theorem kernelReentry_of_note {s : State} {n : Nat} {g : Grp} {p : Path} (h : find s.units (81920 + n) = some g)
    (ha : g.slotA = some p) (hl : g.level = .user) (h0 : g.ownR 0x0601 ≠ 0)
    (hw : noteWord s (g.ownR 0x0601).toNat ≠ 0) (hd : g.dead = false) :
    s.kernelReentry n = s.putU (81920 + n) (g.reenter p.rewound.pc 3) := by
  have h0' : (g.ownR 0x0601).toNat ≠ 0 := fun e => h0 (BitVec.eq_of_toNat_eq e)
  simp [State.kernelReentry, h, ha, hl, h0', hw, hd]

end Sys2Proof.Machine
end

section
/-! Halts, actions, watchdogs, pre-emption and restores, as events. -/
namespace Sys2Proof.Machine

/-- KILL, RESUME and NOTIFY carry out the action of a handler's reply (R443). -/
theorem gives_actions (c : Nat) (k : Ctx) (h : Bool) :
    EventGives (.kill c) (fun s => find s.ctxs c = some k ∧ k.act = some (0, h)) (fun s => s.killCtx c)
      ∧ EventGives (.resume c) (fun s => find s.ctxs c = some k ∧ k.act = some (1, h) ∧ k.state = .halted)
        (fun s => s.runOn c)
      ∧ EventGives (.resume c) (fun s => find s.ctxs c = some k ∧ k.act = some (1, h) ∧ k.state = .saved)
        (fun s => (s.consume c).modCtx c (fun k => { k with restore := some (s.origin c), decide := false }))
      ∧ EventGives (.notify c) (fun s => find s.ctxs c = some k ∧ k.act = some (2, h)
          ∧ s.rootOf ((s.regionLine k.vd k.escalate).drop 1) = none) (fun s => s.killCtx c)
      ∧ ∀ r, EventGives (.notify c) (fun s => find s.ctxs c = some k ∧ k.act = some (2, h)
          ∧ s.rootOf ((s.regionLine k.vd k.escalate).drop 1) = some r) (fun s => (s.consume c).faultMessage c r) := by
  refine ⟨?_, ?_, ?_, ?_, ?_⟩
  · rintro s ⟨hk, ha⟩
    show execKill c s = _
    simp [execKill, hk, ha]
  · rintro s ⟨hk, ha, hs⟩
    show execResume c s = _
    simp [execResume, State.resume, hk, ha, hs]
  · rintro s ⟨hk, ha, hs⟩
    show execResume c s = _
    simp [execResume, State.resume, hk, ha, hs]
  · rintro s ⟨hk, ha, hr⟩
    show execNotify c s = _
    simp only [execNotify, State.escalate, hk, ha, hr, Option.bind_some]
  · rintro r s ⟨hk, ha, hr⟩
    show execNotify c s = _
    simp only [execNotify, State.escalate, hk, ha, hr, Option.bind_some]

theorem gives_contextRestore (c : Nat) (k : Ctx) (row0 col0 : Nat) (t : State) :
    EventGives (.contextRestore c row0 col0)
      (fun s => find s.ctxs c = some k ∧ k.restore = some (row0, col0) ∧ s.restoreCtx c row0 col0 = some t) (fun _ => t) := by
  rintro s ⟨hk, hr, ht⟩
  show execContextRestore c row0 col0 s = _
  simp [execContextRestore, hk, hr, ht]

theorem gives_ageingSwap (u : Nat) (g : Grp) (p : Path) : EventGives (.ageingSwap u)
    (fun s => find s.units u = some g ∧ g.ageDue (s.genOf g) = true ∧ g.slot g.lastB = some p)
    (fun s => s.putU u ((g.swapWith (s.genOf g) g.lastB (g.pickAged (s.genOf g))).giveWay (s.genOf g) g.lastB)) := by
  rintro s ⟨hg, hd, -⟩
  show execAgeingSwap u s = _
  simp [execAgeingSwap, hg, hd]

/-- Settles O56: each event is one function of the state, and the lemmas above say what it gives where the conditions hold. -/
theorem haltEvents : Obligations.HaltEvents := by
  unfold Obligations.HaltEvents
  refine ⟨fun c k => ⟨gives_actions c k, ?_, ?_, fun e r => promoted_of_more, promoted_of_no_more, fun d => ⟨?_, ?_⟩,
    ⟨?_, ?_⟩, ?_, gives_contextRestore c k⟩, fun u gid k g m => ⟨?_, ?_, fun p => ?_⟩, fun c m => ?_,
    fun c core gid e => ⟨fun sv => ?_, fun k => ?_⟩, fun n g p => ?_, gives_ageingSwap⟩
  · rintro u g hu s ⟨hg, hc, hk, hs, hst⟩
    exact congrArg Host.Outcome.next (unitStop_of_group hu hg hc hk hs hst)
  · intro s t m hk hs ha hc hw hm
    rw [finishHalt_of_image hk hs ha hc hw]
    exact find_modCtx _ hm
  · rintro s ⟨hk, h0, hl, hs⟩
    exact congrArg Host.Outcome.next (watchdogHang_due hk h0 hl hs)
  · intro s h
    exact congrArg Host.Outcome.next (watchdogHang_off h)
  · rintro s ⟨hk, h0, hl, hs⟩
    exact congrArg Host.Outcome.next (watchdogDeadlock_due hk h0 hl hs)
  · intro s h
    exact congrArg Host.Outcome.next (watchdogDeadlock_off h)
  · intro s hk
    exact congrArg Host.Outcome.next (noUnitFault_of_ctx hk)
  · rintro s ⟨⟨hm, hv, hs⟩, hd⟩
    exact congrArg Host.Outcome.next (forcedSave_due hm hv hs hd)
  · rintro s ⟨⟨hm, -, -⟩, hd⟩
    exact congrArg Host.Outcome.next (forcedSave_early hm hd)
  · rintro s ⟨⟨hm, hv, hs⟩, ha, hr, hp, hh, hn, hres, hb, hc⟩
    exact congrArg Host.Outcome.next (reconvergenceHalt_of_calm hm hv hs ha hr hp hh hn hres hb hc)
  · rintro s ⟨hm, hu⟩
    exact congrArg Host.Outcome.next (coreHandover_of_empty hm hu)
  · rintro s ⟨hn, hg, hs⟩
    exact congrArg Host.Outcome.next (quarantineLanding_of_saved hn hg hs)
  · rintro s ⟨hn, hg⟩
    exact congrArg Host.Outcome.next (quarantineLanding_of_resident hn hg)
  · rintro s ⟨hg, ha, hl, h0, hw, hd⟩
    exact congrArg Host.Outcome.next (kernelReentry_of_note hg ha hl h0 hw hd)

end Sys2Proof.Machine
end

section
/-! Bytes at keys as numbers (R3): what a number reads after its bytes, or others, have been written. -/
namespace Sys2Proof.Machine

theorem rkeys_congr {s t : State} {ks : List Nat} (h : ∀ k ∈ ks, t.rb k = s.rb k) : t.rkeys ks = s.rkeys ks := by
  induction ks with
  | nil => rfl
  | cons k ks ih =>
    simp only [List.mem_cons, forall_eq_or_imp] at h
    rw [State.rkeys, State.rkeys, h.1, ih h.2]

/-- A number written at keys reads back. -/
theorem rkeys_wkeys_leBytes (ks : List Nat) (s : State) (x : Nat) (hd : ks.Nodup) (hx : x < 256 ^ ks.length) :
    (s.wkeys ks (leBytes x ks.length)).rkeys ks = x := by
  induction ks generalizing s x with
  | nil => simpa [State.rkeys, eq_comm] using hx
  | cons k ks ih =>
    obtain ⟨hk, hd⟩ := List.nodup_cons.mp hd
    have hb : (State.wkeys ((s.wb k (BitVec.ofNat 8 x)).tagW k false) ks (leBytes (x / 256) ks.length)).rb k
        = BitVec.ofNat 8 x := by
      rw [rb_wkeys_other ks _ _ k hk, rb_tagW, rb_wb_self]
    have hr := ih ((s.wb k (BitVec.ofNat 8 x)).tagW k false) (x / 256) hd
      (Nat.div_lt_of_lt_mul (by rwa [List.length_cons, Nat.pow_succ, Nat.mul_comm] at hx))
    show (State.rb (State.wkeys ((s.wb k (BitVec.ofNat 8 x)).tagW k false) ks (leBytes (x / 256) ks.length)) k).toNat
      + 256 * State.rkeys (State.wkeys ((s.wb k (BitVec.ofNat 8 x)).tagW k false) ks (leBytes (x / 256) ks.length)) ks = x
    rw [hr, hb, BitVec.toNat_ofNat]
    exact Nat.mod_add_div x 256

/-- Bit `n` of a number is bit `n % 8` of its byte `n / 8`. -/
theorem testBit_rkeys (s : State) (ks : List Nat) (n : Nat) :
    (s.rkeys ks).testBit n = (ks[n / 8]?).any (fun k => (s.rb k).getLsbD (n % 8)) := by
  induction ks generalizing n with
  | nil => simp [State.rkeys]
  | cons k ks ih =>
    rw [State.rkeys, Nat.add_comm, Nat.testBit_two_pow_mul_add (i := 8) _ (s.rb k).isLt]
    split
    · next h =>
      rw [Nat.div_eq_of_lt h, Nat.mod_eq_of_lt h, List.getElem?_cons_zero, BitVec.testBit_toNat]
      rfl
    · next h =>
      rw [ih, show n / 8 = (n - 8) / 8 + 1 by omega, List.getElem?_cons_succ, show (n - 8) % 8 = n % 8 by omega]

end Sys2Proof.Machine
end

section
/-! The bits of path-stack records (R39 to R41). -/
namespace Sys2Proof.Machine

/-- KIND of the 32 bytes at keys is 0b00, a freed record (R39). -/
def State.kindFree (s : State) (ks : List Nat) : Prop := (BitVec.ofNat 256 (s.rkeys ks)).extractLsb' 62 2 = 0#2

/-- The bytes at keys are those of another state, but for KIND. -/
def State.likeButKind (t s : State) (ks : List Nat) : Prop := ∀ n, n ≠ 62 → n ≠ 63 →
  (BitVec.ofNat 256 (t.rkeys ks)).getLsbD n = (BitVec.ofNat 256 (s.rkeys ks)).getLsbD n

theorem kindFree_iff (s : State) (ks : List Nat) : s.kindFree ks ↔
    (BitVec.ofNat 256 (s.rkeys ks)).getLsbD 62 = false ∧ (BitVec.ofNat 256 (s.rkeys ks)).getLsbD 63 = false := by
  unfold State.kindFree
  generalize BitVec.ofNat 256 (s.rkeys ks) = w
  refine ⟨fun h => ⟨?_, ?_⟩, fun ⟨h62, h63⟩ => ?_⟩
  · simpa using congrArg (fun x : BitVec 2 => x.getLsbD 0) h
  · simpa using congrArg (fun x : BitVec 2 => x.getLsbD 1) h
  · refine BitVec.eq_of_getLsbD_eq fun i hi => ?_
    rw [BitVec.getLsbD_extractLsb', BitVec.getLsbD_zero]
    obtain rfl | rfl : i = 0 ∨ i = 1 := by omega
    · rw [h62, Bool.and_false]
    · rw [h63, Bool.and_false]

theorem kindFree_congr {s t : State} {ks : List Nat} (h : ∀ k ∈ ks, t.rb k = s.rb k) (hs : s.kindFree ks) :
    t.kindFree ks := by
  unfold State.kindFree
  rwa [rkeys_congr h]

/-- Bits 6 and 7 of byte 7 cleared. -/
theorem getLsbD_freed {s : State} {ks : List Nat} {k n : Nat} (hd : ks.Nodup) (hk : ks[7]? = some k) :
    (BitVec.ofNat 256 ((s.wkeys [k] [s.rb k &&& 0x3F#8]).rkeys ks)).getLsbD n
      = ((BitVec.ofNat 256 (s.rkeys ks)).getLsbD n && decide (n ≠ 62 ∧ n ≠ 63)) := by
  rw [BitVec.getLsbD_ofNat, BitVec.getLsbD_ofNat, testBit_rkeys, testBit_rkeys, Bool.and_assoc]
  congr 1
  by_cases hn : n / 8 = 7
  · have hb : (s.wkeys [k] [s.rb k &&& 0x3F#8]).rb k = s.rb k &&& 0x3F#8 :=
      rb_wkeys_at [k] _ s 0 k _ (List.nodup_singleton k) rfl rfl
    have hm : ∀ m < 8, (0x3F#8).getLsbD m = decide (m ≠ 6 ∧ m ≠ 7) := by decide
    rw [hn, hk, Option.any_some, Option.any_some, hb, BitVec.getLsbD_and, hm _ (Nat.mod_lt n (by decide))]
    congr 1
    exact decide_eq_decide.mpr (by omega)
  · have hne : (decide (n ≠ 62 ∧ n ≠ 63)) = true := decide_eq_true (by omega)
    rw [hne, Bool.and_true]
    cases hj : ks[n / 8]? with
    | none => rfl
    | some j =>
      have hjk : j ≠ k := fun e => hn ((List.getElem?_inj (List.getElem?_eq_some_iff.mp hj).1 hd).mp (by rw [hj, hk, e]))
      rw [Option.any_some, Option.any_some, rb_wkeys_other [k] _ s j (by simp [hjk])]

theorem kindFree_freed {s : State} {ks : List Nat} {k : Nat} (hd : ks.Nodup) (hk : ks[7]? = some k) :
    (s.wkeys [k] [s.rb k &&& 0x3F#8]).kindFree ks := by
  rw [kindFree_iff, getLsbD_freed hd hk, getLsbD_freed hd hk]
  simp

theorem likeButKind_freed {s : State} {ks : List Nat} {k : Nat} (hd : ks.Nodup) (hk : ks[7]? = some k) :
    (s.wkeys [k] [s.rb k &&& 0x3F#8]).likeButKind s ks := by
  intro n h62 h63
  rw [getLsbD_freed hd hk, decide_eq_true (show n ≠ 62 ∧ n ≠ 63 from ⟨h62, h63⟩), Bool.and_true]

theorem append_three {n : Nat} (a : BitVec n) (b c d : BitVec 1) :
    a ++ (b ++ c ++ d) = (a ++ b ++ c ++ d : BitVec (n + 1 + 1 + 1)) := by
  rw [BitVec.append_assoc (x₁ := a ++ b), BitVec.append_assoc (x₁ := a), BitVec.append_assoc (x₁ := b)]
  rfl

theorem bits_deferred (pc mask : DWord) (nrpc : Option DWord) (bar : Option Nat) (hnd : Bool) (link : Option Nat) :
    (Rec.deferred pc mask nrpc bar hnd link).bits
      = pc ++ mask ++ nrpc.getD (-1#64) ++ 0b01#2 ++ BitVec.ofBool bar.isSome ++ BitVec.ofNat 1 (bar.getD 0)
            ++ BitVec.ofBool hnd ++ 0#43 ++ (match link with
              | some k => BitVec.ofNat 16 k
              | none => 0xFFFF#16) := by
  exact congrArg (fun x => x ++ 0#43 ++ linkBits link) (append_three (pc ++ mask ++ pcBits nrpc ++ 1#2) _ _ _)

theorem bits_join (jpc : Option DWord) (total arrived : DWord) (hnd : Bool) (link : Option Nat) :
    (Rec.join jpc total arrived hnd link).bits
      = jpc.getD (-1#64) ++ total ++ arrived ++ 0b10#2 ++ BitVec.ofBool hnd ++ 0#45 ++ (match link with
              | some k => BitVec.ofNat 16 k
              | none => 0xFFFF#16) := rfl

end Sys2Proof.Machine
end

section
/-! What a step does to path-stack memory, record by record (R39): a record's job is the index of a path stack, with what it held
before the step and what it holds now. -/
namespace Sys2Proof.Machine

/-- Index `i` of a group's path stack: the record there before the step, and the record there now. -/
structure RecJob where
  e : Nat × Grp
  i : Nat
  was : Option Rec
  now : Option Rec

/-- The stores that a job makes. -/
def RecJob.run (j : RecJob) (t : State) : State := t.syncRec j.e.1 j.e.2 j.was j.now j.i

/-- The jobs of a group's path stack after a step from `old`, and those of a group that the step has ended. -/
def RecJob.ofGroup (old : State) (e : Nat × Grp) : List RecJob :=
  if old.oldStack e.1 e.2 = e.2.stack then []
  else ((old.oldStack e.1 e.2 ++ e.2.stack).map (·.1)).eraseDups.map fun i =>
    ⟨e, i, find (old.oldStack e.1 e.2) i, find e.2.stack i⟩
def RecJob.ofEnded (e : Nat × Grp) : List RecJob := e.2.stack.map fun r => ⟨e, r.1, some r.2, none⟩

def State.recJobs (s old : State) : List RecJob :=
  s.units.flatMap (RecJob.ofGroup old) ++ (s.endedGrps old).flatMap RecJob.ofEnded

theorem syncStack_eq_run (s old : State) (e : Nat × Grp) :
    s.syncStack old e.1 e.2 = (RecJob.ofGroup old e).foldl (fun t j => j.run t) s := by
  unfold State.syncStack RecJob.ofGroup
  dsimp only
  split
  · rfl
  · rw [List.foldl_map]
    rfl

theorem freeStack_eq_run (s : State) (e : Nat × Grp) :
    s.freeStack e.1 e.2 = (RecJob.ofEnded e).foldl (fun t j => j.run t) s := by
  unfold State.freeStack RecJob.ofEnded
  rw [List.foldl_map]
  rfl

/-- A step's path-stack memory is made job by job. -/
theorem syncStacks_eq_run (s old : State) : s.syncStacks old = (s.recJobs old).foldl (fun t j => j.run t) s := by
  unfold State.syncStacks State.recJobs
  simp only [List.foldl_append, List.foldl_flatMap, syncStack_eq_run, freeStack_eq_run]

/-- A job whose record stays does nothing. -/
theorem run_same {j : RecJob} (h : j.was = j.now) (t : State) : j.run t = t := by
  unfold RecJob.run State.syncRec
  cases hn : j.now with
  | none => simp [h, hn]
  | some r => simp [h, hn]

/-- A job for a record that is new or changed writes it. -/
theorem run_write {j : RecJob} {r : Rec} (hn : j.now = some r) (hw : j.was ≠ some r) (t : State) :
    j.run t = t.wkeys (t.recKeys j.e.1 j.e.2 j.i) (leBytes r.bits.toNat 32) := by
  unfold RecJob.run State.syncRec
  simp only [hn, if_neg hw]

/-- A job for a record that was freed clears KIND. -/
theorem run_free {j : RecJob} {k : Nat} {t : State} (hn : j.now = none) (hw : j.was ≠ none)
    (hk : (t.recKeys j.e.1 j.e.2 j.i)[7]? = some k) : j.run t = t.wkeys [k] [t.rb k &&& 0x3F#8] := by
  unfold RecJob.run State.syncRec
  simp only [hn, hk, Option.isNone_iff_eq_none, if_neg hw]

/-- A job changes memory and tags only. -/
theorem run_frame (j : RecJob) (t : State) : j.run t = { t with mem := (j.run t).mem, tags := (j.run t).tags } := by
  unfold RecJob.run State.syncRec
  repeat' split
  · rfl
  · exact wkeys_frame ..
  · rfl
  · exact wkeys_frame ..
  · rfl

/-- A job changes no byte outside its record. -/
theorem rb_run_other {j : RecJob} {t : State} {k : Nat} (h : k ∉ t.recKeys j.e.1 j.e.2 j.i) : (j.run t).rb k = t.rb k := by
  unfold RecJob.run State.syncRec
  repeat' split
  · rfl
  · exact rb_wkeys_other _ _ _ _ h
  · rfl
  · next k' hk' =>
    have hne : k ≠ k' := fun e => h (e ▸ List.mem_of_getElem? hk')
    exact rb_wkeys_other _ _ _ _ (by simp [hne])
  · rfl

end Sys2Proof.Machine
end

section
/-! The records that a step uses, and their places (R39 to R41). -/
namespace Sys2Proof.Machine

/-- A record that a group has or had before the step, or that a group had which the step has ended. -/
def State.usesRec (s old : State) (e : Nat × Grp) (i : Nat) : Prop :=
  e ∈ s.units ∧ (find (old.oldStack e.1 e.2) i ≠ none ∨ find e.2.stack i ≠ none)
    ∨ e ∈ s.endedGrps old ∧ find e.2.stack i ≠ none

/-- A byte of such a record. -/
def State.recByte (s old : State) (k : Nat) : Prop := ∃ e i, s.usesRec old e i ∧ k ∈ s.recKeys e.1 e.2 i

/-- The places of records do not meet, and no translation goes through them. -/
structure RecsApart (s old : State) : Prop where
  units : (s.units.map Prod.fst).Nodup
  olds : (old.units.map Prod.fst).Nodup
  fixed : ∀ t : State, t = { s with mem := t.mem, tags := t.tags } → (∀ k, ¬s.recByte old k → t.rb k = s.rb k) →
    ∀ e i, s.usesRec old e i → t.recKeys e.1 e.2 i = s.recKeys e.1 e.2 i
  place : ∀ e i, s.usesRec old e i → (s.recKeys e.1 e.2 i).length = 32 ∧ (s.recKeys e.1 e.2 i).Nodup
    ∧ ∀ e' j, s.usesRec old e' j → (e.1, i) ≠ (e'.1, j) → ∀ k ∈ s.recKeys e.1 e.2 i, k ∉ s.recKeys e'.1 e'.2 j

/-- A state on the way: it differs in bytes of records only. -/
structure RecsOnly (s old t : State) : Prop where
  frame : t = { s with mem := t.mem, tags := t.tags }
  rb : ∀ k, ¬s.recByte old k → t.rb k = s.rb k

theorem RecsOnly.refl (s old : State) : RecsOnly s old s := ⟨rfl, fun _ _ => rfl⟩

/-- A group that the step has ended is a unit no longer, and was one. -/
theorem ended_not_unit {s old : State} {e : Nat × Grp} (h : e ∈ s.endedGrps old) :
    find s.units e.1 = none ∧ e ∈ old.units := by
  obtain ⟨hm, hf⟩ := List.mem_filter.mp h
  simp only [Bool.and_eq_true, Option.isNone_iff_eq_none] at hf
  exact ⟨hf.1.1, hm⟩

theorem ended_key_ne {s old : State} {e e' : Nat × Grp} (h : e ∈ s.units) (h' : e' ∈ s.endedGrps old) : e.1 ≠ e'.1 := by
  intro he
  obtain ⟨g, hg⟩ := find_of_mem (k := e.1) (v := e.2) h
  rw [he, (ended_not_unit h').1] at hg
  cases hg

/-- The jobs of groups, and those of groups that the step has ended. -/
theorem job_cases {s old : State} {j : RecJob} (h : j ∈ s.recJobs old) :
    (j.e ∈ s.units ∧ j.was = find (old.oldStack j.e.1 j.e.2) j.i ∧ j.now = find j.e.2.stack j.i
      ∧ (j.was ≠ none ∨ j.now ≠ none))
    ∨ (j.e ∈ s.endedGrps old ∧ j.was ≠ none ∧ j.now = none ∧ find j.e.2.stack j.i ≠ none) := by
  have hsome {m : Sparse Rec} {i : Nat} {r : Rec} (h : (i, r) ∈ m) : find m i ≠ none := by
    obtain ⟨w, hw⟩ := find_of_mem h
    simp [hw]
  rcases List.mem_append.mp h with h | h
  · obtain ⟨e, he, hj⟩ := List.mem_flatMap.mp h
    unfold RecJob.ofGroup at hj
    split at hj
    · cases hj
    · obtain ⟨i, hi, rfl⟩ := List.mem_map.mp hj
      obtain ⟨x, hx, rfl⟩ := List.mem_map.mp (List.mem_eraseDups.mp hi)
      exact .inl ⟨he, rfl, rfl, (List.mem_append.mp hx).imp hsome hsome⟩
  · obtain ⟨e, he, hj⟩ := List.mem_flatMap.mp h
    obtain ⟨x, hx, rfl⟩ := List.mem_map.mp hj
    exact .inr ⟨he, by simp, rfl, hsome hx⟩

theorem job_uses {s old : State} {j : RecJob} (h : j ∈ s.recJobs old) : s.usesRec old j.e j.i := by
  rcases job_cases h with ⟨he, hw, hn, hs⟩ | ⟨he, -, -, hs⟩
  · exact .inl ⟨he, hw ▸ hn ▸ hs⟩
  · exact .inr ⟨he, hs⟩

theorem job_of_unit {s old : State} {j : RecJob} (h : j ∈ s.recJobs old) (he : j.e ∈ s.units) :
    j.was = find (old.oldStack j.e.1 j.e.2) j.i ∧ j.now = find j.e.2.stack j.i := by
  rcases job_cases h with ⟨-, hw, hn, -⟩ | ⟨he', -⟩
  · exact ⟨hw, hn⟩
  · exact absurd rfl (ended_key_ne he he')

theorem job_of_ended {s old : State} {j : RecJob} (h : j ∈ s.recJobs old) (he : j.e ∈ s.endedGrps old) :
    j.was ≠ none ∧ j.now = none := by
  rcases job_cases h with ⟨he', -⟩ | ⟨-, hw, hn, -⟩
  · exact absurd rfl (ended_key_ne he' he)
  · exact ⟨hw, hn⟩

/-- A record that changes has its job. -/
theorem mem_recJobs_of_ne {s old : State} {e : Nat × Grp} {i : Nat} (he : e ∈ s.units)
    (h : find (old.oldStack e.1 e.2) i ≠ find e.2.stack i) :
    (⟨e, i, find (old.oldStack e.1 e.2) i, find e.2.stack i⟩ : RecJob) ∈ s.recJobs old := by
  refine List.mem_append_left _ (List.mem_flatMap.mpr ⟨e, he, ?_⟩)
  unfold RecJob.ofGroup
  rw [if_neg fun hs => h (by rw [hs])]
  refine List.mem_map.mpr ⟨i, List.mem_eraseDups.mpr (List.mem_map.mpr ?_), rfl⟩
  cases hw : find (old.oldStack e.1 e.2) i with
  | some r => exact ⟨(i, r), List.mem_append_left _ (mem_of_find hw), rfl⟩
  | none =>
    obtain ⟨r, hr⟩ := Option.ne_none_iff_exists'.mp fun hn => h (hw.trans hn.symm)
    exact ⟨(i, r), List.mem_append_right _ (mem_of_find hr), rfl⟩

theorem mem_recJobs_of_ended {s old : State} {e : Nat × Grp} {i : Nat} (he : e ∈ s.endedGrps old)
    (h : find e.2.stack i ≠ none) : ∃ r, (⟨e, i, some r, none⟩ : RecJob) ∈ s.recJobs old := by
  obtain ⟨r, hr⟩ := Option.ne_none_iff_exists'.mp h
  exact ⟨r, List.mem_append_right _ (List.mem_flatMap.mpr ⟨e, he, List.mem_map.mpr ⟨(i, r), mem_of_find hr, rfl⟩⟩)⟩

/-- A unit's key names one group of those whose records are used. -/
theorem RecsApart.same_group {s old : State} (A : RecsApart s old) {e e' : Nat × Grp} {i i' : Nat}
    (h : s.usesRec old e i) (h' : s.usesRec old e' i') (hk : e.1 = e'.1) : e = e' := by
  rcases h with ⟨h, -⟩ | ⟨h, -⟩ <;> rcases h' with ⟨h', -⟩ | ⟨h', -⟩
  · exact List.inj_on_of_nodup_map A.units h h' hk
  · exact absurd hk (ended_key_ne h h')
  · exact absurd hk.symm (ended_key_ne h' h)
  · exact List.inj_on_of_nodup_map A.olds (ended_not_unit h).2 (ended_not_unit h').2 hk

theorem RecsOnly.run {s old t : State} (A : RecsApart s old) (h : RecsOnly s old t) {j : RecJob} (hj : j ∈ s.recJobs old) :
    RecsOnly s old (j.run t) where
  frame := by rw [run_frame j t, h.frame]
  rb k hk := by
    refine (rb_run_other fun hm => hk ⟨j.e, j.i, job_uses hj, ?_⟩).trans (h.rb k hk)
    rwa [A.fixed t h.frame h.rb _ _ (job_uses hj)] at hm

/-- A job leaves the bytes of every other record. -/
theorem RecsOnly.rb_run_elsewhere {s old t : State} (A : RecsApart s old) (h : RecsOnly s old t) {j : RecJob}
    (hj : j ∈ s.recJobs old) {e : Nat × Grp} {i : Nat} (hu : s.usesRec old e i) (hne : ¬(j.e = e ∧ j.i = i)) :
    ∀ k ∈ s.recKeys e.1 e.2 i, (j.run t).rb k = t.rb k := by
  intro k hk
  refine rb_run_other ?_
  rw [A.fixed t h.frame h.rb _ _ (job_uses hj)]
  refine (A.place e i hu).2.2 j.e j.i (job_uses hj) (fun hp => hne ?_) k hk
  obtain ⟨he, hi⟩ := Prod.mk.inj hp
  exact ⟨(A.same_group hu (job_uses hj) he).symm, hi.symm⟩

/-- What holds after all jobs: it held before, or one job makes it so, and every job keeps it. -/
theorem runs_reach {s old : State} (A : RecsApart s old) (P : State → Prop)
    (h : P s ∨ ∃ j ∈ s.recJobs old, ∀ t, RecsOnly s old t → P (j.run t))
    (hk : ∀ j ∈ s.recJobs old, ∀ t, RecsOnly s old t → P t → P (j.run t)) : P (s.syncStacks old) := by
  suffices hs : ∀ (l : List RecJob) (t : State), (∀ j ∈ l, j ∈ s.recJobs old) → RecsOnly s old t →
      (P t ∨ ∃ j ∈ l, ∀ t, RecsOnly s old t → P (j.run t)) → P (l.foldl (fun t j => j.run t) t) by
    rw [syncStacks_eq_run]
    exact hs _ s (fun _ => id) (.refl s old) h
  intro l
  induction l with
  | nil => exact fun t _ _ h => h.resolve_right (by simp)
  | cons a l ih =>
    intro t hl ht h
    have ha := hl a (by simp)
    refine ih (a.run t) (fun j hj => hl j (by simp [hj])) (ht.run A ha) ?_
    rcases h with h | ⟨j, hj, h⟩
    · exact .inl (hk a ha t ht h)
    · rcases List.mem_cons.mp hj with rfl | hj
      · exact .inl (h t ht)
      · exact .inr ⟨j, hj, h⟩

theorem syncStacks_recsOnly {s old : State} (A : RecsApart s old) : RecsOnly s old (s.syncStacks old) :=
  runs_reach A (RecsOnly s old) (.inl (.refl s old)) fun _ hj _ _ ht => ht.run A hj

/-- The same for what depends on the bytes of one record only: the jobs of the record are left to look at. -/
theorem record_reach {s old : State} (A : RecsApart s old) {e : Nat × Grp} {i : Nat} (hu : s.usesRec old e i)
    (P : State → Prop) (hP : ∀ t t' : State, (∀ k ∈ s.recKeys e.1 e.2 i, t'.rb k = t.rb k) → P t → P t')
    (h : P s ∨ ∃ j ∈ s.recJobs old, ∀ t, RecsOnly s old t → P (j.run t))
    (hk : ∀ j ∈ s.recJobs old, j.e = e → j.i = i → ∀ t, RecsOnly s old t → P t → P (j.run t)) : P (s.syncStacks old) := by
  refine runs_reach A P h fun j hj t ht hPt => ?_
  by_cases hne : j.e = e ∧ j.i = i
  · exact hk j hj hne.1 hne.2 t ht hPt
  · exact hP t _ (ht.rb_run_elsewhere A hj hu hne) hPt

/-! A record that stays, one that is freed, and one that is written. -/

theorem rb_record_same {s old : State} (A : RecsApart s old) {e : Nat × Grp} {i k : Nat} (he : e ∈ s.units)
    (hw : find (old.oldStack e.1 e.2) i = find e.2.stack i) (hu : s.usesRec old e i) (hk : k ∈ s.recKeys e.1 e.2 i) :
    (s.syncStacks old).rb k = s.rb k := by
  refine record_reach A hu (fun t => t.rb k = s.rb k) (fun t t' h => (h k hk).trans) (.inl rfl) ?_
  rintro j hj rfl rfl t - ht
  obtain ⟨hjw, hjn⟩ := job_of_unit hj he
  rwa [run_same (hjw.trans (hw.trans hjn.symm))]

/-- A job that frees its record clears KIND, and no other bit of it. -/
theorem RecsOnly.run_freed {s old t : State} (A : RecsApart s old) (h : RecsOnly s old t) {j : RecJob}
    (hj : j ∈ s.recJobs old) (hw : j.was ≠ none) (hn : j.now = none) :
    (j.run t).kindFree (s.recKeys j.e.1 j.e.2 j.i) ∧ (j.run t).likeButKind t (s.recKeys j.e.1 j.e.2 j.i) := by
  obtain ⟨hlen, hd, -⟩ := A.place j.e j.i (job_uses hj)
  have hk := List.getElem?_eq_getElem (l := s.recKeys j.e.1 j.e.2 j.i) (i := 7) (by omega)
  rw [run_free hn hw (by rw [A.fixed t h.frame h.rb _ _ (job_uses hj)]; exact hk)]
  exact ⟨kindFree_freed hd hk, likeButKind_freed hd hk⟩

/-- A record all of whose jobs free it is free at the end. -/
theorem record_freed {s old : State} (A : RecsApart s old) {e : Nat × Grp} {i : Nat} {j : RecJob} (hj : j ∈ s.recJobs old)
    (he : j.e = e) (hi : j.i = i) (hf : ∀ j ∈ s.recJobs old, j.e = e → j.i = i → j.was ≠ none ∧ j.now = none) :
    (s.syncStacks old).kindFree (s.recKeys e.1 e.2 i) ∧ (s.syncStacks old).likeButKind s (s.recKeys e.1 e.2 i) := by
  subst he hi
  obtain ⟨hw, hn⟩ := hf j hj rfl rfl
  constructor
  · refine record_reach A (job_uses hj) (fun t => t.kindFree _) (fun t t' h => kindFree_congr h)
      (.inr ⟨j, hj, fun t ht => (ht.run_freed A hj hw hn).1⟩) ?_
    intro j' hj' he hi t ht _
    obtain ⟨hw', hn'⟩ := hf j' hj' he hi
    exact he ▸ hi ▸ (ht.run_freed A hj' hw' hn').1
  · refine record_reach A (job_uses hj) (fun t => t.likeButKind s _) (fun t t' h hl n h62 h63 => ?_)
      (.inl fun _ _ _ => rfl) ?_
    · rw [rkeys_congr h]
      exact hl n h62 h63
    · intro j' hj' he hi t ht hl n h62 h63
      obtain ⟨hw', hn'⟩ := hf j' hj' he hi
      exact ((he ▸ hi ▸ (ht.run_freed A hj' hw' hn').2 n h62 h63).trans (hl n h62 h63))

/-- A job for a new or changed record leaves its bits. -/
theorem RecsOnly.run_written {s old t : State} (A : RecsApart s old) (h : RecsOnly s old t) {j : RecJob} {r : Rec}
    (hj : j ∈ s.recJobs old) (hn : j.now = some r) (hw : j.was ≠ some r) :
    (j.run t).rkeys (s.recKeys j.e.1 j.e.2 j.i) = r.bits.toNat := by
  obtain ⟨hlen, hd, -⟩ := A.place j.e j.i (job_uses hj)
  rw [run_write hn hw, A.fixed t h.frame h.rb _ _ (job_uses hj), ← hlen]
  exact rkeys_wkeys_leBytes _ t _ hd (by rw [hlen]; exact r.bits.isLt)

theorem record_written {s old : State} (A : RecsApart s old) {e : Nat × Grp} {i : Nat} {r : Rec} (he : e ∈ s.units)
    (hr : find e.2.stack i = some r) (hw : find (old.oldStack e.1 e.2) i ≠ find e.2.stack i) :
    BitVec.ofNat 256 ((s.syncStacks old).rkeys (s.recKeys e.1 e.2 i)) = r.bits := by
  have hj := mem_recJobs_of_ne he hw
  suffices h : (s.syncStacks old).rkeys (s.recKeys e.1 e.2 i) = r.bits.toNat by
    rw [h, BitVec.ofNat_toNat, BitVec.setWidth_eq]
  refine record_reach A (job_uses hj) (fun t => t.rkeys (s.recKeys e.1 e.2 i) = r.bits.toNat)
    (fun t t' h => (rkeys_congr h).trans) (.inr ⟨_, hj, fun t ht => ht.run_written A hj hr (hr ▸ hw)⟩) ?_
  rintro j hj' rfl rfl t ht -
  obtain ⟨hjw, hjn⟩ := job_of_unit hj' he
  exact ht.run_written A hj' (hjn.trans hr) (by rwa [hjw, ← hr])

/-! A step that changes no path stack. -/

theorem syncStacks_same {s old : State} (h : ∀ e ∈ s.units, old.oldStack e.1 e.2 = e.2.stack)
    (he : ∀ e ∈ old.units, find s.units e.1 ≠ none) : s.syncStacks old = s := by
  have hended : s.endedGrps old = [] := List.eq_nil_iff_forall_not_mem.mpr fun e hm =>
    he e (ended_not_unit hm).2 (ended_not_unit hm).1
  have hjobs : s.units.flatMap (RecJob.ofGroup old) = [] := List.flatMap_eq_nil_iff.mpr fun e hm => if_pos (h e hm)
  rw [syncStacks_eq_run, State.recJobs, hended, hjobs]
  rfl

end Sys2Proof.Machine
end

section
/-! The turn of an issue (R38): what its fetch, its slot and its token leave of whose turn it is. -/
namespace Sys2Proof.Machine

/-- Whose turn it is, the accesses it makes, and the marked cores. -/
def State.turnOf (s : State) : (Nat × Bool) × Option (List Nat) × Sparse Mark := (s.cur, s.part, s.marks)

theorem foldl_turnOf {α : Type} {f : State → α → State} (hf : ∀ t a, (f t a).turnOf = t.turnOf) (l : List α)
    (s : State) : (l.foldl f s).turnOf = s.turnOf := by
  induction l generalizing s with
  | nil => rfl
  | cons a l ih => exact (ih _).trans (hf s a)

theorem cacheIn_turnOf (s : State) (n : Nat) (e : Pte) : (s.cacheIn n e).turnOf = s.turnOf := by
  unfold State.cacheIn
  dsimp only
  repeat' split
  all_goals rfl

theorem cacheWalk_turnOf (s : State) (ag : Ag) (es : List Pte) : (s.cacheWalk ag es).turnOf = s.turnOf :=
  foldl_turnOf (fun t e => foldl_turnOf (fun u n => cacheIn_turnOf u n e) ag.tlbs t) es s

/-- A charge changes buckets and pools only. -/
theorem charge_frame (s : State) (c : Nat) (r : Req) :
    s.charge c r = { s with level := (s.charge c r).level, pool := (s.charge c r).pool } := by
  unfold State.charge
  repeat' split
  all_goals rfl

theorem charge_turnOf (s : State) (c : Nat) (r : Req) : (s.charge c r).turnOf = s.turnOf := by
  rw [charge_frame]
  rfl

theorem takeWant_turnOf {s t : State} {ag : Ag} {w : Nat × Nat × Nat} (h : s.takeWant ag w = some t) :
    t.turnOf = s.turnOf := by
  unfold State.takeWant at h
  dsimp only at h
  split at h
  · cases h
    rfl
  · split at h
    · cases h
    · cases h
      exact charge_turnOf ..

theorem dropTile_turnOf (s : State) (t : Tile) : (s.dropTile t).turnOf = s.turnOf := by
  rw [dropTile_eq]
  dsimp only [State.turnOf, State.clearTile]

theorem touchLine_turnOf (s : State) (ctx : Option Nat) (vd die slice line : Nat) (write : Bool) :
    (s.touchLine ctx vd die slice line write).turnOf = s.turnOf := by
  unfold State.touchLine
  dsimp only
  generalize ite ((!(s.tilesOn line).isEmpty) = true) 0xFFFF _ = mask
  split
  · rfl
  split
  · rfl
  split
  · rfl
  generalize hu : ite (_ ≤ 1) s s.draw = u
  have hu : u.turnOf = s.turnOf := by
    rw [← hu]
    split <;> rfl
  split
  · split
    · exact hu
    · exact hu
  · refine (foldl_turnOf (fun v t => ?_) _ _).trans hu
    split
    · exact dropTile_turnOf v t
    · rfl

theorem touchXl_turnOf (s : State) (ag : Ag) (write : Bool) (x : Xl) : (s.touchXl ag write x).turnOf = s.turnOf := by
  unfold State.touchXl
  dsimp only
  split
  · exact cacheWalk_turnOf ..
  · exact (foldl_turnOf (fun t l => touchLine_turnOf t ..) _ _).trans (cacheWalk_turnOf ..)

theorem touch_turnOf (s : State) (ag : Ag) (write : Bool) (pl : Place) : (s.touch ag write pl).turnOf = s.turnOf := by
  refine (foldl_turnOf (fun t x => touchXl_turnOf t ag write x) _ _).trans (foldl_turnOf (fun t w => ?_) _ _)
  cases h : t.takeWant ag w with
  | none => rfl
  | some u => exact takeWant_turnOf h

theorem fetched_touch {s t : State} {u : Nat} {g : Grp} {w : Word} {pl : Place} {r : Option State}
    (h : s.fetched u g w pl = (r, t)) : t = s.touch (unitAg u s.cur.2 g) false pl := by
  unfold State.fetched at h
  dsimp only at h
  split at h
  all_goals exact (Prod.mk.inj h).2.symm

/-! The slot and the token of an issue. -/

/-- From `s` to `t` memory, system registers and marks stay, and of the units the group's run and cycle of issue alone. -/
structure Begun (s t : State) (u : Nat) (g : Grp) : Prop where
  other : ∀ v, v ≠ u → find t.units v = find s.units v
  group : ∃ n k, find t.units u = some { g with run := n, issued := k }
  sys : t.sys = s.sys
  tiles : t.tiles = s.tiles
  mem : t.mem = s.mem
  tags : t.tags = s.tags
  part : t.part = s.part
  marks : t.marks = s.marks

theorem Begun.refl {s : State} {u : Nat} {g : Grp} (h : find s.units u = some g) : Begun s s u g :=
  ⟨fun _ _ => rfl, ⟨g.run, g.issued, h⟩, rfl, rfl, rfl, rfl, rfl, rfl⟩

theorem begun_occupy {s : State} {u : Nat} {g : Grp} (b : Bool) (h : find s.units u = some g) :
    Begun s (s.occupy u g b) u g := by
  have hp : Begun s (s.putU u { g with run := 0, issued := s.now + 1 }) u g :=
    ⟨fun v hv => find_put_ne _ _ _ _ hv, ⟨0, s.now + 1, find_put_self ..⟩, rfl, rfl, rfl, rfl, rfl, rfl⟩
  unfold State.occupy
  dsimp only
  split
  · exact .refl h
  · split
    · exact hp
    · exact ⟨hp.other, hp.group, rfl, rfl, rfl, rfl, rfl, rfl⟩

theorem Begun.chargeIssue {s t : State} {u : Nat} {g : Grp} (h : Begun s t u g) : Begun s (t.chargeIssue u g) u g := by
  unfold State.chargeIssue
  split
  · rw [charge_frame]
    exact ⟨h.other, h.group, h.sys, h.tiles, h.mem, h.tags, h.part, h.marks⟩
  · exact h

theorem begun_begin {s : State} {u : Nat} {g : Grp} (b : Bool) (p : Path) (h : find s.units u = some g) :
    Begun s (s.begin_ u g b p) u g := by
  unfold State.begin_
  have hb : Begun s (if p.wait.isNone then (s.occupy u g b).chargeIssue u g else s) u g := by
    split
    · exact (begun_occupy b h).chargeIssue
    · exact .refl h
  exact ⟨hb.other, hb.group, hb.sys, hb.tiles, hb.mem, hb.tags, hb.part, hb.marks⟩

theorem choose_slot {s : State} {u : Nat} {g : Grp} {b0 b : Bool} {p : Path} (h : s.choose u g b0 = some (b, p)) :
    g.slot b = some p := by
  unfold State.choose at h
  dsimp only at h
  split at h
  · cases h
  · next q hq =>
    have hbp : s.slotOf g b0 = b ∧ q = p := by
      repeat' split at h
      all_goals simp_all
    rw [← hbp.1, hq, hbp.2]

/-- The issuer of a word is the path whose turn it is, with its PC, mask and hints, if its group may run. -/
theorem issuer_of_slot {s : State} {u : Nat} {b : Bool} {g : Grp} {p : Path} (w : Word) (hc : s.cur = (u, b))
    (hg : find s.units u = some g) (hi : s.idle u g = false) (hp : g.slot b = some p) :
    (s.issuer w).map (fun x => (x.u, x.b, x.p.pc, x.p.mask, x.p.hints)) = some (u, b, p.pc, p.mask, p.hints) := by
  unfold State.issuer
  rw [hc]
  unfold State.idle at hi
  simp only [hg, hi, hp]
  rfl

end Sys2Proof.Machine
end

section
/-! Steps by whose turn it is (R4, R23, R38). -/
namespace Sys2Proof.Machine

/-- A turn of a unit, of all its accesses or of those at some places (R146). -/
def unitTurn (u : Nat) (b : Bool) (ps : Option (List Nat)) : Turn := match ps with
  | none => .issue u b
  | some l => .part u b l

theorem step_of_turn {s : State} {t : Turn} {r : List Turn} (h : s.agenda = t :: r) :
    step s = synced s (turn { s with agenda := r, free := s.free + 1 } t) := by
  unfold step
  rw [h]

theorem step_of_unitTurn {s : State} {u : Nat} {b : Bool} {ps : Option (List Nat)} {r : List Turn}
    (h : s.agenda = unitTurn u b ps :: r) (hp : s.powered = true) :
    step s = synced s (issueTurn { s with agenda := r, free := s.free + 1, part := ps } u b) := by
  rw [step_of_turn h]
  unfold turn
  cases ps with
  | none => exact congrArg (synced s) (if_pos hp)
  | some l => exact congrArg (synced s) (if_pos hp)

/-- A path without accesses left issues the word that it fetches. -/
theorem issueTurn_of_choose {s : State} {u : Nat} {b0 b : Bool} {g : Grp} {p : Path} (hg : find s.units u = some g)
    (hi : s.idle u g = false) (hp : (g.slot b0).bind (fun p => p.part) = none) (ha : ageingDue s g = false)
    (hc : s.choose u g b0 = some (b, p)) : issueTurn s u b0 = issueWord (s.begin_ u g b p) u g p := by
  unfold issueTurn
  simp only [hg, hi, hp, ha, hc]
  rfl

/-- A fetch through a capability of the module's own (R75, R168). -/
theorem fetch_of_place {s : State} {u va : Nat} {b : Bool} {g : Grp} {p : Path} {pl : Place} (hs : s.cur = (u, b))
    (hat : g.pccAt = none) (hcap : capCheck g.pcc ((p.pc.toNat : Int) - g.pcc.cursor) 4 pEXEC = .ok va) (hva : va % 4 = 0)
    (hloc : locate s (unitAg u b g) { x := true } va 4 = .ok pl) : fetch s g p = .ok (BitVec.ofNat 32 (s.rkeys pl.keys), pl) := by
  unfold fetch
  simp only [hcap, hva, hat, hs, hloc]
  rfl

theorem issueWord_of_fetch {s t : State} {u : Nat} {g : Grp} {p : Path} {w : Word} {pl : Place} {i : Instr}
    (hf : fetch s g p = .ok (w, pl)) (ht : s.fetched u g w pl = (none, t)) (hd : decode w = .ok i) :
    issueWord s u g p = exec i t := by
  unfold issueWord
  simp only [hf, ht, hd]

/-- An instruction with accesses left goes on without a fetch. -/
theorem issueTurn_of_part {s : State} {u : Nat} {b : Bool} {g : Grp} {p : Path} {pt : Progress} {i : Instr}
    (hg : find s.units u = some g) (hi : s.idle u g = false) (hs : g.slot b = some p) (hp : p.part = some pt)
    (hd : decode pt.w = .ok i) : issueTurn s u b = exec i { s with cur := (u, b) } := by
  unfold issueTurn goOnWord
  simp only [hg, hi, hs, hp, hd, Option.bind_some]
  rfl

/-- What the state holds in which a decoded word is executed. -/
theorem fetched_leaves {s t : State} {u : Nat} {b : Bool} {g : Grp} {p : Path} {w : Word} {pl : Place}
    (hg : find s.units u = some g) (hi : s.idle u g = false) (hp : g.slot b = some p)
    (ht : (s.begin_ u g b p).fetched u g w pl = (none, t)) :
    t.cur = (u, b) ∧ t.part = s.part ∧ t.sys = s.sys ∧ (∀ v, v ≠ u → find t.units v = find s.units v)
      ∧ (∃ n k, find t.units u = some { g with run := n, issued := k })
      ∧ (s.tiles = [] → t.mem = s.mem ∧ t.tags = s.tags)
      ∧ ∀ w, (t.issuer w).map (fun x => (x.u, x.b, x.p.pc, x.p.mask, x.p.hints)) = some (u, b, p.pc, p.mask, p.hints) := by
  have hb := begun_begin b p hg
  have hn : Noted (s.begin_ u g b p) t := fetched_touch ht ▸ noted_touchAll _ _ _ [pl]
  have hturn : t.turnOf = (s.begin_ u g b p).turnOf := fetched_touch ht ▸ touch_turnOf ..
  obtain ⟨hcur, hrest⟩ := Prod.mk.inj hturn
  obtain ⟨hpart, hmarks⟩ := Prod.mk.inj hrest
  obtain ⟨n, k, hgrp⟩ := hb.group
  rw [← hn.units] at hgrp
  refine ⟨hcur, hpart.trans hb.part, hn.sys.trans hb.sys, fun v hv => ?_, ⟨n, k, hgrp⟩, fun h => ?_, fun w => ?_⟩
  · rw [hn.units, hb.other v hv]
  · obtain ⟨hm, htg⟩ := hn.bare (hb.tiles.trans h)
    exact ⟨hm.trans hb.mem, htg.trans hb.tags⟩
  · refine issuer_of_slot w hcur hgrp ?_ hp
    have hm : t.marks = s.marks := hmarks.trans hb.marks
    unfold State.idle State.vacated at hi ⊢
    rw [hm]
    exact hi

/-- The stacks of the units stay as time passes. -/
theorem elapse_syncStacks {s : State} (old : State) (c k : Nat) (ho : old.units = s.units)
    (h : ∀ e ∈ s.units, find s.units e.1 = some e.2) : (s.elapse c k).syncStacks old = s.elapse c k := by
  refine syncStacks_same (fun e he => ?_) (fun e he => ?_)
  · obtain ⟨x, hx, rfl⟩ := List.mem_map.mp he
    unfold State.oldStack
    simp only [ho, h x hx]
    rfl
  · obtain ⟨g, hg⟩ := find_of_mem (List.mem_map_of_mem (ho ▸ he) : (e.1, _) ∈ (s.elapse c k).units)
    exact Option.ne_none_iff_exists'.mpr ⟨g, hg⟩

theorem step_elapse {s : State} {c k : Nat} {r : List Turn} (ha : s.agenda = .elapse c k :: r)
    (h : ∀ e ∈ s.units, find s.units e.1 = some e.2) :
    step s = .next (({ s with agenda := r, free := s.free + 1 } : State).elapse c k) := by
  rw [step_of_turn ha]
  exact congrArg Host.Outcome.next (elapse_syncStacks (s := { s with agenda := r, free := s.free + 1 }) s c k rfl h)

/-- The errors present once one has appeared or gone. -/
def errsAfter (errs : List (Nat × Nat)) (e : Nat × Nat) (on : Bool) : List (Nat × Nat) :=
  if on then e :: errs.filter (fun x => x != e) else errs.filter (fun x => x != e)

theorem mem_errsAfter_self (errs : List (Nat × Nat)) (e : Nat × Nat) (on : Bool) : e ∈ errsAfter errs e on ↔ on = true := by
  cases on <;> simp [errsAfter]

theorem mem_errsAfter_other {errs : List (Nat × Nat)} {e x : Nat × Nat} {on : Bool} (h : x ≠ e) :
    x ∈ errsAfter errs e on ↔ x ∈ errs := by
  cases on <;> simp [errsAfter, h]

theorem step_error {s : State} {unit place : Nat} {on : Bool} {r : List Turn} (ha : s.agenda = .error unit place on :: r)
    (h : ∀ e ∈ s.units, find s.units e.1 = some e.2) :
    step s = .next { s with agenda := r, free := s.free + 1, errs := errsAfter s.errs (unit, place) on } := by
  rw [step_of_turn ha]
  refine congrArg Host.Outcome.next (syncStacks_same (fun e he => ?_) (fun e he => ?_))
  · unfold State.oldStack
    simp only [h e he]
    rfl
  · show find s.units e.1 ≠ none
    simp [h e he]

theorem step_event {s : State} {i : Instr} {r : List Turn} (ha : s.agenda = .event i :: r) (hi : ownEvent i = true)
    (hp : s.powered = true ∨ i = .powerOn) : step s = synced s (exec i { s with agenda := r, free := s.free + 1 }) := by
  rw [step_of_turn ha]
  refine congrArg (synced s) (if_pos ?_)
  rcases hp with hp | rfl
  · simp [hi, hp]
  · simp [hi]

/-- Path-stack memory after a step (R39 to R41). -/
theorem syncStacks_records {s old : State} (A : RecsApart s old) :
    let was (e : Nat × Grp) (i : Nat) : Option Rec := find (old.oldStack e.1 e.2) i
    let keys (e : Nat × Grp) (i : Nat) : List Nat := s.recKeys e.1 e.2 i
    let t := s.syncStacks old
    let word (e : Nat × Grp) (i : Nat) : BitVec 256 := BitVec.ofNat 256 (t.rkeys (keys e i))
    t = { s with mem := t.mem, tags := t.tags } ∧ (∀ k, ¬s.recByte old k → t.rb k = s.rb k)
    ∧ (∀ e ∈ s.units, ∀ i,
      (was e i = find e.2.stack i → ∀ k, s.usesRec old e i → k ∈ keys e i → t.rb k = s.rb k)
      ∧ (find e.2.stack i = none → was e i ≠ none → t.kindFree (keys e i) ∧ t.likeButKind s (keys e i))
      ∧ ∀ r, find e.2.stack i = some r → was e i ≠ find e.2.stack i → word e i = r.bits)
    ∧ ∀ e ∈ s.endedGrps old, ∀ i, find e.2.stack i ≠ none → t.kindFree (keys e i) := by
  have ho := syncStacks_recsOnly A
  refine ⟨ho.frame, ho.rb, fun e he i => ⟨fun hw k hu hk => rb_record_same A he hw hu hk, fun hn hw => ?_,
    fun r hr hw => record_written A he hr hw⟩, fun e he i hs => ?_⟩
  · refine record_freed A (mem_recJobs_of_ne he (by rwa [hn])) rfl rfl ?_
    rintro j hj rfl rfl
    obtain ⟨hjw, hjn⟩ := job_of_unit hj he
    exact ⟨hjw ▸ hw, hjn.trans hn⟩
  · obtain ⟨r, hj⟩ := mem_recJobs_of_ended he hs
    refine (record_freed A hj rfl rfl ?_).1
    rintro j' hj' rfl rfl
    exact job_of_ended hj' he

/-- Settles O4: an issue is the decoded word's execution by `issueWord_of_fetch` and `fetched_leaves`; other turns are one
function each; path-stack memory is made record by record. -/
theorem stepRunsDecoded : Obligations.StepRunsDecoded := by
  unfold Obligations.StepRunsDecoded
  refine ⟨?_, ?_, fun s i r => step_event, ?_, ?_, ?_⟩
  · intro s u va b0 b ps r g p pl t i ha hpw hg s0 hi hat hpart hage hch s1 hcap hva hloc ht hd
    obtain ⟨hcur, htp, hsys, hother, hgrp, hbare, hiss⟩ := fetched_leaves (s := s0) hg hi (choose_slot hch) ht
    refine ⟨?_, hcur, htp, hsys, hother, hgrp, hbare, hiss _⟩
    rw [step_of_unitTurn ha hpw, issueTurn_of_choose (s := s0) hg hi hpart hage hch,
      issueWord_of_fetch (fetch_of_place rfl hat hcap hva hloc) ht hd]
  · intro s u b ps r g p pt i ha hpw hg hi hs hp hd
    rw [step_of_unitTurn ha hpw]
    exact congrArg (synced s) (issueTurn_of_part hg hi hs hp hd)
  · exact fun s c k r ha h => ⟨_, step_elapse ha h, rfl, rfl, rfl⟩
  · exact fun s unit place on r ha h => ⟨_, step_error ha h, mem_errsAfter_self .., rfl, rfl, fun e => mem_errsAfter_other⟩
  · intro old s was used keys mine hus hos hfix hpl
    obtain ⟨hframe, hrb, hunits, hended⟩ := syncStacks_records (s := s) (old := old) ⟨hus, hos, hfix, hpl⟩
    refine ⟨hframe, hrb, fun e he i => ?_, hended⟩
    obtain ⟨hsame, hfree, hwrite⟩ := hunits e he i
    exact ⟨hsame, hfree, fun pc mask nrpc bar hnd link hr hw => (hwrite _ hr hw).trans (bits_deferred ..),
      fun jpc total arrived hnd link hr hw => (hwrite _ hr hw).trans (bits_join ..)⟩

end Sys2Proof.Machine
end

section
/-! How an instruction that runs ends, from what its own effect answers. -/
namespace Sys2Proof.Machine

theorem exec_runs {i : Instr} {body : Iss → State → Res} (he : ∀ s, exec i s = issue (Instr.sig i) s body)
    {s : State} {x : Iss} (hr : Runs i s x) : exec i s = .next (finish s x (body x s)) := by
  rw [he, issue_runs hr]

theorem retiresWhen_of {i : Instr} {body : Iss → State → Res} {h : State → Iss → Prop} {st : State → Iss → State}
    {gr : State → Iss → Grp} (he : ∀ s, exec i s = issue (Instr.sig i) s body)
    (hb : ∀ s x, h s x → body x s = .retire (st s x) (gr s x)) : RetiresWhen i h st gr :=
  fun s x hr hh => by rw [exec_runs he hr, hb s x hh, finish]

theorem transfersWhen_of {i : Instr} {body : Iss → State → Res} {h : State → Iss → Prop} {gr : State → Iss → Grp}
    {pc : State → Iss → DWord} (he : ∀ s, exec i s = issue (Instr.sig i) s body)
    (hb : ∀ s x, h s x → body x s = .goto s (gr s x) (pc s x)) : TransfersWhen i h gr pc :=
  fun s x hr hh => by rw [exec_runs he hr, hb s x hh, finish]

theorem endsWhen_of {i : Instr} {body : Iss → State → Res} {h : State → Iss → Prop} {st : State → Iss → State}
    (he : ∀ s, exec i s = issue (Instr.sig i) s body) (hb : ∀ s x, h s x → body x s = .done (st s x)) : EndsWhen i h st :=
  fun s x hr hh => by rw [exec_runs he hr, hb s x hh, finish]

theorem waitsWhen_of {i : Instr} {body : Iss → State → Res} {h : State → Iss → Prop} {st : State → Iss → State}
    {w : State → Iss → Wait} (he : ∀ s, exec i s = issue (Instr.sig i) s body)
    (hb : ∀ s x, h s x → body x s = .wait (st s x) (w s x)) : WaitsWhen i h st w :=
  fun s x hr hh => by rw [exec_runs he hr, hb s x hh, finish]

theorem faultsWhen_of {i : Instr} {body : Iss → State → Res} {h : State → Iss → Prop} {f : State → Iss → FaultInfo}
    (he : ∀ s, exec i s = issue (Instr.sig i) s body) (hb : ∀ s x, h s x → body x s = .fault (f s x)) : FaultsWhen i h f :=
  fun s x hr hh => by rw [exec_runs he hr, hb s x hh, finish]

end Sys2Proof.Machine
end

section
/-! Transfers through a register and path control (R202, R203). -/
namespace Sys2Proof.Machine

/-- The misalignment test of a transfer, by its two lowest bits and by the remainder. -/
theorem fld_two (n : Nat) : fld n 0 2 = n % 4 := by
  simp [fld]

theorem splitTo_of_split {x : Iss} {s : State} {g h : Grp} {taken target fpc : DWord}
    (e : g.split (s.genOf g) x.b taken target fpc = some h) : x.splitTo s g taken target fpc = .done (s.putU x.u h) := by
  simp only [Iss.splitTo, e]

theorem jump_uniform {x : Iss} (s : State) {a : Reg} (hv : a.isV = false) (ht : (x.g.rd2 a x.low).toNat % 4 = 0) :
    x.jump s a = .goto s x.g (x.g.rd2 a x.low) := by
  simp [Iss.jump, fld_two, ht, hv]

theorem jump_misaligned {x : Iss} (s : State) {a : Reg} (ht : (x.g.rd2 a x.low).toNat % 4 ≠ 0) :
    x.jump s a = .fault (x.failPlain (misfetch (x.g.rd2 a x.low)) x.low) := by
  simp [Iss.jump, fld_two, ht]

theorem jump_lanes {x : Iss} (s : State) {a : Reg} (hv : a.isV = true) (ht : (x.g.rd2 a x.low).toNat % 4 = 0) :
    x.jump s a = x.splitTo s x.g (x.sameTarget a) (x.g.rd2 a x.low) x.p.rewound.pc := by
  simp [Iss.jump, fld_two, ht, hv]

theorem callr_uniform {x : Iss} (s : State) (d : Reg) {a : Reg} (hv : a.isV = false)
    (ht : (x.g.rd2 a x.low).toNat % 4 = 0) :
    x.callr s d a = .goto s (x.g.wr2 d x.lanes (fun _ => x.p.pc + 4)) (x.g.rd2 a x.low) := by
  simp [Iss.callr, fld_two, ht, hv]

theorem callr_misaligned {x : Iss} (s : State) (d : Reg) {a : Reg} (ht : (x.g.rd2 a x.low).toNat % 4 ≠ 0) :
    x.callr s d a = .fault (x.failPlain (misfetch (x.g.rd2 a x.low)) x.low) := by
  simp [Iss.callr, fld_two, ht]

theorem callr_lanes {x : Iss} (s : State) (d : Reg) {a : Reg} (hv : a.isV = true)
    (ht : (x.g.rd2 a x.low).toNat % 4 = 0) :
    x.callr s d a = x.splitTo s (x.g.wr2 d (lanesOf x.width (x.sameTarget a)) (fun _ => x.p.pc + 4)) (x.sameTarget a)
      (x.g.rd2 a x.low) x.p.rewound.pc := by
  simp [Iss.callr, fld_two, ht, hv]

theorem genOf_wr2 (s : State) (g : Grp) (d : Reg) (ls : List Nat) (f : Nat → DWord) :
    s.genOf (g.wr2 d ls f) = s.genOf g := by
  rw [wr2_eq_wrRun, wrRun_withRegs]
  rfl

/-- Settles O20: a transfer is uniform, misaligned or per lane, by the lemmas on `Iss.jump` and `Iss.callr`. -/
theorem registerTransfers : Obligations.RegisterTransfers := by
  unfold Obligations.RegisterTransfers
  refine ⟨fun i a hi => ?_, fun d a => ⟨?_, ?_, fun g => ?_⟩, fun a imm g => ?_, fun imm => ?_, ?_⟩
  · have he : ∀ s, exec i s = issue (Instr.sig i) s (fun x s => x.jump s a) := by
      simp only [List.mem_cons, List.not_mem_nil, or_false] at hi
      rcases hi with rfl | rfl <;> exact fun _ => rfl
    exact ⟨transfersWhen_of he fun s x h => jump_uniform s h.1 h.2, faultsWhen_of he fun s x h => jump_misaligned s h,
      fun g => endsWhen_of he fun s x ⟨hv, ht, hs⟩ => (jump_lanes s hv ht).trans (splitTo_of_split hs)⟩
  · exact transfersWhen_of (fun _ => rfl) fun s x h => callr_uniform s d h.1 h.2
  · exact faultsWhen_of (fun _ => rfl) fun s x h => callr_misaligned s d h
  · refine endsWhen_of (fun _ => rfl) fun s x ⟨hv, ht, hs⟩ => (callr_lanes s d hv ht).trans (splitTo_of_split ?_)
    rw [genOf_wr2]
    exact hs
  · exact endsWhen_of (fun _ => rfl) fun s x h => splitTo_of_split h
  · exact retiresWhen_of (fun _ => rfl) fun _ _ _ => rfl
  · exact endsWhen_of (fun _ => rfl) fun _ _ _ => rfl

end Sys2Proof.Machine
end

section
/-! Special registers and hint words (R99 to R102, R177, R178, R185, R204). -/
namespace Sys2Proof.Machine

theorem fld_high (w : Word) : fld w.toNat 6 26 = w.toNat / 64 := by
  have h := w.isLt
  simp only [fld, Nat.shiftRight_eq_div_pow]
  omega

/-- A legal value of MODE (R99). -/
theorem modeOk_iff (w : Word) : modeOk w = true ↔ w.toNat / 64 = 0 ∧ 1 ≤ w.toNat % 8 ∧ w.toNat % 8 ≤ 5 := by
  have h3 : fld w.toNat 0 3 = w.toNat % 8 := by simp [fld]
  simp only [modeOk, fld_high, h3, Bool.and_eq_true, beq_iff_eq, decide_eq_true_eq, and_assoc]

/-- What SWR leaves in the group, by the register's number (R99 to R102). -/
theorem swr_eq (g : Grp) (n : Reg) (w : Word) : g.swr n.toNat w =
    if n = 6#7 then (if w.toNat / 64 = 0 ∧ 1 ≤ w.toNat % 8 ∧ w.toNat % 8 ≤ 5 then { g with mode := w } else g)
    else if n = 7#7 then (if w.toNat / 64 = 0 then { g with status := w } else g)
    else { g with stoch := w } := by
  by_cases h6 : n = 6#7
  · subst h6
    rw [if_pos rfl]
    exact if_congr (modeOk_iff w) rfl rfl
  · rw [if_neg h6]
    by_cases h7 : n = 7#7
    · subst h7
      rw [if_pos rfl]
      exact if_congr (by rw [fld_high]) rfl rfl
    · rw [if_neg h7]
      unfold Grp.swr
      split
      · next e => exact absurd (BitVec.eq_of_toNat_eq e) h6
      · next e => exact absurd (BitVec.eq_of_toNat_eq e) h7
      · rfl

/-- A double word is its halves. -/
theorem halves_append (v : DWord) : (v.extractLsb' 32 32 ++ v.extractLsb' 0 32 : BitVec 64) = v := by
  refine BitVec.eq_of_getLsbD_eq fun i hi => ?_
  rw [BitVec.getLsbD_append]
  by_cases h : i < 32
  · simp [h]
  · have e : 32 + (i - 32) = i := by omega
    have h' : i - 32 < 32 := by omega
    simp [h, h', e]

/-- Settles O21: each form answers one group or one path, and SWR is `swr_eq`. -/
theorem specialRegisters : Obligations.SpecialRegisters := by
  unfold Obligations.SpecialRegisters
  refine ⟨⟨fun d n => ?_, fun a n => ?_, fun d => ?_, fun r => ?_, ?_, fun s x l => ?_⟩, fun i hi => ?_, fun n y r => ?_⟩
  · exact retiresWhen_of (fun _ => rfl) fun _ _ _ => rfl
  · exact retiresWhen_of (fun _ => rfl) fun s x _ => congrArg (Res.retire s) (swr_eq x.g n (x.g.rd a 0))
  · exact retiresWhen_of (fun _ => rfl) fun _ _ _ => rfl
  · exact retiresWhen_of (fun _ => rfl) fun _ _ _ => rfl
  · exact retiresWhen_of (fun _ => rfl) fun _ _ _ => rfl
  · exact ⟨BitVec.toNat_ofNat l 32, rfl, rfl, rfl, rfl, rfl, halves_append x.g.x.pc⟩
  · rcases hi with ⟨h, rfl⟩ | ⟨p, n, rfl⟩ | ⟨r, t, rfl⟩ | ⟨a, b, rfl⟩ | ⟨h, rfl⟩ | ⟨k, st, m, rfl⟩ <;>
      exact endsWhen_of (fun _ => rfl) fun _ _ _ => rfl
  · exact endsWhen_of (fun _ => rfl) fun _ _ _ => rfl

end Sys2Proof.Machine
end

section
/-! A retire changes paths and what a retire notes (R42, R43). -/
namespace Sys2Proof.Machine

theorem setSlot_eq (g : Grp) (b : Bool) (y : Option Path) :
    g.setSlot b y = { g with slotA := if b then g.slotA else y, slotB := if b then y else g.slotB } := by
  cases b <;> rfl

@[simp] theorem setSlot_slot (g : Grp) (b : Bool) (y : Option Path) : (g.setSlot b y).slot b = y := by
  cases b <;> rfl

@[simp] theorem setSlot_slot_other (g : Grp) (b : Bool) (y : Option Path) : (g.setSlot b y).slot (!b) = g.slot (!b) := by
  cases b <;> rfl

/-- `h` has of `g` all but its paths: slots, path stack and the ages of records. -/
def Grp.PathsOnly (g h : Grp) : Prop :=
  h = { g with slotA := h.slotA, slotB := h.slotB, stack := h.stack, sinceFill := h.sinceFill, recAt := h.recAt }

theorem pathsOnly_refl (g : Grp) : g.PathsOnly g := rfl

theorem Grp.PathsOnly.trans {g h k : Grp} (a : g.PathsOnly h) (b : h.PathsOnly k) : g.PathsOnly k := by
  unfold Grp.PathsOnly at *
  conv_lhs => rw [b, a]

theorem pathsOnly_setSlot (g : Grp) (b : Bool) (y : Option Path) : g.PathsOnly (g.setSlot b y) := by
  rw [setSlot_eq]
  rfl

/-- Another path stack and another path in a slot. -/
theorem pathsOnly_stack (g : Grp) (st : Sparse Rec) (b : Bool) (y : Option Path) :
    g.PathsOnly ({ g with stack := st }.setSlot b y) :=
  .trans (h := { g with stack := st }) rfl (pathsOnly_setSlot _ b y)

theorem pathsOnly_park (n : Nat) (g : Grp) (b : Bool) : g.PathsOnly (Grp.park n g b) := by
  induction n generalizing g with
  | zero => exact pathsOnly_refl g
  | succ n ih =>
    unfold Grp.park
    dsimp only
    repeat' split
    · exact pathsOnly_refl g
    · exact pathsOnly_refl g
    · exact (pathsOnly_stack g _ b _).trans (ih _)
    · exact pathsOnly_stack g _ b none
    · exact pathsOnly_refl g
    · exact pathsOnly_refl g

theorem pathsOnly_fill (gen n : Nat) (g : Grp) : g.PathsOnly (Grp.fill gen n g) := by
  induction n generalizing g with
  | zero => exact pathsOnly_refl g
  | succ n ih =>
    unfold Grp.fill
    dsimp only
    split
    · next b k x _ _ =>
      have hs : g.PathsOnly ({ g with stack := del g.stack k, sinceFill := 0, recAt := [] }.setSlot b (some x)) :=
        .trans (h := { g with stack := del g.stack k, sinceFill := 0, recAt := [] }) rfl (pathsOnly_setSlot _ b _)
      exact (hs.trans (pathsOnly_park _ _ b)).trans (ih _)
    · exact pathsOnly_refl g

theorem pathsOnly_goTo (g : Grp) (gen : Nat) (b : Bool) (pc : DWord) : g.PathsOnly (g.goTo gen b pc) := by
  unfold Grp.goTo
  split
  · exact pathsOnly_refl g
  · exact ((pathsOnly_setSlot g b _).trans (pathsOnly_park _ _ b)).trans (pathsOnly_fill gen _ _)

/-- A context after a change of one context is the one before it, or that one changed. -/
theorem find_modCtx_cases {s : State} {c n : Nat} {f : Ctx → Ctx} {k : Ctx} (h : find (s.modCtx n f).ctxs c = some k) :
    find s.ctxs c = some k ∨ ∃ k0, find s.ctxs c = some k0 ∧ k = f k0 := by
  unfold State.modCtx at h
  split at h
  · exact .inl h
  · next k0 hk =>
    by_cases hc : c = n
    · subst hc
      exact .inr ⟨k0, hk, ((find_put_self ..).symm.trans h |> Option.some.inj).symm⟩
    · exact .inl ((find_put_ne _ _ _ _ hc).symm.trans h)

/-- What a retire notes of a context: its watchdogs and its last PC (R58, R396, R397). -/
theorem noteRetire_ctx {s : State} {x : Iss} {c : Nat} {k : Ctx} (h : find (s.noteRetire x).ctxs c = some k) :
    ∃ k0, find s.ctxs c = some k0 ∧ k = { k0 with hang := k.hang, deadlock := k.deadlock, lastPc := k.lastPc } := by
  unfold State.noteRetire at h
  split at h
  · exact ⟨k, h, rfl⟩
  · rcases find_modCtx_cases h with hk | ⟨k0, hk, rfl⟩
    · exact ⟨k, hk, rfl⟩
    · exact ⟨k0, hk, rfl⟩

theorem retireTo_units (s : State) (x : Iss) (g : Grp) (pc : DWord) :
    (s.retireTo x g pc).units = put s.units x.u (g.goTo (s.genOf g) x.b pc) := by
  rw [retireTo_frame]

/-- Settles O17: the group by `pathsOnly_goTo`, the contexts by `noteRetire_ctx`. -/
theorem retireFrame : Obligations.RetireFrame := by
  unfold Obligations.RetireFrame
  intro s x g pc
  have hu := retireTo_units s x g pc
  refine ⟨?_, fun a => ?_, fun u hn => ?_, ⟨g.goTo (s.genOf g) x.b pc, ?_, pathsOnly_goTo g _ x.b pc⟩, fun c k h => ?_⟩
  · conv_lhs => rw [retireTo_frame]
    rw [hu]
  · unfold State.rb
    rw [retireTo_mem]
  · rw [hu, find_put_ne _ _ _ _ hn]
  · rw [hu, find_put_self]
  · exact noteRetire_ctx (s := s.putU x.u (g.goTo (s.genOf g) x.b pc)) h

end Sys2Proof.Machine
end

section
/-! An exit whose settled path parks again (R42): the clause of PathsSplitAndAdvance that keeps the outer records does not hold. -/
namespace Sys2Proof.Machine

/-- Lanes 0 to 2 have split, and lanes 0 and 1 again, without a REC between: both join records have the reconvergence PC 100.
Lane 0 has parked at the inner record, lane 1 is in slot A, lane 2 in slot B. -/
def nestedGroup : Grp :=
  { bootThread with
    slotA := some { pc := 40, mask := 2, link := some 1 }
    slotB := some { pc := 60, mask := 4, link := some 0 }
    stack := [(0, .join (some 100) 7 0 false none), (1, .join (some 100) 3 1 false (some 0))] }

/-- Lane 1 exits: the inner record settles, and its path, lane 0 at PC 100, arrives at the outer record. -/
theorem nestedGroup_exit :
    find (nestedGroup.exitPath 0 false).stack 0 = some (.join (some 100) 5 1 false none) := by rfl

/-- The chain of the exiting path, innermost record first. -/
theorem nestedGroup_chain (i k : Nat) (h : [1, 0][i]? = some k) :
    (if k = 1 then some 0 else none) = [1, 0][i + 1]? ∧ find nestedGroup.stack k = some (.join (some 100) (if k = 1 then 3 else 7)
      (if k = 1 then 1 else 0) false (if k = 1 then some 0 else none)) := by
  match i with
  | 0 =>
    obtain rfl : 1 = k := Option.some.inj h
    exact ⟨rfl, rfl⟩
  | 1 =>
    obtain rfl : 0 = k := Option.some.inj h
    exact ⟨rfl, rfl⟩
  | n + 2 => simp at h

/-- Refutes O18: the record outside the one that an exit settles does not stay as it was where it has the same reconvergence
PC, for the path that settling forms parks there at once (R42). -/
theorem not_pathsSplitAndAdvance : ¬ Obligations.PathsSplitAndAdvance := by
  unfold Obligations.PathsSplitAndAdvance
  rintro ⟨-, -, -, -, hexit⟩
  obtain ⟨-, -, -, -, hkept⟩ := hexit nestedGroup 0 false { pc := 40, mask := 2, link := some 1 } [1, 0] (fun _ => some 100)
    (fun k => if k = 1 then 3 else 7) (fun k => if k = 1 then 1 else 0) (fun _ => false)
    (fun k => if k = 1 then some 0 else none) rfl (by decide) (by decide) (by decide) rfl nestedGroup_chain
  have h0 : find (nestedGroup.exitPath 0 false).stack 0 = some (.join (some 100) 5 0 false none) :=
    (hkept 1 [0] rfl).1 0 (by decide)
  rw [nestedGroup_exit] at h0
  exact absurd h0 (by decide)

end Sys2Proof.Machine
end

section
/-! Traps and faults of a group (R58, R59, R180, R436). -/
namespace Sys2Proof.Machine

theorem park_of_unlinked {g : Grp} {b : Bool} {p : Path} (n : Nat) (hp : g.slot b = some p) (hl : p.link = none) :
    Grp.park n g b = g := by
  cases n with
  | zero => rfl
  | succ n => simp only [Grp.park, hp, hl]

/-- A path without a record stays in its slot, where no record waits for a slot. -/
theorem settled_of_unlinked {g : Grp} {gen : Nat} {b : Bool} {p : Path} (hp : g.slot b = some p) (hl : p.link = none)
    (hk : g.pick gen = none) : g.settled gen b = g := by
  unfold Grp.settled
  rw [park_of_unlinked _ hp hl]
  exact fill_stop gen _ g (.inr hk)

/-- The group in its handler: the trap registers, and the path in its slot, marked (R180). -/
def Iss.inHandler (x : Iss) (p : Path) (entry : DWord) (c : Nat) : Grp :=
  ({ x.g with x := trapRegs x.w x.p.hints x.p.pc c } : Grp).setSlot x.b (some { p.go entry with hnd := true })

theorem inHandler_eq (x : Iss) (p : Path) (entry : DWord) (c : Nat) :
    x.inHandler p entry c = { x.g with
      x := trapRegs x.w x.p.hints x.p.pc c, slotA := (x.inHandler p entry c).slotA, slotB := (x.inHandler p entry c).slotB } := by
  unfold Iss.inHandler
  rw [setSlot_eq]

theorem trap_enters {s : State} {x : Iss} {g0 : Grp} {p : Path} {entry : DWord} {c : Nat} (hu : find s.units x.u = some g0)
    (hc : isControl x.u = false) (hk : x.g.kern.handler = some entry) (hh : x.p.hnd = false)
    (ho : g0.otherInHandler x.b = false) (hp : x.g.slot x.b = some p) (hl : p.link = none)
    (hn : x.g.pick (s.genOf x.g) = none) : s.trap x c = s.putU x.u (x.inHandler p entry c) := by
  have hslot : ({ x.g with x := trapRegs x.w x.p.hints x.p.pc c } : Grp).slot x.b = some p := by
    cases hb : x.b <;> simpa only [hb, Grp.slot] using hp
  have hg : ({ x.g with x := trapRegs x.w x.p.hints x.p.pc c } : Grp).setSlot x.b
      (Option.map (fun p => { p.go entry with hnd := true }) (some p)) = x.inHandler p entry c := rfl
  have hset : (x.inHandler p entry c).settled (s.genOf (x.inHandler p entry c)) x.b = x.inHandler p entry c := by
    refine settled_of_unlinked (setSlot_slot ..) hl ?_
    rw [inHandler_eq]
    exact hn
  simp only [State.trap, hu, hc, hk, hh, ho, hslot, hg, hset, Bool.false_eq_true, if_false]

/-- Without a handler, or in it, a trap is a fault (R59, R180). -/
theorem trap_faults {s : State} {x : Iss} {g0 : Grp} (c : Nat) (hu : find s.units x.u = some g0) (hc : isControl x.u = false)
    (h : x.g.kern.handler = none ∨ x.p.hnd = true) : s.trap x c = s.raise x (x.failPlain ⟨0x13, 0, 0⟩ x.low) := by
  cases hk : x.g.kern.handler with
  | none =>
    simp only [State.trap, hu, hc, hk, Bool.false_eq_true, if_false]
    rfl
  | some entry =>
    have hh : x.p.hnd = true := h.resolve_left (by simp [hk])
    simp only [State.trap, hu, hc, hk, hh, Bool.false_eq_true, if_false, if_true]
    rfl

/-- Settles O22: the entry by `trap_enters`, which changes the trap registers and the path's slot; else `trap_faults`. -/
theorem trapEntersHandler : Obligations.TrapEntersHandler := by
  unfold Obligations.TrapEntersHandler
  refine ⟨fun s x g0 p entry c hu hc hk hh ho hp hl hn => ?_, fun s x g0 c hu hc h => trap_faults c hu hc h⟩
  rw [trap_enters hu hc hk hh ho hp hl hn]
  have e := inHandler_eq x p entry c
  have hx : (x.inHandler p entry c).x = trapRegs x.w x.p.hints x.p.pc c := by rw [e]
  exact ⟨x.inHandler p entry c, find_put_self .., hx, congrArg TrapRegs.word hx, congrArg TrapRegs.pc hx,
    congrArg TrapRegs.hw hx, congrArg TrapRegs.cause hx, setSlot_slot .., by rw [e], by rw [e], by rw [e],
    by rw [e], by rw [e], by rw [e], fun a => rfl⟩

end Sys2Proof.Machine
end

section
/-! A context fault halts its context (R58, R436). -/
namespace Sys2Proof.Machine

/-- From `s` to `t` the units, the contexts and memory stay. -/
structure SameRun (s t : State) : Prop where
  units : t.units = s.units
  ctxs : t.ctxs = s.ctxs
  mem : t.mem = s.mem

theorem SameRun.refl (s : State) : SameRun s s := ⟨rfl, rfl, rfl⟩

theorem SameRun.trans {s t u : State} (a : SameRun s t) (b : SameRun t u) : SameRun s u :=
  ⟨b.units.trans a.units, b.ctxs.trans a.ctxs, b.mem.trans a.mem⟩

theorem SameRun.foldl {α : Type} (f : State → α → State) (hf : ∀ s a, SameRun s (f s a)) (l : List α) (s : State) :
    SameRun s (l.foldl f s) := by
  induction l generalizing s with
  | nil => exact .refl s
  | cons a l ih => exact (hf s a).trans (ih (f s a))

theorem sameRun_cacheIn (s : State) (n : Nat) (e : Pte) : SameRun s (s.cacheIn n e) := by
  unfold State.cacheIn
  dsimp only
  repeat' split
  all_goals exact ⟨rfl, rfl, rfl⟩

theorem sameRun_cacheWalk (s : State) (ag : Ag) (es : List Pte) : SameRun s (s.cacheWalk ag es) :=
  .foldl _ (fun s e => .foldl _ (fun s n => sameRun_cacheIn s n e) ag.tlbs s) es s

theorem sameRun_cacheFault (s : State) (ag : Ag) (f : FaultInfo) : SameRun s (s.cacheFault ag f) := by
  unfold State.cacheFault
  repeat' split
  · exact sameRun_cacheWalk ..
  all_goals exact .refl s

theorem ctxFault_of_running {s : State} {c : Nat} {k : Ctx} (f : FaultInfo) (hk : find s.ctxs c = some k)
    (hs : k.state = .running) : s.ctxFault c f
      = { s with ctxs := put s.ctxs c { k with state := .halting, fault := some f, seq := (k.seq + 1) % 65536 } } := by
  simp only [State.ctxFault, State.modCtx, hk, hs]

theorem landSlot_of_no_part {s : State} {u : Nat} {g : Grp} {b : Bool} (hu : find s.units u = some g)
    (hp : ∀ p, g.slot b = some p → p.part = none) : s.landSlot u b = s := by
  simp only [State.landSlot, hu]
  split
  · rfl
  · next p h => simp only [hp p h]

theorem landUnit_of_no_part {s : State} {u : Nat} {g : Grp} (hu : find s.units u = some g)
    (hp : ∀ p, g.slotA = some p ∨ g.slotB = some p → p.part = none) : s.landUnit u = s := by
  have ha : s.landSlot u false = s := landSlot_of_no_part hu fun p h => hp p (.inl h)
  have hb : s.landSlot u true = s := landSlot_of_no_part hu fun p h => hp p (.inr h)
  rw [State.landUnit, ha, hb]

/-- A unit without accesses left stops with its paths at the first hints of their instructions (R268, R436). -/
theorem stopUnit_of_no_part {s : State} {u : Nat} {g : Grp} (hu : find s.units u = some g)
    (hp : ∀ p, g.slotA = some p ∨ g.slotB = some p → p.part = none) :
    s.stopUnit u = ((s.unlock g).freeToken u).putU u g.halt.interruptTxn := by
  simp only [State.stopUnit, landUnit_of_no_part hu hp, hu]

/-- The halt is raised, and then the unit stops. -/
theorem raise_of_group {s : State} {x : Iss} {f : FaultInfo} {g : Grp} {c : Nat} {k : Ctx} (hf : f.code ≠ noAnswer)
    (hu : find s.units x.u = some g) (hc : isControl x.u = false) (hg : g.ctx = some c) (hr : g.regrow = none)
    (hk : find s.ctxs c = some k) (hs : k.state = .running) :
    ∃ t : State, s.raise x f = t.stopUnit x.u ∧ t.units = s.units ∧ t.mem = s.mem
      ∧ find t.ctxs c = some { k with state := .halting, fault := some f, seq := (k.seq + 1) % 65536 } := by
  obtain ⟨hunits, hctxs, hmem⟩ := sameRun_cacheFault s x.ag f
  have hu' : find (s.cacheFault x.ag f).units x.u = some g := hunits ▸ hu
  have hk' : find (s.cacheFault x.ag f).ctxs c = some k := hctxs ▸ hk
  have ht := ctxFault_of_running f hk' hs
  refine ⟨(s.cacheFault x.ag f).ctxFault c f, ?_, ?_, ?_, ?_⟩
  · simp only [State.raise, if_neg hf, hu', hc, Bool.false_and, Bool.false_eq_true, if_false, hg, hr]
    rfl
  · rw [ht]
    exact hunits
  · rw [ctxFault_mem]
    exact hmem
  · rw [ht]
    exact find_put_self ..

/-- Settles O25: the halt by `raise_of_group`, the unit's stop by `stopUnit_of_no_part`. -/
theorem faultHaltsContext : Obligations.FaultHaltsContext := by
  unfold Obligations.FaultHaltsContext
  intro s x f g c k hf hu hc hg hr hk hs hp
  obtain ⟨t, ht, hunits, hmem, hctx⟩ := raise_of_group hf hu hc hg hr hk hs
  rw [ht, stopUnit_of_no_part (hunits ▸ hu) hp]
  refine ⟨hctx, ⟨g.halt.interruptTxn, find_put_self .., rfl, rfl, rfl, rfl, rfl, rfl, rfl⟩, fun u hn => ?_, fun a => ?_⟩
  · exact (find_put_ne _ _ _ _ hn).trans (congrArg (fun m => find m u) hunits)
  · exact congrArg (fun m => look 0 m a) hmem

end Sys2Proof.Machine
end

section
/-! What `cap_check` and `obj_check` pass (R66). -/
namespace Sys2Proof.Machine

theorem perms_lt (c : Cap) : c.perms < 2 ^ 16 := Nat.mod_lt _ (by decide)

/-- A permission that is asked and not held (R66). -/
theorem testBit_lacks (c : Cap) (perm k : Nat) (hp : perm < 2 ^ 16) :
    (c.lacks perm).testBit k = (perm.testBit k && !c.perms.testBit k) := by
  have hl := perms_lt c
  rw [Cap.lacks, Nat.testBit_and]
  by_cases hk : k < 16
  · have e : 65535 - c.perms = 2 ^ 16 - (c.perms + 1) := by omega
    rw [e, Nat.testBit_two_pow_sub_succ hl]
    simp [hk]
  · have h0 : perm.testBit k = false := Nat.testBit_lt_two_pow (hp.trans_le (Nat.pow_le_pow_right (by decide) (by omega)))
    simp [h0]

theorem lacks_eq_zero_iff (c : Cap) (perm : Nat) (hp : perm < 2 ^ 16) : c.lacks perm = 0 ↔ perm &&& c.perms = perm := by
  have hbits (k : Nat) : (c.lacks perm).testBit k = (0 : Nat).testBit k ↔ (perm &&& c.perms).testBit k = perm.testBit k := by
    rw [testBit_lacks c perm k hp, Nat.zero_testBit, Nat.testBit_and]
    cases perm.testBit k <;> cases c.perms.testBit k <;> decide
  exact ⟨fun h => Nat.eq_of_testBit_eq fun k => (hbits k).mp (by rw [h]),
    fun h => Nat.eq_of_testBit_eq fun k => (hbits k).mpr (by rw [h])⟩

theorem bit_eq_testBit (n k : Nat) : bit n k = n.testBit k := by
  rw [Nat.testBit_eq_decide_div_mod_eq, bit, fld, Nat.shiftRight_eq_div_pow, Bool.beq_eq_decide_eq, Nat.pow_one]

/-- The first failing permission is the lowest one (R66). -/
theorem lowBit_spec {n : Nat} (hn : n < 2 ^ 16) (h0 : n ≠ 0) :
    n.testBit (lowBit n) = true ∧ ∀ j, j < lowBit n → n.testBit j = false := by
  obtain ⟨k, hk⟩ := Nat.exists_testBit_of_ne_zero h0
  have hk16 : k < 16 := by
    by_contra h
    have hlt : n < 2 ^ k := hn.trans_le (Nat.pow_le_pow_right (by decide) (by omega))
    rw [Nat.testBit_lt_two_pow hlt] at hk
    cases hk
  cases hf : (List.range 16).find? (fun i => bit n i) with
  | none =>
    have := List.find?_eq_none.mp hf k (List.mem_range.mpr hk16)
    rw [bit_eq_testBit] at this
    exact absurd hk this
  | some i =>
    have hl : lowBit n = i := by simp only [lowBit, hf, Option.getD_some]
    obtain ⟨hi, -, hlt⟩ := List.find?_range_eq_some.mp hf
    rw [hl, ← bit_eq_testBit]
    exact ⟨hi, fun j hj => by simpa [bit_eq_testBit] using hlt j hj⟩

theorem capCheck_untagged {c : Cap} (off : Int) (size perm : Nat) (h : c.tag = false) :
    capCheck c off size perm = .error ⟨0x01, 0, 0⟩ := by
  simp [capCheck, h]

theorem capCheck_sealed {c : Cap} (off : Int) (size perm : Nat) (h : c.tag = true) (ho : c.otype ≠ 0) :
    capCheck c off size perm = .error ⟨0x02, 0, 0⟩ := by
  simp [capCheck, h, ho]

theorem capCheck_lacking {c : Cap} (off : Int) (size : Nat) {perm : Nat} (h : c.tag = true) (ho : c.otype = 0)
    (hl : c.lacks perm ≠ 0) : capCheck c off size perm = .error ⟨0x03, lowBit (c.lacks perm), 0⟩ := by
  simp [capCheck, h, ho, hl]

theorem capCheck_held {c : Cap} (off : Int) (size : Nat) {perm : Nat} (h : c.tag = true) (ho : c.otype = 0)
    (hl : c.lacks perm = 0) : capCheck c off size perm
      = if c.base ≤ c.cursor + off ∧ c.cursor + off + size ≤ c.top then .ok (wrap 64 (c.cursor + off))
        else .error ⟨0x04, if size ≤ 16 then size else 0x20, wrap 64 (c.cursor + off)⟩ := by
  simp [capCheck, h, ho, hl]

theorem objCheck_untagged {c : Cap} (otype perm : Nat) (h : c.tag = false) :
    objCheck c otype perm = .error ⟨0x01, 0, 0⟩ := by
  simp [objCheck, h]

theorem objCheck_other {c : Cap} {otype : Nat} (perm : Nat) (h : c.tag = true) (ho : c.otype ≠ otype) :
    objCheck c otype perm = .error ⟨0x02, otype % 256, 0⟩ := by
  simp [objCheck, h, ho]

theorem objCheck_lacking {c : Cap} {otype perm : Nat} (h : c.tag = true) (ho : c.otype = otype) (hl : c.lacks perm ≠ 0) :
    objCheck c otype perm = .error ⟨0x03, lowBit (c.lacks perm), 0⟩ := by
  simp [objCheck, h, ho, hl]

theorem objCheck_held {c : Cap} {otype perm : Nat} (h : c.tag = true) (ho : c.otype = otype) (hl : c.lacks perm = 0) :
    objCheck c otype perm = .ok (wrap 64 c.base) := by
  simp [objCheck, h, ho, hl]

/-- The permission that a failed check names: the lowest of those asked and not held. -/
theorem lowBit_lacks {c : Cap} {perm : Nat} (hp : perm < 2 ^ 16) (hl : c.lacks perm ≠ 0) :
    perm.testBit (lowBit (c.lacks perm)) = true ∧ c.perms.testBit (lowBit (c.lacks perm)) = false
      ∧ ∀ j, j < lowBit (c.lacks perm) → perm.testBit j = true → c.perms.testBit j = true := by
  have hlt : c.lacks perm < 2 ^ 16 := Nat.and_le_left.trans_lt hp
  obtain ⟨hb, hlow⟩ := lowBit_spec hlt hl
  rw [testBit_lacks c perm _ hp, Bool.and_eq_true, Bool.not_eq_true'] at hb
  refine ⟨hb.1, hb.2, fun j hj h => ?_⟩
  have hn := hlow j hj
  rwa [testBit_lacks c perm j hp, h, Bool.true_and, Bool.not_eq_false'] at hn

/-- Settles O29: one lemma for each failure in the order of R66, and `lowBit_lacks` for the permission that it names. -/
theorem capabilityCheck : Obligations.CapabilityCheck := by
  unfold Obligations.CapabilityCheck
  intro c off size perm otype hp ho a holds lowest
  have hz : c.lacks perm = 0 ↔ holds := lacks_eq_zero_iff c perm hp
  have hn (h : ¬holds) : c.lacks perm ≠ 0 := fun h0 => h (hz.mp h0)
  refine ⟨capCheck_untagged off size perm, capCheck_sealed off size perm, fun ht h0 hh => ?_, fun ht h0 hh hb => ?_,
    fun ht h0 hh hb => ?_, objCheck_untagged otype perm, fun ht h0 => ?_, fun ht h0 hh => ?_, fun ht h0 hh => ?_⟩
  · exact ⟨_, lowBit_lacks hp (hn hh), capCheck_lacking off size ht h0 (hn hh)⟩
  · exact (capCheck_held off size ht h0 (hz.mpr hh)).trans (if_neg hb)
  · exact (capCheck_held off size ht h0 (hz.mpr hh)).trans (if_pos hb)
  · rw [objCheck_other perm ht h0, Nat.mod_eq_of_lt ho]
  · exact ⟨_, lowBit_lacks hp (hn hh), objCheck_lacking ht h0 (hn hh)⟩
  · exact ⟨_, objCheck_held ht h0 (hz.mpr hh)⟩

end Sys2Proof.Machine
end

section
/-! Fences, batches and early launches (R52 to R54, R262, R266, R267). -/
namespace Sys2Proof.Machine

theorem fence_of_path_scope {x : Iss} (s : State) (o : Nat) {sc : BitVec 2} (h : sc = 0) :
    x.fence s o sc.toNat = .retire s x.g := by
  subst h
  rfl

/-- A fence of gang scope or wider marks the lanes of a release, and takes in an acquire what the reads returned (R165). -/
theorem fence_of_wider_scope {x : Iss} (s : State) (o : BitVec 3) {sc : BitVec 2} (h : sc ≠ 0) :
    x.fence s o.toNat sc.toNat
      = .retire (if o = 2 then s else x.modRace s (fun r => Race.learn x.g.gidx (look [] r.pend x.g.gidx) r))
        (if 2 ≤ o.toNat then { x.g with relLanes := x.g.relLanes ||| x.p.mask } else x.g) := by
  have hsc : sc.toNat ≠ 0 := fun e => h (BitVec.eq_of_toNat_eq e)
  have ho : o.toNat = 2 ↔ o = 2 := ⟨fun e => BitVec.eq_of_toNat_eq e, fun e => e ▸ rfl⟩
  simp only [Iss.fence, if_neg hsc, ho]
  split <;> rfl

theorem mfence_of_room {x : Iss} (s : State) (d : Reg) (h : x.g.closed.length < 256) : x.mfence s d = .retire s
    { x.g.wr d x.lanes (fun _ => BitVec.ofNat 32 ((x.g.batchNo + 1) % 65536)) with
      batchNo := (x.g.batchNo + 1) % 65536, closed := x.g.closed ++ [(x.g.batchNo + 1) % 65536] } :=
  if_neg (by omega)

theorem mfence_of_full {x : Iss} (s : State) (d : Reg) (h : 256 ≤ x.g.closed.length) : x.mfence s d = .wait s .internal :=
  if_pos h

theorem mwait_of_none_closed {x : Iss} (s : State) (a : Reg) (h : x.g.closed = []) : x.mwait s a = .retire s x.g := by
  simp [Iss.mwait, h]

theorem lwaitp_of_no_launch {x : Iss} (s : State) (h : x.g.launch = none) : x.lwaitp s = .retire s x.g := by
  simp only [Iss.lwaitp, h, Option.bind_none]

theorem lwaitp_of_reached {x : Iss} {s : State} {n : Nat} {l : Launch} (hx : x.g.launch = some n) (hl : find s.launches n = some l)
    (ha : l.aborted = none) (hp : ∀ p ∈ s.preds l, s.reached p.2 = true) : x.lwaitp s = .retire s x.g := by
  have ho : (s.preds l).filter (fun p => !(s.reached p.2)) = [] :=
    List.filter_eq_nil_iff.mpr fun p h => by simp [hp p h]
  simp only [Iss.lwaitp, hx, Option.bind_some, hl, ha, ho, List.isEmpty_nil, if_true]

/-- Settles O39: one lemma for each way that a form ends. -/
theorem fencesAndBatches : Obligations.FencesAndBatches := by
  unfold Obligations.FencesAndBatches
  refine ⟨fun o sc => ⟨?_, ?_⟩, ?_, ?_, fun d => ⟨?_, ?_⟩, fun a => ?_, ?_, fun n l => ?_⟩
  · exact retiresWhen_of (fun _ => rfl) fun s _ h => fence_of_path_scope s o.toNat h
  · exact retiresWhen_of (fun _ => rfl) fun s _ h => fence_of_wider_scope s o h
  · exact retiresWhen_of (fun _ => rfl) fun _ _ _ => rfl
  · exact retiresWhen_of (fun _ => rfl) fun _ _ _ => rfl
  · exact retiresWhen_of (fun _ => rfl) fun s _ h => mfence_of_room s d h
  · exact waitsWhen_of (fun _ => rfl) fun s _ h => mfence_of_full s d h
  · exact retiresWhen_of (fun _ => rfl) fun s _ h => mwait_of_none_closed s a h
  · exact retiresWhen_of (fun _ => rfl) fun s _ h => lwaitp_of_no_launch s h
  · exact retiresWhen_of (fun _ => rfl) fun s _ ⟨hx, hl, ha, hp⟩ => lwaitp_of_reached hx hl ha hp

end Sys2Proof.Machine
end

section
/-! The gang barrier, the launch barrier and EXIT (R42, R45, R46, R49, R205). -/
namespace Sys2Proof.Machine

/-- The issuing path has arrived at the barrier of its gang's generation. -/
def Iss.arrived (x : Iss) (s : State) : State :=
  s.putU x.u (x.g.setSlot x.b ((x.g.slot x.b).map (fun p => { p with wait := some (.barrier (s.genOf x.g)) })))

theorem barG_of_gang {x : Iss} {s : State} {gid : Nat} {k : Gang} (hg : x.g.gang = some gid) (hk : find s.gangs gid = some k) :
    x.barG s = if (x.arrived s).barrierFull k then .done ((x.arrived s).barrierCheck gid)
      else .wait (x.arrived s) (.barrier (s.genOf x.g)) := by
  simp only [Iss.barG, hg, putU_gangs, hk]
  rfl

/-- The issuing path waits for nothing. -/
def Iss.resumed (x : Iss) (s : State) : State :=
  s.putU x.u (x.g.setSlot x.b ((x.g.slot x.b).map (fun p => { p with wait := none })))

theorem barL_of_diverged {x : Iss} (s : State) (y : Bool) (h : x.g.reconverged = false) :
    x.barL s y = .fault (x.failPlain ⟨0x11, 0, 0⟩ x.low) := by
  simp only [Iss.barL, h, Bool.not_false, if_true]
  rfl

theorem barL_of_no_gang {x : Iss} (s : State) (y : Bool) (h : x.g.reconverged = true) (hg : x.g.gang = none) :
    x.barL s y = if y then .retire s (x.g.forbid x.lanes) else .fault (x.failPlain ⟨0x04, 0x44, 0⟩ x.low) := by
  simp only [Iss.barL, h, hg, Option.bind_none, Bool.not_true, Bool.false_eq_true, if_false]

/-- With its phase record in place, the gang retires or resumes once all its groups are there and its matrix work has ended. -/
theorem barL_of_record {x : Iss} {s : State} {gid lid : Nat} {k : Gang} {l : Launch} {ps : List Place} (y : Bool)
    (hr : x.g.reconverged = true) (hg : x.g.gang = some gid) (hk : find s.gangs gid = some k) (hn : k.launch = some lid)
    (hl : find s.launches lid = some l) (hp : x.recordPlaces s l k = .ok ps) :
    x.barL s y = if s.launchBarFull k x.u y = true ∧ s.matrixBusy gid = false then
        (if y then
          (if find s.marks k.core = none then .done ((x.resumed s).resumeHere gid k)
            else .done (((x.resumed s).retireGang x gid l k k.phase ps).gangYielded lid k.index))
        else .done (((x.resumed s).retireGang x gid l k (k.phase + 1) ps).gangRetired lid k.index))
      else .wait (x.resumed s) (.launchBar y) := by
  simp only [Iss.barL, hr, hg, hk, hn, hl, hp, Option.bind_some, Option.map_some, Bool.not_true, Bool.false_eq_true, if_false]
  cases s.launchBarFull k x.u y <;> cases s.matrixBusy gid <;> cases y <;> cases find s.marks k.core <;> rfl

/-- What EXIT leaves of the group: its lanes have no transaction, and its path has gone (R42). -/
def Iss.exited (x : Iss) (s : State) : Grp :=
  ((lanesOf x.width x.p.mask).foldl (fun g l => g.setTxn l {}) x.g).exitPath (s.genOf x.g) x.b

/-- The serial token is free of the lanes that exit (R145). -/
def Iss.tokenFreed (x : Iss) (s : State) : State :=
  (lanesOf x.width x.p.mask).foldl (fun s l => s.endSerial x.u x.g l) s

theorem exitLanes_of_no_gang {x : Iss} (s : State) (h : x.g.gang = none) :
    x.exitLanes s = .done ((x.tokenFreed s).putU x.u (x.exited s)) := by
  simp only [Iss.exitLanes, h]
  rfl

theorem exitLanes_of_gang {x : Iss} (s : State) {gid : Nat} (h : x.g.gang = some gid) :
    x.exitLanes s = if x.lastOut s (x.exited s) && s.matrixBusy gid then .wait s .other
      else if (x.exited s).ended then .done ((x.tokenFreed s).groupEnded x.u gid x.g.gidx)
      else .done (((x.tokenFreed s).putU x.u (x.exited s)).barrierCheck gid) := by
  simp only [Iss.exitLanes, h]
  rfl

theorem exitLanes_of_ended {x : Iss} {s : State} {gid : Nat} (hg : x.g.gang = some gid) (he : (x.exited s).ended = true)
    (hb : x.lastOut s (x.exited s) = false ∨ s.matrixBusy gid = false) :
    x.exitLanes s = .done ((x.tokenFreed s).groupEnded x.u gid x.g.gidx) := by
  have hw : (x.lastOut s (x.exited s) && s.matrixBusy gid) = false := by
    rcases hb with h | h <;> simp [h]
  simp only [exitLanes_of_gang s hg, hw, he, Bool.false_eq_true, if_false, if_true]

theorem exitLanes_of_others {x : Iss} {s : State} {gid : Nat} (hg : x.g.gang = some gid) (he : (x.exited s).ended = false) :
    x.exitLanes s = .done (((x.tokenFreed s).putU x.u (x.exited s)).barrierCheck gid) := by
  have hw : x.lastOut s (x.exited s) = false := by simp [Iss.lastOut, he]
  simp only [exitLanes_of_gang s hg, hw, he, Bool.false_and, Bool.false_eq_true, if_false]

/-- Settles O41: each barrier by whether its gang is complete, EXIT by whether the group has ended. -/
theorem barriersAndExit : Obligations.BarriersAndExit := by
  unfold Obligations.BarriersAndExit
  refine ⟨fun gid k => ⟨?_, ?_⟩, ?_, fun i hi => ?_, fun gid lid k l ps => ⟨?_, ?_, ?_, ?_⟩, ?_, ?_, ?_,
    fun gid => ?_, fun gid => ?_⟩
  · exact endsWhen_of (fun _ => rfl) fun s x ⟨hg, hk, hf⟩ => (barG_of_gang hg hk).trans (if_pos hf)
  · exact waitsWhen_of (fun _ => rfl) fun s x ⟨hg, hk, hf⟩ => (barG_of_gang hg hk).trans (if_neg (Bool.eq_false_iff.mp hf))
  · exact retiresWhen_of (fun _ => rfl) fun s x hg => by simp only [Iss.barG, hg]
  · simp only [List.mem_cons, List.not_mem_nil, or_false] at hi
    rcases hi with rfl | rfl
    · exact faultsWhen_of (fun _ => rfl) fun s x h => barL_of_diverged s false h
    · exact faultsWhen_of (fun _ => rfl) fun s x h => barL_of_diverged s true h
  · exact endsWhen_of (fun _ => rfl) fun s x ⟨⟨hr, hg, hk, hn, hl, hp⟩, hf, hb⟩ =>
      (barL_of_record false hr hg hk hn hl hp).trans (if_pos ⟨hf, hb⟩)
  · exact endsWhen_of (fun _ => rfl) fun s x ⟨⟨hr, hg, hk, hn, hl, hp⟩, hf, hb, hm⟩ =>
      (barL_of_record true hr hg hk hn hl hp).trans ((if_pos ⟨hf, hb⟩).trans (if_pos hm))
  · exact endsWhen_of (fun _ => rfl) fun s x ⟨⟨hr, hg, hk, hn, hl, hp⟩, hf, hb, hm⟩ =>
      (barL_of_record true hr hg hk hn hl hp).trans ((if_pos ⟨hf, hb⟩).trans (if_neg hm))
  · exact waitsWhen_of (fun _ => rfl) fun s x ⟨⟨hr, hg, hk, hn, hl, hp⟩, hf⟩ =>
      (barL_of_record false hr hg hk hn hl hp).trans (if_neg fun h => Bool.eq_false_iff.mp hf h.1)
  · exact retiresWhen_of (fun _ => rfl) fun s x ⟨hr, hg⟩ => barL_of_no_gang s true hr hg
  · exact faultsWhen_of (fun _ => rfl) fun s x ⟨hr, hg⟩ => barL_of_no_gang s false hr hg
  · exact endsWhen_of (fun _ => rfl) fun s x h => exitLanes_of_no_gang s h
  · exact endsWhen_of (fun _ => rfl) fun s x ⟨hg, he, hb⟩ => exitLanes_of_ended hg he hb
  · exact endsWhen_of (fun _ => rfl) fun s x ⟨hg, he⟩ => exitLanes_of_others hg he

end Sys2Proof.Machine
end

section
/-! Messages, replies and notifications (R77 to R80, R210 to R212). -/
namespace Sys2Proof.Machine

/-- An endpoint of this module, whose VD is not being reset, that a send through a q register reaches. -/
structure Reaches (s : State) (x : Iss) (q : BitVec 4) (base : Nat) : Prop where
  check : objCheck (x.g.qr q.toNat) 1 pSEND = .ok base
  noReply : s.replyOf (x.g.qr q.toNat) = none
  noReset : s.resetEp x.g.vd base = false
  here : farModule (s.objId 1 x.g.vd base) = none

/-- The message of a send. -/
def Iss.outgoing (x : Iss) (s : State) (a : Reg) (q : BitVec 4) : Msg :=
  s.message x.g (isControl x.u) (x.g.rd a 0).toNat (x.g.qr q.toNat).badge

theorem sendOn_unmatched {s : State} {x : Iss} {q : BitVec 4} {base : Nat} (h : Reaches s x q base)
    (hn : s.receiver (s.objId 1 x.g.vd base) = none) (d a : Reg) (call wait : Bool) :
    x.sendOn s d a q call wait = if wait then
        .wait s.tick (.sending (s.objId 1 x.g.vd base) s.ticket call (d.toNat - 96) (x.g.rd a 0).toNat (x.g.qr q.toNat).badge)
      else .retire s ((x.toS d 0x1000_0000).forbid x.lanes) := by
  obtain ⟨hc, hr, hs, hf⟩ := h
  simp only [Iss.sendOn, Iss.qs, hc, hr, hs, hf, hn, Bool.false_eq_true, if_false]
  rfl

theorem sendOn_delivers {s : State} {x : Iss} {q : BitVec 4} {base : Nat} {p : Party} (h : Reaches s x q base)
    (hp : s.receiver (s.objId 1 x.g.vd base) = some p) (d a : Reg) (wait : Bool) :
    x.sendOn s d a q false wait = .retire ((s.putU x.u x.g).deliver p (x.outgoing s a q))
      (((find ((s.putU x.u x.g).deliver p (x.outgoing s a q)).units x.u).getD x.g).wrS (d.toNat - 96)
        (infoWord 0 false (x.outgoing s a q).caps.length (x.outgoing s a q).words.length 0) |>.forbid x.lanes) := by
  obtain ⟨hc, hr, hs, hf⟩ := h
  simp only [Iss.sendOn, Iss.qs, hc, hr, hs, hf, hp, Bool.false_eq_true, if_false]
  rfl

/-- A CALL that finds its receiver delivers a reply capability with the message, and waits for the reply (R79). -/
theorem sendOn_calls {s : State} {x : Iss} {q : BitVec 4} {base : Nat} {p : Party} (h : Reaches s x q base)
    (hp : s.receiver (s.objId 1 x.g.vd base) = some p) (d a : Reg) (wait : Bool) :
    x.sendOn s d a q true wait = .wait
      (((s.putU x.u x.g).newReply (.path x.u x.b) none).1.deliver p
        { x.outgoing s a q with reply := some ((s.putU x.u x.g).newReply (.path x.u x.b) none).2 })
      (.calling ((s.putU x.u x.g).newReply (.path x.u x.b) none).2 (d.toNat - 96)) := by
  obtain ⟨hc, hr, hs, hf⟩ := h
  simp only [Iss.sendOn, Iss.qs, hc, hr, hs, hf, hp, Bool.false_eq_true, if_false, if_true]
  rfl

/-- Through a reply capability every form replies (R211). -/
theorem sendOn_replies {s : State} {x : Iss} {q : BitVec 4} {base n : Nat} {r : Reply}
    (hc : objCheck (x.g.qr q.toNat) 1 pSEND = .ok base) (hr : s.replyOf (x.g.qr q.toNat) = some (n, r)) (d a : Reg)
    (call wait : Bool) : x.sendOn s d a q call wait = x.replyOn s d (x.g.rd a 0).toNat n r := by
  simp only [Iss.sendOn, Iss.qs, hc, hr]

theorem replyOn_answered {s : State} {x : Iss} {n info : Nat} {r : Reply} (d : Reg) (hl : r.live = true)
    (ha : ((s.putU x.u x.g).answer x.g.vd n r (s.message x.g (isControl x.u) info 0)).2 = true) :
    x.replyOn s d info n r = .retire ((s.putU x.u x.g).answer x.g.vd n r (s.message x.g (isControl x.u) info 0)).1
      (((find ((s.putU x.u x.g).answer x.g.vd n r (s.message x.g (isControl x.u) info 0)).1.units x.u).getD x.g).wrS
        (d.toNat - 96) (infoWord 0 false (s.message x.g (isControl x.u) info 0).caps.length
          (s.message x.g (isControl x.u) info 0).words.length 0) |>.forbid x.lanes) := by
  simp only [Iss.replyOn, hl, ha, Bool.not_true, Bool.false_eq_true, if_false, if_true]
  rfl

/-- An endpoint at a peer that a send through a q register reaches (R87). -/
structure ReachesFar (s : State) (x : Iss) (q : BitVec 4) (base m : Nat) : Prop where
  check : objCheck (x.g.qr q.toNat) 1 pSEND = .ok base
  noReply : s.replyOf (x.g.qr q.toNat) = none
  noReset : s.resetEp x.g.vd base = false
  there : farModule (s.objId 1 x.g.vd base) = some m

theorem sendOn_far {s : State} {x : Iss} {q : BitVec 4} {base m : Nat} (h : ReachesFar s x q base m) (d a : Reg)
    (call wait : Bool) : x.sendOn s d a q call wait
      = x.sendFar s d (x.g.qr q.toNat) (x.g.rd a 0).toNat (s.objId 1 x.g.vd base) m call wait := by
  obtain ⟨hc, hr, hs, hf⟩ := h
  simp only [Iss.sendOn, Iss.qs, hc, hr, hs, hf, Bool.false_eq_true, if_false]

section
variable {s t : State} {x : Iss} {m : Nat}

theorem sendFar_lost (h : s.lost.contains m = true) (d : Reg) (c : Cap) (info ep : Nat) (call wait : Bool) :
    x.sendFar s d c info ep m call wait = .fault (x.failPlain ⟨0x19, 0, (c.bits.extractLsb' 64 64).toNat⟩ x.low) :=
  if_pos h

theorem sendFar_waits (h : s.lost.contains m = false) (hp : s.pay x.ag (4, 0, 1) = .ok t) (d : Reg) (c : Cap) (info ep : Nat)
    (call : Bool) : x.sendFar s d c info ep m call true
      = .wait t.tick (.sending ep t.ticket call (d.toNat - 96) info c.badge) := by
  simp only [Iss.sendFar, h, hp, Bool.false_eq_true, if_false, if_true]
  rfl

theorem sendFar_none_there (h : s.lost.contains m = false) (hp : s.pay x.ag (4, 0, 1) = .ok t) (hn : t.freeVal % 2 = 0) (d : Reg)
    (c : Cap) (info ep : Nat) (call : Bool) : x.sendFar s d c info ep m call false
      = .retire t.draw (({ x with g := x.g.abroad x.lanes } : Iss).toS d 0x1000_0000) := by
  simp only [Iss.sendFar, h, hp, hn, Bool.false_eq_true, if_false, if_true]

theorem sendFar_sent (h : s.lost.contains m = false) (hp : s.pay x.ag (4, 0, 1) = .ok t) (hn : t.freeVal % 2 ≠ 0) (d : Reg)
    (c : Cap) (info ep : Nat) (call : Bool) :
    x.sendFar s d c info ep m call false
      = .retire { t.draw with sent := outMessage x.g.vd m ep (t.message x.g (isControl x.u) info c.badge) :: t.sent }
        (({ x with g := x.g.abroad x.lanes } : Iss).toS d (infoWord 0 false (t.message x.g (isControl x.u) info c.badge).caps.length
          (t.message x.g (isControl x.u) info c.badge).words.length 0).toNat) := by
  simp only [Iss.sendFar, h, hp, if_neg hn, Bool.false_eq_true, if_false]

end

/-- A caller that waits for this reply takes it, and its CALL is complete (R79). -/
theorem answer_caller {s : State} {vd n u rd : Nat} {b : Bool} {r : Reply} {g : Grp} {p : Path} (m : Msg)
    (hd : r.dest = .path u b) (hu : find s.units u = some g) (hs : g.slot b = some p) (hw : p.wait = some (.calling n rd)) :
    s.answer vd n r m = (({ s with replies := put s.replies n { r with live := false } } : State).complete u b
      (fun g => g.takeMsg (isControl u) m Cap.null rd), true) := by
  simp only [State.answer, hd, hu, hs, hw, Option.bind_some, if_true]

theorem recvOn_waits {s : State} {x : Iss} {q : BitVec 4} {base : Nat} (d : Reg)
    (hc : objCheck (x.g.qr q.toNat) 1 pRECV = .ok base) (hs : s.sender (s.objId 1 x.g.vd base) = none)
    (hp : s.posts.find? (fun p => p.ep == s.objId 1 x.g.vd base) = none) :
    x.recvOn s d q = .wait s.tick (.receiving (s.objId 1 x.g.vd base) s.ticket (d.toNat - 96)) := by
  simp only [Iss.recvOn, Iss.qs, hc, hs, hp]
  rfl

/-- A post that a RECV takes, once its peer knows and its caller has a server (R79, R87). -/
def Iss.postTaken (x : Iss) (s : State) (ep : Nat) (k : Post) : State :=
  (({ s.putU x.u x.g with posts := (s.putU x.u x.g).posts.erase k } : State).tellPeer x.g.vd ep k.peer).serve
    ((s.putU x.u x.g).freshMsg x.g.vd k.msg).reply x.g.ctx (some x.g.vd)

theorem recvOn_takes_post {s : State} {x : Iss} {q : BitVec 4} {base : Nat} {k : Post} (d : Reg)
    (hc : objCheck (x.g.qr q.toNat) 1 pRECV = .ok base) (hs : s.sender (s.objId 1 x.g.vd base) = none)
    (hp : s.posts.find? (fun p => p.ep == s.objId 1 x.g.vd base) = some k) :
    x.recvOn s d q =
      let t := x.postTaken s (s.objId 1 x.g.vd base) k
      let m := (s.putU x.u x.g).freshMsg x.g.vd k.msg
      let h := (find t.units x.u).getD x.g
      let g := if (farModule (s.objId 1 x.g.vd base)).isSome then h.abroad x.lanes else h
      .retire t (((g.takeMsg (isControl x.u) m (t.replyCap m.reply) (d.toNat - 96)).curvd (t.batchVd m.reply)).forbid x.lanes) := by
  simp only [Iss.recvOn, Iss.qs, hc, hs, hp]
  rfl

theorem signalOn_here {s : State} {x : Iss} {q : BitVec 4} {base : Nat} (hc : objCheck (x.g.qr q.toNat) 2 pSEND = .ok base)
    (hf : farModule (s.objId 2 x.g.vd base) = none) :
    x.signalOn s q = .retire (s.noteOr (s.objId 2 x.g.vd base) (x.g.qr q.toNat).badge) (x.g.forbid x.lanes) := by
  simp only [Iss.signalOn, Iss.qs, hc, hf]

theorem signalOn_far {s : State} {x : Iss} {q : BitVec 4} {base m : Nat} (hc : objCheck (x.g.qr q.toNat) 2 pSEND = .ok base)
    (hf : farModule (s.objId 2 x.g.vd base) = some m) (hl : s.lost.contains m = false) :
    x.signalOn s q = .retire ((s.noteOr (s.objId 2 x.g.vd base) (x.g.qr q.toNat).badge).sendOut x.g.vd
      (.signal x.g.vd m (s.objId 2 x.g.vd base % 2 ^ 60) (x.g.qr q.toNat).badge)) (x.g.abroad x.lanes) := by
  simp only [Iss.signalOn, Iss.qs, hc, hf, hl, Bool.false_eq_true, if_false]

/-- WAITN on a notification (otype 2) or an interrupt line (otype 5): it waits while the word is 0, else takes and clears it. -/
theorem waitnOn_eq {s : State} {x : Iss} {q : BitVec 4} {base ot : Nat} (d : Reg) (ho : ot = 2 ∨ ot = 5)
    (hq : (x.g.qr q.toNat).otype = ot) (hc : objCheck (x.g.qr q.toNat) ot pRECV = .ok base) :
    x.waitnOn s d q =
      let id := s.objId ot x.g.vd base
      if noteWord s id = 0 then .wait s (.notified id (d.toNat - 96))
      else .retire (s.rawW id 2 0) ((({ x with g := if (farModule id).isSome then x.g.abroad x.lanes else x.g } : Iss).toS d
        (noteWord s id)).forbid x.lanes) := by
  rcases ho with rfl | rfl <;> simp [Iss.waitnOn, Iss.qs, sdOf, hq, hc]

/-! The forms of a send. -/

theorem exec_of_no_call {i : Instr} {d a : Reg} {q : BitVec 4} (hi : i ∈ [Instr.send d a q, .nbsend d a q, .reply d a q]) :
    ∃ wait, ∀ s, exec i s = issue (Instr.sig i) s (fun x s => x.sendOn s d a q false wait) := by
  simp only [List.mem_cons, List.not_mem_nil, or_false] at hi
  rcases hi with rfl | rfl | rfl
  · exact ⟨true, fun _ => rfl⟩
  · exact ⟨false, fun _ => rfl⟩
  · exact ⟨false, fun _ => rfl⟩

theorem exec_of_no_wait {i : Instr} {d a : Reg} {q : BitVec 4} (hi : i ∈ [Instr.nbsend d a q, .reply d a q]) :
    ∀ s, exec i s = issue (Instr.sig i) s (fun x s => x.sendOn s d a q false false) := by
  simp only [List.mem_cons, List.not_mem_nil, or_false] at hi
  rcases hi with rfl | rfl <;> exact fun _ => rfl

theorem exec_of_wait {e : Instr × Bool} {d a : Reg} {q : BitVec 4}
    (he : e ∈ [(Instr.send d a q, false), (.callMsg d a q, true)]) :
    ∀ s, exec e.1 s = issue (Instr.sig e.1) s (fun x s => x.sendOn s d a q e.2 true) := by
  simp only [List.mem_cons, List.not_mem_nil, or_false] at he
  rcases he with rfl | rfl <;> exact fun _ => rfl

theorem exec_of_send {i : Instr} {d a : Reg} {q : BitVec 4}
    (hi : i ∈ [Instr.send d a q, .nbsend d a q, .reply d a q, .callMsg d a q]) :
    ∃ call wait, ∀ s, exec i s = issue (Instr.sig i) s (fun x s => x.sendOn s d a q call wait) := by
  simp only [List.mem_cons, List.not_mem_nil, or_false] at hi
  rcases hi with rfl | rfl | rfl | rfl
  · exact ⟨false, true, fun _ => rfl⟩
  · exact ⟨false, false, fun _ => rfl⟩
  · exact ⟨false, false, fun _ => rfl⟩
  · exact ⟨true, true, fun _ => rfl⟩

/-- Settles O47: a send by what its capability names and by its receiver, a receive by its earliest message, and the forms on
notifications by their word. -/
theorem messages : Obligations.Messages := by
  unfold Obligations.Messages
  refine ⟨fun d a q base p => ⟨fun i hi => ?_, fun i hi => ?_, ?_, ?_, fun i n r hi => ?_, fun m => ⟨fun t e he => ?_,
    fun t i hi => ⟨?_, ?_⟩, fun i hi => ?_⟩⟩, fun s vd n u rd b r m g p hd hu hs hw => answer_caller m hd hu hs hw,
    fun d q base k => ⟨?_, ?_⟩, fun q base => ⟨?_, fun m => ?_⟩, fun d q base ot ho => ⟨?_, ?_⟩⟩
  · obtain ⟨wait, he⟩ := exec_of_no_call hi
    exact retiresWhen_of he fun s x ⟨⟨hc, hr, hs, hf⟩, hp⟩ => sendOn_delivers ⟨hc, hr, hs, hf⟩ hp d a wait
  · exact retiresWhen_of (exec_of_no_wait hi) fun s x ⟨⟨hc, hr, hs, hf⟩, hn⟩ =>
      sendOn_unmatched ⟨hc, hr, hs, hf⟩ hn d a false false
  · exact waitsWhen_of (fun _ => rfl) fun s x ⟨⟨hc, hr, hs, hf⟩, hn⟩ =>
      sendOn_unmatched ⟨hc, hr, hs, hf⟩ hn d a false true
  · exact waitsWhen_of (fun _ => rfl) fun s x ⟨⟨hc, hr, hs, hf⟩, hp⟩ => sendOn_calls ⟨hc, hr, hs, hf⟩ hp d a true
  · obtain ⟨call, wait, he⟩ := exec_of_send hi
    exact retiresWhen_of he fun s x ⟨hc, hr, hl, ha⟩ => (sendOn_replies hc hr d a call wait).trans (replyOn_answered d hl ha)
  · exact waitsWhen_of (exec_of_wait he) fun s x ⟨⟨hc, hr, hs, hf⟩, hl, hp⟩ =>
      (sendOn_far ⟨hc, hr, hs, hf⟩ d a e.2 true).trans (sendFar_waits hl hp ..)
  · exact retiresWhen_of (exec_of_no_wait hi) fun s x ⟨⟨⟨hc, hr, hs, hf⟩, hl, hp⟩, hn⟩ =>
      (sendOn_far ⟨hc, hr, hs, hf⟩ d a false false).trans (sendFar_none_there hl hp hn ..)
  · exact retiresWhen_of (exec_of_no_wait hi) fun s x ⟨⟨⟨hc, hr, hs, hf⟩, hl, hp⟩, hn⟩ =>
      (sendOn_far ⟨hc, hr, hs, hf⟩ d a false false).trans (sendFar_sent hl hp hn ..)
  · obtain ⟨call, wait, he⟩ := exec_of_send hi
    exact faultsWhen_of he fun s x ⟨⟨hc, hr, hs, hf⟩, hl⟩ =>
      (sendOn_far ⟨hc, hr, hs, hf⟩ d a call wait).trans (sendFar_lost hl ..)
  · exact retiresWhen_of (fun _ => rfl) fun s x ⟨hc, hs, hp⟩ => recvOn_takes_post d hc hs hp
  · exact waitsWhen_of (fun _ => rfl) fun s x ⟨hc, hs, hp⟩ => recvOn_waits d hc hs hp
  · exact retiresWhen_of (fun _ => rfl) fun s x ⟨hc, hf⟩ => signalOn_here hc hf
  · exact retiresWhen_of (fun _ => rfl) fun s x ⟨hc, hf, hl⟩ => signalOn_far hc hf hl
  · exact retiresWhen_of (fun _ => rfl) fun s x ⟨⟨hq, hc⟩, hw⟩ => (waitnOn_eq d ho hq hc).trans (if_neg hw)
  · exact waitsWhen_of (fun _ => rfl) fun s x ⟨⟨hq, hc⟩, hw⟩ => (waitnOn_eq d ho hq hc).trans (if_pos hw)

end Sys2Proof.Machine
end

section
/-! Timelines (R133, R134): COMPLETED after it has been raised. -/
namespace Sys2Proof.Machine

theorem leRead_eq_rkeys (s : State) (a n : Nat) : leRead s.rb a n = s.rkeys ((List.range n).map (a + ·)) := by
  induction n generalizing a with
  | zero => rfl
  | succ n ih =>
    have e : (List.range (n + 1)).map (a + ·) = a :: (List.range n).map (a + 1 + ·) := by
      rw [List.range_succ_eq_map, List.map_cons, List.map_map, Nat.add_zero]
      exact congrArg (a :: ·) (List.map_congr_left fun i _ => by simp only [Function.comp_apply]; omega)
    rw [leRead, ih, e, State.rkeys]

/-- A number written at a key reads back. -/
theorem rn_wn (s : State) (k n x : Nat) (hx : x < 256 ^ n) : (s.wn k n x).rn k n = x := by
  have hlen : ((List.range n).map (k + ·)).length = n := by simp
  have hd : ((List.range n).map (k + ·)).Nodup := List.nodup_range.map (fun a b h => by simpa using h)
  have h := rkeys_wkeys_leBytes ((List.range n).map (k + ·)) s x hd (hlen.symm ▸ hx)
  rw [State.rn, leRead_eq_rkeys, State.wn]
  rwa [hlen] at h

theorem tlDone_tlRaise {s : State} {tl v : Nat} (hs : s.tlDone tl < 2 ^ 64) (hv : v < 2 ^ 64) :
    (s.tlRaise tl v).tlDone tl = max (s.tlDone tl) v :=
  rn_wn s tl 8 _ (max_lt hs hv)

theorem wkeys_gangs (s : State) (ks : List Nat) (bs : List Byte) : (s.wkeys ks bs).gangs = s.gangs := by
  rw [wkeys_frame]

theorem tlRaise_gangs (s : State) (tl v : Nat) : (s.tlRaise tl v).gangs = s.gangs := by
  unfold State.tlRaise State.wn
  exact wkeys_gangs ..

theorem advance_gangs (s : State) (tl : Nat) : (s.advance tl).gangs = s.gangs := by
  suffices h : ∀ (l : List (Nat × Cmd)) (t : State),
      (l.foldl (fun (t : State) e => t.tlRaise tl e.2.seq) t).gangs = t.gangs from h _ s
  intro l
  induction l with
  | nil => exact fun _ => rfl
  | cons e l ih => exact fun t => by rw [List.foldl_cons, ih, tlRaise_gangs]

/-- COMPLETED raised to the numbers of some commands, of which `n` is the largest. -/
theorem tlDone_raised {tl n : Nat} (hn : n < 2 ^ 64) (l : List (Nat × Cmd)) {s : State} (hs : s.tlDone tl < 2 ^ 64)
    (hle : ∀ e ∈ l, e.2.seq ≤ n) (hex : (∃ e ∈ l, e.2.seq = n) ∨ n ≤ s.tlDone tl) :
    (l.foldl (fun (t : State) e => t.tlRaise tl e.2.seq) s).tlDone tl = max (s.tlDone tl) n := by
  induction l generalizing s with
  | nil =>
    have h : n ≤ s.tlDone tl := hex.resolve_left (by simp)
    exact (max_eq_left h).symm
  | cons e l ih =>
    have he : e.2.seq ≤ n := hle e (by simp)
    have ht := tlDone_tlRaise hs (he.trans_lt hn)
    rw [List.foldl_cons, ih (by omega) (fun a ha => hle a (by simp [ha])), ht]
    · omega
    · rcases hex with ⟨a, ha, rfl⟩ | h
      · rcases List.mem_cons.mp ha with rfl | ha
        · exact .inr (by omega)
        · exact .inl ⟨a, ha, rfl⟩
      · exact .inr (by omega)

/-- The commands that an advance of their timeline tells of: complete, not told before, and none of a smaller number open. -/
def State.tells (s : State) (tl : Nat) (c : Cmd) : Bool :=
  c.tl == tl && c.finished && !c.told && ((s.openOn tl).map (fun e => e.2.seq)).all (fun n => decide (c.seq < n))

theorem tlDone_advance (s : State) (tl : Nat) : (s.advance tl).tlDone tl
    = ((s.cmds.filter (fun e => s.tells tl e.2)).foldl (fun (t : State) e => t.tlRaise tl e.2.seq) s).tlDone tl := rfl

/-- Where exactly the commands up to `n` are complete, those not yet told of are the ones an advance tells of. -/
theorem tells_iff {s : State} {tl n : Nat} (h : ∀ e ∈ s.cmds, e.2.tl = tl → (e.2.finished = true ↔ e.2.seq ≤ n))
    {e : Nat × Cmd} (he : e ∈ s.cmds) : s.tells tl e.2 = true ↔ e.2.tl = tl ∧ e.2.seq ≤ n ∧ e.2.told = false := by
  have hopen : e.2.seq ≤ n → ∀ m ∈ (s.openOn tl).map (fun e => e.2.seq), e.2.seq < m := by
    intro hle m hm
    obtain ⟨f, hf, rfl⟩ := List.mem_map.mp hm
    obtain ⟨hmem, hf⟩ := List.mem_filter.mp hf
    rw [Bool.and_eq_true, beq_iff_eq, Bool.not_eq_true'] at hf
    have hlate : ¬f.2.seq ≤ n := fun hs => by simp [(h f hmem hf.1).mpr hs] at hf
    omega
  simp only [State.tells, Bool.and_eq_true, beq_iff_eq, Bool.not_eq_true', List.all_eq_true, decide_eq_true_eq]
  constructor
  · rintro ⟨⟨⟨ht, hf⟩, hn⟩, -⟩
    exact ⟨ht, (h e he ht).mp hf, hn⟩
  · rintro ⟨ht, hle, hn⟩
    exact ⟨⟨⟨ht, (h e he ht).mpr hle⟩, hn⟩, hopen hle⟩

end Sys2Proof.Machine
end

section
/-! Engine commands (R59, R132, R134, R136, R137). -/
namespace Sys2Proof.Machine

/-- The fields of an arrival object (R136). -/
theorem arrival_fields {a r e p : Nat} (ha : a < 2 ^ 31) (hr : r < 2) (he : e < 2 ^ 31) (hp : p < 2) :
    fld (a + (r * 2 ^ 31 + e * 2 ^ 32) + p * 2 ^ 63) 0 31 = a ∧ fld (a + (r * 2 ^ 31 + e * 2 ^ 32) + p * 2 ^ 63) 32 31 = e
      ∧ fld (a + (r * 2 ^ 31 + e * 2 ^ 32) + p * 2 ^ 63) 63 1 = p := by
  simp only [fld, Nat.shiftRight_eq_div_pow]
  omega

theorem fld_lt (x lo w : Nat) : fld x lo w < 2 ^ w := Nat.mod_lt _ (Nat.two_pow_pos w)

/-- The count reaches EXPECTED: PHASE flips, and what is left over stays (R137). -/
theorem arrival_flips {w b : Nat} (h : fld w 32 31 ≠ 0 ∧ fld w 32 31 ≤ fld w 0 31 + b) :
    fld (arrival w b).1 0 31 = (fld w 0 31 + b - fld w 32 31) % 2 ^ 31 ∧ fld (arrival w b).1 32 31 = fld w 32 31
      ∧ fld (arrival w b).1 63 1 = 1 - fld w 63 1 := by
  simp only [arrival, if_pos h]
  exact arrival_fields (Nat.mod_lt _ (by decide)) (fld_lt w 31 1) (fld_lt w 32 31) (by omega)

/-- The count does not reach EXPECTED: bytes are added, up to the width of the field (R137). -/
theorem arrival_adds {w b : Nat} (h : ¬(fld w 32 31 ≠ 0 ∧ fld w 32 31 ≤ fld w 0 31 + b)) :
    fld (arrival w b).1 0 31 = min (fld w 0 31 + b) (2 ^ 31 - 1) ∧ fld (arrival w b).1 32 31 = fld w 32 31
      ∧ fld (arrival w b).1 63 1 = fld w 63 1 := by
  simp only [arrival, if_neg h]
  exact arrival_fields (by omega) (fld_lt w 31 1) (fld_lt w 32 31) (fld_lt w 63 1)

/-- Of the first `n` numbers at least `n - l.length` are not in `l`. -/
theorem length_filter_not_contains (n : Nat) (l : List Nat) :
    n - l.length ≤ ((List.range n).filter (fun k => !(l.contains k))).length := by
  have hin : ((List.range n).filter (fun k => l.contains k)).length ≤ l.length := by
    refine (List.subperm_of_subset (List.nodup_range.filter _) fun k hk => ?_).length_le
    simpa using (List.mem_filter.mp hk).2
  have hsum := List.length_eq_length_filter_add (l := List.range n) (fun k => l.contains k)
  rw [List.length_range] at hsum
  omega

/-- The piece that an update writes is one of those left (R132). -/
theorem pick_left {s : State} {c : Cmd} (v : Nat) (h : c.did.length < s.total c) :
    ∃ k ∈ s.piecesLeft c, (s.piecesLeft c)[v % (s.total c - c.did.length)]? = some k := by
  have hlen : s.total c - c.did.length ≤ (s.piecesLeft c).length := length_filter_not_contains ..
  have hlt : v % (s.total c - c.did.length) < (s.piecesLeft c).length := (Nat.mod_lt _ (by omega)).trans_le hlen
  exact ⟨_, List.getElem_mem hlt, List.getElem?_eq_getElem hlt⟩

theorem unstaged_iff {c : Cmd} : c.unstaged = true ↔ (c.body.staged && c.pos == 0) = false := by
  simp only [Cmd.unstaged, Bool.not_eq_true']

theorem arrivalUpdate_of_piece {s t : State} {id k b : Nat} {c c' : Cmd} (hc : find s.cmds id = some c) (hl : c.live = true)
    (hu : c.unstaged = true) (hp : s.collPaused c = false)
    (hk : (s.piecesLeft c)[s.freeVal % (s.total c - c.did.length)]? = some k) (hok : cmdPiece s.draw id c k = .ok t c' b) :
    let d : Cmd := { c' with did := k :: c'.did }
    s.arrivalUpdate id = { t.arrive id c' b with
      cmds := put (t.arrive id c' b).cmds id
        (if d.did.length = (segDests (d.segs t)).length then { d with counts := d.drainCounts } else d) } := by
  have hk' : ((List.range (s.draw.total c)).filter (fun k => !(c.did.contains k)))[s.freeVal % (s.total c - c.did.length)]?
      = some k := hk
  simp only [State.arrivalUpdate, hc, hl, hp, Bool.not_true, Bool.or_self, Bool.false_eq_true, if_false, cmdMove,
    unstaged_iff.mp hu, hk', hok, Eng.bind, State.cmdDone]

theorem cmdComplete_of_none_left {s t : State} {id g : Nat} {c c' : Cmd} (hc : find s.cmds id = some c) (hl : c.live = true)
    (hu : c.unstaged = true) (hp : s.collPaused c = false) (hk : s.locked.contains (c.tl / 16) = false)
    (h0 : s.pending c = 0) (he : cmdEnd s id c = .ok t c' ()) (hg : c'.gang = some g) (hgs : (find t.gangs g).isSome = true) :
    let u : State := { t with cmds := put t.cmds id { c' with finished := true, buf := [], got := [] } }
    s.cmdComplete id = ((u.advance c'.tl).modCtx (c'.ctx.getD 0) (fun k => { k with deadlock := 0 })).pruneCmds := by
  intro u
  have hrest : cmdRest id (s.total c + 33) s c = .ok s c () := by simp only [cmdRest, h0, if_true]
  have hgangs : ((u.advance c'.tl).modCtx (c'.ctx.getD 0) (fun k => { k with deadlock := 0 })).gangs = t.gangs := by
    rw [modCtx_frame]
    exact advance_gangs u c'.tl
  have hstay : (find ((u.advance c'.tl).modCtx (c'.ctx.getD 0) (fun k => { k with deadlock := 0 })).gangs g).isNone = false := by
    rw [hgangs, Option.isNone_eq_false_iff]
    exact hgs
  simp only [State.cmdComplete, hc, hl, hp, hk, Bool.not_true, Bool.or_self, Bool.false_eq_true, if_false, unstaged_iff.mp hu,
    Eng.bind, hrest, he]
  split
  · rfl
  · next g' hg' =>
    obtain rfl : g = g' := Option.some.inj (hg.symm.trans hg')
    refine congrArg State.pruneCmds (if_neg ?_)
    rw [hstay, Bool.false_and]
    exact Bool.false_ne_true

/-- The units of R59 whose errors an engine may meet, by the free value (log 19). -/
theorem engine_error (v : Nat) : (v % 12 < 6 → ∃ d ∈ [1, 2, 3, 5, 6, 8], [1, 2, 3, 5, 6, 8][v % 12]? = some d)
    ∧ (6 ≤ v % 12 → [1, 2, 3, 5, 6, 8][v % 12]? = none) :=
  ⟨fun h => ⟨_, List.getElem_mem h, List.getElem?_eq_getElem h⟩, fun h => List.getElem?_eq_none h⟩

theorem engineFault_of_none {s : State} {id : Nat} (h : [1, 2, 3, 5, 6, 8][s.freeVal % 12]? = none) :
    s.engineFault id = s.draw.arrivalUpdate id := by
  unfold State.engineFault
  rw [h]
  split
  · next h => cases h
  · rfl

/-- Only a fault of translation has read entries of the page tables (R422). -/
theorem cacheFault_of_no_walk (s : State) (ag : Ag) {f : FaultInfo} (h : ¬(f.code = 8 ∨ f.code = 9)) :
    s.cacheFault ag f = s := by
  unfold State.cacheFault
  split
  · exact if_neg fun hw => h hw.1
  · rfl
  · rfl

/-- A fault of a command stops it, and is one of its context (R59, R132). -/
theorem cmdDone_fail {s : State} {id n : Nat} {c : Cmd} {e : Fail} (he : e.code ≠ noAnswer) (hw : ¬(e.code = 8 ∨ e.code = 9))
    (hn : c.ctx = some n) (hr : c.regrow = none) : State.cmdDone id (.fail s c e)
      = ({ s with cmds := put s.cmds id { c with stopped := true } } : State).ctxFault n (c.info id e) := by
  have hctx : c.ctx.getD 0 = n := by rw [hn, Option.getD_some]
  have hi (s : State) (f : FaultInfo) : s.inRegrow c.regrow f = f := by
    rw [hr]
    rfl
  have hcache (s : State) : s.cacheFault (c.ag id) (c.info id e) = s := cacheFault_of_no_walk s _ hw
  rw [State.cmdDone, if_neg he, hcache, hctx, hi]

/-- An error that an engine meets halts the command's context, and stops the command. -/
theorem engineFault_of_error {s : State} {id n d : Nat} {c : Cmd} {k : Ctx} (hc : find s.cmds id = some c) (hl : c.live = true)
    (hn : c.ctx = some n) (hr : c.regrow = none) (hk : find s.ctxs n = some k) (hs : k.state = .running)
    (hd : [1, 2, 3, 5, 6, 8][s.freeVal % 12]? = some d) :
    let f := c.info id ⟨0x18, d, Config.freeNat (s.free + 1) % 2 ^ 57⟩
    s.engineFault id = { s.draw with
      cmds := put s.cmds id { c with stopped := true }
      ctxs := put s.ctxs n { k with state := .halting, fault := some f, seq := (k.seq + 1) % 65536 } } := by
  intro f
  have hk' : find ({ s.draw with cmds := put s.cmds id { c with stopped := true } } : State).ctxs n = some k := hk
  have he : s.engineFault id = State.cmdDone id (.fail s.draw c ⟨0x18, d, Config.freeNat (s.free + 1) % 2 ^ 57⟩) := by
    simp only [State.engineFault, hc, hd, hl, if_true]
  rw [he, cmdDone_fail (by simp [noAnswer]) (by simp) hn hr]
  exact ctxFault_of_running f hk' hs

/-- Settles O53: the fields of an arrival object, the piece that an update picks, the numbers that an advance tells of, and the
error that an engine meets. -/
theorem engineEvents : Obligations.EngineEvents := by
  unfold Obligations.EngineEvents
  refine ⟨fun w b _ => ⟨?_, fun h => ?_, fun h => ?_⟩, fun id s c hc hl hu hp hlt => ?_,
    fun id s c hc hl hu hp hk h0 t c' g he hg hgs =>
      congrArg Host.Outcome.next (cmdComplete_of_none_left hc hl hu hp hk h0 he hg hgs), fun s tl n hn hs hle hex => ?_,
    fun id s c n k hc hl hn hr hk hs => ?_⟩
  · by_cases h : fld w 32 31 ≠ 0 ∧ fld w 32 31 ≤ fld w 0 31 + b
    · exact (arrival_flips h).2.1
    · exact (arrival_adds h).2.1
  · obtain ⟨hcount, -, hphase⟩ := arrival_flips h
    exact ⟨hphase, hcount⟩
  · obtain ⟨hcount, -, hphase⟩ := arrival_adds (w := w) (b := b) (by omega)
    exact ⟨hphase, hcount⟩
  · obtain ⟨k, hk, hpick⟩ := pick_left s.freeVal hlt
    exact ⟨k, hk, fun t c' b hok => congrArg Host.Outcome.next (arrivalUpdate_of_piece hc hl hu hp hpick hok)⟩
  · rw [tlDone_advance]
    obtain ⟨e, he, ht, hseq, htold⟩ := hex
    refine tlDone_raised hn _ hs (fun e he => ?_) (.inl ⟨e, List.mem_filter.mpr ⟨he, ?_⟩, hseq⟩)
    · obtain ⟨hmem, htells⟩ := List.mem_filter.mp he
      exact ((tells_iff hle hmem).mp htells).2.1
    · exact (tells_iff hle he).mpr ⟨ht, hseq.le, htold⟩
  · refine ⟨s.engineFault id, rfl, fun h => ?_, fun h => ?_⟩
    · exact congrArg Host.Outcome.next (engineFault_of_none ((engine_error s.freeVal).2 h)).symm
    · obtain ⟨d, hmem, hd⟩ := (engine_error s.freeVal).1 h
      rw [engineFault_of_error hc hl hn hr hk hs hd]
      exact ⟨_, rfl, hmem, find_put_self .., find_put_self .., rfl, rfl⟩

end Sys2Proof.Machine
end

section
/-! Launches from ready to complete (R48, R51, R54, R55, R162, R376, R380). -/
namespace Sys2Proof.Machine

/-- A launch that waits was not queued early. -/
theorem predGone_of_waiting {s : State} {l : Launch} (h : l.state = .waiting) : s.predGone l = false := by
  simp only [State.predGone, h]
  rfl

theorem preds_readable {s : State} {l : Launch} (h : ∀ p ∈ s.preds l, p.2.1 ≠ none) :
    (s.preds l).any (fun p => p.2.1.isNone) = false :=
  List.any_eq_false.mpr fun p hp => by simpa using h p hp

section
variable {s : State} {n : Nat} {l : Launch} (hl : find s.launches n = some l) (hw : l.state = .waiting)
include hl hw

theorem launchReady_of_aborted (ha : l.aborted ≠ none) :
    s.launchReady n = s.modLaunch n (fun l => { l with state := .done 2 }) := by
  simp only [State.launchReady, hl, predGone_of_waiting hw, hw, Option.isSome_iff_ne_none.mpr ha, ne_eq, not_true_eq_false,
    Bool.false_eq_true, if_false, if_true]

theorem launchReady_of_unreadable (ha : l.aborted = none) (hp : ∃ p ∈ s.preds l, p.2.1 = none) :
    s.launchReady n = s.modLaunch n (fun l => { l with state := .done 4 }) := by
  have hany : (s.preds l).any (fun p => p.2.1.isNone) = true := by
    obtain ⟨p, hp, hn⟩ := hp
    exact List.any_eq_true.mpr ⟨p, hp, by rw [hn, Option.isNone_none]⟩
  simp only [State.launchReady, hl, predGone_of_waiting hw, hw, ha, hany, Option.isSome_none, ne_eq, not_true_eq_false,
    Bool.false_eq_true, if_false, if_true]

variable (ha : l.aborted = none) (hp : ∀ p ∈ s.preds l, p.2.1 ≠ none) (hr : s.ready l = true)
include ha hp hr

theorem launchReady_unconditional (hn : l.predicate.isNull = true) : s.launchReady n = s.makeQueueable n l false := by
  simp only [State.launchReady, hl, predGone_of_waiting hw, hw, ha, preds_readable hp, hr, hn, Option.isSome_none, ne_eq,
    not_true_eq_false, Bool.false_eq_true, if_false, if_true]

variable (hn : l.predicate.isNull = false) (hd : s.dispatchWaits l (s.predicatePlace l).toList = none)
include hn hd

/-- A conditional launch whose predicate can be read: it is rejected where the word is 0 (R55). -/
theorem launchReady_conditional {v : Nat} (hz : s.predicateWord l = some v) : s.launchReady n =
    if v = 0 then s.modLaunch n (fun l => { l with state := .done 1 })
    else (s.touchAll l.ag false (s.predicatePlace l).toList).makeQueueable n l false := by
  simp only [State.launchReady, hl, predGone_of_waiting hw, hw, ha, preds_readable hp, hr, hn, hd, hz, Option.isSome_none, ne_eq,
    not_true_eq_false, Bool.false_eq_true, if_false, if_true]
  cases v <;> rfl

theorem launchReady_without_predicate (hz : s.predicateWord l = none) :
    s.launchReady n = s.modLaunch n (fun l => { l with state := .done 4 }) := by
  simp only [State.launchReady, hl, predGone_of_waiting hw, hw, ha, preds_readable hp, hr, hn, hd, hz, Option.isSome_none, ne_eq,
    not_true_eq_false, Bool.false_eq_true, if_false, if_true]

end

/-- The gangs to go are taken in any order (R380). -/
theorem pickGang_mem {s : State} {ns : List Nat} (h : ns ≠ []) : ∃ g ∈ ns, pickGang s ns = some g := by
  have hlt : s.freeVal % ns.length < ns.length := Nat.mod_lt _ (List.length_pos_iff.mpr h)
  exact ⟨_, List.getElem_mem hlt, List.getElem?_eq_getElem hlt⟩

theorem dispatchOne_of_place {s : State} {n c g : Nat} {l : Launch} (cont : Bool) (hl : find s.launches n = some l)
    (hp : s.passes n l = true) (hc : s.whereTo n l = some c) (hg : s.predGone l = false) (hw : s.somewhere n l = true)
    (hpick : pickGang s (l.toGo.filter (fun g => l.resume.contains g == cont)) = some g) :
    s.dispatchOne n cont = if cont then s.draw.resumeGang n l c g else s.draw.startGang n l c g := by
  simp only [State.dispatchOne, hl, hg, hp, hc, hw, hpick, Bool.not_true, Bool.false_eq_true, and_false, if_false]

theorem gangDispatch_starts {s : State} {n c : Nat} {l : Launch} (hl : find s.launches n = some l) (hp : s.passes n l = true)
    (hc : s.whereTo n l = some c) (hg : s.predGone l = false) (hw : s.somewhere n l = true) (hs : s.placeSaved n l = none)
    (hn : l.toGo.filter (fun g => l.resume.contains g == false) ≠ []) :
    ∃ g ∈ l.toGo.filter (fun g => l.resume.contains g == false), s.gangDispatch n = s.draw.startGang n l c g := by
  obtain ⟨g, hmem, hpick⟩ := pickGang_mem (s := s) hn
  refine ⟨g, hmem, ?_⟩
  have hd : s.gangDispatch n = s.dispatchOne n false := by simp only [State.gangDispatch, hl, Option.bind_some, hs]
  exact hd.trans (dispatchOne_of_place false hl hp hc hg hw hpick)

theorem phaseStart_resumes {s : State} {n c : Nat} {l : Launch} (hl : find s.launches n = some l) (hp : s.passes n l = true)
    (hc : s.whereTo n l = some c) (hg : s.predGone l = false) (hw : s.somewhere n l = true)
    (hn : l.toGo.filter (fun g => l.resume.contains g == true) ≠ []) :
    ∃ g ∈ l.toGo.filter (fun g => l.resume.contains g == true),
      s.phaseStart n = (s.draw.resumeGang n l c g).settleHalts := by
  obtain ⟨g, hmem, hpick⟩ := pickGang_mem (s := s) hn
  refine ⟨g, hmem, ?_⟩
  exact congrArg State.settleHalts (dispatchOne_of_place true hl hp hc hg hw hpick)

/-- The status word is written, and then COMPL is raised (R51, R162). -/
theorem launchComplete_of_places {s : State} {n st : Nat} {l : Launch} {p q0 q : Place} (hl : find s.launches n = some l)
    (he : s.endStatus n l = some st) (hst : st = 0 ∨ st = 1) (hs : l.statusCap.isNull = false)
    (hp : locate s l.ag { w := true } l.statusCap.cursor 4 = .ok p) (hc : l.compl.isNull = false)
    (hq0 : locate s l.ag { r := true, w := true } l.compl.cursor 16 = .ok q0)
    (hlock : ∀ k ∈ p.granules ++ q0.granules, k ∉ s.locked) (hm : s.meetTiles none (some l.ctx) none [p, q0] = none)
    (hu : s.unserved l.ag [p, q0] = none)
    (hq : locate ((s.touch l.ag true p).wkeys p.keys (leBytes st 4)) l.ag { r := true, w := true } l.compl.cursor 16 = .ok q) :
    let t := (((s.touch l.ag true p).wkeys p.keys (leBytes st 4)).touch l.ag true q).tlRaise (q.keys.headD 0) l.cval
    s.launchComplete n = (({ t with launches := del t.launches n } : State).clearMarks (fun m => m.launch == n)).fixHeads := by
  have hfree : [p, q0].any (fun p => p.granules.any s.locked.contains) = false := by
    simp only [List.any_cons, List.any_nil, Bool.or_false, ← List.any_append]
    exact List.any_eq_false.mpr fun k hk => by simpa using hlock k hk
  have hwait : s.dispatchWaits l [p, q0] = none := by simp only [State.dispatchWaits, hm, hu, Option.orElse_none]
  have hend : ¬(st = 2 ∨ st = 3 ∨ st = 4) := by omega
  simp only [State.launchComplete, hl, he, hs, hp, hc, hq0, List.cons_append, List.nil_append, hfree, hwait, hq,
    Bool.false_eq_true, if_false, if_neg hend]

end Sys2Proof.Machine
end

section
/-! Decisions of a partition's program (R384, R387, R390, R393). -/
namespace Sys2Proof.Machine

theorem dispatchDecision_accepts {s : State} {p q n : Nat} {l : Launch} (hd : s.dispatchDue p = true)
    (ha : s.decideAct p 0 none = .accept q) (hq : q < 64) (hh : s.head p q = some (n, l)) :
    s.dispatchDecision p false = (s.counted p false false).modLaunch n (fun l => { l with accepted := true }) := by
  simp only [State.dispatchDecision, hd, ha, if_pos hq, hh, Bool.not_true, Bool.false_eq_true, if_false]

theorem dispatchDecision_overrun {s : State} {p n : Nat} (hd : s.dispatchDue p = true)
    (ha : s.decideAct p 0 none = .overrun) (hh : s.fallbackHead p = some n) (only : Bool) :
    s.dispatchDecision p only = (s.counted p true false).modLaunch n (fun l => { l with accepted := true }) := by
  simp only [State.dispatchDecision, hd, ha, hh, Bool.not_true, Bool.false_eq_true, if_false]

theorem pressureDecision_preempts {s : State} {p q n k : Nat} {l : Launch} {e : Nat × Launch} {r : List (Nat × Launch)}
    (hd : s.pressureDue p = e :: r) (ha : s.decideAct p 1 none = .preempt q k) (hq : q < 64) (hh : s.head p q = some (n, l)) :
    s.pressureDecision p false = ((s.modLaunch e.1 (fun l => { l with asked := true })).counted p false false).markCores p n l
      (min k (s.victimCores p l).length) := by
  simp only [State.pressureDecision, hd, ha, if_pos hq, hh, Bool.false_eq_true, if_false]

section
variable {s : State} {p c : Nat} {k : Ctx} {r : List (Nat × Ctx)} (hd : s.faultDue p = (c, k) :: r)
include hd

theorem faultDecision_kills (ha : s.decideAct p 2 (some c) = .faultact 0) :
    s.faultDecision p false = ((s.modCtx c (fun k => { k with decide := false })).counted p false false).killCtx c := by
  simp only [State.faultDecision, hd, ha, Bool.false_eq_true, if_false]

theorem faultDecision_defers (ha : s.decideAct p 2 (some c) = .defer) :
    s.faultDecision p false = ((s.modCtx c (fun k => { k with decide := false })).counted p false false).notifyOwn c := by
  simp only [State.faultDecision, hd, ha, Bool.false_eq_true, if_false]

/-- A FAULT decision goes first, so it is the one that reaches its last step. -/
theorem budgetOverrun_of_fault (ha : s.decideAct p 2 (some c) = .overrun) :
    s.budgetOverrun p = ((s.modCtx c (fun k => { k with decide := false })).counted p true false).notifyOwn c := by
  simp only [State.budgetOverrun, State.faultDecision, hd, ha, List.isEmpty_cons, Bool.not_false, if_true]

end

/-- Settles O55: one lemma for each way that a launch or a decision goes. -/
theorem launchEvents : Obligations.LaunchEvents := by
  unfold Obligations.LaunchEvents
  refine ⟨fun n l => ⟨?_, ?_, ?_, ?_, ?_, fun c => ?_, fun c s hl hp hc hg hw => ⟨fun hs hn => ?_, fun hn => ?_⟩,
    fun st p q0 q => ?_⟩, fun p => ⟨fun q n l => ?_, fun n => ?_, fun e r q n k l => ?_, fun c k r => ⟨?_, ?_, ?_⟩⟩⟩
  · rintro s ⟨⟨hl, hw⟩, ha⟩
    exact congrArg Host.Outcome.next (launchReady_of_aborted hl hw ha)
  · rintro s ⟨⟨hl, hw⟩, ha, hp⟩
    exact congrArg Host.Outcome.next (launchReady_of_unreadable hl hw ha hp)
  · rintro s ⟨⟨hl, hw⟩, ⟨ha, hp⟩, hr, hn⟩
    exact congrArg Host.Outcome.next (launchReady_unconditional hl hw ha hp hr hn)
  · rintro s ⟨⟨hl, hw⟩, ⟨ha, hp⟩, hr, hn, hd, hz⟩
    exact congrArg Host.Outcome.next (launchReady_conditional hl hw ha hp hr hn hd hz)
  · rintro s ⟨⟨hl, hw⟩, ⟨ha, hp⟩, hr, hn, hd, hz⟩
    exact congrArg Host.Outcome.next (launchReady_without_predicate hl hw ha hp hr hn hd hz)
  · rintro s ⟨⟨hl, hw⟩, ⟨ha, hp⟩, hr, hn, hd, hz⟩
    exact congrArg Host.Outcome.next (launchReady_conditional hl hw ha hp hr hn hd hz)
  · obtain ⟨g, hmem, h⟩ := gangDispatch_starts hl hp hc hg hw hs hn
    exact ⟨g, hmem, congrArg Host.Outcome.next h⟩
  · obtain ⟨g, hmem, h⟩ := phaseStart_resumes hl hp hc hg hw hn
    exact ⟨g, hmem, congrArg Host.Outcome.next h⟩
  · rintro s ⟨hl, he, hst, hs, hp, hc, hq0, hlock, hm, hu, hq⟩
    exact congrArg Host.Outcome.next (launchComplete_of_places hl he hst hs hp hc hq0 hlock hm hu hq)
  · rintro s ⟨hd, ha, hq, hh⟩
    exact congrArg Host.Outcome.next (dispatchDecision_accepts hd ha hq hh)
  · rintro s ⟨hd, ha, hh⟩
    exact congrArg Host.Outcome.next (dispatchDecision_overrun hd ha hh false)
  · rintro s ⟨hd, ha, hq, hh⟩
    exact congrArg Host.Outcome.next (pressureDecision_preempts hd ha hq hh)
  · rintro s ⟨hd, ha⟩
    exact congrArg Host.Outcome.next (faultDecision_kills hd ha)
  · rintro s ⟨hd, ha⟩
    exact congrArg Host.Outcome.next (faultDecision_defers hd ha)
  · rintro s ⟨hd, ha⟩
    exact congrArg Host.Outcome.next (budgetOverrun_of_fault hd ha)

end Sys2Proof.Machine
end

section
/-! Refused words (R169, R175, R481). -/
namespace Sys2Proof.Machine

theorem issuer_w {s : State} {w : Word} {x : Iss} (h : s.issuer w = some x) : x.w = w := by
  unfold State.issuer at h
  repeat' split at h
  all_goals cases h
  all_goals rfl

/-- A word that a check of R481 refuses traps with the check's cause, whatever its effect would be. -/
theorem issue_refused {i : Sig} {s : State} {x : Iss} {c : Nat} (body : Iss → State → Res) (h : s.issuer i.w = some x)
    (hr : refuse s x i = some c) : issue i s body = .next (s.trap x c) := by
  simp only [issue, h, hr]

/-! The checks in their order. -/

theorem refuse_privileged {s : State} {x : Iss} {i : Sig} (hp : privileged (major x.w) = true) (hl : x.g.level = .user) :
    refuse s x i = some 3 := by
  simp [refuse, hp, hl]

section
variable {s : State} {x : Iss} {i : Sig} (hp : privileged (major x.w) = false ∨ x.g.level = .kernel)
include hp

/-- A word that the first check passes. -/
theorem not_denied : (privileged (major x.w) && x.g.level == .user) = false := by
  rcases hp with h | h <;> simp [h]

theorem refuse_illegal (hi : legal s x i = false) : refuse s x i = some 0 := by
  simp [refuse, not_denied hp, hi]

theorem refuse_hints (ho : major x.w ≠ 0x3F) (hi : legal s x i = true) (hh : hintsFit i x.p.hints = false) :
    refuse s x i = some 1 := by
  simp [refuse, not_denied hp, ho, hi, hh]

end

theorem refuse_unimplemented {s : State} {x : Iss} {i : Sig} (ho : major x.w = 0x12 ∨ major x.w = 0x13)
    (hi : legal s x i = true) (hh : hintsFit i x.p.hints = true) : refuse s x i = some 2 := by
  rcases ho with h | h <;> simp [refuse, privileged, h, hi, hh]

theorem toNat_append_add {m n : Nat} (a : BitVec m) (b : BitVec n) : (a ++ b).toNat = a.toNat * 2 ^ n + b.toNat := by
  rw [BitVec.toNat_append, ← Nat.shiftLeft_add_eq_or_of_lt b.isLt, Nat.shiftLeft_eq]

/-- The major of an F-format word is in its first byte (R170). -/
theorem major_fWord (c : BitVec 8) (rm : BitVec 3) (d a b : Reg) :
    major (c ++ rm ++ d ++ a ++ b : BitVec 32) = c.toNat / 4 := by
  simp only [major, fld, toNat_append_add, Nat.shiftRight_eq_div_pow]
  omega

/-- What a failed fetch reports: the program capability, or the address where that capability allows the fetch (R75). -/
def Iss.fetchInfo (x : Iss) (f : Fail) : FaultInfo :=
  match capCheck x.g.pcc ((x.p.pc.toNat : Int) - x.g.pcc.cursor) 4 pEXEC with
  | .error _ => x.info f x.low (some (x.g.pcc, 15))
  | .ok _ => x.failPlain f x.low

theorem fetchFault_of_error {x : Iss} {s : State} {f : Fail} (h : fetch s x.g x.p = .error f) :
    x.fetchFault s = s.raise x (x.fetchInfo f) := by
  simp only [Iss.fetchFault, Iss.fetchInfo, h]
  cases capCheck x.g.pcc ((x.p.pc.toNat : Int) - x.g.pcc.cursor) 4 pEXEC <;> rfl

/-- Settles O24: `refuse` by its checks in their order. -/
theorem refusalsTrap : Obligations.RefusalsTrap := by
  unfold Obligations.RefusalsTrap
  refine ⟨fun i s x body h => ⟨fun hp hl => issue_refused body h (refuse_privileged hp hl), fun hp ho => ⟨fun hi => ?_,
    fun hi hh => ?_⟩⟩, fun w s x h hp => ?_, fun rm d a b i hi s x h hl hh => ?_, fun s x f h hf => ?_⟩
  · exact issue_refused body h (refuse_illegal hp hi)
  · exact issue_refused body h (refuse_hints hp ho hi hh)
  · rw [← issuer_w h] at hp
    exact issue_refused (i := sigIllegal w) (fun _ _ => .trap 0) h (refuse_illegal hp rfl)
  · have hm : major (wordOf i) = 0x12 ∨ major (wordOf i) = 0x13 := by
      simp only [List.mem_cons, List.not_mem_nil, or_false] at hi
      rcases hi with rfl | rfl | rfl | rfl | rfl | rfl | rfl
      · exact .inl (major_fWord 72#8 rm d a b)
      · exact .inl (major_fWord 73#8 rm d a b)
      · exact .inl (major_fWord 74#8 rm d a b)
      · exact .inl (major_fWord 75#8 rm d a b)
      · exact .inr (major_fWord 76#8 rm d a b)
      · exact .inr (major_fWord 77#8 rm d a b)
      · exact .inr (major_fWord 78#8 rm d a b)
    have he : exec i s = issue (Instr.sig i) s (fun _ _ => .trap 2) := by
      simp only [List.mem_cons, List.not_mem_nil, or_false] at hi
      rcases hi with rfl | rfl | rfl | rfl | rfl | rfl | rfl <;> rfl
    rw [← issuer_w h] at hm
    exact he.trans (issue_refused _ h (refuse_unimplemented hm hl hh))
  · have he : exec .instructionFetchFault s = .next (x.fetchFault s) := by simp only [exec, execInstructionFetchFault, h]
    exact he.trans (congrArg Host.Outcome.next (fetchFault_of_error hf))

end Sys2Proof.Machine
end

section
/-! Capability instructions and CINVOKE (R65, R69, R73, R75, R207 to R209). -/
namespace Sys2Proof.Machine

theorem trapsWhen_of {i : Instr} {body : Iss → State → Res} {h : State → Iss → Prop} {c : Nat}
    (he : ∀ s, exec i s = issue (Instr.sig i) s body) (hb : ∀ s x, h s x → body x s = .trap c) : TrapsWhen i h c :=
  fun s x hr hh => by rw [exec_runs he hr, hb s x hh, finish]

theorem retiresWith_of {i : Instr} {gr : Iss → Grp} (he : ∀ s, exec i s = issueG (Instr.sig i) s gr) :
    RetiresWith i (fun _ x => gr x) :=
  retiresWhen_of (body := fun x s => .retire s (gr x)) he fun _ _ _ => rfl

/-- The permissions that CANDP keeps: bit 0 is none (R61, R207). -/
theorem candpMask_eq (n : Nat) : fld n 1 15 * 2 = n % 2 ^ 16 / 2 * 2 := by
  simp only [fld, Nat.shiftRight_eq_div_pow]
  omega

theorem ofNat_wrap (n : Nat) (z : Int) : BitVec.ofNat n (wrap n z) = BitVec.ofInt n z := by
  refine BitVec.eq_of_toNat_eq ?_
  rw [BitVec.toNat_ofNat, BitVec.toNat_ofInt, wrap, Nat.mod_eq_of_lt]
  have h : (0 : Int) < (2 ^ n : Nat) := by exact_mod_cast Nat.two_pow_pos n
  have h1 := Int.emod_lt_of_pos z h
  omega

/-- A field of a bit vector, read as a number or as a vector. -/
theorem ofNat_fld {n : Nat} (b : BitVec n) (lo w : Nat) : BitVec.ofNat w (fld b.toNat lo w) = b.extractLsb' lo w := by
  refine BitVec.eq_of_toNat_eq ?_
  simp [fld]

theorem ofNat_fld_setWidth {n : Nat} (b : BitVec n) (lo w v : Nat) :
    BitVec.ofNat v (fld b.toNat lo w) = (b.extractLsb' lo w).setWidth v := by
  rw [← ofNat_fld]
  refine BitVec.eq_of_toNat_eq ?_
  rw [BitVec.toNat_setWidth, BitVec.toNat_ofNat, BitVec.toNat_ofNat, fld, Nat.mod_mod]

theorem lacks_eq_zero_of_has {c : Cap} {p : Nat} (hp : p < 2 ^ 16) (h : c.has p = true) : c.lacks p = 0 := by
  rw [lacks_eq_zero_iff c p hp, Nat.and_comm]
  exact eq_of_beq h

/-- CINVOKE enters a sealed entry whose address is aligned. -/
theorem invoke_enters {x : Iss} (s : State) (d : BitVec 4) {q : BitVec 4} (hr : x.g.reconverged = true)
    (ht : (x.g.qr q.toNat).tag = true) (ho : (x.g.qr q.toNat).otype = 7) (hx : (x.g.qr q.toNat).has pEXEC = true)
    (ha : (x.g.qr q.toNat).cursor % 4 = 0) :
    x.invoke s d q = .goto s { x.g.qw d.toNat (cseale (x.g.pcc.withCursor (x.p.pc + 4).toNat)) with
        pcc := (x.g.qr q.toNat).withOtype 0 true
        pccAt := s.farOf 7 x.g.vd (wrap 64 (x.g.qr q.toNat).base) } (BitVec.ofNat 64 (x.g.qr q.toNat).cursor) := by
  have hc := objCheck_held ht ho (lacks_eq_zero_of_has (by decide) hx)
  simp only [Iss.invoke, Iss.qs, Iss.toQ, hr, hc, ha, ne_eq, not_true, Bool.not_true, Bool.false_eq_true, if_false]

theorem invoke_of_diverged {x : Iss} (s : State) (d q : BitVec 4) (hr : x.g.reconverged = false) :
    x.invoke s d q = .trap 0 := by
  simp only [Iss.invoke, hr, Bool.not_false, if_true]

/-- Settles O27: each form by its meaning, CINVOKE by its checks. -/
theorem capabilityResults : Obligations.CapabilityResults := by
  unfold Obligations.CapabilityResults
  refine ⟨⟨fun d q a r => ?_, fun d a q => ⟨?_, ?_, ?_, ?_, ?_, ?_, ?_⟩⟩, fun d q => ⟨?_, ?_⟩⟩
  · simp only [← candpMask_eq]
    and_intros <;> exact retiresWith_of fun _ => rfl
  · exact setsPair_of (f := fun x _ => BitVec.ofNat 64 (wrap 64 (x.g.qr q.toNat).base)) (fun x _ => ofNat_wrap 64 _)
      fun _ => rfl
  · exact setsPair_of (f := fun x _ => BitVec.ofNat 64 (wrap 64 ((x.g.qr q.toNat).top - (x.g.qr q.toNat).base)))
      (fun x _ => ofNat_wrap 64 _) fun _ => rfl
  · exact setsPair_of (f := fun x _ => BitVec.ofNat 64 (x.g.qr q.toNat).cursor) (fun x _ => ofNat_fld _ 64 64) fun _ => rfl
  · exact sets_of (f := fun x _ => BitVec.ofNat 32 (x.g.qr q.toNat).perms)
      (fun x _ => ofNat_fld_setWidth _ 48 16 32) fun _ => rfl
  · exact sets_of (f := fun x _ => BitVec.ofNat 32 (x.g.qr q.toNat).otype)
      (fun x _ => ofNat_fld_setWidth _ 36 12 32) fun _ => rfl
  · exact sets_of (f := fun x _ => BitVec.ofNat 32 (if (x.g.qr q.toNat).tag then 1 else 0))
      (fun x _ => apply_ite (BitVec.ofNat 32) _ 1 0) fun _ => rfl
  · exact sets_of (f := fun x _ => BitVec.ofNat 32 (if subCap (x.g.qr a.toNat) (x.g.qr q.toNat) then 1 else 0))
      (fun x _ => apply_ite (BitVec.ofNat 32) _ 1 0) fun _ => rfl
  · exact transfersWhen_of (fun _ => rfl) fun s x ⟨hr, ht, ho, hx, ha⟩ => invoke_enters s d hr ht ho hx ha
  · exact trapsWhen_of (fun _ => rfl) fun s x hr => invoke_of_diverged s d q hr

end Sys2Proof.Machine
end

section
/-! Derived capabilities: fields, bounds and authority (R61 to R65, R69, R207). -/
namespace Sys2Proof.Machine

/-! The fields of a capability made of its fields. -/

section
variable (cursor perms otype e bm lm : Nat) (tag : Bool)

/-- The number that `capBits` holds fits its 128 bits. -/
theorem capBits_toNat : (capBits cursor perms otype e bm lm).toNat
    = (cursor % 2 ^ 64) * 2 ^ 64 + (perms % 2 ^ 16) * 2 ^ 48 + (otype % 2 ^ 12) * 2 ^ 36 + (e % 2 ^ 6) * 2 ^ 30
      + (bm % 2 ^ 15) * 2 ^ 15 + lm % 2 ^ 15 := by
  rw [capBits, BitVec.toNat_ofNat]
  omega

theorem cursor_capBits : (⟨capBits cursor perms otype e bm lm, tag⟩ : Cap).cursor = cursor % 2 ^ 64 := by
  simp only [Cap.cursor, fld, capBits_toNat, Nat.shiftRight_eq_div_pow]
  omega

theorem perms_capBits : (⟨capBits cursor perms otype e bm lm, tag⟩ : Cap).perms = perms % 2 ^ 16 := by
  simp only [Cap.perms, fld, capBits_toNat, Nat.shiftRight_eq_div_pow]
  omega

theorem otype_capBits : (⟨capBits cursor perms otype e bm lm, tag⟩ : Cap).otype = otype % 2 ^ 12 := by
  simp only [Cap.otype, fld, capBits_toNat, Nat.shiftRight_eq_div_pow]
  omega

theorem ex_capBits : (⟨capBits cursor perms otype e bm lm, tag⟩ : Cap).ex = e % 2 ^ 6 := by
  simp only [Cap.ex, fld, capBits_toNat, Nat.shiftRight_eq_div_pow]
  omega

theorem bm_capBits : (⟨capBits cursor perms otype e bm lm, tag⟩ : Cap).bm = bm % 2 ^ 15 := by
  simp only [Cap.bm, fld, capBits_toNat, Nat.shiftRight_eq_div_pow]
  omega

theorem lm_capBits : (⟨capBits cursor perms otype e bm lm, tag⟩ : Cap).lm = lm % 2 ^ 15 := by
  simp only [Cap.lm, fld, capBits_toNat, Nat.shiftRight_eq_div_pow]
  omega

end

section
variable (c : Cap)

theorem cursor_lt : c.cursor < 2 ^ 64 := Nat.mod_lt _ (by decide)
theorem otype_lt : c.otype < 2 ^ 12 := Nat.mod_lt _ (by decide)
theorem ex_lt : c.ex < 2 ^ 6 := Nat.mod_lt _ (by decide)
theorem bm_lt : c.bm < 2 ^ 15 := Nat.mod_lt _ (by decide)
theorem lm_lt : c.lm < 2 ^ 15 := Nat.mod_lt _ (by decide)

end

/-! Bounds (R63): the base is the multiple of the granularity at or below the cursor, by less than 2^15 steps, whose quotient
ends in the base field. -/

theorem base_of_quotient {c : Cap} {z : Int} (hm : z % (2 ^ 15 : Nat) = c.bm) (hl : z ≤ (c.cursor / 2 ^ c.ex : Nat))
    (hu : ((c.cursor / 2 ^ c.ex : Nat) : Int) < z + 2 ^ 15) : c.base = ((2 ^ c.ex : Nat) : Int) * z := by
  unfold Cap.base
  dsimp only
  generalize c.cursor / 2 ^ c.ex = a at hl hu
  congr 1
  omega

theorem exists_base_quotient (c : Cap) : ∃ z : Int, c.base = ((2 ^ c.ex : Nat) : Int) * z ∧ z % (2 ^ 15 : Nat) = c.bm
    ∧ z ≤ (c.cursor / 2 ^ c.ex : Nat) ∧ ((c.cursor / 2 ^ c.ex : Nat) : Int) < z + 2 ^ 15 := by
  have hb := bm_lt c
  refine ⟨(c.cursor / 2 ^ c.ex : Nat) - ((c.cursor / 2 ^ c.ex : Nat) - (c.bm : Int)) % (2 ^ 15 : Nat), rfl, ?_, ?_, ?_⟩
  all_goals
    generalize c.cursor / 2 ^ c.ex = a
    omega

/-- Bounds stay where the cursor moves within them (R64). -/
theorem bounds_of_moved {c d : Cap} (he : d.ex = c.ex) (hb : d.bm = c.bm) (hl : d.lm = c.lm) (h0 : c.base ≤ d.cursor)
    (h1 : (d.cursor : Int) ≤ c.top) : d.base = c.base ∧ d.top = c.top := by
  obtain ⟨z, hz, hm, -, -⟩ := exists_base_quotient c
  have hg : (0 : Int) < (2 ^ c.ex : Nat) := by exact_mod_cast Nat.two_pow_pos c.ex
  have hlm := lm_lt c
  have lo : z ≤ (d.cursor / 2 ^ d.ex : Nat) := by
    rw [he, Int.natCast_ediv, Int.le_ediv_iff_mul_le hg, Int.mul_comm]
    omega
  have hi : ((d.cursor / 2 ^ d.ex : Nat) : Int) < z + 2 ^ 15 := by
    have h2 : ((2 ^ c.ex : Nat) : Int) * z + ((c.lm * 2 ^ c.ex : Nat) : Int) < (z + 2 ^ 15) * ((2 ^ c.ex : Nat) : Int) := by
      rw [Int.add_mul, Int.mul_comm z, Nat.cast_mul]
      have := Int.mul_lt_mul_of_pos_right (show (c.lm : Int) < 2 ^ 15 by omega) hg
      omega
    rw [he, Int.natCast_ediv, Int.ediv_lt_iff_lt_mul hg]
    unfold Cap.top at h1
    omega
  have hd : d.base = c.base := by rw [base_of_quotient (hm.trans (congrArg Nat.cast hb.symm)) lo hi, hz, he]
  exact ⟨hd, by rw [Cap.top, Cap.top, hd, hl, he]⟩

/-! CSETB (R65). -/

/-- An exponent at which the length field holds the bounds, rounded outward. -/
def fitsAt (b t e : Nat) : Prop := ceilDiv t (2 ^ e) - b / 2 ^ e ≤ 2 ^ 15 - 1

/-- The search finds the least such exponent, if its fuel reaches one. -/
theorem setbExp_spec (b t fuel e : Nat) : e ≤ setbExp b t fuel e ∧ setbExp b t fuel e ≤ e + fuel
    ∧ (∀ k, e ≤ k → k < setbExp b t fuel e → ¬fitsAt b t k)
    ∧ (setbExp b t fuel e < e + fuel → fitsAt b t (setbExp b t fuel e)) := by
  induction fuel generalizing e with
  | zero =>
    exact ⟨Nat.le_refl e, Nat.le_refl e, fun k h h' => (Nat.not_lt.mpr h h').elim, fun h => (Nat.lt_irrefl e h).elim⟩
  | succ fuel ih =>
    by_cases h : fitsAt b t e
    · rw [show setbExp b t (fuel + 1) e = e from if_pos h]
      exact ⟨Nat.le_refl e, Nat.le_add_right .., fun k h0 h1 => (Nat.not_lt.mpr h0 h1).elim, fun _ => h⟩
    · rw [show setbExp b t (fuel + 1) e = setbExp b t fuel (e + 1) from if_neg h]
      obtain ⟨h1, h2, h3, h4⟩ := ih (e + 1)
      refine ⟨by omega, by omega, fun k hk hl => ?_, fun hl => h4 (by omega)⟩
      by_cases hke : k = e
      · exact hke ▸ h
      · exact h3 k (by omega) hl

/-- The exponent that CSETB takes. -/
def csetbExp (c : Cap) (len : Nat) : Nat := setbExp c.cursor (c.cursor + len) 63 0

theorem csetbExp_lt (c : Cap) (len : Nat) : csetbExp c len < 2 ^ 6 := by
  have h := (setbExp_spec c.cursor (c.cursor + len) 63 0).2.1
  unfold csetbExp
  omega

theorem not_fitsAt_of_lt {c : Cap} {len k : Nat} (h : k < csetbExp c len) : ¬fitsAt c.cursor (c.cursor + len) k :=
  (setbExp_spec c.cursor (c.cursor + len) 63 0).2.2.1 k (Nat.zero_le k) h

theorem fitsAt_csetbExp_of_lt {c : Cap} {len : Nat} (h : csetbExp c len < 63) :
    fitsAt c.cursor (c.cursor + len) (csetbExp c len) :=
  (setbExp_spec c.cursor (c.cursor + len) 63 0).2.2.2 (by unfold csetbExp at h; omega)

/-- A length of 64 bits is held at some exponent. -/
theorem fitsAt_csetbExp {c : Cap} {len : Nat} (hl : len < 2 ^ 64) : fitsAt c.cursor (c.cursor + len) (csetbExp c len) := by
  by_cases h : csetbExp c len < 63
  · exact fitsAt_csetbExp_of_lt h
  · have e : csetbExp c len = 63 := by have := csetbExp_lt c len; omega
    have hc := cursor_lt c
    rw [e, fitsAt, ceilDiv]
    omega

/-- The capability of CSETB by its fields. -/
theorem setb_eq (c : Cap) (len : Nat) (exact : Bool) :
    let e := csetbExp c len
    let lo := c.cursor / 2 ^ e
    let hi := ceilDiv (c.cursor + len) (2 ^ e)
    setb c len exact = ⟨capBits c.cursor c.perms c.otype e lo (hi - lo),
      c.tag && c.otype == 0 && decide (e ≤ 49) && decide (c.base ≤ (lo * 2 ^ e : Nat))
        && decide (((hi * 2 ^ e : Nat) : Int) ≤ c.top)
        && (!exact || (lo * 2 ^ e == c.cursor && hi * 2 ^ e == c.cursor + len))⟩ := by
  have hg : 0 < 2 ^ csetbExp c len := Nat.two_pow_pos _
  intro e lo hi
  have h1 : lo * 2 ^ e / 2 ^ e = lo := Nat.mul_div_cancel lo hg
  have h2 : (hi * 2 ^ e - lo * 2 ^ e) / 2 ^ e = hi - lo := by rw [← Nat.sub_mul, Nat.mul_div_cancel _ hg]
  rw [← h2]
  conv => rhs; arg 1; arg 5; rw [← h1]
  rfl

section
variable (c : Cap) (len : Nat) (exact : Bool)

theorem setb_cursor : (setb c len exact).cursor = c.cursor := by
  rw [setb_eq, cursor_capBits, Nat.mod_eq_of_lt (cursor_lt c)]

theorem setb_perms : (setb c len exact).perms = c.perms := by
  rw [setb_eq, perms_capBits, Nat.mod_eq_of_lt (perms_lt c)]

theorem setb_otype : (setb c len exact).otype = c.otype := by
  rw [setb_eq, otype_capBits, Nat.mod_eq_of_lt (otype_lt c)]

theorem setb_ex : (setb c len exact).ex = csetbExp c len := by
  rw [setb_eq, ex_capBits, Nat.mod_eq_of_lt (csetbExp_lt c len)]

theorem setb_bm : (setb c len exact).bm = c.cursor / 2 ^ csetbExp c len % 2 ^ 15 := by
  rw [setb_eq, bm_capBits]

theorem setb_tag : (setb c len exact).tag = true ↔ c.tag = true ∧ c.otype = 0 ∧ csetbExp c len ≤ 49
    ∧ c.base ≤ ((c.cursor / 2 ^ csetbExp c len * 2 ^ csetbExp c len : Nat) : Int)
    ∧ ((ceilDiv (c.cursor + len) (2 ^ csetbExp c len) * 2 ^ csetbExp c len : Nat) : Int) ≤ c.top
    ∧ (exact = true → c.cursor / 2 ^ csetbExp c len * 2 ^ csetbExp c len = c.cursor
        ∧ ceilDiv (c.cursor + len) (2 ^ csetbExp c len) * 2 ^ csetbExp c len = c.cursor + len) := by
  rw [setb_eq]
  simp only [Bool.and_eq_true, Bool.or_eq_true, Bool.not_eq_true', decide_eq_true_eq, beq_iff_eq, and_assoc]
  cases exact <;> simp

theorem setb_base : (setb c len exact).base = ((c.cursor / 2 ^ csetbExp c len * 2 ^ csetbExp c len : Nat) : Int) := by
  have h : (setb c len exact).cursor / 2 ^ (setb c len exact).ex = c.cursor / 2 ^ csetbExp c len := by
    rw [setb_cursor, setb_ex]
  rw [base_of_quotient (z := (c.cursor / 2 ^ csetbExp c len : Nat)) (by rw [setb_bm]; rfl) (by rw [h]) (by rw [h]; omega),
    setb_ex, Int.mul_comm, Nat.cast_mul]

variable {c len} (hf : fitsAt c.cursor (c.cursor + len) (csetbExp c len))
include hf

theorem setb_lm : (setb c len exact).lm
    = ceilDiv (c.cursor + len) (2 ^ csetbExp c len) - c.cursor / 2 ^ csetbExp c len := by
  rw [setb_eq, lm_capBits, Nat.mod_eq_of_lt]
  unfold fitsAt at hf
  omega

theorem setb_top :
    (setb c len exact).top = ((ceilDiv (c.cursor + len) (2 ^ csetbExp c len) * 2 ^ csetbExp c len : Nat) : Int) := by
  have hle : c.cursor / 2 ^ csetbExp c len ≤ ceilDiv (c.cursor + len) (2 ^ csetbExp c len) :=
    Nat.div_le_div_right (by have := Nat.two_pow_pos (csetbExp c len); omega)
  rw [Cap.top, setb_base, setb_lm exact hf, setb_ex, ← Nat.cast_add, ← Nat.add_mul, Nat.add_sub_cancel' hle]

end

/-- A length of 0 is held at exponent 0. -/
theorem csetbExp_zero (c : Cap) : csetbExp c 0 = 0 := by
  by_contra h
  refine not_fitsAt_of_lt (Nat.pos_of_ne_zero h) ?_
  simp [fitsAt, ceilDiv]

/-- A check that passes has its access in bounds (R66). -/
theorem bounds_of_capCheck {c : Cap} {off : Int} {size perm va : Nat} (h : capCheck c off size perm = .ok va) :
    c.base ≤ c.cursor + off ∧ c.cursor + off + size ≤ c.top := by
  unfold capCheck at h
  dsimp only at h
  split at h
  · cases h
  split at h
  · cases h
  split at h
  · cases h
  split at h
  · next hb => exact hb
  · cases h

/-- No access of one byte or more passes a check of an empty extent. -/
theorem capCheck_of_empty {c : Cap} (h : c.top = c.base) (off : Int) {size : Nat} (hs : size ≠ 0) (perm va : Nat) :
    capCheck c off size perm ≠ .ok va := by
  intro hc
  obtain ⟨h0, h1⟩ := bounds_of_capCheck hc
  omega

/-! No authority is gained (R64, R69). -/

/-- A tagged capability that holds no more than a tagged, unsealed one. -/
def Cap.within (d c : Cap) : Prop :=
  c.tag = true ∧ c.otype = 0 ∧ d.otype = 0 ∧ c.base ≤ d.base ∧ d.top ≤ c.top ∧ d.perms &&& c.perms = d.perms

theorem within_setb {c : Cap} {n : Nat} {exact : Bool} (h : (setb c n exact).tag = true) : (setb c n exact).within c := by
  obtain ⟨ht, ho, he, hlo, hhi, -⟩ := (setb_tag c n exact).mp h
  have hf : fitsAt c.cursor (c.cursor + n) (csetbExp c n) := fitsAt_csetbExp_of_lt (by omega)
  refine ⟨ht, ho, (setb_otype c n exact).trans ho, ?_, ?_, ?_⟩
  · rwa [setb_base]
  · rwa [setb_top exact hf]
  · rw [setb_perms, Nat.and_self]

theorem within_withCursor {c : Cap} {n : Nat} (h : (c.withCursor n).tag = true) : (c.withCursor n).within c := by
  simp only [Cap.withCursor, Bool.and_eq_true, beq_iff_eq, decide_eq_true_eq] at h
  obtain ⟨⟨⟨ht, ho⟩, hlo⟩, hhi⟩ := h
  have hc : (c.withCursor n).cursor = n % 2 ^ 64 := by rw [Cap.withCursor, cursor_capBits, Nat.mod_mod]
  obtain ⟨hb, htop⟩ := bounds_of_moved (c := c) (d := c.withCursor n)
    (by rw [Cap.withCursor, ex_capBits, Nat.mod_eq_of_lt (ex_lt c)])
    (by rw [Cap.withCursor, bm_capBits, Nat.mod_eq_of_lt (bm_lt c)])
    (by rw [Cap.withCursor, lm_capBits, Nat.mod_eq_of_lt (lm_lt c)]) (by rwa [hc]) (by rwa [hc])
  refine ⟨ht, ho, ?_, hb.ge, htop.le, ?_⟩
  · rw [Cap.withCursor, otype_capBits, Nat.mod_eq_of_lt (otype_lt c), ho]
  · rw [Cap.withCursor, perms_capBits, Nat.mod_eq_of_lt (perms_lt c), Nat.and_self]

theorem within_withPerms {c : Cap} {n : Nat} (h : (c.withPerms n).tag = true) : (c.withPerms n).within c := by
  simp only [Cap.withPerms, Bool.and_eq_true, beq_iff_eq] at h
  obtain ⟨ht, ho⟩ := h
  have he : (c.withPerms n).ex = c.ex := by rw [Cap.withPerms, ex_capBits, Nat.mod_eq_of_lt (ex_lt c)]
  have hc : (c.withPerms n).cursor = c.cursor := by rw [Cap.withPerms, cursor_capBits, Nat.mod_eq_of_lt (cursor_lt c)]
  have hbm : (c.withPerms n).bm = c.bm := by rw [Cap.withPerms, bm_capBits, Nat.mod_eq_of_lt (bm_lt c)]
  have hlm : (c.withPerms n).lm = c.lm := by rw [Cap.withPerms, lm_capBits, Nat.mod_eq_of_lt (lm_lt c)]
  have hp : (c.withPerms n).perms = c.perms &&& n := by
    rw [Cap.withPerms, perms_capBits, Nat.mod_eq_of_lt (Nat.lt_of_le_of_lt Nat.and_le_left (perms_lt c))]
  have hb : (c.withPerms n).base = c.base := by simp only [Cap.base, he, hc, hbm]
  refine ⟨ht, ho, ?_, hb.ge, ?_, ?_⟩
  · rw [Cap.withPerms, otype_capBits, Nat.mod_eq_of_lt (otype_lt c), ho]
  · rw [Cap.top, Cap.top, hb, hlm, he]
  · rw [hp, Nat.and_right_comm, Nat.and_self]

/-- Settles O28: the least exponent by `setbExp_spec`, the bounds by `base_of_quotient`, and no authority gained by form. -/
theorem derivations : Obligations.Derivations := by
  unfold Obligations.Derivations
  refine ⟨fun c len exact hl => ?_, fun d q r => ⟨?_, ?_⟩, fun c n exact d hd ht => ?_⟩
  · have hf := fitsAt_csetbExp (c := c) hl
    refine ⟨csetbExp c len, hf, fun k hk => not_fitsAt_of_lt hk, setb_cursor c len exact, setb_perms c len exact,
      setb_otype c len exact, setb_ex c len exact, setb_bm c len exact, setb_lm exact hf, setb_tag c len exact, fun h0 => ?_⟩
    subst h0
    have hb : (setb c 0 exact).base = c.cursor := by simp [setb_base, csetbExp_zero]
    have htop : (setb c 0 exact).top = c.cursor := by simp [setb_top exact hf, csetbExp_zero, ceilDiv]
    exact ⟨hb, htop, fun off size perm va hs => capCheck_of_empty (htop.trans hb.symm) off hs perm va⟩
  · exact retiresWith_of fun _ => rfl
  · exact retiresWith_of fun _ => rfl
  · simp only [List.mem_cons, List.not_mem_nil, or_false] at hd
    rcases hd with rfl | rfl | rfl
    · exact within_setb ht
    · exact within_withCursor ht
    · exact within_withPerms ht

end Sys2Proof.Machine
end

section
/-! Stores (R146, R147, R248). -/
namespace Sys2Proof.Machine

/-- Bytes stored set no tag. -/
theorem tagR_wkeys_of_clear {ks : List Nat} {bs : List Byte} {s : State} {k : Nat} (h : s.tagR k = false) :
    (s.wkeys ks bs).tagR k = false := by
  induction ks generalizing bs s with
  | nil => cases bs <;> exact h
  | cons j ks ih =>
    cases bs with
    | nil => exact h
    | cons b bs =>
      refine ih ?_
      rw [tagR_tagW]
      split
      · rfl
      · exact h

/-- The tag of a granule stored to is clear (R70). -/
theorem tagR_wkeys_of_mem {ks : List Nat} {bs : List Byte} {s : State} {k : Nat} (hl : bs.length = ks.length) (hk : k ∈ ks) :
    (s.wkeys ks bs).tagR k = false := by
  induction ks generalizing bs s with
  | nil => simp at hk
  | cons j ks ih =>
    cases bs with
    | nil => simp at hl
    | cons b bs =>
      rcases List.mem_cons.mp hk with rfl | hk
      · exact tagR_wkeys_of_clear (s := (s.wb k b).tagW k false) (by rw [tagR_tagW, if_pos rfl])
      · exact ih (by simpa using hl) hk

/-- A lane outside any transaction stores its bytes. -/
theorem storeLanes_cons {bytes : Nat → List Byte} {s : State} {g : Grp} {a : LaneAt} (as : List LaneAt)
    (ho : g.isOpen a.lane = false) (hd : g.isDoomed a.lane = false) :
    storeLanes bytes s g (a :: as) = storeLanes bytes (s.wkeys a.pl.keys (bytes a.lane)) g as := by
  simp [storeLanes, ho, hd]

/-- Lanes outside any transaction, each with as many bytes as its place. -/
def StoresPlain (bytes : Nat → List Byte) (g : Grp) (as : List LaneAt) : Prop :=
  ∀ a ∈ as, g.isOpen a.lane = false ∧ g.isDoomed a.lane = false ∧ (bytes a.lane).length = a.pl.keys.length

section
variable {bytes : Nat → List Byte} {g : Grp} {as : List LaneAt} (h : StoresPlain bytes g as) (s : State)
include h

theorem storeLanes_grp : (storeLanes bytes s g as).2 = g := by
  induction as generalizing s with
  | nil => rfl
  | cons a as ih =>
    obtain ⟨⟨ho, hd, -⟩, h⟩ := List.forall_mem_cons.mp h
    rw [storeLanes_cons as ho hd, ih h]

theorem storeLanes_tiles : (storeLanes bytes s g as).1.tiles = s.tiles := by
  induction as generalizing s with
  | nil => rfl
  | cons a as ih =>
    obtain ⟨⟨ho, hd, -⟩, h⟩ := List.forall_mem_cons.mp h
    rw [storeLanes_cons as ho hd, ih h, wkeys_frame]

theorem rb_storeLanes_other {k : Nat} (hk : ∀ a ∈ as, k ∉ a.pl.keys) : (storeLanes bytes s g as).1.rb k = s.rb k := by
  induction as generalizing s with
  | nil => rfl
  | cons a as ih =>
    obtain ⟨⟨ho, hd, -⟩, h⟩ := List.forall_mem_cons.mp h
    obtain ⟨hka, hk⟩ := List.forall_mem_cons.mp hk
    rw [storeLanes_cons as ho hd, ih h _ hk, rb_wkeys_other _ _ _ _ hka]

theorem tagR_storeLanes_of_clear {k : Nat} (hk : s.tagR k = false) : (storeLanes bytes s g as).1.tagR k = false := by
  induction as generalizing s with
  | nil => exact hk
  | cons a as ih =>
    obtain ⟨⟨ho, hd, -⟩, h⟩ := List.forall_mem_cons.mp h
    rw [storeLanes_cons as ho hd]
    exact ih h _ (tagR_wkeys_of_clear hk)

theorem tagR_storeLanes_of_mem {a : LaneAt} (ha : a ∈ as) {k : Nat} (hk : k ∈ a.pl.keys) :
    (storeLanes bytes s g as).1.tagR k = false := by
  induction as generalizing s with
  | nil => simp at ha
  | cons b as ih =>
    obtain ⟨⟨ho, hd, hl⟩, h'⟩ := List.forall_mem_cons.mp h
    rw [storeLanes_cons as ho hd]
    rcases List.mem_cons.mp ha with rfl | ha
    · exact tagR_storeLanes_of_clear h' _ (tagR_wkeys_of_mem hl hk)
    · exact ih h' _ ha

/-- The last lane's bytes are there, whatever the lanes before it stored. -/
theorem rb_storeLanes_last {a : LaneAt} (ha : as.getLast? = some a) (hn : a.pl.keys.Nodup) {n k : Nat} {b : Byte}
    (hk : a.pl.keys[n]? = some k) (hb : (bytes a.lane)[n]? = some b) : (storeLanes bytes s g as).1.rb k = b := by
  induction as generalizing s with
  | nil => simp at ha
  | cons c as ih =>
    obtain ⟨⟨ho, hd, -⟩, h⟩ := List.forall_mem_cons.mp h
    rw [storeLanes_cons as ho hd]
    cases as with
    | nil =>
      obtain rfl : c = a := by simpa using ha
      exact rb_wkeys_at _ _ _ n k b hn hk hb
    | cons d as => exact ih h _ (by simpa using ha)

end

/-- Of the accesses of a uniform form, the lowest lane's is performed (R146). -/
theorem performedOf_onePlace (perLane : Bool) (ps : List LaneAt) :
    performedOf perLane (onePlace perLane ps) = if perLane then ps else ps.take 1 := by
  unfold performedOf onePlace
  cases perLane <;> cases ps <;> rfl

/-- An ST that makes all its accesses in one step (R146). -/
theorem st_whole {s : State} {x : Iss} {d o : Reg} {q : BitVec 4} {d5 : BitVec 5} {size : Nat} (regs : Nat) {ps : List LaneAt}
    (hw : Whole s x) (hp : x.places s (accessAsk x o q d5 size true) x.lanes = .ok ps)
    (hg : x.gate s true (onePlace (d.isV || o.isV) ps) (if d.isV || o.isV then ps else ps.take 1) = none) :
    x.st s d o q d5 size regs
      = .retire ((storeLanes (fun l => leBytes (x.g.runVal d l regs) size) s x.g
            (onePlace (d.isV || o.isV) ps)).1.touchLanes x.ag true (if d.isV || o.isV then ps else ps.take 1))
          (storeLanes (fun l => leBytes (x.g.runVal d l regs) size) s x.g (onePlace (d.isV || o.isV) ps)).2 := by
  obtain ⟨hs, hx⟩ := hw
  have hp' : x.places s
      { c := x.qs q, q := q.toNat, size := size, need := { w := true }, perm := x.txnPerm pSTORE,
        off := x.memOff o d5 size, natural := x.g.isOpen, commit := x.g.isOpen } x.lanes = .ok ps := hp
  unfold Iss.st
  simp only [hx, hp', performedOf_onePlace, hg, hs]

theorem store_of {i : Instr} {d o : Reg} {q : BitVec 4} {d5 : BitVec 5} {size regs : Nat}
    (hi : ∀ s, exec i s = issue (Instr.sig i) s (fun x s => x.st s d o q d5 size regs)) {s : State} {x : Iss}
    {ps : List LaneAt} (hr : Runs i s x) (hw : Whole s x)
    (hp : x.places s (accessAsk x o q d5 size true) x.lanes = .ok ps)
    (hg : x.gate s true (onePlace (d.isV || o.isV) ps) (if d.isV || o.isV then ps else ps.take 1) = none) :
    exec i s = .next (((storeLanes (fun l => leBytes (x.g.runVal d l regs) size) s x.g
        (onePlace (d.isV || o.isV) ps)).1.touchLanes x.ag true (if d.isV || o.isV then ps else ps.take 1)).retireTo x
      (storeLanes (fun l => leBytes (x.g.runVal d l regs) size) s x.g (onePlace (d.isV || o.isV) ps)).2 (x.p.pc + 4)) := by
  rw [exec_runs hi hr, st_whole regs hw hp hg, finish]

/-- Settles O31: the forms of ST by `store_of`, what they store by induction on the lanes, and what the caches and the arbiters
note by `Noted`. -/
theorem stores : Obligations.Stores := by
  unfold Obligations.Stores
  refine ⟨?_, fun s ag g bytes as h => ?_⟩
  · intro i d o q d5 size regs hi s x ps hr hw hp as made hg
    simp only [List.mem_cons, Prod.mk.injEq, List.not_mem_nil, or_false] at hi
    rcases hi with ⟨rfl, rfl, rfl⟩ | ⟨rfl, rfl, rfl⟩ | ⟨rfl, rfl, rfl⟩ | ⟨rfl, rfl, rfl⟩ | ⟨rfl, rfl, rfl⟩ <;>
      exact store_of (fun _ => rfl) hr hw hp hg
  · refine ⟨storeLanes_grp h s, fun k hk => rb_storeLanes_other h s hk, fun a ha k hk => tagR_storeLanes_of_mem h s ha hk,
      fun a ha hn n k b hk hb => rb_storeLanes_last h s ha hn hk hb, fun ht => ?_⟩
    obtain ⟨hm, hg⟩ := (noted_touchLanes (storeLanes bytes s g as).1 ag true as).bare ((storeLanes_tiles h s).trans ht)
    exact ⟨fun k => by unfold State.rb; rw [hm], fun k => by unfold State.tagR; rw [hg]⟩

end Sys2Proof.Machine
end

section
/-! Capability loads and stores (R252, R253). -/
namespace Sys2Proof.Machine

theorem ldc_of_places {s : State} {x : Iss} {d o : Reg} {q : BitVec 4} {d5 : BitVec 5} {ps : List LaneAt}
    (hp : x.places s (capLoadAsk x o q d5) x.lanes = .ok ps)
    (hg : x.gate s true (onePlace d.isV ps) (if d.isV then ps else ps.take 1) = none) :
    x.ldc s d o q d5 =
      let as := onePlace d.isV ps
      let r := loadLanes s x.g as
      let got := as.map (fun a => (a.lane, s.swept x.g.vd
        ⟨BitVec.ofNat 128 (look 0 r.2.2 a.lane), ldcTag s x.g (x.g.qr q.toNat) a⟩))
      .retire (r.1.touchLanes x.ag false (if d.isV then ps else ps.take 1))
        (r.2.1.holdLanes d (if d.isV then got else got.take 1)) := by
  have hp' : x.places s
      { c := x.qs q, q := q.toNat, size := 16, need := { r := true }, perm := x.txnPerm pLOAD, off := x.memOff o d5 16 }
      x.lanes = .ok ps := hp
  simp only [Iss.ldc, hp', performedOf_onePlace, hg]
  rfl

theorem stc_of_places {s : State} {x : Iss} {d o : Reg} {q : BitVec 4} {d5 : BitVec 5} {as : List LaneAt}
    (hp : x.places s (capStoreAsk x d o q d5) x.lanes = .ok as) (hg : x.gate s false as = none) :
    x.stc s d o q d5 = .retire ((stcLanes x.g.vd (x.holder d) s x.g as).touchLanes x.ag true as)
      (x.excluded (d.isV || o.isV) as) := by
  have hp' : x.places s
      { c := x.qs q, q := q.toNat, size := 16, need := { w := true }, perm := fun _ => pSTORE, off := x.memOff o d5 16,
        mid := fun l => stcBad (x.qs q) (x.holder d l), tagged := fun l => (x.holder d l).tag } x.lanes = .ok as := hp
  simp only [Iss.stc, hp', hg]

/-- Settles O32: LDC and STC once every lane's checks have passed and nothing is waited for. -/
theorem capabilityMemory : Obligations.CapabilityMemory := by
  unfold Obligations.CapabilityMemory
  refine fun d o q d5 => ⟨?_, fun s x as hr hp hg => ?_⟩
  · intro s x ps hr hp as made hg
    rw [exec_runs (body := fun x s => x.ldc s d o q d5) (fun _ => rfl) hr, ldc_of_places hp hg, finish]
  · rw [exec_runs (body := fun x s => x.stc s d o q d5) (fun _ => rfl) hr, stc_of_places hp hg, finish]

end Sys2Proof.Machine
end

section
/-! Returning atomics (R70, R110, R127, R128, R255, R256). -/
namespace Sys2Proof.Machine

theorem atom_of_places {s : State} {x : Iss} {d a : Reg} {q : BitVec 4} {size : Nat} (regs : Nat)
    (f : Nat → Nat → Option Nat)
    {as : List LaneAt} (hp : x.places s (atomicAsk x a q size true) (if d.isV || a.isV then x.lanes else [x.low]) = .ok as)
    (hg : x.gate s false as = none) :
    x.atom s d a q size regs f = .retire ((atomLanes size f s as).1.touchLanes x.ag true as)
      ((x.excluded (d.isV || a.isV) as).wrRun d x.lanes
        (fun l k => wordAt (look 0 (atomLanes size f s as).2 (x.valLane d l)) k) regs) := by
  have hp' : x.places s
      { c := x.qs q, q := q.toNat, size := size, need := { r := true, w := true },
        perm := fun _ => pATOMIC ||| pSTORE ||| pLOAD, off := fun l => (x.g.off a l).toInt }
      (x.reqLanes (d.isV || a.isV)) = .ok as := hp
  simp only [Iss.atom, hp', hg]

theorem atomic_of {i : Instr} {d a : Reg} {q : BitVec 4} {size regs : Nat} {f : Iss → Nat → Nat → Option Nat}
    (hi : ∀ s, exec i s = issue (Instr.sig i) s (fun x s => x.atom s d a q size regs (f x))) {s : State} {x : Iss}
    {as : List LaneAt} (hr : Runs i s x)
    (hp : x.places s (atomicAsk x a q size true) (if d.isV || a.isV then x.lanes else [x.low]) = .ok as)
    (hg : x.gate s false as = none) :
    exec i s = .next (((atomLanes size (f x) s as).1.touchLanes x.ag true as).retireTo x
      ((x.excluded (d.isV || a.isV) as).wrRun d x.lanes
        (fun l k => wordAt (look 0 (atomLanes size (f x) s as).2 (x.valLane d l)) k) regs) (x.p.pc + 4)) := by
  rw [exec_runs hi hr, atom_of_places regs (f x) hp hg, finish]

/-! One request. -/

/-- Byte `n` of a number (R3). -/
theorem getElem?_leBytes {x n size : Nat} (h : n < size) : (leBytes x size)[n]? = some (BitVec.ofNat 8 (x / 256 ^ n)) := by
  induction size generalizing x n with
  | zero => omega
  | succ size ih =>
    cases n with
    | zero => simp [leBytes]
    | succ n =>
      rw [leBytes, List.getElem?_cons_succ, ih (by omega), Nat.div_div_eq_div_mul, Nat.pow_succ, Nat.mul_comm]

section
variable (size : Nat) (s : State) {f : Nat → Nat → Option Nat} {a : LaneAt}

theorem atomLanes_writes {v : Nat} (h : f a.lane (s.rkeys a.pl.keys) = some v) :
    atomLanes size f s [a] = (s.wkeys a.pl.keys (leBytes v size), [(a.lane, s.rkeys a.pl.keys)]) := by
  simp only [atomLanes, h]

theorem atomLanes_keeps (h : f a.lane (s.rkeys a.pl.keys) = none) :
    atomLanes size f s [a] = (s, [(a.lane, s.rkeys a.pl.keys)]) := by
  simp only [atomLanes, h]

end

/-! The bank unit (R110). -/

/-- A rounded BF16 code is one of 16 bits: the sign above a code no greater than infinity's. -/
theorem roundFin_bf16_lt (neg : Bool) (m : Nat) (e : Int) : (roundFin .bf16 .rne false false neg m e).1 < 2 ^ 16 := by
  have hs : (if neg then 2 ^ (FF.bf16.width - 1) else 0) ≤ 2 ^ 15 := by cases neg <;> decide
  have hm : FF.bf16.maxCode + 1 < 2 ^ 15 := by decide
  unfold roundFin
  simp only [Bool.and_false, Bool.false_and, Bool.false_eq_true, if_false]
  generalize (if neg then 2 ^ (FF.bf16.width - 1) else 0) = sign at hs
  split
  · show sign + (FF.bf16.maxCode + 1) < 2 ^ 16
    omega
  · next h =>
    dsimp only
    omega

theorem roundFV_bf16_lt (v : FV) : (roundFV .bf16 .rne false false v).1 < 2 ^ 16 := by
  unfold roundFV
  split
  · show FF.bf16.nanCode < 2 ^ 16
    decide
  · next neg => cases neg <;> decide
  · next neg _ => cases neg <;> decide
  · exact roundFin_bf16_lt ..

theorem bankAdd_bf16_lt (u v : Nat) : bankAdd .bf16 u v < 2 ^ 16 := roundFV_bf16_lt _

/-- The elements of a sum of pairs (R110). -/
theorem bankAdd2_elements {u v : Nat} (hu : u < 2 ^ 32) (hv : v < 2 ^ 32) :
    bankAdd2 u v % 2 ^ 16 = bankAdd .bf16 (u % 2 ^ 16) (v % 2 ^ 16)
      ∧ bankAdd2 u v / 2 ^ 16 = bankAdd .bf16 (u / 2 ^ 16) (v / 2 ^ 16) := by
  have hlo (n : Nat) : fld n 0 16 = n % 2 ^ 16 := by simp [fld]
  have hhi {n : Nat} (h : n < 2 ^ 32) : fld n 16 16 = n / 2 ^ 16 := by
    simp only [fld, Nat.shiftRight_eq_div_pow]
    omega
  have hb := bankAdd_bf16_lt (u % 2 ^ 16) (v % 2 ^ 16)
  rw [bankAdd2, hlo, hlo, hhi hu, hhi hv]
  omega

/-- Settles O34: the forms by `atomic_of`, one request by whether it writes, and the bank unit's elements by their width. -/
theorem atomics : Obligations.Atomics := by
  unfold Obligations.Atomics
  refine ⟨fun d a o q i size regs f hi s x as hr hp hg => ?_, fun s size f a hn hl => ?_,
    fun f u v => ⟨rfl, fun hu hv => bankAdd2_elements hu hv⟩⟩
  · simp only [List.mem_cons, Prod.mk.injEq, List.not_mem_nil, or_false] at hi
    rcases hi with ⟨rfl, rfl, rfl, rfl⟩ | ⟨rfl, rfl, rfl, rfl⟩ | ⟨rfl, rfl, rfl, rfl⟩ | ⟨rfl, rfl, rfl, rfl⟩
      | ⟨rfl, rfl, rfl, rfl⟩ | ⟨rfl, rfl, rfl, rfl⟩ | ⟨rfl, rfl, rfl, rfl⟩ | ⟨rfl, rfl, rfl, rfl⟩
      | ⟨rfl, rfl, rfl, rfl⟩ | ⟨rfl, rfl, rfl, rfl⟩ | ⟨rfl, rfl, rfl, rfl⟩ | ⟨rfl, rfl, rfl, rfl⟩
      | ⟨rfl, rfl, rfl, rfl⟩ | ⟨rfl, rfl, rfl, rfl⟩ <;>
      exact atomic_of (fun _ => rfl) hr hp hg
  · cases hf : f a.lane (s.rkeys a.pl.keys) with
    | none =>
      rw [atomLanes_keeps size s hf]
      exact ⟨rfl, fun _ _ => rfl, fun v h => (nomatch hf.symm.trans h), fun _ _ => rfl⟩
    | some v =>
      rw [atomLanes_writes size s hf]
      refine ⟨rfl, fun k hk => rb_wkeys_other _ _ s k hk, fun w h n k hk => ?_, fun h => (nomatch hf.symm.trans h)⟩
      obtain rfl : v = w := Option.some.inj (hf.symm.trans h)
      have hlt : n < size := hl ▸ (List.getElem?_eq_some_iff.mp hk).1
      exact rb_wkeys_at _ _ s n k _ hn hk (getElem?_leBytes hlt)

end Sys2Proof.Machine
end

section
/-! SPAWN, JOIN, SVC and REVOKE (R83 to R85, R213 to R217, R429). -/
namespace Sys2Proof.Machine

/-- The granules of a record as SPAWN reads them: without LOADCAP they arrive untagged (R71, R214). -/
def Iss.recordRead (x : Iss) (s : State) (q : BitVec 4) (ps : List Place) : List Cap :=
  (s.getCaps ps).map (fun k => if (x.g.qr q.toNat).has pLOADCAP then k else ⟨k.bits, false⟩)

/-- The region capability of a record that a unit submits. -/
def Iss.recordRegion (x : Iss) (cs : List Cap) : Cap :=
  ({ vd := x.g.vd, num := 0, ctx := 0, bits := recordBits cs, tags := recordTagBits cs, kern := x.g.kern,
     aspace := x.g.aspace, region := 0 } : Launch).regionCap

/-- SPAWN waits while the dispatcher has no room, and else submits the record. -/
theorem spawn_eq {x : Iss} {s : State} {q : BitVec 4} {va : Nat} {ps : List Place} (d : Reg)
    (hc : capCheck (x.g.qr q.toNat) 0 768 pLOAD = .ok va) (hp : placesFrom s x.ag { r := true } va 48 = .ok ps)
    (hg : x.gate s false (ps.map (fun p => ⟨x.low, p⟩)) = none) :
    x.spawn s d q =
      let cs := x.recordRead s q ps
      let r := (s.touchAll x.ag false ps).submit x.g.vd (recordBits cs) (recordTagBits cs)
      if s.intakeFull x.g.vd (x.recordRegion cs) then .wait s .internal
      else .retire r.1 (({ x with g := x.remote false (ps.map (fun p => ⟨x.low, p⟩)) } : Iss).toS d r.2) := by
  simp only [Iss.spawn, Iss.qs, hc, hp, hg]
  rfl

/-- JOIN compares with COMPLETED as its access finds it. -/
theorem join_eq {x : Iss} {s : State} {a : Reg} {q : BitVec 4} {k : LaneAt} (ht : x.timeline s q { r := true } = .ok k)
    (hg : x.gate s false [k] = none) :
    x.join s a q = if (x.g.rd2 a 0).toNat ≤ s.tlDone (k.pl.keys.headD 0)
      then .retire (s.touch x.ag false k.pl) (x.remote false [k])
      else .wait (s.touch x.ag false k.pl) (.timelines [((x.g.qr q.toNat).cursor, (x.g.rd2 a 0).toNat)]) := by
  simp only [Iss.join, Iss.qs, ht, hg]

/-- The batch of an SVC. -/
def Iss.svcBatch (x : Iss) (s : State) (d a : Reg) (die : Nat) : Batch :=
  { die := die, vd := x.g.vd, unit := x.u, slotB := x.b, rd := d.toNat, mask := x.act,
    entries := x.lanes.map (fun l => (l, (List.range 8).map (fun i => x.g.rd (Reg.plus a i) l))), age := s.ticket }

theorem svc_sleeps {x : Iss} {s : State} {die : Nat} (d a : Reg)
    (h : (x.serviceDie s).filter (fun k => (s.serviceEp k).isSome) = some die) :
    x.svc s d a = .wait (({ s with batches := put s.batches s.ticket (x.svcBatch s d a die) } : State).request 3 die x.g.vd
      x.lanes.length (.batch s.ticket)) (.service s.ticket) := by
  simp only [Iss.svc, h]
  rfl

/-! A batch that has been served (R371): the reply words of each entry go into its lane. -/

/-- The words of an entry in one lane. -/
def Grp.wrWords (g : Grp) (rd l n : Nat) (w : Nat → Word) : Grp := (List.range n).foldl (fun g k => g.wrV (rd + k) l (w k)) g

/-- The words of all entries. -/
def Grp.wrReplies (g : Grp) (rd : Nat) (w : Nat → Nat → Word) (es : List (Nat × Nat)) : Grp :=
  es.foldl (fun g e => g.wrWords rd e.2 4 (w e.1)) g

theorem wrWords_succ (g : Grp) (rd l n : Nat) (w : Nat → Word) :
    g.wrWords rd l (n + 1) w = (g.wrWords rd l n w).wrV (rd + n) l (w n) := by
  simp only [Grp.wrWords, List.range_succ, List.foldl_append, List.foldl_cons, List.foldl_nil]

theorem wrReplies_cons (g : Grp) (rd : Nat) (w : Nat → Nat → Word) (e : Nat × Nat) (es : List (Nat × Nat)) :
    g.wrReplies rd w (e :: es) = (g.wrWords rd e.2 4 (w e.1)).wrReplies rd w es := rfl

theorem wrWords_v (g : Grp) (rd l n : Nat) (w : Nat → Word) {k m : Nat} (hl : l < 64) (hm : m < 64) :
    look 0 (g.wrWords rd l n w).v (64 * (rd + k) + m)
      = if k < n ∧ m = l then w k else look 0 g.v (64 * (rd + k) + m) := by
  induction n with
  | zero => simp [Grp.wrWords]
  | succ n ih =>
    rw [wrWords_succ, Grp.wrV, look_store, ih]
    by_cases hkn : k = n ∧ m = l
    · obtain ⟨rfl, rfl⟩ := hkn
      simp
    · rw [if_neg (by omega)]
      exact if_congr (by omega) rfl rfl

theorem wrReplies_v_other (g : Grp) (rd : Nat) (w : Nat → Nat → Word) (es : List (Nat × Nat)) {k m : Nat}
    (hl : ∀ e ∈ es, e.2 < 64) (hm : m < 64) (h : m ∉ es.map Prod.snd) :
    look 0 (g.wrReplies rd w es).v (64 * (rd + k) + m) = look 0 g.v (64 * (rd + k) + m) := by
  induction es generalizing g with
  | nil => rfl
  | cons e es ih =>
    obtain ⟨he, hl⟩ := List.forall_mem_cons.mp hl
    simp only [List.map_cons, List.mem_cons, not_or] at h
    rw [wrReplies_cons, ih _ hl h.2, wrWords_v _ _ _ _ _ he hm, if_neg fun c => h.1 c.2]

theorem wrReplies_v (g : Grp) (rd : Nat) (w : Nat → Nat → Word) (es : List (Nat × Nat)) {i k m : Nat}
    (hl : ∀ e ∈ es, e.2 < 64) (hn : (es.map Prod.snd).Nodup) (hi : (i, m) ∈ es) (hk : k < 4) :
    look 0 (g.wrReplies rd w es).v (64 * (rd + k) + m) = w i k := by
  induction es generalizing g with
  | nil => simp at hi
  | cons e es ih =>
    obtain ⟨he, hl'⟩ := List.forall_mem_cons.mp hl
    obtain ⟨hne, hn⟩ := List.nodup_cons.mp (by simpa using hn : (e.2 :: es.map Prod.snd).Nodup)
    rw [wrReplies_cons]
    rcases List.mem_cons.mp hi with rfl | hi
    · rw [wrReplies_v_other _ _ _ _ hl' he hne, wrWords_v _ _ _ _ _ he he, if_pos ⟨hk, rfl⟩]
    · exact ih _ hl' hn hi

/-- `h` has of `g` all but v and s registers, the capability flags of quads, and transactions. -/
def Grp.LanesOnly (g h : Grp) : Prop := h = { g with v := h.v, vf := h.vf, s := h.s, txn := h.txn }

theorem Grp.LanesOnly.trans {g h k : Grp} (a : g.LanesOnly h) (b : h.LanesOnly k) : g.LanesOnly k := by
  unfold Grp.LanesOnly at *
  conv_lhs => rw [b, a]

theorem lanesOnly_foldl {α : Type} (f : Grp → α → Grp) (hf : ∀ (g : Grp) (a : α), g.LanesOnly (f g a)) (l : List α)
    (g : Grp) : g.LanesOnly (l.foldl f g) := by
  induction l generalizing g with
  | nil => rfl
  | cons a l ih => exact (hf g a).trans (ih _)

theorem lanesOnly_wrWords (g : Grp) (rd l n : Nat) (w : Nat → Word) : g.LanesOnly (g.wrWords rd l n w) :=
  lanesOnly_foldl (fun g k => g.wrV (rd + k) l (w k)) (fun _ _ => rfl) _ g

theorem lanesOnly_wrReplies (g : Grp) (rd : Nat) (w : Nat → Nat → Word) (es : List (Nat × Nat)) :
    g.LanesOnly (g.wrReplies rd w es) :=
  lanesOnly_foldl (fun g (e : Nat × Nat) => g.wrWords rd e.2 4 (w e.1)) (fun g e => lanesOnly_wrWords g rd e.2 4 (w e.1)) es g

theorem lanesOnly_doom (g : Grp) (cause l : Nat) : g.LanesOnly (g.doom cause l) := by
  unfold Grp.doom
  split <;> rfl

theorem lanesOnly_forbid (g : Grp) (ls : List Nat) : g.LanesOnly (g.forbid ls) :=
  lanesOnly_foldl _ (fun g l => lanesOnly_doom g 3 l) ls g

theorem doom_v (g : Grp) (cause l : Nat) : (g.doom cause l).v = g.v := by
  unfold Grp.doom
  split <;> rfl

/-- A doomed lane keeps its registers (R258). -/
theorem forbid_v (g : Grp) (ls : List Nat) : (g.forbid ls).v = g.v := by
  induction ls generalizing g with
  | nil => rfl
  | cons l ls ih => exact (ih _).trans (doom_v g 3 l)

/-- A path without a record goes on in its slot, where no record waits for a slot. -/
theorem goTo_of_unlinked {g : Grp} {gen : Nat} {b : Bool} {p : Path} (pc : DWord) (hp : g.slot b = some p) (hl : p.link = none)
    (hk : g.pick gen = none) : g.goTo gen b pc = g.setSlot b (some (p.go pc)) := by
  have hk' : (g.setSlot b (some (p.go pc))).pick gen = none := by
    rw [setSlot_eq]
    exact hk
  simp only [Grp.goTo, hp]
  exact settled_of_unlinked (setSlot_slot ..) hl hk'

/-- The words that a batch's record holds for an entry (R371). -/
def State.replyWord (s : State) (b : Batch) (i k : Nat) : Word :=
  BitVec.ofNat 32 (s.openRn (s.slotAt b.die (b.slot.getD 0) + 64 + 48 * i + 32 + 4 * k) 4)

/-- The lanes of a batch with their numbers as entries. -/
def Batch.numbered (b : Batch) : List (Nat × Nat) := (b.entries.map Prod.fst).mapIdx (fun i l => (i, l))

theorem numbered_snd (b : Batch) : b.numbered.map Prod.snd = b.entries.map Prod.fst := by
  refine List.ext_getElem? fun i => ?_
  simp [Batch.numbered, Function.comp_def]

theorem mem_numbered {b : Batch} {i l : Nat} (h : (b.entries.map Prod.fst)[i]? = some l) : (i, l) ∈ b.numbered := by
  refine List.mem_of_getElem? (i := i) ?_
  rw [Batch.numbered, List.getElem?_mapIdx, h]
  rfl

/-- The group whose path has its replies. -/
def Grp.served (g : Grp) (s : State) (b : Batch) : Grp :=
  (g.wrReplies b.rd (s.replyWord b) b.numbered).forbid (b.entries.map Prod.fst)

theorem lanesOnly_served (g : Grp) (s : State) (b : Batch) : g.LanesOnly (g.served s b) :=
  (lanesOnly_wrReplies ..).trans (lanesOnly_forbid ..)

theorem batchDone_delivers {s : State} {id : Nat} {b : Batch} {g : Grp} {p : Path} (hb : find s.batches id = some b)
    (hu : find s.units b.unit = some g) (hp : g.slot b.slotB = some p) (hw : p.wait = some (.service id)) :
    s.batchDone id = (({ s with batches := del s.batches id } : State).putU b.unit
      ((g.served s b).goTo (s.genOf (g.served s b)) b.slotB (p.pc + 4))).noteRetire
      ⟨b.unit, b.slotB, g.served s b, p, 0⟩ := by
  have ha : s.asleep id b = true := by simp [State.asleep, hu, hp, hw]
  simp only [State.batchDone, hb, ha, if_true, State.complete, hu, hp]
  rfl

theorem batchDone_batches {s : State} {id : Nat} {b : Batch} {g : Grp} {p : Path} (hb : find s.batches id = some b)
    (hu : find s.units b.unit = some g) (hp : g.slot b.slotB = some p) (hw : p.wait = some (.service id)) :
    find (s.batchDone id).batches id = none := by
  rw [batchDone_delivers hb hu hp hw, noteRetire_frame]
  exact find_del_self ..

/-- The group after a served batch: its path goes on at the next word, and each lane holds the words of its entry. -/
theorem batchDone_group {s : State} {id : Nat} {b : Batch} {g : Grp} {p : Path} (hb : find s.batches id = some b)
    (hu : find s.units b.unit = some g) (hp : g.slot b.slotB = some p) (hw : p.wait = some (.service id)) (hl : p.link = none)
    (hk : g.pick (s.genOf g) = none) :
    find (s.batchDone id).units b.unit = some ((g.served s b).setSlot b.slotB (some (p.go (p.pc + 4)))) := by
  have e : g.served s b = { g with v := _, vf := _, s := _, txn := _ } := lanesOnly_served g s b
  have hp' : (g.served s b).slot b.slotB = some p := by
    rw [e]
    cases hs : b.slotB <;> rw [hs] at hp <;> exact hp
  have hk' : (g.served s b).pick (s.genOf (g.served s b)) = none := by
    rw [e]
    exact hk
  rw [batchDone_delivers hb hu hp hw, noteRetire_units, goTo_of_unlinked _ hp' hl hk']
  exact find_put_self ..

theorem served_rd {g : Grp} {s : State} {b : Batch} {i k l : Nat} (y : Option Path) (hr : b.rd + 3 < 96)
    (hn : (b.entries.map Prod.fst).Nodup) (hl : ∀ l ∈ b.entries.map Prod.fst, l < 64)
    (hi : (b.entries.map Prod.fst)[i]? = some l) (hk : k < 4) :
    ((g.served s b).setSlot b.slotB y).rd (BitVec.ofNat 7 (b.rd + k)) l = s.replyWord b i k := by
  have hd : (BitVec.ofNat 7 (b.rd + k)).toNat = b.rd + k := by
    rw [BitVec.toNat_ofNat]
    omega
  have hv : Reg.isV (BitVec.ofNat 7 (b.rd + k)) = true := by
    rw [isV_iff, hd]
    omega
  have hes : ∀ e ∈ b.numbered, e.2 < 64 := fun e he => hl _ (by rw [← numbered_snd]; exact List.mem_map_of_mem he)
  rw [Grp.rd, if_pos hv, hd, setSlot_eq]
  show look 0 (g.served s b).v _ = _
  rw [Grp.served, forbid_v]
  exact wrReplies_v _ _ _ _ hes ((numbered_snd b).symm ▸ hn) (mem_numbered hi) hk

/-! REVOKE (R429). -/

/-- A state in which a VD's next epoch marks some ranges for its partition. -/
def Iss.marked (x : Iss) (s : State) (p : Nat) (ks : List (Nat × Nat)) : State :=
  let ep : Epochs := look {} s.epochs x.g.vd
  { s with
    epochs := put s.epochs x.g.vd { ep with last := max ep.last ep.next }
    rmarks := s.rmarks ++ ks.map (fun k => ({ part := p, vd := x.g.vd, epoch := ep.next, lo := k.1, hi := k.2 } : RMark)) }

theorem ranges_of_region {x : Iss} {s : State} {base : Nat} {o : Obj} (ho : s.obj? 6 x.g.vd base = some o)
    (hm : ∀ ks, x.p.wait ≠ some (.marking ks)) : x.ranges s base = s.regionRanges o.vd o := by
  unfold Iss.ranges
  split
  · next ks h => exact absurd h (hm ks)
  · rw [ho]

theorem ranges_of_marking {x : Iss} {ks : List (Nat × Nat)} (s : State) (base : Nat) (hm : x.p.wait = some (.marking ks)) :
    x.ranges s base = ks := by
  simp only [Iss.ranges, hm]

theorem revoke_eq {x : Iss} {s : State} {q : BitVec 4} {base p : Nat} (d : Reg)
    (hc : objCheck (x.g.qr q.toNat) 6 pREVOKE = .ok base) (hp : s.partOfVd x.g.vd = some p) :
    x.revoke s d q = if 4096 < s.marksIn p + (x.ranges s base).length then .wait s (.marking (x.ranges s base))
      else .retire (x.marked s p (x.ranges s base)) (x.toPair d (look {} s.epochs x.g.vd : Epochs).next) := by
  simp only [Iss.revoke, Iss.qs, hc, hp]
  rfl

/-- Settles O48: one lemma for each call, and a served batch by `batchDone_group`. -/
theorem kernelCalls : Obligations.KernelCalls := by
  unfold Obligations.KernelCalls
  refine ⟨fun d q va ps => ?_, fun a q k => ⟨?_, ?_⟩, fun d a die => ?_,
    fun s id b g p hb hu hp hw hl hk hr hn hlt => ⟨batchDone_batches hb hu hp hw, _, batchDone_group hb hu hp hw hl hk,
      setSlot_slot .., fun i l k hi hk4 => served_rd _ hr hn hlt hi hk4⟩,
    fun d q base p o => ⟨?_, ?_, fun ks => ?_⟩⟩
  · exact retiresWhen_of (fun _ => rfl) fun s x ⟨hc, hp, hg, hf⟩ =>
      (spawn_eq d hc hp hg).trans (if_neg (ne_true_of_eq_false hf))
  · exact retiresWhen_of (fun _ => rfl) fun s x ⟨⟨ht, hg⟩, hn⟩ => (join_eq ht hg).trans (if_pos hn)
  · exact waitsWhen_of (fun _ => rfl) fun s x ⟨⟨ht, hg⟩, hn⟩ => (join_eq ht hg).trans (if_neg (Nat.not_le.mpr hn))
  · exact waitsWhen_of (fun _ => rfl) fun s x h => svc_sleeps d a h
  · refine retiresWhen_of (fun _ => rfl) fun s x ⟨⟨hc, ho, hp⟩, hm, hr⟩ => ?_
    rw [revoke_eq d hc hp, ranges_of_region ho hm, if_neg (Nat.not_lt.mpr hr)]
    rfl
  · refine waitsWhen_of (fun _ => rfl) fun s x ⟨⟨hc, ho, hp⟩, hm, hr⟩ => ?_
    rw [revoke_eq d hc hp, ranges_of_region ho hm, if_pos hr]
  · refine retiresWhen_of (fun _ => rfl) fun s x ⟨⟨hc, ho, hp⟩, hm, hr⟩ => ?_
    rw [revoke_eq d hc hp, ranges_of_marking s base hm, if_neg (Nat.not_lt.mpr hr)]
    rfl

end Sys2Proof.Machine
end

section
/-! OBJNEW (R354 to R359, R470). -/
namespace Sys2Proof.Machine

/-- COUNT as the otype asks: 1 to 64 entries of a group or a table of handles, else 0 (R356, R470). -/
def NewObj.sized (r : NewObj) : Prop := if r.otype = 8 ∨ r.otype = 9 then 1 ≤ r.count ∧ r.count ≤ 64 else r.count = 0

/-- The test of COUNT that CREATE makes. -/
theorem count_ok_of_sized {r : NewObj} (h : r.sized) :
    (if r.otype = 8 ∨ r.otype = 9 then decide (r.count = 0) || decide (64 < r.count) else r.count != 0) = false := by
  unfold NewObj.sized at h
  by_cases ho : r.otype = 8 ∨ r.otype = 9
  · rw [if_pos ho] at h ⊢
    obtain ⟨h1, h64⟩ := h
    simp only [Bool.or_eq_false_iff, decide_eq_false_iff_not]
    omega
  · rw [if_neg ho] at h ⊢
    simp [h]

/-- The group after an OBJNEW: OBJSTAT and qd. -/
def Iss.objGrp (x : Iss) (d : BitVec 4) (st : Nat) (k : Cap) : Grp := (x.g.ownW 0x0003 (BitVec.ofNat 64 st)).qw d.toNat k

/-! CREATE. -/

section
variable {x : Iss} {s : State} {r : NewObj} {c : Cap} (d : BitVec 4)

theorem objCreate_of_type (ht : objType r.otype = false) : x.objCreate s d r c = .retire s (x.objGrp d 8 Cap.null) := by
  simp only [Iss.objCreate, ht, Bool.not_false, if_true]
  rfl

variable {ks : List Nat} (ht : objType r.otype = true) (hz : r.sized)
  (hm : x.objMem s c (objSize r.otype r.count) (objAlign r.otype) = .ok ks)
  (hp : r.perms &&& (65535 - objPerms r.otype) = 0)
include ht hz hm hp

/-- The object is live, and what was live in its memory is so no longer (R358). -/
theorem objCreate_of_image {t : State} (hi : s.initObj x.g.vd r.otype r.count ks = .ok t) :
    x.objCreate s d r c =
      let o : Obj := { otype := r.otype, vd := x.g.vd, va := c.cursor, pa := ks.headD 0, count := r.count, next := objNext ks }
      .retire { t with objs := o :: t.objs.filter (fun k => !(k.meets ks)) }
        (x.objGrp d 0 (objCap r.otype c.cursor r.badge r.perms)) := by
  simp only [Iss.objCreate, ht, count_ok_of_sized hz, hm, hp, hi, ne_eq, not_true, Bool.not_true, Bool.false_eq_true, if_false]
  rfl

theorem objCreate_of_bad_image {st : Nat} (hi : s.initObj x.g.vd r.otype r.count ks = .error st) :
    x.objCreate s d r c = .retire s (x.objGrp d st Cap.null) := by
  simp only [Iss.objCreate, ht, count_ok_of_sized hz, hm, hp, hi, ne_eq, not_true, Bool.not_true, Bool.false_eq_true, if_false]
  rfl

end

/-! MINT and SET. -/

theorem objMint_of_object {x : Iss} {r : NewObj} {c : Cap} (s : State) (d : BitVec 4) (h0 : c.otype ≠ 0) (ht : c.tag = true)
    (ho : c.otype = r.otype) (hb : (c.cursor : Int) = c.base) (hp : r.perms &&& (65535 - c.perms) = 0) :
    x.objMint s d r c = .retire s (x.objGrp d 0 ⟨capBits (c.cursor + r.badge) r.perms c.otype c.ex c.bm c.lm,
      decide (((c.cursor + r.badge : Nat) : Int) ≤ c.top)⟩) := by
  refine (if_pos ?_).trans rfl
  simp [ht, h0, ← ho, hb, hp]

theorem objSet_context {x : Iss} {s : State} {r : NewObj} {c : Cap} {d : BitVec 4} {base : Nat} {ks : List Nat} {o : Obj}
    (hr : r.otype = 3) (hb : (x.g.qr d.toNat).badge = 0) (hc : objCheck (x.g.qr d.toNat) 3 pSPAWN = .ok base)
    (ho : s.obj? 3 x.g.vd base = some o) (hm : x.objMem s c 16 16 = .ok ks) (hf : fld (s.rkeys ks) 9 119 = 0) :
    x.objSet s d r c = .retire (s.wn o.pa 16 (s.rkeys ks)) (x.g.ownW 0x0003 0) := by
  have hm' : x.objMem s c (objSize 3 0) (objAlign 3) = .ok ks := hm
  simp only [Iss.objSet, Iss.qs, hr, hb, hc, ho, hm', hf, true_or, and_self, ne_eq, not_true, if_true, if_false]
  rfl

/-! OBJNEW by its mode. -/

section
variable {x : Iss} {a : Reg} (s : State) (d q : BitVec 4)

theorem objnew_create (h : (newObjOf (x.g.rd2 a 0).toNat).mode = 0) :
    x.objnew s d a q = x.objCreate s d (newObjOf (x.g.rd2 a 0).toNat) (x.g.qr q.toNat) := by
  simp only [Iss.objnew, h, Iss.qs]

theorem objnew_mint (h : (newObjOf (x.g.rd2 a 0).toNat).mode = 1) :
    x.objnew s d a q = x.objMint s d (newObjOf (x.g.rd2 a 0).toNat) (x.g.qr q.toNat) := by
  simp only [Iss.objnew, h, Iss.qs]

theorem objnew_set (h : (newObjOf (x.g.rd2 a 0).toNat).mode = 2) :
    x.objnew s d a q = x.objSet s d (newObjOf (x.g.rd2 a 0).toNat) (x.g.qr q.toNat) := by
  simp only [Iss.objnew, h, Iss.qs]

end

/-- Settles O52: OBJNEW by its mode, and CREATE by its TYPE and its image. -/
theorem objectCreation : Obligations.ObjectCreation := by
  unfold Obligations.ObjectCreation
  intro d q a r c sized ends
  refine ⟨fun ks t => ?_, fun ks st => ?_, ?_, ?_, fun base ks o => ?_⟩
  · exact retiresWhen_of (fun _ => rfl) fun s x ⟨h0, ht, hz, hm, hp, hi⟩ =>
      (objnew_create s d q h0).trans (objCreate_of_image d ht hz hm hp hi)
  · exact retiresWhen_of (fun _ => rfl) fun s x ⟨h0, ht, hz, hm, hp, hi⟩ =>
      (objnew_create s d q h0).trans (objCreate_of_bad_image d ht hz hm hp hi)
  · exact retiresWhen_of (fun _ => rfl) fun s x ⟨h0, ht⟩ => (objnew_create s d q h0).trans (objCreate_of_type d ht)
  · exact retiresWhen_of (fun _ => rfl) fun s x ⟨h1, h0, ht, ho, hb, hp⟩ =>
      (objnew_mint s d q h1).trans (objMint_of_object s d h0 ht ho hb hp)
  · exact retiresWhen_of (fun _ => rfl) fun s x ⟨h2, hr, hb, hc, ho, hm, hf⟩ =>
      (objnew_set s d q h2).trans (objSet_context hr hb hc ho hm hf)

end Sys2Proof.Machine
end

section
/-! What comes from outside (R80, R86, R87, R374, R375, R453, R457, R464, R467, R469). -/
namespace Sys2Proof.Machine

/-! Frames on links (R453, R457). -/

section
variable {s : State} {die dir : Nat}

theorem linkFrame_down (ok transit : Bool) (h : s.linkDown.contains (8 * die + dir) = true) :
    s.linkFrame die dir ok transit = s := by
  simp only [State.linkFrame, h, if_true]

variable (h : s.linkDown.contains (8 * die + dir) = false)
include h

theorem linkFrame_forged (transit : Bool) : s.linkFrame die dir false transit
    = { s with linkFail := store 0 s.linkFail (8 * die + dir) (look 0 s.linkFail (8 * die + dir) + 1) } := by
  simp only [State.linkFrame, h, Bool.false_eq_true, Bool.not_false, if_true, if_false]

theorem linkFrame_transit : s.linkFrame die dir true true = { s with
    linkFail := del s.linkFail (8 * die + dir)
    keys := store 0 s.keys (8 * die + dir) ((look 0 s.keys (8 * die + dir) + 1) % 2 ^ 48) } := by
  simp only [State.linkFrame, h, Bool.not_true, Bool.false_eq_true, or_true, if_true, if_false]

/-- A closed link discards a frame that ends there. -/
theorem linkFrame_closed (hd : die < 20) (hc : bit (s.sysR 0x0401 die 0 0).toNat dir = false) :
    s.linkFrame die dir true false = State.dropped { s with
      linkFail := del s.linkFail (8 * die + dir)
      keys := store 0 s.keys (8 * die + dir) ((look 0 s.keys (8 * die + dir) + 1) % 2 ^ 48) } (8 * die + dir) := by
  simp only [State.linkFrame, h, hc, Nat.not_le.mpr hd, Bool.not_true, Bool.false_eq_true, or_self, if_false]

end

/-- A frame on a link that arrives, by what the link makes of it. -/
theorem frame_link {s t : State} {die dir : Nat} {ok transit : Bool} {r : List Frame}
    (hi : s.inbox = .link die dir ok transit :: r) (h : State.linkFrame { s with inbox := r } die dir ok transit = t) :
    s.frame = t := by
  simp only [State.frame, hi, h]

@[simp] theorem sysR_sysW_self (s : State) (num die vd sub : Nat) (x : DWord) :
    (s.sysW num die vd sub x).sysR num die vd sub = x := look_store_self ..

/-- DROPS counts up to its limit (R454). -/
theorem sysR_dropped (s : State) (l : Nat) :
    let fw := (s.sysR 0x0401 (l / 8) 0 0).toNat
    ((s.dropped l).sysR 0x0401 (l / 8) 0 0).toNat = fw % 2 ^ 32 + min 65535 (fld fw 32 16 + 1) * 2 ^ 32 := by
  intro fw
  rw [State.dropped, sysR_sysW_self, BitVec.toNat_ofNat, Nat.mod_eq_of_lt]
  omega

/-! Accesses of peers (R86, R87). -/

/-- A peer's access to the one address space of a VD is made: its place is here, free and served. -/
structure PeerReaches (s : State) (vd va size : Nat) (need : Need) (a : ASpace) (pl : Place) (o : Obj) : Prop where
  space : s.objs.filter (fun o => o.otype == 4 && o.vd == vd) = [o]
  maps : s.aspaceOf o = a
  place : locate s (peerAg vd a) need va size = .ok pl
  here : pl.peer = none
  free : pl.granules.any s.locked.contains = false
  tiles : s.meetTiles none none none [pl] = none
  served : s.unserved (peerAg vd a) [pl] = none

section
variable {s : State} {vd va : Nat} {a : ASpace} {pl : Place} {o : Obj} {r : List Frame}

theorem peerReaches_iff {size : Nat} {need : Need} : PeerReaches s vd va size need a pl o ↔
    s.objs.filter (fun o => o.otype == 4 && o.vd == vd) = [o] ∧ s.aspaceOf o = a
      ∧ locate s (peerAg vd a) need va size = .ok pl ∧ pl.peer = none ∧ pl.granules.any s.locked.contains = false
      ∧ s.meetTiles none none none [pl] = none ∧ s.unserved (peerAg vd a) [pl] = none :=
  ⟨fun ⟨h1, h2, h3, h4, h5, h6, h7⟩ => ⟨h1, h2, h3, h4, h5, h6, h7⟩,
    fun ⟨h1, h2, h3, h4, h5, h6, h7⟩ => ⟨h1, h2, h3, h4, h5, h6, h7⟩⟩

theorem peerAccess_reaches {size : Nat} {need : Need} (f : State → Place → State)
    (h : PeerReaches s vd va size need a pl o) : s.peerAccess vd va size need f
      = f (({ s with inbox := s.inbox.drop 1 } : State).touch (peerAg vd a) need.w pl) pl := by
  simp only [State.peerAccess, h.space, h.maps, h.place, h.here, h.free, h.tiles, h.served, List.map_cons, List.map_nil,
    List.findSome?_cons, Option.isNone_none, Option.orElse_none, Bool.false_eq_true, if_true, if_false]

theorem frame_store {bytes : List Byte} (hi : s.inbox = .store vd va bytes :: r)
    (h : PeerReaches s vd va bytes.length { w := true } a pl o) :
    s.frame = (({ s with inbox := r } : State).touch (peerAg vd a) true pl).wkeys pl.keys bytes := by
  simp only [State.frame, hi, peerAccess_reaches _ h, List.drop_one, List.tail_cons]

theorem frame_load {peer size : Nat} (hi : s.inbox = .load vd peer va size :: r)
    (h : PeerReaches s vd va size { r := true } a pl o) :
    s.frame =
      let t := ({ s with inbox := r } : State).touch (peerAg vd a) false pl
      t.sendOut vd (.value peer (t.rkeys pl.keys)) := by
  simp only [State.frame, hi, State.peerAsk, peerAccess_reaches _ h, List.drop_one, List.tail_cons]

theorem frame_atomic {peer size op x y v : Nat} (hi : s.inbox = .atomic vd peer va size op x y :: r)
    (h : PeerReaches s vd va size { r := true, w := true } a pl o)
    (hv : peerAtomic op size x y ((({ s with inbox := r } : State).touch (peerAg vd a) true pl).rkeys pl.keys) = some v) :
    s.frame =
      let t := ({ s with inbox := r } : State).touch (peerAg vd a) true pl
      (t.wkeys pl.keys (leBytes v size)).sendOut vd (.value peer (t.rkeys pl.keys)) := by
  simp only [State.frame, hi, State.peerAsk, peerAccess_reaches _ h, List.drop_one, List.tail_cons, hv]

end

/-! Messages and signals of peers (R77 to R79, R87). -/

section
variable {s : State} {vd ep : Nat} {o : Obj} (ho : s.obj? 1 vd ep = some o) (hr : (s.vd? o.vd).resetting = false)
  (peer badge : Nat) (ws : List Word) (ts : List Cap)
include ho hr

theorem peerMessage_sent : s.peerMessage vd ep peer badge ws ts none =
    let u := s.unsealAll vd peer (ts.take 4)
    u.1.post o.pa { badge := badge % 65536, words := ws.take 8, caps := u.2 } (some peer) := by
  simp only [State.peerMessage, ho, hr, Bool.false_eq_true, if_false]

theorem peerMessage_called (call : Nat) : s.peerMessage vd ep peer badge ws ts (some call) =
    let u := s.unsealAll vd peer (ts.take 4)
    let n := u.1.newReply (.peer peer call) none
    n.1.post o.pa { badge := badge % 65536, words := ws.take 8, caps := u.2, reply := some n.2 } (some peer) := by
  simp only [State.peerMessage, ho, hr, Bool.false_eq_true, if_false]

end

/-- A peer's message that arrives, by what it does at its endpoint. -/
theorem frame_message {s t : State} {vd ep peer badge : Nat} {ws : List Word} {ts : List Cap} {call : Option Nat}
    {r : List Frame} (hi : s.inbox = .message vd ep peer badge ws ts call :: r)
    (h : State.peerMessage { s with inbox := r } vd ep peer badge ws ts call = t) : s.frame = t := by
  simp only [State.frame, hi, h]

theorem frame_signal {s : State} {vd peer base badge : Nat} {o : Obj} {r : List Frame}
    (hi : s.inbox = .signal vd peer base badge :: r) (ho : s.obj? 2 vd base = some o) :
    s.frame = ({ s with inbox := r } : State).noteOr o.pa (badge % 65536) := by
  have ho' : ({ s with inbox := r } : State).obj? 2 vd base = some o := ho
  simp only [State.frame, hi, ho']

theorem frame_reset {s : State} {vd peer : Nat} {r : List Frame} (hi : s.inbox = .reset peer vd :: r) :
    s.frame = ({ s with inbox := r } : State).exclude (fun m k => m == peer && k == vd) := by
  simp only [State.frame, hi]

/-! Tokens (R86, R469). -/

theorem unseal_plain (s : State) (vd peer : Nat) {c : Cap} (h : c.tag = false ∨ c.has pGLOBAL = false) :
    s.unseal vd peer c = ⟨c.bits, false⟩ := by
  rcases h with h | h <;> simp [State.unseal, h]

section
variable {c : Cap} (ht : c.tag = true) (ho : c.otype ∈ [1, 2, 7, 8])
include ht ho

theorem unseal_object (s : State) (vd peer : Nat) (hg : c.has pGLOBAL = true) : s.unseal vd peer c = c := by
  have hc : [1, 2, 7, 8].contains c.otype = true := List.contains_iff_mem.mpr ho
  have h0 : c.otype ≠ 0 ∧ ¬256 ≤ c.otype := by
    simp only [List.mem_cons, List.not_mem_nil, or_false] at ho
    omega
  simp only [State.unseal, ht, hg, hc, h0, Bool.and_self, Bool.not_true, Bool.false_eq_true, if_true, if_false]

theorem learnFar_contains (s : State) (vd peer : Nat) :
    (s.learnFar vd peer c).far.contains (vd, c.otype, c.base.toNat, peer) = true := by
  have hc : [1, 2, 7, 8].contains c.otype = true := List.contains_iff_mem.mpr ho
  unfold State.learnFar
  dsimp only
  rw [ht, hc, Bool.true_and, Bool.true_and]
  by_cases h : s.far.contains (vd, c.otype, c.base.toNat, peer) = true
  · rw [h]
    exact h
  · rw [if_pos (by rw [Bool.not_eq_true] at h; rw [h]; rfl)]
    simp

end

/-! Links and peers that fail (R457, R464). -/

theorem takeDown_due {s : State} {l : Nat} (hf : 16 ≤ look 0 s.linkFail l) (hd : s.linkDown.contains l = false)
    (hl : l < 160 ∨ 240 ≤ l) : s.takeDown l = { s with linkDown := l :: s.linkDown, linkFail := del s.linkFail l } := by
  have h1 : ¬(look 0 s.linkFail l < 16 ∨ s.linkDown.contains l = true) := by
    rw [hd]
    simpa using hf
  have h2 : ¬(160 ≤ l ∧ l < 240) := by omega
  rw [State.takeDown, if_neg h1, if_neg h2]

theorem takeDown_early {s : State} {l : Nat} (h : look 0 s.linkFail l < 16) : s.takeDown l = s := if_pos (.inl h)

/-- A peer that is lost leaves memory and units. -/
theorem peerGone_frame (s : State) (n : Nat) :
    s.peerGone n = { s with lost := (s.lose n).lost, vds := (s.peerGone n).vds } := by
  unfold State.peerGone State.lose
  split <;> rfl

theorem mem_lose_self (s : State) (n : Nat) : n ∈ (s.lose n).lost := by
  unfold State.lose
  split
  · next h => exact List.contains_iff_mem.mp h
  · exact List.mem_cons_self

theorem mem_lose_of_mem {s : State} {k : Nat} (n : Nat) (h : k ∈ s.lost) : k ∈ (s.lose n).lost := by
  unfold State.lose
  split
  · exact h
  · exact List.mem_cons_of_mem n h

/-! Host slots, launch packets and interrupt sources (R80, R364, R374, R375, R467). -/

/-- A host's request for an idle slot reaches the endpoint that the slot is bound to. -/
theorem hostRequest_accepted {s : State} {vd slot : Nat} {ws : List Word} {o : Obj} {r : List Frame} (hs : slot ≤ 15)
    (hw : ws.length = 9) (hi : s.inbox = .host vd slot ws true :: r) (h0 : fld (s.sysR 0x0406 0 vd slot).toNat 6 50 ≠ 0)
    (ho : s.objs.find? (fun o => o.otype == 1 && o.pa == fld (s.sysR 0x0406 0 vd slot).toNat 6 50 * 64) = some o)
    (hst : (look {} s.slots (slotKey vd slot)).status = 0 ∨ (look {} s.slots (slotKey vd slot)).status = 3)
    (hr : (s.vd? o.vd).resetting = false) (hl : s.linkDown.contains (240 + (s.vd? vd).port) = false) :
    s.hostRequest =
      let n := ({ s with inbox := r } : State).newReply (.hostSlot vd slot) none
      let k : Slot := ⟨1, ws, (look {} s.slots (slotKey vd slot)).reply⟩
      ({ n.1 with slots := put n.1.slots (slotKey vd slot) k } : State).post o.pa
        { badge := 0xFF00 + slot, words := (ws.drop 1).take (msgWords (ws.headD 0#32).toNat), caps := [],
          reply := some n.2 } := by
  have hpa : fld (s.sysR 0x0406 0 vd slot).toNat 6 50 * 64 ≠ 0 := Nat.mul_ne_zero h0 (by decide)
  have hok : ¬(!true ∨ ws.length ≠ 9 ∨ 15 < slot ∨ s.linkDown.contains (240 + (s.vd? vd).port) = true
      ∨ ((look {} s.slots (slotKey vd slot)).status ≠ 0 ∧ (look {} s.slots (slotKey vd slot)).status ≠ 3)) := by
    rw [hl]
    simp only [Bool.not_true, Bool.false_eq_true, false_or, not_or]
    omega
  unfold State.hostRequest
  rw [hi]
  dsimp only
  rw [show (if fld (State.sysR { s with inbox := r } 0x0406 0 vd slot).toNat 6 50 * 64 = 0 then none
    else s.objs.find? (fun o => o.otype == 1 && o.pa == fld (State.sysR { s with inbox := r } 0x0406 0 vd slot).toNat 6 50 * 64))
      = some o from (if_neg hpa).trans ho]
  dsimp only
  refine (if_neg hok).trans (if_neg ?_)
  exact ne_true_of_eq_false hr

/-- A packet whose record is admitted and has room is submitted; `us` are its tokens as they arrive. -/
theorem launchPacket_submits {s t : State} {vd index origin : Nat} {bits : BitVec 6144} {tags : BitVec 48} {us cs : List Cap}
    {r : List Frame} (hi : s.inbox = .launch vd index origin bits tags :: r)
    (hu : ({ s with inbox := r } : State).unsealRecord vd origin bits tags = us)
    (ht : us.foldl (fun (t : State) c => t.learnFar vd origin c) { s with inbox := r } = t)
    (hp : t.packetRecord vd index origin us = some cs) (hf : t.intakeFull vd (cs.getD 1 Cap.null) = false) :
    s.launchPacket = (t.submit vd (recordBits cs) (recordTagBits cs)).1 := by
  simp only [State.launchPacket, hi, hu, ht, hp, hf, Bool.false_eq_true, if_false]

theorem fire_unbound {s : State} {n : Nat} (h : ∀ o ∈ s.objs, o.otype = 5 → lineSource s o.pa ≠ n) : s.fire n = s := by
  have hn : s.objs.find? (fun o => o.otype == 5 && lineSource s o.pa == n) = none := by
    simpa [List.find?_eq_none] using h
  simp only [State.fire, hn]

theorem fire_bound {s : State} {n : Nat} {o : Obj}
    (h : s.objs.find? (fun o => o.otype == 5 && lineSource s o.pa == n) = some o) :
    s.fire n = (s.noteOr o.pa (s.freeVal % 65536)).draw := by
  simp only [State.fire, h]

/-- Settles O60: one lemma for each frame that arrives and each event of the outside. -/
theorem outsideEvents : Obligations.OutsideEvents := by
  unfold Obligations.OutsideEvents
  refine ⟨fun die dir ok transit r => ⟨?_, ?_, ?_, ?_, fun s l _ => sysR_dropped s l⟩,
    fun vd va a pl o r => ⟨fun bytes => ?_, fun peer size => ?_, fun peer size op x y v => ?_⟩,
    fun vd ep peer badge ws ts o r => ⟨?_, fun call => ?_⟩, fun vd peer base badge o r => ⟨?_, ?_⟩,
    fun s vd peer c h => unseal_plain s vd peer h,
    fun s vd peer c ht hg ho => ⟨unseal_object ht ho s vd peer hg, ?_⟩, fun l => ⟨?_, ?_, ?_⟩, fun s n hn => ?_,
    fun vd slot ws o r hs hw => ?_, fun vd index origin bits tags cs r => ?_, fun n => ⟨?_, fun s o h => ?_⟩⟩
  · exact fun s ⟨hi, hd⟩ => congrArg Host.Outcome.next
      (frame_link hi (linkFrame_forged (s := { s with inbox := r }) hd transit))
  · exact fun s ⟨hi, hd⟩ => congrArg Host.Outcome.next
      (frame_link hi (linkFrame_down (s := { s with inbox := r }) ok transit hd))
  · exact fun s ⟨hi, hd⟩ => congrArg Host.Outcome.next
      (frame_link hi (linkFrame_transit (s := { s with inbox := r }) hd))
  · exact fun s ⟨hi, hlt, hd, hc⟩ => congrArg Host.Outcome.next
      (frame_link hi (linkFrame_closed (s := { s with inbox := r }) hd hlt hc))
  · exact fun s ⟨hi, h⟩ => congrArg Host.Outcome.next (frame_store hi (peerReaches_iff.mpr h))
  · exact fun s ⟨hi, h⟩ => congrArg Host.Outcome.next (frame_load hi (peerReaches_iff.mpr h))
  · exact fun s ⟨hi, h, hv⟩ => congrArg Host.Outcome.next (frame_atomic hi (peerReaches_iff.mpr h) hv)
  · exact fun s ⟨hi, ho, hr⟩ => congrArg Host.Outcome.next
      (frame_message hi (peerMessage_sent (s := { s with inbox := r }) ho hr peer badge ws ts))
  · exact fun s ⟨hi, ho, hr⟩ => congrArg Host.Outcome.next
      (frame_message hi (peerMessage_called (s := { s with inbox := r }) ho hr peer badge ws ts call))
  · exact fun s ⟨hi, ho⟩ => congrArg Host.Outcome.next (frame_signal hi ho)
  · exact fun s hi => congrArg Host.Outcome.next (frame_reset hi)
  · have hu : s.unseal vd peer c = c := unseal_object ht ho s vd peer hg
    simp only [State.unsealAll, List.map_cons, List.map_nil, List.foldl_cons, List.foldl_nil, hu]
    exact learnFar_contains ht ho s vd peer
  · exact fun s ⟨hf, hd, hl⟩ => congrArg Host.Outcome.next (takeDown_due hf hd hl)
  · exact fun s hf => congrArg Host.Outcome.next (takeDown_early hf)
  · exact fun _ _ => rfl
  · rw [show exec (.peerTimeout n) s = .next (s.peerGone n) from congrArg Host.Outcome.next (if_pos hn), peerGone_frame]
    exact ⟨_, rfl, mem_lose_self s n, fun k hk => mem_lose_of_mem n hk, rfl, rfl⟩
  · exact fun s ⟨hi, h0, ho, hst, hr, hl⟩ => congrArg Host.Outcome.next (hostRequest_accepted hs hw hi h0 ho hst hr hl)
  · exact fun s ⟨hi, hp, hf⟩ => congrArg Host.Outcome.next (launchPacket_submits hi rfl rfl hp hf)
  · exact fun s h => congrArg Host.Outcome.next (fire_unbound h)
  · exact ⟨s.freeVal % 65536, Nat.mod_lt _ (by decide), congrArg Host.Outcome.next (fire_bound h)⟩

end Sys2Proof.Machine
end

section
/-! Rounding (R103 to R106): a magnitude as a fraction, rounded to an integer of some unit. -/
namespace Sys2Proof.Machine

/-- Which neighbour is taken does not depend on the unit in which a magnitude is counted. -/
theorem goesUp_scale (rm : RM) (neg odd : Bool) (a y b : Nat) {c : Nat} (hc : 0 < c) :
    GoesUp rm neg odd (a * c) (y * c) (b * c) ↔ GoesUp rm neg odd a y b := by
  cases rm with
  | rne =>
    have h1 : a * c + b * c < 2 * (y * c) ↔ a + b < 2 * y := by
      rw [← Nat.add_mul, ← Nat.mul_assoc, Nat.mul_lt_mul_right hc]
    have h2 : 2 * (y * c) = a * c + b * c ↔ 2 * y = a + b := by
      rw [← Nat.add_mul, ← Nat.mul_assoc, Nat.mul_left_inj (Nat.ne_of_gt hc)]
    simp only [GoesUp, h1, h2]
  | rz => exact Iff.rfl
  | rdn => exact Iff.rfl
  | rup => exact Iff.rfl
  | rna =>
    have h1 : a * c + b * c ≤ 2 * (y * c) ↔ a + b ≤ 2 * y := by
      rw [← Nat.add_mul, ← Nat.mul_assoc, Nat.mul_le_mul_right_iff hc]
    simp only [GoesUp, h1]
  | sr z =>
    have h1 : z * (b * c - a * c) < (y * c - a * c) * 2 ^ 32 ↔ z * (b - a) < (y - a) * 2 ^ 32 := by
      rw [← Nat.sub_mul, ← Nat.sub_mul, ← Nat.mul_assoc, Nat.mul_right_comm _ c,
        Nat.mul_lt_mul_right hc]
    simp only [GoesUp, h1]

/-- The fraction y/d rounds to an integer, inexact or not (R103, R106). -/
def RoundsAt (rm : RM) (neg : Bool) (y d : Nat) (r : Nat × Bool) : Prop :=
  RoundsInt rm neg y d r.1 ∧ (r.2 = true ↔ y % d ≠ 0)

/-- An inexact result raises INX (R106). -/
theorem RoundsAt.inexact {rm : RM} {neg : Bool} {y d : Nat} {r : Nat × Bool} (h : RoundsAt rm neg y d r) :
    (if r.2 then fINX else 0) = if y % d = 0 then 0 else fINX := by
  simp only [h.2, ne_eq, ite_not]

theorem RoundsInt.pos {rm : RM} {neg : Bool} {y d k : Nat} (h : RoundsInt rm neg y d k) : 0 < d := by
  obtain ⟨q, up, h1, h2, -⟩ := h
  rcases Nat.eq_zero_or_pos d with rfl | hd
  · omega
  · exact hd

theorem roundsInt_scale {rm : RM} {neg : Bool} {y d k c : Nat} (hc : 0 < c) :
    RoundsInt rm neg (y * c) (d * c) k ↔ RoundsInt rm neg y d k := by
  have hg (q : Nat) : (q * (d * c) ≠ y * c ∧ GoesUp rm neg (q % 2 == 1) (q * (d * c)) (y * c) ((q + 1) * (d * c)))
      ↔ (q * d ≠ y ∧ GoesUp rm neg (q % 2 == 1) (q * d) y ((q + 1) * d)) := by
    rw [← Nat.mul_assoc, ← Nat.mul_assoc, goesUp_scale _ _ _ _ _ _ hc, Ne, Nat.mul_left_inj (Nat.ne_of_gt hc)]
  have h1 (q : Nat) : q * (d * c) ≤ y * c ↔ q * d ≤ y := by rw [← Nat.mul_assoc, Nat.mul_le_mul_right_iff hc]
  have h2 (q : Nat) : y * c < (q + 1) * (d * c) ↔ y < (q + 1) * d := by rw [← Nat.mul_assoc, Nat.mul_lt_mul_right hc]
  simp only [RoundsInt, hg, h1, h2]

/-- Equal fractions round alike. -/
theorem RoundsAt.congr {rm : RM} {neg : Bool} {y d y' d' : Nat} {r : Nat × Bool} (h : RoundsAt rm neg y d r)
    (hd' : 0 < d') (e : y * d' = y' * d) : RoundsAt rm neg y' d' r := by
  obtain ⟨hr, hx⟩ := h
  have hd := hr.pos
  refine ⟨?_, ?_⟩
  · rw [← roundsInt_scale hd, ← e, Nat.mul_comm d' d, roundsInt_scale hd']
    exact hr
  · have h1 := Nat.mul_mod_mul_right d' y d
    have h2 := Nat.mul_mod_mul_right d y' d'
    rw [e, Nat.mul_comm d d', h2] at h1
    have h3 : y % d = 0 ↔ y' % d' = 0 := by
      rw [← mul_eq_zero_iff_right (Nat.ne_of_gt hd'), ← h1, mul_eq_zero_iff_right (Nat.ne_of_gt hd)]
    rw [hx, Ne, Ne, h3]

/-- Rounding by quotient and remainder, with the decision `up`. -/
theorem roundsAt_of_quotient {rm : RM} {neg : Bool} {q r D : Nat} {up : Bool} (hr : r < D)
    (hup : up = true ↔ r ≠ 0 ∧ GoesUp rm neg (q % 2 == 1) (q * D) (q * D + r) (q * D + D)) :
    RoundsAt rm neg (q * D + r) D (if up then q + 1 else q, r != 0) := by
  have hm : (q * D + r) % D = r := by rw [Nat.mul_comm, Nat.mul_add_mod, Nat.mod_eq_of_lt hr]
  have hn : (q + 1) * D = q * D + D := Nat.add_one_mul ..
  have hne : q * D ≠ q * D + r ↔ r ≠ 0 := by omega
  refine ⟨⟨q, if up then 1 else 0, by omega, by omega, by split <;> decide, ?_, by split <;> rfl⟩, by simp [hm]⟩
  rw [hn, hne, ← hup]
  cases up <;> simp

theorem roundAt_spec (rm : RM) (neg : Bool) (m : Nat) (e u : Int) :
    RoundsAt rm neg (m * 2 ^ (e - u).toNat) (2 ^ (u - e).toNat) (roundAt rm neg m e u) := by
  by_cases hu : u ≤ e
  · have h0 : (u - e).toNat = 0 := by omega
    simp only [roundAt, if_pos hu, h0, pow_zero]
    refine ⟨⟨m * 2 ^ (e - u).toNat, 0, ?_⟩, ?_⟩ <;> simp [Nat.mod_one]
  · have h0 : (e - u).toNat = 0 := by omega
    simp only [roundAt, if_neg hu, h0, pow_zero, Nat.mul_one, Nat.shiftRight_eq_div_pow]
    have hr : m % 2 ^ (u - e).toNat < 2 ^ (u - e).toNat := Nat.mod_lt m (Nat.two_pow_pos _)
    have hq := Nat.div_add_mod' m (2 ^ (u - e).toNat)
    generalize 2 ^ (u - e).toNat = D at *
    generalize m / D = q at *
    generalize m % D = r at *
    subst hq
    refine roundsAt_of_quotient hr ?_
    by_cases hz : r = 0
    · simp [hz]
    · simp only [hz, if_false, ne_eq, not_false_eq_true, true_and]
      generalize q * D = P
      cases rm with
      | rne => simp [GoesUp]; omega
      | rz => simp [GoesUp]
      | rdn => simp [GoesUp]
      | rup => simp [GoesUp]
      | rna => simp [GoesUp]; omega
      | sr z => simp [GoesUp]

end Sys2Proof.Machine
end

section
/-! `round` into a format (R103 to R106): codes and their magnitudes, tininess, overflow, the code delivered. -/
namespace Sys2Proof.Machine

/-- A code by an exponent step and a significand (R91). -/
theorem mag_of_parts (f : FF) {j q : Nat} (hq : q ≤ 2 ^ (f.mbits + 1)) (hj : j = 0 ∨ 2 ^ f.mbits ≤ q) :
    f.mag (j * 2 ^ f.mbits + q) = q * 2 ^ j := by
  have hB : 0 < 2 ^ f.mbits := Nat.two_pow_pos _
  rw [Nat.pow_succ] at hq
  unfold FF.mag
  generalize 2 ^ f.mbits = B at *
  by_cases hlt : q < B
  · obtain rfl : j = 0 := hj.resolve_right (by omega)
    simp [hlt]
  · have hge : ¬j * B + q < B := by omega
    rw [if_neg hge]
    rcases Nat.eq_or_lt_of_le hq with rfl | hlt2
    · have hc : j * B + B * 2 = (j + 2) * B := by ring
      rw [hc, Nat.mul_mod_left, Nat.mul_div_cancel _ hB, Nat.add_sub_assoc (by decide), Nat.pow_succ]
      ring
    · have hc : j * B + q = (q - B) + (j + 1) * B := by rw [Nat.add_one_mul]; omega
      rw [hc, Nat.add_mul_mod_self_right, Nat.add_mul_div_right _ _ hB, Nat.mod_eq_of_lt (by omega),
        Nat.div_eq_of_lt (by omega)]
      congr 2 <;> omega

theorem parts_of_code (f : FF) (c : Nat) :
    ∃ j q, c = j * 2 ^ f.mbits + q ∧ q < 2 ^ (f.mbits + 1) ∧ (j = 0 ∨ 2 ^ f.mbits ≤ q) := by
  have hB : 0 < 2 ^ f.mbits := Nat.two_pow_pos _
  rw [Nat.pow_succ]
  generalize 2 ^ f.mbits = B at *
  rcases Nat.lt_or_ge c B with h | h
  · exact ⟨0, c, by omega, by omega, .inl rfl⟩
  · have h1 : 1 ≤ c / B := (Nat.one_le_div_iff hB).mpr h
    have h2 := Nat.mod_lt c hB
    have h3 := Nat.div_add_mod' c B
    refine ⟨c / B - 1, B + c % B, ?_, by omega, .inr (by omega)⟩
    obtain ⟨t, ht⟩ := Nat.exists_eq_add_of_le' h1
    rw [ht, Nat.add_one_mul] at h3
    rw [ht, Nat.add_sub_cancel]
    omega

theorem mag_strictMono (f : FF) : StrictMono f.mag := by
  refine strictMono_nat_of_lt_succ fun c => ?_
  obtain ⟨j, q, rfl, hq, hj⟩ := parts_of_code f c
  rw [Nat.add_assoc, mag_of_parts f (by omega) hj, mag_of_parts f hq (by omega)]
  exact Nat.mul_lt_mul_of_pos_right (Nat.lt_succ_self q) (Nat.two_pow_pos j)

/-- ± m × 2^e stands for the magnitude x/d, in units of the format: they have one leading bit and round alike, down to the
format's precision. -/
structure StandsFor (f : FF) (rm : RM) (neg : Bool) (m : Nat) (e : Int) (x d : Nat) : Prop where
  low : d * 2 ^ (ilog2 m + e - f.unit).toNat ≤ x * 2 ^ (f.unit - (ilog2 m + e)).toNat
  high : x * 2 ^ (f.unit - (ilog2 m + e + 1)).toNat < d * 2 ^ (ilog2 m + e + 1 - f.unit).toNat
  rounds : ∀ u, ilog2 m + e - f.mbits ≤ u →
    RoundsAt rm neg (x * 2 ^ (f.unit - u).toNat) (d * 2 ^ (u - f.unit).toNat) (roundAt rm neg m e u)
  floor : ∀ z, rm = .sr z → ∀ u,
    m * 2 ^ (e - u).toNat / 2 ^ (u - e).toNat = x * 2 ^ (f.unit - u).toNat / (d * 2 ^ (u - f.unit).toNat)

/-- Tiny after rounding as with an unbounded exponent (R106). -/
def IsTiny (f : FF) (rm : RM) (neg : Bool) (x d : Nat) : Prop :=
  2 * x ≤ (2 ^ (f.mbits + 1) - 1) * d
    ∨ (2 * x < 2 ^ (f.mbits + 1) * d
      ∧ ¬GoesUp rm neg true ((2 ^ (f.mbits + 1) - 1) * d) (2 * x) (2 ^ (f.mbits + 1) * d))

section
variable {f : FF} {rm : RM} {neg : Bool} {m : Nat} {e : Int} {x d : Nat}

theorem mbits_pos (f : FF) : 0 < f.mbits := by cases f <;> decide

theorem unit_eq (f : FF) : f.unit = 1 - f.bias - f.mbits := rfl

theorem StandsFor.pos (h : StandsFor f rm neg m e x d) : 0 < d :=
  Nat.pos_of_ne_zero fun h0 => absurd h.high (by simp [h0])

theorem two_pow_mbits_succ_mul (f : FF) (d : Nat) : 2 ^ (f.mbits + 1) * d = 2 * (d * 2 ^ f.mbits) := by
  rw [Nat.pow_succ]
  ring

theorem isTiny_of_lt_half (h : x < d * 2 ^ (f.mbits - 1)) : IsTiny f rm neg x d := by
  have hp : 2 ^ (f.mbits + 1) = 4 * 2 ^ (f.mbits - 1) := by
    rw [Nat.pow_succ, ← Nat.two_pow_pred_mul_two (mbits_pos f)]
    ring
  have hB : 0 < 2 ^ (f.mbits - 1) := Nat.two_pow_pos _
  left
  calc 2 * x ≤ 2 * (d * 2 ^ (f.mbits - 1)) := Nat.mul_le_mul_left 2 (Nat.le_of_lt h)
    _ = 2 * 2 ^ (f.mbits - 1) * d := by ring
    _ ≤ (2 ^ (f.mbits + 1) - 1) * d := Nat.mul_le_mul_right d (by omega)

theorem not_isTiny_of_le (hd : 0 < d) (h : d * 2 ^ f.mbits ≤ x) : ¬IsTiny f rm neg x d := by
  have hx : 2 ^ (f.mbits + 1) * d ≤ 2 * x := two_pow_mbits_succ_mul f d ▸ Nat.mul_le_mul_left 2 h
  have hs : (2 ^ (f.mbits + 1) - 1) * d < 2 ^ (f.mbits + 1) * d :=
    Nat.mul_lt_mul_of_pos_right (Nat.sub_lt (Nat.two_pow_pos _) Nat.one_pos) hd
  rintro (h | ⟨h, -⟩) <;> omega

/-- Below the least normal number, with one bit more: tiny unless it rounds up to that number. -/
theorem isTiny_iff_of_half_units {k : Nat} (hx : x < d * 2 ^ f.mbits) (h : RoundsInt rm neg (x * 2) d k) :
    IsTiny f rm neg x d ↔ k ≠ 2 ^ (f.mbits + 1) := by
  obtain ⟨q, up, hql, hqh, hup, hdir, rfl⟩ := h
  have htop : x * 2 < 2 ^ (f.mbits + 1) * d := by rw [two_pow_mbits_succ_mul]; omega
  have hq : q < 2 ^ (f.mbits + 1) := Nat.lt_of_mul_lt_mul_right (hql.trans_lt htop)
  rw [IsTiny, Nat.mul_comm 2 x]
  rcases Nat.lt_or_ge (q + 1) (2 ^ (f.mbits + 1)) with hq1 | hq1
  · exact iff_of_true (.inl ((Nat.le_of_lt hqh).trans (Nat.mul_le_mul_right d (by omega)))) (by omega)
  · have hT : 2 ^ (f.mbits + 1) = q + 1 := by omega
    have hodd : (q % 2 == 1) = true := by
      rw [Nat.pow_succ] at hT
      rw [beq_iff_eq]
      omega
    have hne : q * d ≠ x * 2 ↔ ¬x * 2 ≤ q * d := by omega
    have hup1 : q + up ≠ q + 1 ↔ ¬up = 1 := by omega
    rw [hT, hup1, hdir, hodd, hne, Nat.add_sub_cancel]
    tauto

theorem StandsFor.tiny_iff (h : StandsFor f rm neg m e x d) :
    (if (roundAt rm neg m e (ilog2 m + e - f.mbits)).1 = 2 ^ (f.mbits + 1) then (ilog2 m : Int) + e + 1 else ilog2 m + e)
      < 1 - f.bias ↔ IsTiny f rm neg x d := by
  have hd := h.pos
  obtain ⟨hlo, hhi, hr, -⟩ := h
  have hr0 := (hr _ (le_refl _)).1
  have hu := unit_eq f
  generalize (ilog2 m : Int) + e = k at *
  have hx {t : Nat} (ht : k + 1 - f.unit ≤ t) : x < d * 2 ^ t :=
    calc x ≤ x * 2 ^ (f.unit - (k + 1)).toNat := Nat.le_mul_of_pos_right _ (Nat.two_pow_pos _)
      _ < d * 2 ^ (k + 1 - f.unit).toNat := hhi
      _ ≤ d * 2 ^ t := Nat.mul_le_mul_left d (Nat.pow_le_pow_right (by decide) (by omega))
  rcases lt_trichotomy k (-f.bias) with hlt | rfl | hgt
  · -- a binade below the last one that can round up to the least normal number
    have hmb := mbits_pos f
    exact iff_of_true (by split <;> omega) (isTiny_of_lt_half (hx (by omega)))
  · -- the last binade below: counted in half units
    have h1 : (f.unit - (-f.bias - f.mbits)).toNat = 1 := by omega
    have h2 : (-f.bias - f.mbits - f.unit).toNat = 0 := by omega
    rw [h1, h2, pow_one, pow_zero, Nat.mul_one] at hr0
    rw [isTiny_iff_of_half_units (hx (by omega)) hr0]
    split <;> omega
  · -- not below the least normal number
    have h1 : (f.unit - k).toNat = 0 := by omega
    rw [h1, pow_zero, Nat.mul_one] at hlo
    refine iff_of_false (by split <;> omega) (not_isTiny_of_le hd (le_trans ?_ hlo))
    exact Nat.mul_le_mul_left d (Nat.pow_le_pow_right (by decide) (by omega))

end

/-! Overflow (R104, R105). -/

/-- Does an overflow go to infinity (R104)? -/
def RM.overflowsToInf (rm : RM) (neg thr : Bool) : Bool :=
  match rm with
  | .rne | .rna => true
  | .rz => false
  | .rdn => neg
  | .rup => !neg
  | .sr _ => thr

theorem overflowCode_of_finite (f : FF) {rm : RM} (satf : Bool) {neg thr : Bool} (h : rm.overflowsToInf neg thr = false) :
    overflowCode f rm satf neg thr = f.maxCode := if_pos (congrArg not h)

theorem overflowCode_of_inf (f : FF) {rm : RM} (satf : Bool) {neg thr : Bool} (h : rm.overflowsToInf neg thr = true) :
    overflowCode f rm satf neg thr = if satf = true ∨ f = .e2m1 then f.maxCode
      else if f = .e4m3 then f.nanCode else f.maxCode + 1 := by
  refine (if_neg (Bool.eq_false_iff.mp (congrArg not h))).trans ?_
  cases f <;> simp

section
variable {f : FF} {rm : RM} {satf neg : Bool} {x d : Nat}

/-- The code of an overflow, under the sign, where `inf` says whether it goes to infinity; a NaN has no sign (R92, R104). -/
theorem overflow_code_cases {thr : Bool} {inf : Prop} (hi : rm.overflowsToInf neg thr = true ↔ inf) (sign c : Nat)
    (hc : overflowCode f rm satf neg thr = c) :
    (¬inf ∨ satf = true ∨ f = .e2m1 → (if f = .e4m3 && c = f.nanCode then c else sign + c) = sign + f.maxCode)
      ∧ (inf → satf = false → f = .e4m3 → (if f = .e4m3 && c = f.nanCode then c else sign + c) = f.nanCode)
      ∧ (inf → satf = false → f ≠ .e4m3 → f ≠ .e2m1 →
        (if f = .e4m3 && c = f.nanCode then c else sign + c) = sign + f.maxCode + 1) := by
  have hn : ¬(f = .e4m3 ∧ f.maxCode = f.nanCode) := by rintro ⟨rfl, h⟩; exact absurd h (by decide)
  rw [← hi]
  simp only [Bool.and_eq_true, decide_eq_true_eq]
  cases ht : rm.overflowsToInf neg thr with
  | false =>
    rw [overflowCode_of_finite f satf ht] at hc
    subst hc
    exact ⟨fun _ => if_neg hn, nofun, nofun⟩
  | true =>
    rw [overflowCode_of_inf f satf ht] at hc
    refine ⟨fun h => ?_, fun _ hs hf => ?_, fun _ hs hf he => ?_⟩
    · rw [if_pos (h.resolve_left (not_not_intro rfl))] at hc
      rw [← hc, if_neg hn]
    · rw [if_neg (by simp [hs, hf]), if_pos hf] at hc
      rw [if_pos ⟨hf, hc.symm⟩, hc]
    · rw [if_neg (by simp [hs, he]), if_neg hf] at hc
      rw [if_neg (fun h => hf h.1), ← hc, Nat.add_assoc]

/-- What an overflow delivers, by the mode (R104, R105). -/
theorem overflows_overflowCode {thr : Bool} (h : ∀ z, rm = .sr z → (thr = true ↔ f.mag (f.maxCode + 1) * d ≤ x)) :
    Overflows f rm satf neg x d
      (if f = .e4m3 && overflowCode f rm satf neg thr = f.nanCode then overflowCode f rm satf neg thr
        else (if neg then 2 ^ (f.width - 1) else 0) + overflowCode f rm satf neg thr) := by
  cases rm with
  | rne => exact overflow_code_cases (rm := .rne) (inf := True) (iff_of_true rfl trivial) _ _ rfl
  | rz => exact overflow_code_cases (rm := .rz) (neg := neg) (thr := thr) (inf := False) (iff_of_false nofun id) _ _ rfl
  | rdn => exact overflow_code_cases (rm := .rdn) (thr := thr) (inf := neg = true) Iff.rfl _ _ rfl
  | rup => exact overflow_code_cases (rm := .rup) (thr := thr) (inf := neg = false) (by simp [RM.overflowsToInf]) _ _ rfl
  | rna => exact overflow_code_cases (rm := .rna) (inf := True) (iff_of_true rfl trivial) _ _ rfl
  | sr z => exact overflow_code_cases (rm := .sr z) (neg := neg) (h z rfl) _ _ rfl

end

/-! The code delivered. -/

section
variable {f : FF} {rm : RM} {neg : Bool} {m : Nat} {e : Int} {x d : Nat}

/-- Rounded with the format's exponents, from the exponent step `j` on: a significand of the format (R91, R103). -/
theorem StandsFor.significand (h : StandsFor f rm neg m e x d) {j q : Nat}
    (hj : (j : Int) = max (ilog2 m + e) (1 - f.bias) - (1 - f.bias)) (hl : q * (d * 2 ^ j) ≤ x)
    (hh : x < (q + 1) * (d * 2 ^ j)) : q < 2 ^ (f.mbits + 1) ∧ (j = 0 ∨ 2 ^ f.mbits ≤ q) := by
  have hd : 0 < d := h.pos
  obtain ⟨hlo, hhi, -, -⟩ := h
  have hu := unit_eq f
  generalize (ilog2 m : Int) + e = k at *
  have hx : x < 2 ^ (f.mbits + 1) * (d * 2 ^ j) :=
    calc x ≤ x * 2 ^ (f.unit - (k + 1)).toNat := Nat.le_mul_of_pos_right _ (Nat.two_pow_pos _)
      _ < d * 2 ^ (k + 1 - f.unit).toNat := hhi
      _ ≤ d * 2 ^ (f.mbits + 1 + j) := Nat.mul_le_mul_left d (Nat.pow_le_pow_right (by decide) (by omega))
      _ = 2 ^ (f.mbits + 1) * (d * 2 ^ j) := by rw [Nat.pow_add]; ring
  refine ⟨Nat.lt_of_mul_lt_mul_right (hl.trans_lt hx), ?_⟩
  rcases Nat.eq_zero_or_pos j with h0 | hpos
  · exact .inl h0
  · have h1 : (k - f.unit).toNat = f.mbits + j := by omega
    have h2 : (f.unit - k).toNat = 0 := by omega
    rw [h1, h2, pow_zero, Nat.mul_one] at hlo
    have hx' : 2 ^ f.mbits * (d * 2 ^ j) ≤ x := by
      refine le_trans (le_of_eq ?_) hlo
      rw [Nat.pow_add]
      ring
    exact .inr (Nat.lt_succ_iff.mp (Nat.lt_of_mul_lt_mul_right (hx'.trans_lt hh)))

/-- The magnitude's code is above the largest finite one exactly when it reaches the next magnitude (R104). -/
theorem maxCode_lt_iff {c : Nat} (f : FF) (hl : f.mag c * d ≤ x) (hh : x < f.mag (c + 1) * d) :
    f.maxCode + 1 ≤ c ↔ f.mag (f.maxCode + 1) * d ≤ x := by
  refine ⟨fun h => (Nat.mul_le_mul_right d ((mag_strictMono f).monotone h)).trans hl, fun h => ?_⟩
  by_contra hn
  exact absurd (hh.trans_le (Nat.mul_le_mul_right d ((mag_strictMono f).monotone (by omega : c + 1 ≤ f.maxCode + 1))))
    (Nat.not_lt.mpr h)

/-- What `round` delivers: the code with its sign and its flags, from the code of the magnitude, whether it is exact, whether it
is tiny, and whether it reaches the threshold of R105. -/
def FF.deliver (f : FF) (rm : RM) (satf ftz neg thr tiny inexact : Bool) (code : Nat) : Nat × Nat :=
  let sign := if neg then 2 ^ (f.width - 1) else 0
  if f.maxCode < code then
    let o := overflowCode f rm satf neg thr
    (if f = .e4m3 && o = f.nanCode then o else sign + o, fOVF + fINX)
  else if tiny && ftz && f.wide then (sign, fUNF + fINX)
  else (sign + code, (if inexact then fINX else 0) + (if tiny && inexact then fUNF else 0))

/-- `round` by its significand at the format's exponents (R103, R104). -/
theorem roundFin_eq (f : FF) (rm : RM) (satf ftz neg : Bool) (m : Nat) (e : Int) : roundFin f rm satf ftz neg m e
    = (let k : Int := (ilog2 m : Int) + e
      let s : Int := max k (1 - f.bias) - (1 - f.bias)
      let u : Int := max k (1 - f.bias) - f.mbits
      f.deliver rm satf ftz neg
        (decide ((f.maxCode : Int) + 1 ≤ s * 2 ^ f.mbits + ((m : Int) * 2 ^ (e - u).toNat / 2 ^ (u - e).toNat)))
        (decide ((if (roundAt rm neg m e (k - f.mbits)).1 = 2 ^ (f.mbits + 1) then k + 1 else k) < 1 - f.bias))
        (roundAt rm neg m e u).2 (s.toNat * 2 ^ f.mbits + (roundAt rm neg m e u).1)) := rfl

section
variable {satf ftz thr tiny inexact : Bool} {code : Nat}

theorem deliver_of_overflow (h : f.maxCode < code)
    (ht : ∀ z, rm = .sr z → (thr = true ↔ f.mag (f.maxCode + 1) * d ≤ x)) :
    (f.deliver rm satf ftz neg thr tiny inexact code).2 = fOVF + fINX
      ∧ Overflows f rm satf neg x d (f.deliver rm satf ftz neg thr tiny inexact code).1 := by
  rw [FF.deliver, if_pos h]
  exact ⟨rfl, overflows_overflowCode ht⟩

theorem deliver_of_flush (h : code ≤ f.maxCode) (ht : tiny = true) (hf : ftz = true) (hw : f.wide = true) :
    f.deliver rm satf ftz neg thr tiny inexact code = (if neg then 2 ^ (f.width - 1) else 0, fUNF + fINX) := by
  rw [FF.deliver, if_neg (Nat.not_lt.mpr h), if_pos (by simp [ht, hf, hw])]

theorem deliver_of_kept (h : code ≤ f.maxCode) (hk : ¬(tiny = true ∧ ftz = true ∧ f.wide = true)) :
    f.deliver rm satf ftz neg thr tiny inexact code = ((if neg then 2 ^ (f.width - 1) else 0) + code,
      if inexact then (if tiny then fUNF + fINX else fINX) else 0) := by
  rw [FF.deliver, if_neg (Nat.not_lt.mpr h), if_neg (by simpa [and_assoc] using hk)]
  cases inexact <;> cases tiny <;> rfl

end

theorem roundFin_roundsTo (satf ftz : Bool) (h : StandsFor f rm neg m e x d) :
    RoundsTo f rm satf ftz neg x d (roundFin f rm satf ftz neg m e) := by
  rw [roundFin_eq]
  have htiny := decide_eq_true_iff.trans h.tiny_iff
  have hsig := fun j q => h.significand (j := j) (q := q)
  have hr := h.rounds (max ((ilog2 m : Int) + e) (1 - f.bias) - f.mbits) (by omega)
  have hfl := fun z hz => h.floor z hz (max ((ilog2 m : Int) + e) (1 - f.bias) - f.mbits)
  have hu := unit_eq f
  dsimp only
  generalize decide (_ < 1 - f.bias) = tiny at htiny
  generalize (ilog2 m : Int) + e = k at *
  obtain ⟨j, hj⟩ := Int.eq_ofNat_of_zero_le (show 0 ≤ max k (1 - f.bias) - (1 - f.bias) by omega)
  have e1 : (f.unit - (max k (1 - f.bias) - f.mbits)).toNat = 0 := by omega
  have e2 : (max k (1 - f.bias) - f.mbits - f.unit).toNat = j := by omega
  rw [e1, e2, pow_zero, Nat.mul_one] at hr hfl
  rw [hj, Int.toNat_natCast]
  generalize max k (1 - f.bias) - (f.mbits : Int) = u at *
  obtain ⟨⟨q, up, hql, hqh, hup, hdir, hval⟩, hinex⟩ := hr
  obtain ⟨hq, hjq⟩ := hsig j q hj.symm hql hqh
  have hc0 : f.mag (j * 2 ^ f.mbits + q) * d = q * (d * 2 ^ j) := by
    rw [mag_of_parts f (Nat.le_of_lt hq) hjq, Nat.mul_assoc, Nat.mul_comm d]
  have hc1 : f.mag (j * 2 ^ f.mbits + q + 1) * d = (q + 1) * (d * 2 ^ j) := by
    rw [Nat.add_assoc, mag_of_parts f hq (by omega), Nat.mul_assoc, Nat.mul_comm d]
  have hodd : (j * 2 ^ f.mbits + q) % 2 = q % 2 := by
    obtain ⟨b, hb⟩ := Nat.exists_eq_add_of_lt (mbits_pos f)
    rw [hb, Nat.zero_add, Nat.pow_succ, ← Nat.mul_assoc, Nat.mul_comm, Nat.mul_add_mod]
  have hexact : (roundAt rm neg m e u).2 = true ↔ f.mag (j * 2 ^ f.mbits + q) * d ≠ x := by
    have hdm := Nat.div_add_mod' x (d * 2 ^ j)
    rw [Nat.div_eq_of_lt_le hql hqh] at hdm
    rw [hinex, hc0]
    omega
  have hthr (z : Nat) (hz : rm = .sr z) :
      decide ((f.maxCode : Int) + 1 ≤ (j : Int) * 2 ^ f.mbits + (m : Int) * 2 ^ (e - u).toNat / 2 ^ (u - e).toNat) = true
        ↔ f.mag (f.maxCode + 1) * d ≤ x := by
    have hq' : m * 2 ^ (e - u).toNat / 2 ^ (u - e).toNat = q :=
      (hfl z hz).trans (Nat.div_eq_of_lt_le hql hqh)
    rw [decide_eq_true_iff, ← maxCode_lt_iff f (hc0 ▸ hql) (hc1 ▸ hqh), ← hq']
    exact_mod_cast Iff.rfl
  refine ⟨j * 2 ^ f.mbits + q, up, hc0 ▸ hql, hc1 ▸ hqh, hup, by rw [hodd, hc0, hc1]; exact hdir, ?_⟩
  rw [hval, ← Nat.add_assoc]
  refine ⟨fun hov => deliver_of_overflow hov hthr, fun hle ht => deliver_of_flush hle (htiny.mpr ht), fun hle hk => ?_⟩
  rw [deliver_of_kept hle fun ⟨h1, h2⟩ => hk ⟨htiny.mp h1, h2⟩]
  refine ⟨rfl, fun hx => if_neg fun h => hexact.mp h hx, fun hx ht => ?_, fun hx ht => ?_⟩
  · exact (if_pos (hexact.mpr hx)).trans (if_neg fun h => ht (htiny.mp h))
  · exact (if_pos (hexact.mpr hx)).trans (if_pos (htiny.mpr ht))

end

theorem div_eq_of_cross {y d y' d' : Nat} (hd : 0 < d) (hd' : 0 < d') (e : y * d' = y' * d) : y / d = y' / d' := by
  rw [← Nat.mul_div_mul_right y d hd', e, Nat.mul_comm d d', Nat.mul_div_mul_right y' d' hd]

/-- m × 2^e counted in two units u and v. -/
theorem units_cross (m : Nat) (e u v : Int) : m * 2 ^ (e - u).toNat * (2 ^ (v - e).toNat * 2 ^ (u - v).toNat)
    = m * 2 ^ (e - v).toNat * 2 ^ (v - u).toNat * 2 ^ (u - e).toNat := by
  simp only [Nat.mul_assoc, ← Nat.pow_add]
  congr 2
  omega

theorem mul_two_pow_le_iff {a b i j i' j' : Nat} (h : i + j' = i' + j) :
    a * 2 ^ i ≤ b * 2 ^ j ↔ a * 2 ^ i' ≤ b * 2 ^ j' := by
  have ha : a * 2 ^ i * 2 ^ j' = a * 2 ^ i' * 2 ^ j := by rw [Nat.mul_assoc, Nat.mul_assoc, ← Nat.pow_add, ← Nat.pow_add, h]
  rw [← Nat.mul_le_mul_right_iff (Nat.two_pow_pos j'), ha, Nat.mul_right_comm b, Nat.mul_le_mul_right_iff (Nat.two_pow_pos j)]

/-- ± m × 2^e, m > 0, in units of the format. -/
theorem standsFor_self (f : FF) (rm : RM) (neg : Bool) {m : Nat} (e : Int) (hm : m ≠ 0) :
    StandsFor f rm neg m e (m * 2 ^ (e - f.unit).toNat) (2 ^ (f.unit - e).toNat) where
  low := by
    have h : 1 * 2 ^ ilog2 m ≤ m * 2 ^ 0 := by simpa [ilog2] using Nat.log2_self_le hm
    rw [mul_two_pow_le_iff (i' := (f.unit - e).toNat + (ilog2 m + e - f.unit).toNat)
      (j' := (e - f.unit).toNat + (f.unit - (ilog2 m + e)).toNat) (by omega)] at h
    simpa [Nat.pow_add, Nat.mul_assoc] using h
  high := by
    have h : ¬1 * 2 ^ (ilog2 m + 1) ≤ m * 2 ^ 0 := by simpa [ilog2] using Nat.lt_log2_self
    rw [mul_two_pow_le_iff (i' := (f.unit - e).toNat + (ilog2 m + e + 1 - f.unit).toNat)
      (j' := (e - f.unit).toNat + (f.unit - (ilog2 m + e + 1)).toNat) (by omega)] at h
    simpa [Nat.pow_add, Nat.mul_assoc] using h
  rounds u _ := (roundAt_spec rm neg m e u).congr (Nat.mul_pos (Nat.two_pow_pos _) (Nat.two_pow_pos _)) (units_cross m e u _)
  floor _ _ u := div_eq_of_cross (Nat.two_pow_pos _) (Nat.mul_pos (Nat.two_pow_pos _) (Nat.two_pow_pos _))
    (units_cross m e u _)

/-- `round` of ± m × 2^e, m > 0 (R103 to R106). -/
theorem rounds_roundFin (f : FF) (rm : RM) (satf ftz neg : Bool) {m : Nat} (e : Int) (hm : m ≠ 0) :
    Rounds f rm satf ftz neg m e (roundFin f rm satf ftz neg m e) :=
  roundFin_roundsTo satf ftz (standsFor_self f rm neg e hm)

end Sys2Proof.Machine
end

section
/-! Quotients: the remainder as a sticky bit (R107). -/
namespace Sys2Proof.Machine

/-- The quotient of N by b with one more bit, which tells whether a remainder was left. -/
def sticky (N b : Nat) : Nat := 2 * (N / b) + if N % b = 0 then 0 else 1

section
variable {N b : Nat}

theorem two_mul_le_sticky (hb : 0 < b) (t : Nat) : 2 * t ≤ sticky N b ↔ t * b ≤ N := by
  rw [← Nat.le_div_iff_mul_le hb, sticky]
  split <;> omega

theorem two_mul_lt_sticky (hb : 0 < b) (t : Nat) : 2 * t < sticky N b ↔ t * b < N := by
  have h := Nat.div_add_mod' N b
  have hle := Nat.le_div_iff_mul_le (x := t) (y := N) hb
  rcases Nat.lt_trichotomy t (N / b) with hlt | rfl | hgt
  · have h1 : (t + 1) * b ≤ N := (Nat.le_div_iff_mul_le hb).mp hlt
    rw [Nat.add_one_mul] at h1
    exact iff_of_true (by rw [sticky]; omega) (by omega)
  · rw [sticky]
    split <;> omega
  · exact iff_of_false (by rw [sticky]; split <;> omega) (by omega)

theorem sticky_eq_two_mul (hb : 0 < b) (t : Nat) : sticky N b = 2 * t ↔ N = t * b := by
  have h1 := two_mul_le_sticky (N := N) hb t
  have h2 := two_mul_lt_sticky (N := N) hb t
  omega

theorem two_mul_dvd_sticky (hb : 0 < b) (D : Nat) : 2 * D ∣ sticky N b ↔ b * D ∣ N := by
  have h (c : Nat) : sticky N b = 2 * D * c ↔ N = b * D * c := by
    rw [Nat.mul_assoc, sticky_eq_two_mul hb, Nat.mul_comm (D * c), Nat.mul_assoc]
  exact exists_congr h

/-- A quotient rounds as its sticky form does, two bits and more above the last (R103). -/
theorem roundsAt_of_sticky {rm : RM} {neg : Bool} {D : Nat} {r : Nat × Bool} (hb : 0 < b) (hrm : ∀ z, rm ≠ .sr z)
    (h : RoundsAt rm neg (sticky N b) (4 * D) r) : RoundsAt rm neg N (b * (2 * D)) r := by
  obtain ⟨⟨q, up, hl, hh, hup, hdir, hval⟩, hx⟩ := h
  have e1 (t : Nat) : t * (4 * D) = 2 * (t * (2 * D)) := by ring
  have e2 (t : Nat) : t * (b * (2 * D)) = t * (2 * D) * b := by ring
  rw [e1] at hl hh hdir
  rw [e1] at hdir
  have h1 := two_mul_le_sticky (N := N) hb (q * (2 * D))
  have h2 := two_mul_le_sticky (N := N) hb ((q + 1) * (2 * D))
  have h3 := two_mul_lt_sticky (N := N) hb (q * (2 * D))
  have h4 := two_mul_le_sticky (N := N) hb ((2 * q + 1) * D)
  have h5 := two_mul_lt_sticky (N := N) hb ((2 * q + 1) * D)
  refine ⟨⟨q, up, by rw [e2]; omega, by rw [e2]; omega, hup, ?_, hval⟩, ?_⟩
  · rw [hdir, e2, e2]
    refine and_congr (by omega) ?_
    have e3 : q * (2 * D) + (q + 1) * (2 * D) = 2 * ((2 * q + 1) * D) := by ring
    have e4 : q * (2 * D) * b + (q + 1) * (2 * D) * b = 2 * ((2 * q + 1) * D * b) := by ring
    cases rm with
    | rne =>
      simp only [GoesUp, ← Nat.mul_add, e3, e4]
      exact or_congr (by omega) (and_congr_left' (by omega))
    | rz => exact Iff.rfl
    | rdn => exact Iff.rfl
    | rup => exact Iff.rfl
    | rna =>
      simp only [GoesUp, ← Nat.mul_add, e3, e4]
      omega
    | sr z => exact absurd rfl (hrm z)
  · have e5 : 4 * D = 2 * (2 * D) := by ring
    rw [hx, e5, Ne, Ne, ← Nat.dvd_iff_mod_eq_zero, two_mul_dvd_sticky hb, Nat.dvd_iff_mod_eq_zero]

/-- The quotient a/b × 2^(e + 65), as a sticky quotient of a × 2^64 with two bits more than the format keeps. -/
theorem standsFor_sticky {f : FF} {rm : RM} {neg : Bool} {a : Nat} (e : Int) (hb : 0 < b)
    (hs : 2 ^ (f.mbits + 2) ≤ sticky (a * 2 ^ 64) b) (hrm : ∀ z, rm ≠ .sr z) :
    StandsFor f rm neg (sticky (a * 2 ^ 64) b) e (a * 2 ^ (e + 65 - f.unit).toNat) (b * 2 ^ (f.unit - (e + 65)).toNat) := by
  have hS : sticky (a * 2 ^ 64) b ≠ 0 := Nat.ne_of_gt (Nat.lt_of_lt_of_le (Nat.two_pow_pos _) hs)
  have hk : f.mbits + 2 ≤ ilog2 (sticky (a * 2 ^ 64) b) := (Nat.le_log2 hS).mpr hs
  obtain ⟨k, hk1⟩ := Nat.exists_eq_add_of_le' (show 1 ≤ ilog2 (sticky (a * 2 ^ 64) b) by omega)
  refine ⟨?_, ?_, fun u hu => ?_, fun z hz => absurd hz (hrm z)⟩
  · have h : b * 2 ^ k ≤ a * 2 ^ 64 := by
      rw [Nat.mul_comm b, ← two_mul_le_sticky hb, Nat.mul_comm, ← Nat.pow_succ, ← Nat.add_one, ← hk1]
      exact Nat.log2_self_le hS
    rw [hk1]
    rw [mul_two_pow_le_iff (i' := (f.unit - (e + 65)).toNat + ((k + 1 : Nat) + e - f.unit).toNat)
      (j' := (e + 65 - f.unit).toNat + (f.unit - ((k + 1 : Nat) + e)).toNat) (by omega)] at h
    simpa [Nat.pow_add, Nat.mul_assoc] using h
  · have h : ¬b * 2 ^ (k + 1) ≤ a * 2 ^ 64 := by
      rw [Nat.mul_comm b, ← two_mul_le_sticky hb, Nat.mul_comm, ← Nat.pow_succ, ← Nat.add_one, ← hk1, Nat.not_le]
      exact Nat.lt_log2_self
    rw [hk1]
    rw [mul_two_pow_le_iff (i' := (f.unit - (e + 65)).toNat + ((k + 1 : Nat) + e + 1 - f.unit).toNat)
      (j' := (e + 65 - f.unit).toNat + (f.unit - ((k + 1 : Nat) + e + 1)).toNat) (by omega)] at h
    simpa [Nat.pow_add, Nat.mul_assoc] using h
  · have h := roundAt_spec rm neg (sticky (a * 2 ^ 64) b) e u
    obtain ⟨t, ht⟩ := Nat.exists_eq_add_of_le' (show 2 ≤ (u - e).toNat by omega)
    have h0 : (e - u).toNat = 0 := by omega
    have h4 : 2 ^ (u - e).toNat = 4 * 2 ^ t := by rw [ht, Nat.pow_add, Nat.mul_comm]
    rw [h0, h4, pow_zero, Nat.mul_one] at h
    refine (roundsAt_of_sticky hb hrm h).congr
      (Nat.mul_pos (Nat.mul_pos hb (Nat.two_pow_pos _)) (Nat.two_pow_pos _)) ?_
    calc a * 2 ^ 64 * (b * 2 ^ (f.unit - (e + 65)).toNat * 2 ^ (u - f.unit).toNat)
        = a * b * 2 ^ (64 + (f.unit - (e + 65)).toNat + (u - f.unit).toNat) := by rw [Nat.pow_add, Nat.pow_add]; ring
      _ = a * b * 2 ^ ((e + 65 - f.unit).toNat + (f.unit - u).toNat + 1 + t) := by congr 2; omega
      _ = _ := by rw [Nat.pow_add, Nat.pow_add, Nat.pow_succ]; ring

end

end Sys2Proof.Machine
end

section
/-! Float arithmetic (R91, R103 to R108, R220 to R222). -/
namespace Sys2Proof.Machine

theorem setsF2_of {i : Instr} {rm : BitVec 3} {d a b : Reg} {f : RM → FV → FV → FV × Nat}
    (h : ∀ s, exec i s = issueG (Instr.sig i) s (fun x => x.f2 rm d a b f)) : SetsF2 i rm d a b f :=
  setsFlags_of (fun _ _ => rfl) h

theorem setsF3_of {i : Instr} {rm : BitVec 3} {d a b : Reg} {f : RM → FV → FV → FV → FV × Nat}
    (h : ∀ s, exec i s = issueG (Instr.sig i) s (fun x => x.f3 rm d a b f)) : SetsF3 i rm d a b f :=
  setsFlags_of (fun _ _ => rfl) h

theorem toNat_element (w : Word) (j : Nat) : (w.extractLsb' (16 * j) 16).toNat = fld w.toNat (16 * j) 16 :=
  BitVec.extractLsb'_toNat ..

theorem setsF16_of {i : Instr} {t : FF} {rm : BitVec 3} {d a b : Reg} {f : RM → FV → FV → FV → FV × Nat}
    (h : ∀ s, exec i s = issueG (Instr.sig i) s (fun x => x.packed t rm d a b f)) : SetsF16 i t rm d a b f := by
  refine setsFlags_of (fun x l => ?_) h
  simp only [toNat_element]
  rfl

theorem roundFV_fin (f : FF) (rm : RM) (satf ftz n : Bool) {m : Nat} (e : Int) (hm : m ≠ 0) :
    roundFV f rm satf ftz (.fin n m e) = roundFin f rm satf ftz n m e := by
  obtain ⟨k, rfl⟩ := Nat.exists_eq_succ_of_ne_zero hm
  rfl

theorem roundFV_nan (f : FF) (rm : RM) (satf ftz n : Bool) :
    roundFV f rm satf ftz (.nan n) = (f.nanCode, if n = true ∨ f = .e2m1 then fINV else 0) := by
  cases n <;> cases f <;> rfl

theorem roundFV_inf (f : FF) (rm : RM) (satf ftz n : Bool) : roundFV f rm satf ftz (.inf n)
    = (let sign := if n then 2 ^ (f.width - 1) else 0
      if f = .e2m1 ∨ satf = true then (sign + f.maxCode, fINV)
      else if f = .e4m3 then (f.nanCode, fINV) else (sign + f.maxCode + 1, 0)) := by
  cases f <;> cases satf <;> rfl

theorem maxCode_lt (f : FF) : f.maxCode < 2 ^ (f.ebits + f.mbits) := by cases f <;> decide

/-- The fields of a code under a sign (R91). -/
theorem fields_of_signed {E M c : Nat} (n : Bool) (hc : c < 2 ^ (E + M)) :
    bit ((if n then 2 ^ (E + M) else 0) + c) (E + M) = n ∧ fld ((if n then 2 ^ (E + M) else 0) + c) M E = c / 2 ^ M
      ∧ fld ((if n then 2 ^ (E + M) else 0) + c) 0 M = c % 2 ^ M := by
  have hE : c / 2 ^ M < 2 ^ E := Nat.div_lt_of_lt_mul (by rwa [← Nat.pow_add, Nat.add_comm])
  have hs : (if n then 2 ^ (E + M) else 0) = (if n then 2 ^ E else 0) * 2 ^ M := by
    cases n <;> simp [Nat.pow_add]
  refine ⟨?_, ?_, ?_⟩
  · rw [bit, fld, Nat.shiftRight_eq_div_pow]
    cases n
    · simp [Nat.div_eq_of_lt hc]
    · simp [Nat.add_div_left _ (Nat.two_pow_pos _), Nat.div_eq_of_lt hc]
  · rw [fld, Nat.shiftRight_eq_div_pow, hs, Nat.mul_comm, Nat.mul_add_div (Nat.two_pow_pos M)]
    cases n
    · simp [Nat.mod_eq_of_lt hE]
    · simp [Nat.mod_eq_of_lt hE]
  · rw [fld, Nat.shiftRight_zero, hs, Nat.mul_comm, Nat.mul_add_mod]

theorem decode_signed (f : FF) (n : Bool) {c : Nat} (hc : c ≤ f.maxCode) :
    f.decode ((if n then 2 ^ (f.width - 1) else 0) + c) = if c / 2 ^ f.mbits = 0 then .fin n (c % 2 ^ f.mbits) f.unit
      else .fin n (c % 2 ^ f.mbits + 2 ^ f.mbits) ((c / 2 ^ f.mbits : Nat) - f.bias - f.mbits) := by
  obtain ⟨hb, he, hm⟩ := fields_of_signed n (hc.trans_lt (maxCode_lt f))
  have hw : f.width - 1 = f.ebits + f.mbits := by rw [FF.width, Nat.add_assoc, Nat.add_sub_cancel_left]
  unfold FF.decode
  rw [hw, hb, he, hm]
  cases f with
  | e2m1 => rfl
  | e4m3 =>
    refine if_neg ?_
    rw [Bool.and_eq_true, decide_eq_true_eq, decide_eq_true_eq]
    simp only [FF.maxCode, FF.mbits] at hc ⊢
    omega
  | fp32 | fp16 | bf16 | e5m2 =>
    refine if_neg ?_
    simp only [FF.maxCode, FF.mbits, FF.ebits] at hc ⊢
    omega

/-- The value of a code that is no infinity and no NaN, in units of its format (R91). -/
theorem decode_of_le_maxCode (f : FF) (n : Bool) {c : Nat} (hc : c ≤ f.maxCode) :
    ∃ m u, f.decode ((if n then 2 ^ (f.width - 1) else 0) + c) = .fin n m u ∧ f.unit ≤ u
      ∧ m * 2 ^ (u - f.unit).toNat = f.mag c := by
  rw [decode_signed f n hc]
  have hdm := Nat.div_add_mod' c (2 ^ f.mbits)
  unfold FF.mag
  split
  · next h0 =>
    refine ⟨_, _, rfl, le_refl _, ?_⟩
    rw [h0, Nat.zero_mul, Nat.zero_add] at hdm
    rw [if_pos (hdm ▸ Nat.mod_lt _ (Nat.two_pow_pos _))]
    simp [hdm]
  · next h0 =>
    rw [if_neg fun h => h0 (Nat.div_eq_of_lt h), Nat.add_comm (2 ^ f.mbits)]
    generalize c / 2 ^ f.mbits = t at *
    have hu := unit_eq f
    refine ⟨_, _, rfl, by omega, ?_⟩
    congr 2
    omega

/-! Exact sums, products and quotients, and the special values (R107, R108). -/

theorem scaled_zero (n : Bool) (e k : Int) : scaled n 0 e k = 0 := by simp [scaled]

/-- A value over a finer power of two. -/
theorem scaled_eq_mul (n : Bool) (m : Nat) {e e0 k : Int} (h : e0 ≤ e) (hk : 0 ≤ e0 + k) :
    scaled n m e k = scaled n m e (-e0) * 2 ^ (e0 + k).toNat := by
  have hp : (e + k).toNat = (e + -e0).toNat + (e0 + k).toNat := by omega
  rw [scaled, scaled, hp, Nat.pow_add]
  push_cast
  ring

theorem scaled_of_natAbs (z e k : Int) : scaled (decide (z < 0)) z.natAbs e k = z * 2 ^ (e + k).toNat := by
  rw [scaled]
  rcases lt_or_ge z 0 with h | h
  · have : (z.natAbs : Int) = -z := by omega
    simp [h, this]
  · have : (z.natAbs : Int) = z := by omega
    simp [Int.not_lt.mpr h, this]

/-- The exact sum of two finite values, and the sign of an exact zero (R108). -/
theorem finAdd_spec (rm : RM) (na nb : Bool) (ma mb : Nat) (ea eb : Int) : ∃ n m e, finAdd rm na ma ea nb mb eb = .fin n m e
    ∧ (∀ k : Int, 0 ≤ ea + k → 0 ≤ eb + k → 0 ≤ e + k → scaled n m e k = scaled na ma ea k + scaled nb mb eb k)
    ∧ (m = 0 → n = if ma = 0 ∧ mb = 0 ∧ na = nb then na else decide (rm = .rdn)) := by
  by_cases h0 : ma = 0 ∧ mb = 0
  · obtain ⟨rfl, rfl⟩ := h0
    refine ⟨_, _, _, if_pos rfl, fun k _ _ _ => by simp only [scaled_zero, Int.add_zero], fun _ => ?_⟩
    simp only [true_and]
    rfl
  · have hsum (k : Int) (h1 : 0 ≤ ea + k) (h2 : 0 ≤ eb + k) : scaled na ma ea k + scaled nb mb eb k
        = (scaled na ma ea (-min ea eb) + scaled nb mb eb (-min ea eb)) * 2 ^ (min ea eb + k).toNat := by
      rw [scaled_eq_mul na ma (Int.min_le_left ea eb) (by omega), scaled_eq_mul nb mb (Int.min_le_right ea eb) (by omega),
        Int.add_mul]
    have hf : finAdd rm na ma ea nb mb eb = (let z := scaled na ma ea (-min ea eb) + scaled nb mb eb (-min ea eb)
        if z = 0 then .fin (rm == .rdn) 0 0 else .fin (decide (z < 0)) z.natAbs (min ea eb)) :=
      if_neg (by simpa using h0)
    generalize scaled na ma ea (-min ea eb) + scaled nb mb eb (-min ea eb) = z at *
    by_cases hz : z = 0
    · refine ⟨_, _, _, hf.trans (if_pos hz), fun k h1 h2 _ => ?_, fun _ => ?_⟩
      · rw [hsum k h1 h2, hz, Int.zero_mul, scaled_zero]
      · rw [if_neg fun h => h0 ⟨h.1, h.2.1⟩]
        rfl
    · refine ⟨_, _, _, hf.trans (if_neg hz), fun k h1 h2 _ => ?_, fun h => absurd (Int.natAbs_eq_zero.mp h) hz⟩
      rw [hsum k h1 h2, scaled_of_natAbs]

/-- A finite quotient by a value other than zero, its remainder a sticky bit. -/
theorem divX_fin (na nb : Bool) {ma mb : Nat} (ea eb : Int) (ha : ma ≠ 0) (hb : mb ≠ 0) :
    divX (.fin na ma ea) (.fin nb mb eb) = (.fin (na != nb) (sticky (ma * 2 ^ 64) mb) (ea - eb - 65), 0) :=
  (if_neg hb).trans (if_neg ha)

theorem rounded_exact (f : FF) (rm : RM) (ftz : Bool) (v : FV) : rounded f rm ftz (v, 0) = roundFV f rm false ftz v := by
  simp [rounded]

/-- An FP32 quotient is the exact one rounded (R107). -/
theorem rounded_divX {rm : RM} (hrm : ∀ z, rm ≠ .sr z) (ftz na nb : Bool) {ma mb : Nat} (ea eb : Int) (ha : 0 < ma)
    (hb : 0 < mb) (hb' : mb < 2 ^ 24) :
    RoundsTo .fp32 rm false ftz (na != nb) (ma * 2 ^ (ea - eb - FF.fp32.unit).toNat)
      (mb * 2 ^ (-(ea - eb - FF.fp32.unit)).toNat) (rounded .fp32 rm ftz (divX (.fin na ma ea) (.fin nb mb eb))) := by
  have hs : 2 ^ (FF.fp32.mbits + 2) ≤ sticky (ma * 2 ^ 64) mb :=
    (two_mul_le_sticky hb (2 ^ 24)).mpr (by omega)
  have h := roundFin_roundsTo false ftz (standsFor_sticky (neg := na != nb) (ea - eb - 65) hb hs hrm)
  have hS : sticky (ma * 2 ^ 64) mb ≠ 0 := Nat.ne_of_gt (Nat.lt_of_lt_of_le (Nat.two_pow_pos _) hs)
  rw [divX_fin na nb ea eb (Nat.ne_of_gt ha) (Nat.ne_of_gt hb), rounded_exact, roundFV_fin _ _ _ _ _ _ hS]
  have e1 : ea - eb - 65 + 65 - FF.fp32.unit = ea - eb - FF.fp32.unit := by omega
  have e2 : FF.fp32.unit - (ea - eb - 65 + 65) = -(ea - eb - FF.fp32.unit) := by omega
  rw [e1, e2] at h
  exact h

/-- A NaN operand gives a quiet NaN, with INV where one is signalling (R108). -/
theorem nan_of_nan_operand (rm : RM) {a b : FV} (h : a.isNan = true ∨ b.isNan = true) :
    addX rm a b = (.nan false, nanFlags a b) ∧ mulX a b = (.nan false, nanFlags a b)
      ∧ divX a b = (.nan false, nanFlags a b) := by
  cases a with
  | nan s => exact ⟨rfl, rfl, rfl⟩
  | inf x | fin n m e =>
    cases b with
    | nan s => exact ⟨rfl, rfl, rfl⟩
    | inf y | fin n' m' e' => exact absurd h (by simp [FV.isNan])

theorem mulX_inf_fin (x y : Bool) (m : Nat) (e : Int) : mulX (.inf x) (.fin y m e)
    = if m = 0 then (.nan false, fINV) else (.inf (x != y), 0) := rfl

theorem mulX_fin_inf (x y : Bool) (m : Nat) (e : Int) : mulX (.fin y m e) (.inf x)
    = if m = 0 then (.nan false, fINV) else (.inf (x != y), 0) := rfl

/-- A product that is a NaN is the quiet one. -/
theorem fst_mulX_of_isNan {a b : FV} (h : (mulX a b).1.isNan = true) : (mulX a b).1 = .nan false := by
  by_cases hn : a.isNan = true ∨ b.isNan = true
  · rw [(nan_of_nan_operand .rne hn).2.1]
  · cases a with
    | nan s => exact absurd (.inl rfl) hn
    | inf x =>
      cases b with
      | nan s => exact absurd (.inr rfl) hn
      | inf y => exact absurd h (by simp [mulX, FV.isNan])
      | fin n m e =>
        rw [mulX_inf_fin] at h ⊢
        split at h <;> simp_all [FV.isNan]
    | fin n m e =>
      cases b with
      | nan s => exact absurd (.inr rfl) hn
      | inf y =>
        rw [mulX_fin_inf] at h ⊢
        split at h <;> simp_all [FV.isNan]
      | fin n' m' e' => exact absurd h (by simp [mulX, FV.isNan])

/-- A fused operation whose product raises no flag (R107). -/
theorem fmaX_of_exact (rm : RM) {a b p : FV} (h : mulX a b = (p, 0)) (c : FV) : fmaX rm a b c = addX rm p c := by
  simp [fmaX, h]

/-- Settles O12: each form by its meaning, rounding by `roundFin_roundsTo`, sums by `finAdd_spec`, quotients by
`rounded_divX`. -/
theorem floatArithmetic : Obligations.FloatArithmetic := by
  unfold Obligations.FloatArithmetic
  refine ⟨fun rm d a b => ?_, fun rm d a b => ?_, fun f rm satf ftz n e x => ?_, fun rm na nb ma mb ea eb => ?_,
    fun rm x y m e a b c => ?_⟩
  · exact ⟨setsF2_of fun _ => rfl, setsF2_of fun _ => rfl, setsF2_of fun _ => rfl, setsF2_of fun _ => rfl,
      setsF3_of fun _ => rfl, setsF3_of fun _ => rfl, setsF3_of fun _ => rfl⟩
  · exact ⟨setsF16_of fun _ => rfl, setsF16_of fun _ => rfl, setsF16_of fun _ => rfl, setsF16_of fun _ => rfl,
      setsF16_of fun _ => rfl, setsF16_of fun _ => rfl⟩
  · intro sign
    refine ⟨fun m hm => ?_, rfl, fun hf => ?_, rfl, fun c hc => decode_of_le_maxCode f n hc⟩
    · rw [roundFV_fin f rm satf ftz n e hm]
      exact rounds_roundFin f rm satf ftz n e hm
    · have hf' : f ≠ .e2m1 ∧ f ≠ .e4m3 := by
        constructor <;> rintro rfl <;> exact absurd hf (by decide)
      rw [roundFV_inf, roundFV_nan]
      simp [hf', sign]
  · intro a b
    refine ⟨?_, rfl, fun c => ?_, rfl, rfl, fun h => (if_neg h).trans (if_pos rfl),
      fun h1 _ h2 h3 hrm ftz => rounded_divX hrm ftz na nb ea eb h1 h2 h3⟩
    · obtain ⟨n, m, e, h, hs⟩ := finAdd_spec rm na nb ma mb ea eb
      exact ⟨n, m, e, congrArg (·, 0) h, hs⟩
    · exact fmaX_of_exact rm rfl c
  · intro inv z
    refine ⟨fun hn r hr => ?_, rfl, rfl, rfl, rfl, fun r hr => ?_, rfl, rfl, rfl, fun h => ?_,
      fun h => fmaX_of_exact rm h c⟩
    · obtain ⟨h1, h2, h3⟩ := nan_of_nan_operand rm hn
      rw [h1, h2, h3] at hr
      simpa [nanFlags] using hr
    · rw [mulX_inf_fin, mulX_fin_inf] at hr
      simpa using hr
    · rw [fmaX, fst_mulX_of_isNan h, (nan_of_nan_operand rm (.inl rfl)).1]
      rfl

end Sys2Proof.Machine
end

section
/-! Conversions (R105, R111 to R113, R228 to R232). -/
namespace Sys2Proof.Machine

theorem stoch_eq (x : Iss) (rm : BitVec 3) (g : Grp) : x.stoch rm g
    = { g with stoch := if rmCode x.g x.p.hints rm.toNat = 6 then g.stochNext.stoch else g.stoch } := by
  unfold Iss.stoch
  split <;> rfl

/-- A conversion whose meaning writes a run of registers, raises flags and advances STOCH. -/
theorem setsCvt_of {i : Instr} {rm : BitVec 3} {d : Reg} {k : Nat} {f : Iss → Nat → Nat → Word} {fl : Iss → Nat}
    (hk : k ≤ 128) (h : ∀ s, exec i s
      = issueG (Instr.sig i) s (fun x => x.stoch rm ((x.g.wrRun d x.lanes (f x) k).raise (fl x)))) :
    SetsCvt i rm d k f fl := by
  intro s x hr
  have he : exec i s = .next (s.retireTo x (x.stoch rm ((x.g.wrRun d x.lanes (f x) k).raise (fl x))) (x.p.pc + 4)) :=
    exec_runs h hr
  have hw := wrote_wrRun x d k x.lanes (f x) (lanesOf_lt _ _) hk
  have e0 := wrRun_withRegs x.g d x.lanes (f x) k
  generalize x.g.wrRun d x.lanes (f x) k = g at *
  obtain ⟨hp, hs, ht⟩ : g.p = x.g.p ∧ g.status = x.g.status ∧ g.stoch = x.g.stoch := by
    rw [e0]
    exact ⟨rfl, rfl, rfl⟩
  rw [stoch_eq] at he
  refine ⟨_, _, he, after_retireTo s x _ _ ?_, wrote_congr hw rfl rfl rfl fun _ _ => rfl, hp, congrArg (· ||| _) hs, ?_⟩
  · conv => lhs; rw [e0]
    simp only [Grp.raise, Grp.withRegs, Grp.withData, Grp.stochNext, hp, hs, ht]
  · simp only [Grp.withData, Grp.stochNext, Grp.raise, ht]

/-- The bits of a conversion's source and result (R228, R231). -/
theorem width_ofCode (c : Nat) : 4 ≤ (CT.ofCode c).width ∧ (CT.ofCode c).width ≤ 32 := by
  unfold CT.ofCode
  split <;> decide

theorem width_ofXi (c : Nat) : 4 ≤ (CT.int (CT.ofXi c)).width ∧ (CT.int (CT.ofXi c)).width ≤ 32 := by
  unfold CT.ofXi
  split <;> decide

/-- A packed conversion writes at most eight registers (R230). -/
theorem packed_regs_le {s t : Nat} (hs : 4 ≤ s ∧ s ≤ 32) (ht : 4 ≤ t ∧ t ≤ 32) : 32 / min s t * t / 32 ≤ 128 := by
  have h1 : 32 / min s t ≤ 8 := Nat.div_le_of_le_mul (by omega)
  have h2 : 32 / min s t * t ≤ 8 * 32 := Nat.mul_le_mul h1 ht.2
  omega

/-- CVT and CVT.SAT (R229). -/
theorem setsCvt_one {i : Instr} {rm : BitVec 3} {d a : Reg} {src dst : CT} {sat : Bool}
    (h : ∀ s, exec i s = issueG (Instr.sig i) s (fun x => x.cvt rm d a src dst sat)) :
    SetsCvt i rm d 1 (fun x l _ => placed dst (convert src dst (x.cmode rm d l 0) (sat || satOf x.g x.p.hints) x.g.ftz
        x.g.daz sat ((x.g.rd a l).toNat % 2 ^ src.width)).1)
      (fun x => x.flags d (fun l => (convert src dst (x.cmode rm d l 0) (sat || satOf x.g x.p.hints) x.g.ftz
        x.g.daz sat ((x.g.rd a l).toNat % 2 ^ src.width)).2)) := by
  refine setsCvt_of (by decide) fun s => (h s).trans ?_
  simp only [Iss.cvt, Iss.mapF, wr_eq_wrRun]
  rfl

theorem isNan_iff {v : FV} : v.isNan = true ↔ ∃ s, v = .nan s := by
  cases v <;> simp [FV.isNan]

/-- A finite value to an integer: rounded, then held to the type's range (R112). -/
theorem toInt_fin (t : IT) (rm : RM) (n : Bool) (m : Nat) (e : Int) :
    ∃ k, RoundsInt rm n (m * 2 ^ e.toNat) (2 ^ (-e).toNat) k
      ∧ (let i : Int := if n then -(k : Int) else k
        toInt t rm (.fin n m e) = if i < t.lo then (t.lo, fINV) else if t.hi < i then (t.hi, fINV)
          else (i, if m * 2 ^ e.toNat % 2 ^ (-e).toNat = 0 then 0 else fINX)) := by
  have h := roundAt_spec rm n m e 0
  rw [Int.sub_zero, Int.zero_sub] at h
  refine ⟨_, h.1, ?_⟩
  rw [← h.inexact]
  rfl

end Sys2Proof.Machine
end

section
/-! Microscaling (R98, R234, R235). -/
namespace Sys2Proof.Machine

/-- One element of a block of FP8 or FP4 (R98). -/
theorem mxElem_float {ef : Nat} {f : FF} (h : (ef, f) ∈ [(0, FF.e2m1), (1, .e4m3), (2, .e5m2)]) (sc : Nat) (n : Bool)
    (m : Nat) (e : Int) : mxElem (EF.ofCode ef) sc (.fin n m e) = if m = 0 then (if n then 2 ^ (f.width - 1) else 0, 0)
      else roundFin f .rne true false n m (e - (sc - 127)) := by
  simp only [List.mem_cons, Prod.mk.injEq, List.not_mem_nil, or_false] at h
  rcases h with ⟨rfl, rfl⟩ | ⟨rfl, rfl⟩ | ⟨rfl, rfl⟩ <;> rfl

/-- One element of a block of INT8 (R98). -/
theorem mxElem_int8 (sc : Nat) (n : Bool) (m : Nat) (e : Int) : ∃ k : Nat,
    let y := m * 2 ^ (e - (sc - 127) + 6).toNat
    let d := 2 ^ (-(e - (sc - 127) + 6)).toNat
    let i : Int := if n then -(k : Int) else k
    RoundsInt .rne n y d k ∧ mxElem (EF.ofCode 3) sc (.fin n m e) = if i < -128 then (128, fOVF + fINX)
      else if 127 < i then (127, fOVF + fINX) else ((i % 256).toNat, if y % d = 0 then 0 else fINX) := by
  have h := roundAt_spec .rne n m (e - ((sc : Int) - 127)) (-6)
  have e1 : e - ((sc : Int) - 127) - -6 = e - (sc - 127) + 6 := by omega
  have e2 : -6 - (e - ((sc : Int) - 127)) = -(e - (sc - 127) + 6) := by omega
  rw [e1, e2] at h
  by_cases hm : m = 0
  · subst hm
    refine ⟨0, ⟨0, 0, ?_⟩, ?_⟩
    · simp
    · cases n <;> simp [mxElem, EF.ofCode]
  · refine ⟨_, h.1, (if_neg hm).trans ?_⟩
    rw [← h.inexact]
    rfl

section
variable {daz : Bool} {a b : Word}

theorem mxPackW_of_fin {n : Bool} {m : Nat} {e : Int} (hv : FF.fp32.operand daz a.toNat = .fin n m e)
    (hs : b.toNat % 256 ≠ 255) : mxPackW daz a b
      = codeW (mxElem (EF.ofCode (b.toNat / 256 % 4)) (b.toNat % 256) (.fin n m e)) := by
  have he : fld b.toNat 8 2 = b.toNat / 256 % 4 := by simp [fld, Nat.shiftRight_eq_div_pow]
  unfold mxPackW
  rw [hv, he]
  exact if_neg hs

theorem mxPackW_of_special (h : b.toNat % 256 = 255 ∨ (FF.fp32.operand daz a.toNat).isNan = true
    ∨ ∃ n, FF.fp32.operand daz a.toNat = .inf n) : mxPackW daz a b = (0, 0) := by
  unfold mxPackW
  rcases h with h | h | ⟨n, h⟩
  · exact if_pos h
  · obtain ⟨s, hs⟩ := isNan_iff.mp h
    rw [hs]
    exact ite_self _
  · rw [h]
    exact ite_self _

end

/-! The scale of a block (R98). -/

theorem lt_two_pow_iff {m : Nat} (hm : m ≠ 0) (e q : Int) :
    (FV.fin false m e).lt (.fin false 1 q) = true ↔ (ilog2 m : Int) + e < q := by
  have h : (FV.fin false m e).lt (.fin false 1 q) = true ↔ m * 2 ^ (e - min e q).toNat < 2 ^ (q - min e q).toNat := by
    simp only [FV.lt, Bool.false_eq_true, if_false, Int.one_mul, Nat.one_mul, decide_eq_true_eq, Int.ofNat_lt]
  rw [h]
  rcases le_or_gt e q with hle | hgt
  · have h1 : (e - min e q).toNat = 0 := by omega
    rw [h1, pow_zero, Nat.mul_one, ← Nat.log2_lt hm, ilog2]
    omega
  · have h1 : (q - min e q).toNat = 0 := by omega
    have h2 : 0 < m * 2 ^ (e - min e q).toNat := Nat.mul_pos (Nat.pos_of_ne_zero hm) (Nat.two_pow_pos _)
    rw [h1, pow_zero]
    omega

theorem zero_lt_two_pow (e q : Int) : (FV.fin false 0 e).lt (.fin false 1 q) = true := by
  simp [FV.lt]

/-- A value below 2^(p + 1), if it is not zero, has an exponent of at most p. -/
theorem log2_le_of_lt {u : FV} {p : Int} (h : ∃ n m e, u = .fin n m e ∧ (FV.fin false m e).lt (.fin false 1 (p + 1)) = true)
    (hz : u.isZero = false) : u.log2 ≤ p := by
  obtain ⟨n, m, e, rfl, h⟩ := h
  rcases Nat.eq_zero_or_pos m with rfl | hm
  · cases hz
  · have := (lt_two_pow_iff (Nat.ne_of_gt hm) e (p + 1)).mp h
    rw [FV.log2]
    omega

/-- A magnitude of 2^p or more has an exponent of at least p. -/
theorem le_log2_of_not_lt {u : FV} {p : Int} {n : Bool} {m : Nat} {e : Int} (hu : u = .fin n m e)
    (h : (FV.fin false m e).lt (.fin false 1 p) = false) : u.isZero = false ∧ p ≤ u.log2 := by
  subst hu
  rcases Nat.eq_zero_or_pos m with rfl | hm
  · rw [zero_lt_two_pow] at h
    cases h
  · obtain ⟨k, rfl⟩ := Nat.exists_eq_add_of_lt hm
    have := mt (lt_two_pow_iff (Nat.ne_of_gt hm) e p).mpr (Bool.eq_false_iff.mp h)
    exact ⟨rfl, Int.not_lt.mp this⟩

theorem foldl_max_log2 {p : Int} {r : List FV} {i : Int} (hr : ∀ w ∈ r, w.log2 ≤ p) (hi : i ≤ p)
    (h : i = p ∨ ∃ w ∈ r, w.log2 = p) : r.foldl (fun a w => max a w.log2) i = p := by
  induction r generalizing i with
  | nil => exact h.resolve_right (by simp)
  | cons w r ih =>
    have hw := hr w (by simp)
    rw [List.foldl_cons]
    refine ih (fun u hu => hr u (by simp [hu])) (by omega) ?_
    rcases h with rfl | ⟨u, hu, hp⟩
    · exact .inl (by omega)
    · rcases List.mem_cons.mp hu with rfl | hu
      · exact .inl (by omega)
      · exact .inr ⟨u, hu, hp⟩

section
variable {vs : List FV} {ef : EF}

theorem mxScale_of_special (h : ∃ v ∈ vs, v.isNan = true ∨ ∃ n, v = .inf n) : mxScale vs ef = 255 := by
  obtain ⟨v, hv, h⟩ := h
  refine if_pos (List.any_eq_true.mpr ⟨v, hv, ?_⟩)
  rcases h with h | ⟨n, rfl⟩
  · rw [h, Bool.true_or]
  · rfl

/-- The scale of finite values, by those that are not zero. -/
theorem mxScale_of_finite {k : Nat} (hf : ∀ v ∈ vs, ∃ n m e, v = .fin n m e)
    (h0 : vs.filter (fun v => !v.isZero) = [] → k = 0)
    (h1 : ∀ v r, vs.filter (fun v => !v.isZero) = v :: r →
      k = (max 0 (min 254 (r.foldl (fun a w => max a w.log2) v.log2 - ef.emax + 127))).toNat) : mxScale vs ef = k := by
  refine (if_neg ?_).trans ?_
  · rw [List.any_eq_true]
    rintro ⟨v, hv, h⟩
    obtain ⟨n, m, e, rfl⟩ := hf v hv
    exact Bool.false_ne_true h
  · dsimp only
    split
    · next h => exact (h0 h).symm
    · next v r h => exact (h1 v r h).symm

theorem isZero_iff {v : FV} : v.isZero = true ↔ ∃ n e, v = .fin n 0 e := by
  refine ⟨fun h => ?_, fun ⟨n, e, h⟩ => h ▸ rfl⟩
  unfold FV.isZero at h
  split at h
  · exact ⟨_, _, rfl⟩
  · cases h

theorem mxScale_of_zeros (h : ∀ v ∈ vs, v.isZero = true) : mxScale vs ef = 0 := by
  have hnil : vs.filter (fun v => !v.isZero) = [] := List.filter_eq_nil_iff.mpr fun v hv => by simp [h v hv]
  refine mxScale_of_finite (fun v hv => ?_) (fun _ => rfl) fun v r hr => nomatch hnil.symm.trans hr
  obtain ⟨n, e, rfl⟩ := isZero_iff.mp (h v hv)
  exact ⟨n, 0, e, rfl⟩

/-- The scale from the greatest exponent of the values that are not zero. -/
theorem mxScale_of_max {p : Int} (hf : ∀ v ∈ vs, ∃ n m e, v = .fin n m e)
    (hle : ∀ v ∈ vs, v.isZero = false → v.log2 ≤ p) (hp : ∃ v ∈ vs, v.isZero = false ∧ v.log2 = p) :
    mxScale vs ef = (max 0 (min 254 (p - ef.emax + 127))).toNat := by
  obtain ⟨w, hw, hz, hwp⟩ := hp
  have hmem : w ∈ vs.filter (fun v => !v.isZero) := List.mem_filter.mpr ⟨hw, by simp [hz]⟩
  refine mxScale_of_finite hf (fun h => absurd hmem (by simp [h])) fun v r h => ?_
  have hall : ∀ u ∈ v :: r, u.log2 ≤ p := fun u hu => by
    rw [← h, List.mem_filter] at hu
    exact hle u hu.1 (by simpa using hu.2)
  rw [h] at hmem
  rw [foldl_max_log2 (fun u hu => hall u (List.mem_cons_of_mem v hu)) (hall v List.mem_cons_self)]
  rcases List.mem_cons.mp hmem with rfl | hm
  · exact .inl hwp
  · exact .inr ⟨w, hm, hwp⟩

end

/-- The values of a lane's block, in the order of the lanes (R234). -/
def Iss.block (x : Iss) (a : Reg) (len l : Nat) : List FV :=
  (x.lanes.filter (fun j => j / len == l / len)).map (fun j => FF.fp32.operand x.g.daz (x.g.rd a j).toNat)

theorem mem_block {x : Iss} {a : Reg} {len l : Nat} {u : FV} : u ∈ x.block a len l
    ↔ ∃ j, (j ∈ x.lanes ∧ j / len = l / len) ∧ FF.fp32.operand x.g.daz (x.g.rd a j).toNat = u := by
  simp [Iss.block]

theorem mxWord_eq (x : Iss) (a : Reg) (ctl : Word) (l : Nat) : x.mxWord a ctl l
    = BitVec.ofNat 32 (mxScale (x.block a (if ctl.getLsbD 4 then 16 else 32) l) (EF.ofCode (ctl.toNat % 4))
      + 256 * (ctl.toNat % 4)) := by
  have h : bit ctl.toNat 4 = ctl.getLsbD 4 := bit_eq_testBit _ _
  rw [← h]
  rfl

theorem emax_ofCode {c : Nat} (h : c < 4) : (EF.ofCode c).emax = ([2, 8, 15, 0] : List Int).getD c 0 := by
  interval_cases c <;> rfl

/-- Settles O15: conversions by `setsCvt_of` and `toInt_fin`, the scale of a block by `mxScale_of_max`, its elements by their
format. -/
theorem conversions : Obligations.Conversions := by
  unfold Obligations.Conversions
  refine ⟨fun rm d a src dst sat => ?_, fun rm d a src dst xi => ?_, fun d a b => ⟨?_, ?_⟩,
    fun f g t u rm satf ftz daz sat n c => ?_, fun x a ctl l => ?_, fun daz a b => ?_⟩
  · cases sat
    · exact setsCvt_one fun _ => rfl
    · exact setsCvt_one fun _ => rfl
  · cases xi
    · exact setsCvt_of (packed_regs_le (width_ofCode _) (width_ofCode _)) fun _ => rfl
    · exact setsCvt_of (packed_regs_le (width_ofXi _) (width_ofCode _)) fun _ => rfl
  · exact sets_of (fun _ _ => rfl) fun _ => rfl
  · exact setsFlags_of (fun _ _ => rfl) fun _ => rfl
  · intro v sign
    refine ⟨fun r hr => hr ▸ rfl, roundFV_nan .., roundFV_inf .., ⟨fun h => ?_, fun x h => ?_, fun x m e h => ?_⟩,
      fun r hr => hr ▸ rfl, rfl, rfl⟩
    · obtain ⟨s, hs⟩ := isNan_iff.mp h
      exact congrArg (toInt t rm) hs
    · exact congrArg (toInt t rm) h
    · obtain ⟨k, hk, hr⟩ := toInt_fin t rm x m e
      exact ⟨k, hk, (congrArg (toInt t rm) h).trans hr⟩
  · intro len ef v block
    refine ⟨_, mxWord_eq x a ctl l, fun ⟨j, hj, h⟩ => ?_, fun h => ?_, fun p hlt ⟨j, n, m, e, hj, hv, hge⟩ => ?_⟩
    · exact mxScale_of_special ⟨v j, mem_block.mpr ⟨j, hj, rfl⟩, h⟩
    · refine mxScale_of_zeros fun u hu => ?_
      obtain ⟨j, hj, rfl⟩ := mem_block.mp hu
      exact h j hj
    · rw [← emax_ofCode (Nat.mod_lt _ (by decide))]
      obtain ⟨hz, hp⟩ := le_log2_of_not_lt hv hge
      refine mxScale_of_max (fun u hu => ?_) (fun u hu => ?_)
        ⟨v j, mem_block.mpr ⟨j, hj, rfl⟩, hz, Int.le_antisymm (log2_le_of_lt (hlt j hj) hz) hp⟩
      · obtain ⟨i, hi, rfl⟩ := mem_block.mp hu
        obtain ⟨n, m, e, h, -⟩ := hlt i hi
        exact ⟨n, m, e, h⟩
      · obtain ⟨i, hi, rfl⟩ := mem_block.mp hu
        exact log2_le_of_lt (hlt i hi)
  · intro v sc ef
    refine ⟨mxPackW_of_special, fun n m e hv hsc => ⟨mxElem (EF.ofCode ef) sc (.fin n m e), mxPackW_of_fin hv hsc,
      fun f hf => ?_, fun h3 => ?_⟩⟩
    · rw [mxElem_float hf]
      exact ⟨fun hm => if_neg hm ▸ rounds_roundFin f .rne true false n _ hm, fun hm => if_pos hm⟩
    · rw [h3]
      exact mxElem_int8 sc n m e

end Sys2Proof.Machine
end

section
/-! Moves across lanes, reductions, scans and votes (R116, R236 to R238). -/
namespace Sys2Proof.Machine

/-- The lanes that execute (R173). -/
theorem mem_lanes {x : Iss} {l : Nat} : l ∈ x.lanes ↔ l < x.g.width ∧ x.act.getLsbD l = true := by
  simp [Iss.lanes, lanesOf]

/-- A move that writes some of the lanes that execute. -/
theorem setsLanes_of {i : Instr} {d : Reg} {ls : Iss → List Nat} {f : Iss → Nat → Word} (hl : ∀ x, ls x ⊆ x.lanes)
    (h : ∀ s, exec i s = issueG (Instr.sig i) s (fun x => x.g.wr d (ls x) (f x))) :
    SetsRun i d 1 ls (fun x l _ => f x l) (fun _ => 0) := by
  refine setsRun_of (by decide) (fun x l hm => lanesOf_lt _ _ l (hl x hm)) (fun _ _ _ => rfl) (fl := fun _ => 0)
    (fun _ => rfl) (fun s => ?_) (f := fun x l _ => f x l)
  rw [h, issueG]
  simp only [raise_zero, wr_eq_wrRun]

/-- A reduction by the tree of R116. -/
theorem setsTree_of {i : Instr} {d a : Reg} {f : Iss → Nat → Nat → Nat × Nat}
    (h : ∀ s, exec i s = issueG (Instr.sig i) s (fun x => x.tree d a (f x))) :
    SetsRun i d 1 Iss.lanes (fun x _ _ => BitVec.ofNat 32 (treeRoot (f x) 6 (x.leaves a)).1)
      (fun x => (treeRoot (f x) 6 (x.leaves a)).2) := by
  refine setsRun_of (by decide) (fun x => lanesOf_lt _ _) (fun _ _ _ => rfl) (fun _ => rfl) (fun s => (h s).trans ?_)
  simp only [Iss.tree, Iss.all, wr_eq_wrRun]
  rfl

/-- A sum of words is the word of the sum. -/
theorem foldl_add_word (g : Grp) (a : Reg) (ls : List Nat) (w : Word) :
    ls.foldl (fun w j => w + g.rd a j) w = BitVec.ofNat 32 (w.toNat + (ls.map (fun l => (g.rd a l).toNat)).sum) := by
  induction ls generalizing w with
  | nil => simp
  | cons l ls ih =>
    rw [List.foldl_cons, ih, List.map_cons, List.sum_cons]
    refine BitVec.eq_of_toNat_eq ?_
    simp only [BitVec.toNat_ofNat, BitVec.toNat_add]
    omega

theorem fold_add_eq (x : Iss) (a : Reg) :
    x.fold a (· + ·) = BitVec.ofNat 32 ((x.lanes.map (fun l => (x.g.rd a l).toNat)).sum) := by
  unfold Iss.fold
  cases x.lanes with
  | nil => rfl
  | cons l ls => rw [List.map_cons, List.sum_cons]; exact foldl_add_word x.g a ls _

theorem sumWhere_eq (x : Iss) (a : Reg) (p : Nat → Bool) :
    x.sumWhere a p = BitVec.ofNat 32 (((x.lanes.filter p).map (fun j => (x.g.rd a j).toNat)).sum) := by
  rw [Iss.sumWhere, foldl_add_word]
  simp

/-! The tree of R116. -/

/-- A node of the tree: it joins its two halves, and an empty half passes the other on. -/
def treeNode (f : Nat → Nat → Nat × Nat) : Option Nat → Option Nat → Option Nat × Nat
  | some a, some b => (some (f a b).1, (f a b).2)
  | some a, none => (some a, 0)
  | none, q => (q, 0)

section
variable (f : Nat → Nat → Nat × Nat)

theorem treeLevel_cons_cons (p q : Option Nat) (r : List (Option Nat)) : treeLevel f (p :: q :: r)
    = ((treeNode f p q).1 :: (treeLevel f r).1, (treeNode f p q).2 ||| (treeLevel f r).2) := by
  cases p <;> cases q <;> simp [treeLevel, treeNode]

theorem isNone_treeNode (p q : Option Nat) : (treeNode f p q).1.isNone = (p.isNone && q.isNone) := by
  cases p <;> cases q <;> rfl

theorem treeRoot_succ (n : Nat) (l : List (Option Nat)) : treeRoot f (n + 1) l
    = ((treeRoot f n (treeLevel f l).1).1, (treeLevel f l).2 ||| (treeRoot f n (treeLevel f l).1).2) := rfl

variable {f}

/-- A list of an even number of leaves, as pairs. -/
theorem exists_pair {k : Nat} {l : List (Option Nat)} (h : l.length = 2 * (k + 1)) :
    ∃ p q r, l = p :: q :: r ∧ r.length = 2 * k := by
  match l, h with
  | p :: q :: r, h => exact ⟨p, q, r, rfl, by simp only [List.length_cons] at h; omega⟩

theorem length_treeLevel {k : Nat} {l : List (Option Nat)} (h : l.length = 2 * k) : (treeLevel f l).1.length = k := by
  induction k generalizing l with
  | zero => rw [List.length_eq_zero_iff.mp h]; rfl
  | succ k ih =>
    obtain ⟨p, q, r, rfl, hr⟩ := exists_pair h
    rw [treeLevel_cons_cons, List.length_cons, ih hr]

theorem treeLevel_append {k : Nat} {a : List (Option Nat)} (b : List (Option Nat)) (h : a.length = 2 * k) :
    treeLevel f (a ++ b) = ((treeLevel f a).1 ++ (treeLevel f b).1, (treeLevel f a).2 ||| (treeLevel f b).2) := by
  induction k generalizing a with
  | zero => rw [List.length_eq_zero_iff.mp h]; simp [treeLevel]
  | succ k ih =>
    obtain ⟨p, q, r, rfl, hr⟩ := exists_pair h
    rw [List.cons_append, List.cons_append, treeLevel_cons_cons, ih hr, treeLevel_cons_cons, Nat.or_assoc, List.cons_append]

theorem all_isNone_treeLevel {k : Nat} {l : List (Option Nat)} (h : l.length = 2 * k) :
    (treeLevel f l).1.all Option.isNone = l.all Option.isNone := by
  induction k generalizing l with
  | zero => rw [List.length_eq_zero_iff.mp h]; rfl
  | succ k ih =>
    obtain ⟨p, q, r, rfl, hr⟩ := exists_pair h
    rw [treeLevel_cons_cons, List.all_cons, List.all_cons, List.all_cons, ih hr, isNone_treeNode, Bool.and_assoc]

theorem treeLevel_flags_of_empty {k : Nat} {l : List (Option Nat)} (h : l.length = 2 * k)
    (hn : l.all Option.isNone = true) : (treeLevel f l).2 = 0 := by
  induction k generalizing l with
  | zero => rw [List.length_eq_zero_iff.mp h]; rfl
  | succ k ih =>
    obtain ⟨p, q, r, rfl, hr⟩ := exists_pair h
    simp only [List.all_cons, Bool.and_eq_true, Option.isNone_iff_eq_none] at hn
    obtain ⟨rfl, rfl, hn⟩ := hn
    rw [treeLevel_cons_cons, ih hr hn]
    exact Nat.or_zero _

theorem two_pow_succ_length {n : Nat} {l : List (Option Nat)} (h : l.length = 2 ^ (n + 1)) : l.length = 2 * 2 ^ n := by
  rw [h, Nat.pow_succ, Nat.mul_comm]

theorem treeRoot_empty {n : Nat} {l : List (Option Nat)} (h : l.length = 2 ^ n) (hn : l.all Option.isNone = true) :
    treeRoot f n l = (0, 0) := by
  induction n generalizing l with
  | zero =>
    obtain ⟨p, rfl⟩ := List.length_eq_one_iff.mp h
    obtain rfl : p = none := by simpa using hn
    rfl
  | succ n ih =>
    have h2 := two_pow_succ_length h
    rw [treeRoot_succ, ih (length_treeLevel h2) ((all_isNone_treeLevel h2).trans hn), treeLevel_flags_of_empty h2 hn]
    rfl

/-- Levels above the root change nothing. -/
theorem treeRoot_add {n : Nat} {l : List (Option Nat)} (h : l.length = 2 ^ n) (k : Nat) :
    treeRoot f (n + k) l = treeRoot f n l := by
  induction n generalizing l with
  | zero =>
    obtain ⟨p, rfl⟩ := List.length_eq_one_iff.mp h
    rw [Nat.zero_add]
    induction k with
    | zero => rfl
    | succ k ih =>
      have hp : treeLevel f [p] = ([p], 0) := by cases p <;> rfl
      rw [treeRoot_succ, hp, ih, Nat.zero_or]
  | succ n ih => rw [Nat.add_right_comm, treeRoot_succ, ih (length_treeLevel (two_pow_succ_length h)), ← treeRoot_succ]

/-- The root joins the roots of the two halves (R116). -/
theorem treeRoot_append {k : Nat} {a b : List (Option Nat)} (ha : a.length = 2 ^ k) (hb : b.length = 2 ^ k) :
    treeRoot f (k + 1) (a ++ b) = if b.all Option.isNone then treeRoot f k a
      else if a.all Option.isNone then treeRoot f k b
      else ((f (treeRoot f k a).1 (treeRoot f k b).1).1,
        (f (treeRoot f k a).1 (treeRoot f k b).1).2 ||| (treeRoot f k a).2 ||| (treeRoot f k b).2) := by
  induction k generalizing a b with
  | zero =>
    obtain ⟨p, rfl⟩ := List.length_eq_one_iff.mp ha
    obtain ⟨q, rfl⟩ := List.length_eq_one_iff.mp hb
    cases p <;> cases q <;> simp [treeRoot, treeLevel]
  | succ k ih =>
    have ha2 := two_pow_succ_length ha
    have hb2 := two_pow_succ_length hb
    rw [treeRoot_succ, treeLevel_append b ha2, ih (length_treeLevel ha2) (length_treeLevel hb2),
      all_isNone_treeLevel ha2, all_isNone_treeLevel hb2, treeRoot_succ f k a, treeRoot_succ f k b]
    split
    · next h => rw [treeLevel_flags_of_empty hb2 h, Nat.or_zero]
    · split
      · next h => rw [treeLevel_flags_of_empty ha2 h, Nat.zero_or]
      · dsimp only
        ac_rfl

end

/-- The leaf of a lane: DAZ keeps a subnormal's sign alone, and an inactive lane is empty (R116). -/
theorem leaves_getElem? (x : Iss) (a : Reg) {l : Nat} (h : l < x.width) : (x.leaves a)[l]? = some (if x.act.getLsbD l then
    some (if x.g.daz = true ∧ (x.g.rd a l).toNat / 2 ^ 23 % 2 ^ 8 = 0 then (x.g.rd a l).toNat / 2 ^ 31 * 2 ^ 31
      else (x.g.rd a l).toNat) else none) := by
  have he (c : Nat) : fld c 23 8 = c / 2 ^ 23 % 2 ^ 8 := by rw [fld, Nat.shiftRight_eq_div_pow]
  have hs (w : Word) : fld w.toNat 31 1 = w.toNat / 2 ^ 31 := by
    have := w.isLt
    rw [fld, Nat.shiftRight_eq_div_pow]
    omega
  simp only [Iss.leaves, List.getElem?_map, List.getElem?_range h, Option.map_some, Bool.and_eq_true, beq_iff_eq, he, hs]

/-- Settles O16: each form by its meaning, the tree by `treeRoot_append`. -/
theorem laneOperations : Obligations.LaneOperations := by
  unfold Obligations.LaneOperations
  refine ⟨fun d a b => ?_, ⟨fun d a => ?_, fun d k => ?_, fun d k => ?_⟩, fun f n l hl => ?_, fun x a l hl => ?_⟩
  · exact ⟨setsLanes_of (fun _ => List.filter_subset_self _) fun _ => rfl,
      setsLanes_of (fun _ => List.filter_subset_self _) fun _ => rfl,
      sets_of (fun _ _ => rfl) fun _ => rfl, sets_of (fun _ _ => rfl) fun _ => rfl, sets_of (fun _ _ => rfl) fun _ => rfl,
      sets_of (fun _ _ => rfl) fun _ => rfl, sets_of (fun _ _ => rfl) fun _ => rfl, sets_of (fun _ _ => rfl) fun _ => rfl⟩
  · refine ⟨?_, ?_, ?_, ?_, ?_, ?_, ?_, ?_⟩
    · exact sets_of (fun x _ => fold_add_eq x a) fun _ => rfl
    · exact sets_of (fun x _ => by simp only [BitVec.slt_iff_toInt_lt]) fun _ => rfl
    · exact sets_of (fun x _ => by simp only [BitVec.slt_iff_toInt_lt]) fun _ => rfl
    · exact setsTree_of fun _ => rfl
    · exact setsTree_of fun _ => rfl
    · exact sets_of (fun x _ => sumWhere_eq x a _) fun _ => rfl
    · exact sets_of (fun x _ => sumWhere_eq x a _) fun _ => rfl
    · exact setsPair_of (fun _ _ => rfl) fun _ => rfl
  · exact setsPair_of (fun _ _ => rfl) fun _ => rfl
  · constructor
    · refine setsPred_of (fun x l hl => ?_) fun s => issueG_raise _ _ _
      by_cases h : x.g.pr k.toNat &&& x.act = 0
      · rw [if_pos h, decide_eq_false (not_not_intro h)]
        exact BitVec.getLsbD_zero
      · rw [if_neg h, decide_eq_true h]
        exact (mem_lanes.mp hl).2
    · refine setsPred_of (fun x l hl => ?_) fun s => issueG_raise _ _ _
      by_cases h : x.g.pr k.toNat &&& x.act = x.act
      · rw [if_pos h, decide_eq_true h]
        exact (mem_lanes.mp hl).2
      · rw [if_neg h, decide_eq_false h]
        exact BitVec.getLsbD_zero
  · refine ⟨treeRoot_empty hl, fun v hv => ?_, treeRoot_add hl, fun k hk => ?_⟩
    · subst hv
      obtain rfl : n = 0 := (Nat.pow_eq_one.mp hl.symm).resolve_left (by decide)
      rfl
    · subst hk
      have h2 := two_pow_succ_length hl
      have h := treeRoot_append (f := f) (k := k) (a := l.take (2 ^ k)) (b := l.drop (2 ^ k))
        (by rw [List.length_take]; omega) (by rw [List.length_drop]; omega)
      rwa [List.take_append_drop] at h
  · exact leaves_getElem? x a hl

end Sys2Proof.Machine
end

section
/-! Quantisation with outliers (R114, R233). -/
namespace Sys2Proof.Machine

theorem cvtq_of_bad_control {x : Iss} (s : State) (d a : Reg) {b : Reg} (h : cvtqOk (x.g.rd (Reg.plus b 2) 0) = false) :
    x.cvtq s d a b = .trap 0 := by
  simp [Iss.cvtq, h]

/-- Settles O37: CVTQ by its control word, its offset and the checks of its side list. -/
theorem quantiseWithOutliers : Obligations.QuantiseWithOutliers := by
  unfold Obligations.QuantiseWithOutliers
  intro d a b ctl at_ v outs accs dt code
  refine ⟨retiresWhen_of (fun _ => rfl) fun s x ⟨hc, hk, hf⟩ => ?_,
    trapsWhen_of (fun _ => rfl) fun s x hc => cvtq_of_bad_control s d a hc⟩
  have hc' : ¬(!cvtqOk (ctl x)) = true := by rw [hc]; decide
  refine (if_neg hc').trans ((if_neg (not_not_intro hk)).trans ?_)
  dsimp only [accs, outs, v, at_] at hf
  simp only [hf, List.isEmpty_iff]
  rfl

end Sys2Proof.Machine
end

section
/-! Loads and stores of which a lane's check fails (R121, R248). -/
namespace Sys2Proof.Machine

section
variable {s : State} {x : Iss} {d o : Reg} {q : BitVec 4} {d5 : BitVec 5} {size : Nat} {f : FaultInfo}

theorem ld_of_failing_lane (regs sx : Nat) (hx : x.p.part = none)
    (hp : x.places s (accessAsk x o q d5 size false) x.lanes = .error f) :
    x.ld s d o q d5 size regs sx = .fault f := by
  have hp' : x.places s
      { c := x.qs q, q := q.toNat, size := size, need := { r := true }, perm := x.txnPerm pLOAD,
        off := x.memOff o d5 size, natural := x.g.isOpen } x.lanes = .error f := hp
  simp only [Iss.ld, hx, hp']

theorem st_of_failing_lane (regs : Nat) (hx : x.p.part = none)
    (hp : x.places s (accessAsk x o q d5 size true) x.lanes = .error f) :
    x.st s d o q d5 size regs = .fault f := by
  have hp' : x.places s
      { c := x.qs q, q := q.toNat, size := size, need := { w := true }, perm := x.txnPerm pSTORE,
        off := x.memOff o d5 size, natural := x.g.isOpen, commit := x.g.isOpen } x.lanes = .error f := hp
  simp only [Iss.st, hx, hp']

end

theorem load_faults {i : Instr} {d o : Reg} {q : BitVec 4} {d5 : BitVec 5} {size regs sx : Nat} {f : FaultInfo}
    (hi : ∀ s, exec i s = issue (Instr.sig i) s (fun x s => x.ld s d o q d5 size regs sx)) :
    FaultsWhen i (fun s x => x.p.part = none ∧ x.places s (accessAsk x o q d5 size false) x.lanes = .error f)
      (fun _ _ => f) :=
  faultsWhen_of hi fun _ _ ⟨hx, hp⟩ => ld_of_failing_lane regs sx hx hp

theorem store_faults {i : Instr} {d o : Reg} {q : BitVec 4} {d5 : BitVec 5} {size regs : Nat} {f : FaultInfo}
    (hi : ∀ s, exec i s = issue (Instr.sig i) s (fun x s => x.st s d o q d5 size regs)) :
    FaultsWhen i (fun s x => x.p.part = none ∧ x.places s (accessAsk x o q d5 size true) x.lanes = .error f)
      (fun _ _ => f) :=
  faultsWhen_of hi fun _ _ ⟨hx, hp⟩ => st_of_failing_lane regs hx hp

/-- Settles O33: the checks of all lanes come before any access, and a failing one ends LD and ST there. -/
theorem accessFaults : Obligations.AccessFaults := by
  unfold Obligations.AccessFaults
  refine fun d o q d5 f => ⟨fun e he => ?_, fun e he => ?_⟩
  · simp only [List.mem_cons, List.not_mem_nil, or_false] at he
    rcases he with rfl | rfl | rfl | rfl | rfl | rfl | rfl <;> exact load_faults fun _ => rfl
  · simp only [List.mem_cons, List.not_mem_nil, or_false] at he
    rcases he with rfl | rfl | rfl | rfl | rfl <;> exact store_faults fun _ => rfl

end Sys2Proof.Machine
end

section
/-! Reductions that return nothing (R110, R129, R255, R256). -/
namespace Sys2Proof.Machine

theorem red_of_places {s : State} {x : Iss} {perLane : Bool} {a : Reg} {q : BitVec 4} (v : Nat → Nat)
    (f : Nat → Nat → Nat) {as : List LaneAt}
    (hp : x.places s (atomicAsk x a q 4 false) (if perLane then x.lanes else [x.low]) = .ok as)
    (hg : x.gate s false as = none) :
    x.red s perLane a q v f
      = .retire ((redPlaces f v s (groupPlaces as)).touchLanes x.ag true as) (x.excluded perLane as) := by
  have hp' : x.places s
      { c := x.qs q, q := q.toNat, size := 4, need := { r := true, w := true }, perm := fun _ => pATOMIC ||| pSTORE,
        off := fun l => (x.g.off a l).toInt } (x.reqLanes perLane) = .ok as := hp
  simp only [Iss.red, hp', hg]

theorem reduction_of {i : Instr} {perLane : Bool} {a : Reg} {q : BitVec 4} {v : Iss → Nat → Nat} {f : Nat → Nat → Nat}
    (hi : ∀ s, exec i s = issue (Instr.sig i) s (fun x s => x.red s perLane a q (v x) f)) {s : State} {x : Iss}
    {as : List LaneAt} (hr : Runs i s x)
    (hp : x.places s (atomicAsk x a q 4 false) (if perLane then x.lanes else [x.low]) = .ok as)
    (hg : x.gate s false as = none) :
    exec i s = .next (((redPlaces f (v x) s (groupPlaces as)).touchLanes x.ag true as).retireTo x (x.excluded perLane as)
      (x.p.pc + 4)) := by
  rw [exec_runs hi hr, red_of_places (v x) f hp hg, finish]

/-- Requests of one address are combined together. -/
theorem groupPlaces_of_same_keys {ks : List Nat} {as : List LaneAt} (hn : as ≠ []) (h : ∀ a ∈ as, a.pl.keys = ks) :
    ∃ pl : Place, pl.keys = ks ∧ groupPlaces as = [(pl, as.map (·.lane))] := by
  induction as with
  | nil => exact absurd rfl hn
  | cons a as ih =>
    obtain ⟨ha, h⟩ := List.forall_mem_cons.mp h
    cases as with
    | nil => exact ⟨a.pl, ha, rfl⟩
    | cons b as =>
      obtain ⟨pl, hk, e⟩ := ih (List.cons_ne_nil b as) h
      exact ⟨pl, hk, by simp [groupPlaces.eq_2 a, e, hk, ha]⟩

/-! Values combined in a tree of open shape and order (R110, R129). -/

/-- A step of the tree: two values, taken from wherever they stand, become one. -/
theorem perm_of_two_taken {l : List Nat} {i j : Nat} (hi : i < l.length) (hj : j < (l.eraseIdx i).length) :
    l.Perm (l.getD i 0 :: (l.eraseIdx i).getD j 0 :: (l.eraseIdx i).eraseIdx j) := by
  have take {l : List Nat} {i : Nat} (hi : i < l.length) : l.Perm (l.getD i 0 :: l.eraseIdx i) := by
    rw [List.getD_eq_getElem l 0 hi]
    exact (List.getElem_cons_eraseIdx_perm hi).symm
  exact (take hi).trans ((take hj).cons _)

theorem eq_headD_of_length_le_one {l : List Nat} (h0 : l ≠ []) (hl : l.length ≤ 1) : l = [l.headD 0] := by
  match l with
  | [_] => rfl

/-- What every such step keeps holds of the value that is left. -/
theorem combine_keeps {f : Nat → Nat → Nat} {Keeps : List Nat → Prop}
    (hf : ∀ {l : List Nat} {a b : Nat} {r : List Nat}, l.Perm (a :: b :: r) → Keeps l → Keeps (f a b :: r)) {n : Nat} (s : State)
    {l : List Nat} (h0 : l ≠ []) (hn : l.length ≤ n + 1) (h : Keeps l) : Keeps [(combine f n s l).2] := by
  induction n generalizing s l with
  | zero => exact eq_headD_of_length_le_one h0 hn ▸ h
  | succ n ih =>
    unfold combine
    split
    · next hl => exact eq_headD_of_length_le_one h0 hl ▸ h
    · next hl =>
      have hi : s.freeVal % l.length < l.length := Nat.mod_lt _ (by omega)
      have he := List.length_eraseIdx_of_lt hi
      have hj : Config.freeNat (s.free + 1) % (l.eraseIdx (s.freeVal % l.length)).length
          < (l.eraseIdx (s.freeVal % l.length)).length := Nat.mod_lt _ (by omega)
      refine ih _ (List.cons_ne_nil _ _) ?_ (hf (perm_of_two_taken hi hj) h)
      rw [List.length_cons, List.length_eraseIdx_of_lt hj]
      omega

theorem combine_add {n : Nat} (s : State) {l : List Nat} (h0 : l ≠ []) (hn : l.length ≤ n + 1) :
    (combine (fun u w => u + w) n s l).2 = l.sum := by
  have h := combine_keeps (f := fun u w => u + w) (Keeps := fun m => m.sum = l.sum)
    (fun hp h => by rw [← h, hp.sum_eq]; simp [Nat.add_assoc]) s h0 hn rfl
  simpa using h

/-- A combination that keeps one of the two values, of the lower rank, leaves one of the values, of the least rank. -/
theorem combine_least (rank : Nat → Int) {f : Nat → Nat → Nat} (hf : ∀ u w, f u w = if rank w < rank u then w else u)
    {n : Nat} (s : State) {l : List Nat} (h0 : l ≠ []) (hn : l.length ≤ n + 1) :
    (combine f n s l).2 ∈ l ∧ ∀ v ∈ l, rank (combine f n s l).2 ≤ rank v := by
  have h := combine_keeps (f := f) (Keeps := fun m => m ⊆ l ∧ ∀ v ∈ l, ∃ w ∈ m, rank w ≤ rank v)
    (fun {m a b r} hp ⟨hin, hle⟩ => by
      have hab : f a b = a ∨ f a b = b := by rw [hf]; split <;> simp
      have hmin : rank (f a b) ≤ rank a ∧ rank (f a b) ≤ rank b := by rw [hf]; split <;> omega
      refine ⟨fun v hv => ?_, fun v hv => ?_⟩
      · refine hin (hp.mem_iff.mpr ?_)
        rcases List.mem_cons.mp hv with rfl | hv
        · rcases hab with h | h <;> simp [h]
        · simp [hv]
      · obtain ⟨w, hw, hwv⟩ := hle v hv
        rcases List.mem_cons.mp (hp.mem_iff.mp hw) with rfl | hw
        · exact ⟨_, List.mem_cons_self, hmin.1.trans hwv⟩
        · rcases List.mem_cons.mp hw with rfl | hw
          · exact ⟨_, List.mem_cons_self, hmin.2.trans hwv⟩
          · exact ⟨w, List.mem_cons_of_mem _ hw, hwv⟩)
    s h0 hn ⟨List.Subset.refl l, fun v hv => ⟨v, hv, le_rfl⟩⟩
  simpa using h

/-- Two values are combined in one order or the other. -/
theorem combine_two (f : Nat → Nat → Nat) (n : Nat) (s : State) (u w : Nat) :
    (combine f (n + 1) s [u, w]).2 = f u w ∨ (combine f (n + 1) s [u, w]).2 = f w u := by
  have h := combine_keeps (f := f) (n := n + 1) (Keeps := fun m => m.Perm [u, w] ∨ m = [f u w] ∨ m = [f w u])
    (fun {m a b r} hp hm => by
      have hm : m.Perm [u, w] := hm.resolve_right fun h => by
        have hl := hp.length_eq
        rcases h with rfl | rfl <;> simp at hl
      have hab := hp.symm.trans hm
      obtain rfl : r = [] := List.eq_nil_of_length_eq_zero (by simpa using hab.length_eq)
      have ha : a = u ∨ a = w := by simpa using hab.subset List.mem_cons_self
      rcases ha with rfl | rfl
      · obtain rfl : b = w := by simpa using (List.perm_cons a).mp hab
        exact .inr (.inl rfl)
      · obtain rfl : b = u := by simpa using (List.perm_cons a).mp (hab.trans (.swap a u []))
        exact .inr (.inr rfl)) s (l := [u, w]) (by simp) (by simp) (.inl .rfl)
  simpa using h

/-! What memory holds at the address (R3, R129). -/

theorem rkeys_lt (s : State) (ks : List Nat) : s.rkeys ks < 256 ^ ks.length := by
  induction ks with
  | nil => simp [State.rkeys]
  | cons k ks ih =>
    have hb := (s.rb k).isLt
    rw [State.rkeys, List.length_cons, Nat.pow_succ]
    omega

theorem leBytes_mod (v n : Nat) : leBytes (v % 256 ^ n) n = leBytes v n := by
  induction n generalizing v with
  | zero => rfl
  | succ n ih =>
    have hd : v % 256 ^ (n + 1) / 256 = v / 256 % 256 ^ n := by rw [Nat.pow_succ, Nat.mod_mul_left_div_self]
    have hm : BitVec.ofNat 8 (v % 256 ^ (n + 1)) = BitVec.ofNat 8 v := by
      refine BitVec.eq_of_toNat_eq ?_
      rw [BitVec.toNat_ofNat, BitVec.toNat_ofNat, Nat.pow_succ]
      exact Nat.mod_mul_left_mod v (256 ^ n) 256
    rw [leBytes, leBytes, hd, ih, hm]

theorem rkeys_wkeys_mod {ks : List Nat} (s : State) (v : Nat) (hd : ks.Nodup) :
    (s.wkeys ks (leBytes v ks.length)).rkeys ks = v % 256 ^ ks.length := by
  rw [← leBytes_mod]
  exact rkeys_wkeys_leBytes ks s _ hd (Nat.mod_lt _ (by positivity))

/-- Requests of one address: the combination of what memory held and of all operands is written there. -/
theorem redPlaces_of_same_keys (f : Nat → Nat → Nat) (v : Nat → Nat) (s : State) {as : List LaneAt} {ks : List Nat}
    (hn : as ≠ []) (h : ∀ a ∈ as, a.pl.keys = ks) :
    let c := combine f (as.length + 1) s (s.rkeys ks :: as.map (fun a => v a.lane))
    redPlaces f v s (groupPlaces as) = c.1.wkeys ks (leBytes c.2 4) := by
  obtain ⟨pl, hk, e⟩ := groupPlaces_of_same_keys hn h
  simp only [e, redPlaces, hk, List.map_map, List.length_map]
  rfl

/-- Settles O35: the forms by `reduction_of`, one address by what every step of the tree of R129 keeps. -/
theorem reductions : Obligations.Reductions := by
  unfold Obligations.Reductions
  refine ⟨fun d a o q i perLane v f hi s x as hr hp hg => ?_, fun s f v as ks h0 hd hl h => ?_⟩
  · simp only [List.mem_cons, Prod.mk.injEq, List.not_mem_nil, or_false] at hi
    rcases hi with ⟨rfl, rfl, rfl, rfl⟩ | ⟨rfl, rfl, rfl, rfl⟩ | ⟨rfl, rfl, rfl, rfl⟩ | ⟨rfl, rfl, rfl, rfl⟩
      | ⟨rfl, rfl, rfl, rfl⟩ | ⟨rfl, rfl, rfl, rfl⟩ <;>
      exact reduction_of (fun _ => rfl) hr hp hg
  · intro t vs
    obtain ⟨c, hc⟩ : ∃ c, c = combine f (as.length + 1) s vs := ⟨_, rfl⟩
    have ht : t = c.1.wkeys ks (leBytes c.2 4) := hc ▸ redPlaces_of_same_keys f v s h0 fun a ha => (h a ha).1
    have hlen : vs.length ≤ as.length + 1 + 1 := by simp [vs]
    have hvs : vs ≠ [] := List.cons_ne_nil _ _
    have hlt : ∀ n ∈ vs, n < 2 ^ 32 := by
      refine List.forall_mem_cons.mpr ⟨by simpa [hl] using rkeys_lt s ks, fun n hn => ?_⟩
      obtain ⟨a, ha, rfl⟩ := List.mem_map.mp hn
      exact (h a ha).2
    have hr : t.rkeys ks = c.2 % 2 ^ 32 := by
      have hw := rkeys_wkeys_mod c.1 c.2 hd
      rwa [hl, ← ht] at hw
    have least (rank : Nat → Int) (hf : ∀ u w, f u w = if rank w < rank u then w else u) :
        t.rkeys ks ∈ vs ∧ ∀ n ∈ vs, rank (t.rkeys ks) ≤ rank n := by
      obtain ⟨hin, hle⟩ := combine_least rank hf s hvs hlen
      rw [hr, hc, Nat.mod_eq_of_lt (hlt _ hin)]
      exact ⟨hin, hle⟩
    refine ⟨fun k hk => ?_, fun hf => ?_, fun hf => ?_, fun hf => ?_, fun a ha => ?_⟩
    · have hcm : c.1.mem = s.mem := hc ▸ combine_mem ..
      rw [ht, rb_wkeys_other ks _ _ k hk]
      unfold State.rb
      rw [hcm]
    · subst hf
      rw [hr, hc, combine_add s hvs hlen]
    · exact least (sint 32) (fun u w => congrFun (congrFun hf u) w)
    · obtain ⟨hin, hle⟩ := least (fun n => -sint 32 n) (fun u w => by simp [hf])
      exact ⟨hin, fun n hn => neg_le_neg_iff.mp (hle n hn)⟩
    · subst ha
      rw [hr, hc]
      exact (combine_two f _ s _ _).imp (congrArg (· % 2 ^ 32)) (congrArg (· % 2 ^ 32))

end Sys2Proof.Machine
end

section
/-! A scratch load that reads a release store (R165, R250): what LDS notes is not what the statement says. -/
namespace Sys2Proof.Machine

/-- A gang whose group 1 has stored the first word of its scratch with a release store. -/
def releasedGang : Gang :=
  { launch := none, core := 0, units := [some 0, none], scratch := 4
    race := { log := [⟨.grp 1, 2, 0, 4, true, true⟩], clk := [(1, [(.grp 1, 2)])], rels := [(0, 4, [(.grp 1, 1)])] } }

/-- Group 0 of that gang, with one lane. -/
def readingGroup : Grp := { bootThread with bank := none, gang := some 0 }

def releasedState : State :=
  { State.reset with cur := (0, false), units := [(0, readingGroup)], gangs := [(0, releasedGang)] }

/-- LDS.W s1, [0]. -/
def readReleased : Instr := .ldsW 97#7 127#7 0#9

def readReleasedIss : Iss := ⟨0, false, readingGroup.counted false, { pc := 0, mask := 1 }, wordOf readReleased⟩

theorem readReleased_runs : Runs readReleased releasedState readReleasedIss :=
  ⟨by decide +kernel, by decide +kernel, by decide +kernel, by decide +kernel⟩

/-- The access of its lane, which races with nothing: a load and a release store never do (R166). -/
theorem readReleased_passes : readReleasedIss.scrFault releasedState 4 false
    (readReleasedIss.scrAccs (Reg.isV 97#7) 127#7 (scrDisp readReleasedIss.p.hints 0#9)) = none := by decide +kernel

/-- What group 0 of gang 0 learns at its next acquire fence (R165). -/
def State.heard (s : State) : Clock := ((find s.gangs 0).map (fun k => look [] k.race.pend 0)).getD []

theorem heard_retireTo (s : State) (x : Iss) (g : Grp) (pc : DWord) : (s.retireTo x g pc).heard = s.heard := by
  rw [retireTo_frame]
  rfl

/-- Refutes O36: an LDS that reads a release store's word takes the clock of the store to its group's next acquire fence
(R165, item 6), while the statement notes the access as one that may read no release store. -/
theorem not_scratchAccesses : ¬ Obligations.ScratchAccesses := by
  unfold Obligations.ScratchAccesses
  rintro ⟨⟨hlds, -⟩, -⟩
  have hsaid := (hlds 97#7 127#7 0#9 readReleased 4 1 List.mem_cons_self).1 _ _ readReleased_runs readReleased_passes
  have hdone := exec_runs (body := fun x s => x.lds s 97#7 127#7 0#9 4 1) (fun _ => rfl) readReleased_runs
  simp only [Iss.lds, readReleased_passes, finish] at hdone
  have h := congrArg State.heard (Host.Outcome.next.inj (hsaid.symm.trans hdone))
  rw [heard_retireTo, heard_retireTo] at h
  dsimp only at h
  exact absurd h (by decide +kernel)

end Sys2Proof.Machine
end

section
/-! Transactions (R143 to R145, R257 to R260). -/
namespace Sys2Proof.Machine

/-- TBEG where no lane has failed 16 times and nobody holds the serial token: no lane is serialised. -/
theorem tbeg_of_few_failures {s : State} {x : Iss} (hs : find s.serial (s.serialKey x.g.vd) = none)
    (hf : ∀ l ∈ x.lanes, x.g.failsOf l < 16) :
    x.tbeg s = .retire s (x.lanes.foldl (fun g l =>
      match (g.txnOf l).state with
      | .none => g.setTxn l { state := .opened }
      | .opened => g.doom 3 l
      | .doomed _ => g.setTxn l { g.txnOf l with state := .doomed 3 }) x.g) := by
  have hw : x.lanes.filter (fun l => (x.g.txnOf l).state == .none && decide (16 ≤ x.g.failsOf l)) = [] :=
    List.filter_eq_nil_iff.mpr fun l hl => by simp [hf l hl]
  simp only [Iss.tbeg, hs, hw]
  rfl

/-- The end of a transaction that is not serialised lets nothing go. -/
theorem endSerials_of_none {s : State} {u : Nat} {g : Grp} {ls : List Nat} (h : ∀ l ∈ ls, (g.txnOf l).serial = false) :
    ls.foldl (fun s l => s.endSerial u g l) s = s := by
  induction ls with
  | nil => rfl
  | cons l ls ih =>
    obtain ⟨hl, h⟩ := List.forall_mem_cons.mp h
    have he : s.endSerial u g l = s := by simp [State.endSerial, hl]
    rw [List.foldl_cons, he, ih h]

theorem tend_of_unlocked {s : State} {x : Iss} (d : Reg) (hk : s.locked = [])
    (hser : ∀ l ∈ x.lanes, (x.g.txnOf l).serial = false)
    (hm : s.meetTiles x.g.regrow x.g.ctx (some (x.u, x.b, x.low, x.p.pc))
      ((txnWinners x.g [] (x.lanes.filter x.g.isOpen)).map (fun l => (x.g.txnOf l).place)) = none) :
    let cause := x.tendCause s (txnWinners x.g [] (x.lanes.filter x.g.isOpen))
    x.tend s d = .retire ((x.lanes.filter (fun l => cause l == 0)).foldl (fun s l => s.commitTxn (x.g.txnOf l)) s)
      ((x.lanes.foldl (fun g l => (g.setTxn l {}).setFails l (failsNext (x.g.failsOf l) (cause l))) x.g).wr
        d x.lanes (fun l => BitVec.ofNat 32 (cause l))) := by
  intro cause
  have hopen : ∀ l ∈ x.lanes.filter x.g.isOpen, (x.g.txnOf l).serial = false :=
    fun l hl => hser l (List.mem_of_mem_filter hl)
  have hs : (x.lanes.filter x.g.isOpen).filter (fun l => (x.g.txnOf l).serial) = [] :=
    List.filter_eq_nil_iff.mpr fun l hl => by simp [hopen l hl]
  have ho : (x.lanes.filter x.g.isOpen).filter (fun l => !((x.g.txnOf l).serial)) = x.lanes.filter x.g.isOpen :=
    List.filter_eq_self.mpr fun l hl => by simp [hopen l hl]
  have hf : s.locked.filter (fun k => !((x.ownLocks s).contains k)) = [] := by rw [hk]; rfl
  have hw (p : Nat → Bool) : (x.lanes.filter p).any (fun l => (x.g.txnOf l).touched.any ([] : List Nat).contains) = false := by
    simp
  simp only [Iss.tend, hs, ho, hm, hf, hw, endSerials_of_none hser]
  rfl

/-- Settles O38: TBEG, TABT and TTEST by their meanings, TEND with nothing locked. -/
theorem transactions : Obligations.Transactions := by
  unfold Obligations.Transactions
  refine ⟨?_, ?_, fun d => ?_, fun d => ?_⟩
  · exact retiresWhen_of (fun _ => rfl) fun s x ⟨hs, hf⟩ => tbeg_of_few_failures hs hf
  · exact retiresWhen_of (fun _ => rfl) fun _ _ _ => rfl
  · refine sets_of (f := fun x l => BitVec.ofNat 32 (txnCode (x.g.txnOf l).state)) (fun x l => ?_) fun _ => rfl
    cases (x.g.txnOf l).state <;> rfl
  · exact retiresWhen_of (fun _ => rfl) fun s x ⟨hk, hser, hm⟩ => tend_of_unlocked d hk hser hm

end Sys2Proof.Machine
end

section
/-! Waits on arrival objects, timelines and words (R143, R258, R263 to R265). -/
namespace Sys2Proof.Machine

/-! Arrival objects (R263). -/

section
variable {s : State} {x : Iss} {a : Reg} {ph : Bool} (hr : x.scrRange s (x.g.rd a 0).toNat 8 x.low = none)
include hr

theorem waitph_of_phase (hp : bit (s.scrR x.gangNo (x.g.rd a 0).toNat 8) 63 = ph) :
    x.waitph s a ph = .retire
      (x.modRace s (fun r => match r.arrs.find? (fun e => e.1 == (x.g.rd a 0).toNat) with
        | none => r
        | some e => Race.learn x.g.gidx e.2.2 r)) (x.scrG x.g) := by
  simp only [Iss.waitph, hr]
  exact if_pos (beq_iff_eq.mpr hp)

theorem waitph_of_other_phase (hp : bit (s.scrR x.gangNo (x.g.rd a 0).toNat 8) 63 ≠ ph) :
    x.waitph s a ph = .wait s .internal := by
  simp only [Iss.waitph, hr]
  exact if_neg fun h => hp (beq_iff_eq.mp h)

end

/-! Timelines (R264, R267). -/

/-- The value that a wait on a timeline waits for: the one that it took when it began (R264). -/
def Iss.awaited (x : Iss) (target : Int) : Int :=
  match x.p.wait with
  | some (.timelines [(_, v)]) => (v : Int)
  | _ => target

theorem awaited_eq (x : Iss) (n : Int) : x.awaited n = match x.target? with
    | some v => (v : Int)
    | none => n := by
  unfold Iss.awaited Iss.target?
  cases x.p.wait with
  | none => rfl
  | some w =>
    cases w with
    | timelines ps =>
      match ps with
      | [] => rfl
      | [(_, _)] => rfl
      | _ :: _ :: _ => rfl
    | _ => rfl

section
variable {s : State} {x : Iss} {q : BitVec 4} {at_ : LaneAt} (ht : x.timeline s q { r := true } = .ok at_)
  (hg : x.gate s false [at_] = none)
include ht hg

theorem tlwait_of_reached (target : State → Nat → Int)
    (h : x.awaited (target s (at_.pl.keys.headD 0)) ≤ s.tlDone (at_.pl.keys.headD 0)) :
    x.tlwait s q target = .retire
      (x.modRace (s.touch x.ag false at_.pl) (Race.learn x.g.gidx
        (s.cmdClock x.gangNo (at_.pl.keys.headD 0) (x.awaited (target s (at_.pl.keys.headD 0))))))
      (x.remote false [at_]) := by
  rw [awaited_eq] at h ⊢
  simp only [Iss.tlwait, ht, hg]
  exact if_pos h

theorem tlwait_of_not_reached (target : State → Nat → Int)
    (h : (s.tlDone (at_.pl.keys.headD 0) : Int) < x.awaited (target s (at_.pl.keys.headD 0))) :
    x.tlwait s q target = .wait (s.touch x.ag false at_.pl)
      (.timelines [((x.g.qr q.toNat).cursor, (x.awaited (target s (at_.pl.keys.headD 0))).toNat)]) := by
  rw [awaited_eq] at h ⊢
  simp only [Iss.tlwait, ht, hg]
  exact if_neg (not_le.mpr h)

theorem tlread_of_timeline (d : Reg) :
    x.tlread s d q = .retire (s.touch x.ag false at_.pl)
      (({ x with g := x.remote false [at_] } : Iss).toPair d (s.tlDone (at_.pl.keys.headD 0))) := by
  simp only [Iss.tlread, ht, hg]

end

/-! Words (R265). -/

theorem waitaMem_of_differing {s : State} {x : Iss} {q : BitVec 4} {a b : Reg} {as : List LaneAt}
    (hp : x.places s (waitAsk x a q) (x.reqLanes ((a.isV && a != 127#7) || b.isV)) = .ok as) (hg : x.gate s false as = none)
    (hd : ∀ l ∈ x.reqLanes ((a.isV && a != 127#7) || b.isV),
      (x.differing b (as.map (fun e => (e.lane, s.rkeys e.pl.keys)))).getLsbD l = true) :
    x.waitaMem s q a b
      = .retire (s.touchLanes x.ag false as) (x.remote ((a.isV && a != 127#7) || b.isV) as) := by
  have hp' : x.places s
      { c := x.qs q, q := q.toNat, size := 4, need := { r := true }, perm := fun _ => pLOAD,
        off := fun l => (x.g.off a l).toNat } (x.reqLanes ((a.isV && a != 127#7) || b.isV)) = .ok as := hp
  simp only [Iss.waitaMem, hp', hg]
  exact if_pos (List.all_eq_true.mpr hd)

/-- The bits of the mask of some lanes. -/
theorem getLsbD_maskOf {ls : List Nat} {l : Nat} (hl : l < 64) : (maskOf ls).getLsbD l = decide (l ∈ ls) := by
  induction ls with
  | nil => simp [maskOf]
  | cons k ls ih =>
    rw [maskOf, BitVec.getLsbD_or, ih]
    by_cases h : l = k
    · subst h
      simp [hl]
    · have hk : (1#64 <<< k).getLsbD l = false := by
        rw [← BitVec.twoPow_eq, BitVec.getLsbD_twoPow]
        simp [Ne.symm h]
      simp [hk, h]

theorem reqLanes_lt {x : Iss} {perLane : Bool} : ∀ l ∈ x.reqLanes perLane, l < 64 := by
  cases perLane with
  | true => exact lanesOf_lt _ _
  | false =>
    have hlow : x.low < 64 := by
      have h := lanesOf_lt x.g.width x.act
      unfold Iss.low lowest
      cases hx : lanesOf x.g.width x.act with
      | nil => decide
      | cons l ls => exact h l (by simp [hx])
    exact fun l hl => by simpa [List.mem_singleton.mp hl] using hlow

theorem waitaScr_of_differing {s : State} {x : Iss} {a b : Reg}
    (h : ∀ l ∈ x.reqLanes ((a.isV && a != 127#7) || b.isV), x.scrRange s (x.g.off a l).toNat 4 l = none
      ∧ s.scrR x.gangNo (x.g.off a l).toNat 4 ≠ (x.g.rd b l).toNat) :
    ∃ f, x.waitaScr s a b = .retire (x.modRace s f) (x.scrG x.g) := by
  have hr : (x.reqLanes ((a.isV && a != 127#7) || b.isV)).findSome?
      (fun l => x.scrRange s (x.g.off a l).toNat 4 l) = none :=
    List.findSome?_eq_none_iff.mpr fun l hl => (h l hl).1
  have hd : ∀ l ∈ x.reqLanes ((a.isV && a != 127#7) || b.isV), (x.differing b
      ((x.reqLanes ((a.isV && a != 127#7) || b.isV)).map (fun l => (l, s.scrR x.gangNo (x.g.off a l).toNat 4)))).getLsbD l
        = true := by
    intro l hl
    have hm : l ∈ ((((x.reqLanes ((a.isV && a != 127#7) || b.isV)).map
        (fun l => (l, s.scrR x.gangNo (x.g.off a l).toNat 4))).filter (fun e => e.2 != (x.g.rd b e.1).toNat)).map (·.1)) := by
      refine List.mem_map.mpr ⟨_, List.mem_filter.mpr ⟨List.mem_map_of_mem hl, ?_⟩, rfl⟩
      simpa using (h l hl).2
    rw [Iss.differing, BitVec.getLsbD_or, getLsbD_maskOf (reqLanes_lt l hl), decide_eq_true hm, Bool.or_true]
  simp only [Iss.waitaScr, hr]
  exact ⟨_, if_pos (List.all_eq_true.mpr hd)⟩

/-! Lanes that touch another module (R143, R258). -/

theorem txnOf_setTxn (g : Grp) (k l : Nat) (t : Txn) : (g.setTxn k t).txnOf l = if l = k then t else g.txnOf l :=
  look_store ..

theorem txnOf_doom (g : Grp) (c k l : Nat) : (g.doom c k).txnOf l
    = if l = k ∧ g.isOpen k = true then { g.txnOf l with state := .doomed c, writes := [] } else g.txnOf l := by
  unfold Grp.doom
  by_cases ho : g.isOpen k = true
  · rw [if_pos ho, txnOf_setTxn]
    by_cases hl : l = k
    · subst hl; simp [ho]
    · simp [hl]
  · rw [if_neg ho]; simp [ho]

/-- Lanes doomed by a test, each at most once. -/
theorem txnOf_foldl_doom (p : Nat → Bool) (c : Nat) {ls : List Nat} (hn : ls.Nodup) (g : Grp) (l : Nat) :
    (ls.foldl (fun g k => if p k then g.doom c k else g) g).txnOf l
      = if l ∈ ls ∧ g.isOpen l = true ∧ p l = true then { g.txnOf l with state := .doomed c, writes := [] } else g.txnOf l := by
  induction ls generalizing g with
  | nil => simp
  | cons k ls ih =>
    obtain ⟨hk, hn⟩ := List.nodup_cons.mp hn
    rw [List.foldl_cons, ih hn]
    by_cases hl : l = k
    · subst hl
      rw [if_neg fun h => hk h.1]
      by_cases hp : p l = true <;> simp [hp, txnOf_doom]
    · have hne : (if p k then g.doom c k else g).txnOf l = g.txnOf l := by
        split
        · rw [txnOf_doom, if_neg fun h => hl h.1]
        · rfl
      simp [Grp.isOpen, hne, hl]

theorem doom_frame (g : Grp) (c l : Nat) : g.doom c l = { g with txn := (g.doom c l).txn } := by
  unfold Grp.doom
  split <;> rfl

theorem foldl_txnOnly {f : Grp → Nat → Grp} (hf : ∀ g l, f g l = { g with txn := (f g l).txn }) (ls : List Nat) (g : Grp) :
    ls.foldl f g = { g with txn := (ls.foldl f g).txn } := by
  induction ls generalizing g with
  | nil => rfl
  | cons l ls ih =>
    rw [List.foldl_cons, ih, hf]

theorem remote_frame (x : Iss) (perLane : Bool) (as : List LaneAt) :
    x.remote perLane as = { x.g with txn := (x.remote perLane as).txn } := by
  refine foldl_txnOnly (fun g l => ?_) x.lanes x.g
  split
  · exact doom_frame ..
  · rfl

theorem txnOf_remote (x : Iss) (perLane : Bool) (as : List LaneAt) (l : Nat) :
    (x.remote perLane as).txnOf l
      = if l ∈ x.lanes ∧ x.g.isOpen l = true ∧ (∃ a ∈ as, (a.lane = l ∨ perLane = false) ∧ a.pl.peer ≠ none) then
          { x.g.txnOf l with state := .doomed 4, writes := [] }
        else x.g.txnOf l := by
  have hn : x.lanes.Nodup := List.nodup_range.filter _
  refine (txnOf_foldl_doom (fun k => as.any (fun a => (a.lane == k || !perLane) && a.pl.peer.isSome)) 4 hn x.g l).trans
    (if_congr ?_ rfl rfl)
  simp [List.any_eq_true, Option.isSome_iff_ne_none]

/-- Settles O40: one lemma for each way that a wait goes, and the lanes doomed by `txnOf_foldl_doom`. -/
theorem waits : Obligations.Waits := by
  unfold Obligations.Waits
  refine ⟨fun a ph => ⟨?_, ?_⟩, ?_, fun d q at_ => ?_, fun q a b as => ?_, fun x perLane as l _ => ?_,
    fun a b s x hr h => ?_⟩
  · exact retiresWhen_of (fun _ => rfl) fun s x ⟨hr, hp⟩ => waitph_of_phase hr hp
  · exact waitsWhen_of (fun _ => rfl) fun s x ⟨hr, hp⟩ => waitph_of_other_phase hr hp
  · intro a q i target hi at_ tl n
    simp only [List.mem_cons, Prod.mk.injEq, List.not_mem_nil, or_false] at hi
    have hexec : ∀ s, exec i s = issue (Instr.sig i) s (fun x s => x.tlwait s q (target x)) := by
      rcases hi with ⟨rfl, rfl⟩ | ⟨rfl, rfl⟩ <;> exact fun _ => rfl
    exact ⟨retiresWhen_of hexec fun s x ⟨ht, hg, hn⟩ => tlwait_of_reached ht hg (target x) hn,
      waitsWhen_of hexec fun s x ⟨ht, hg, hn⟩ => tlwait_of_not_reached ht hg (target x) hn⟩
  · exact retiresWhen_of (fun _ => rfl) fun s x ⟨ht, hg⟩ => tlread_of_timeline ht hg d
  · exact retiresWhen_of (fun _ => rfl) fun s x ⟨hp, hg, hd⟩ => waitaMem_of_differing hp hg hd
  · exact ⟨remote_frame x perLane as, txnOf_remote x perLane as l⟩
  · obtain ⟨f, hf⟩ := waitaScr_of_differing h
    refine ⟨x.modRace s f, ?_, modGang_frame ..⟩
    rw [exec_runs (body := fun x s => x.waitaScr s a b) (fun _ => rfl) hr, hf, finish]

end Sys2Proof.Machine
end

section
/-! Engine commands as they are issued (R131, R134, R269 to R271). -/
namespace Sys2Proof.Machine

/-- What the issue of a command ends in once its block, capabilities, timeline and room are checked. -/
theorem command_of_checked {s s1 : State} {x : Iss} {d a : Reg} {q : BitVec 4} {size va : Nat} (pair : Bool)
    {plan : State → Nat → Nat → (Nat → Cap) → Checked Plan} {p : Plan} {at_ : LaneAt}
    (hb : x.readBlock s (x.g.rd a 0).toNat size = .ok s1) (hc : capCheck (x.g.qr q.toNat) 0 16 pTL = .ok va)
    (hp : plan s (x.g.rd a 0).toNat (s.scrR x.gangNo (x.g.rd a 0).toNat size)
      (fun k => s.scrCap x.gangNo ((x.g.rd a 0).toNat + 16 * k)) = .ok p)
    (ht : x.timeline s q { r := true, w := true } = .ok at_) (hg : x.gate s false [at_] = none)
    (hl : s.tlIssued (at_.pl.keys.headD 0) ≠ 2 ^ 64 - 1)
    (hroom : (s.cmds.filter (fun e => e.2.tl == at_.pl.keys.headD 0 && e.2.engine == p.engine
      && (if p.engine = .coll then e.2.core / 64 == unitCore x.u / 64 else e.2.core == unitCore x.u)
      && !e.2.finished && e.2.ctx.isSome && (e.2.gang.bind (fun n => find s.saved n)).isNone)).length < 256) :
    x.command s d a q size pair plan
      = .retire (p.post (x.enter s1 at_.pl (s.tlIssued (at_.pl.keys.headD 0) + 1) p))
        (if pair then (x.scrG (x.excluded false [at_])).wr2 d x.lanes
            (fun _ => BitVec.ofNat 64 (s.tlIssued (at_.pl.keys.headD 0) + 1))
          else (x.scrG (x.excluded false [at_])).wr d x.lanes
            (fun _ => BitVec.ofNat 32 (s.tlIssued (at_.pl.keys.headD 0) + 1))) := by
  have hc' : capCheck (x.qs q) 0 16 pTL = .ok va := hc
  simp only [Iss.command, hb, hc', hp, ht, hg]
  exact (if_neg hl).trans (if_neg (not_le.mpr hroom))

/-! COPY (R270, R271). -/

theorem extent_of_rows {rows len : Nat} (stride : Nat) (hr : rows ≠ 0) (hl : len ≠ 0) :
    extent rows len stride = (rows - 1) * stride + len := if_neg (by simp [hr, hl])

section
variable {x : Iss} {s : State} {k : Gang} {gid : Nat} (hx : x.g.gang = some gid) (hk : find s.gangs gid = some k)
include hx hk

theorem blockScr_of_inside {off len : Nat} (h : off + len ≤ k.scratch) (c : Checked Plan) : x.blockScr s off len c = c := by
  simp only [Iss.blockScr, hx, Option.bind_some, hk]
  exact if_pos (.inr h)

theorem blockArrive_of_inside {off : Nat} (ha : off % 8 = 0) (h : off + 8 ≤ k.scratch) (c : Checked Plan) :
    x.blockArrive s off c = c := by
  have hr : x.scrRange s off 8 x.low = none := by
    simp [Iss.scrRange, hx, hk, scrOk, ha, h]
  simp only [Iss.blockArrive, hr]

end

theorem blockCap_of_passed {x : Iss} {c : Cap} {off : Int} {len perm va : Nat} (hl : len ≠ 0)
    (h : capCheck c off len perm = .ok va) (f : Nat → Checked Plan) : x.blockCap c off len perm f = f va := by
  simp only [Iss.blockCap, if_neg hl, h]

theorem planCopy_of_checked {x : Iss} {s : State} {k : Gang} {gid b va : Nat} (off : Nat) {cap : Nat → Cap}
    (hx : x.g.gang = some gid) (hk : find s.gangs gid = some k) (h1 : fld b 416 96 = 0) (h2 : fld b 32 96 = 0)
    (hl : copyLen b ≠ 0) (hr : copyRows b ≠ 0)
    (hs : fld b 0 32 + ((copyRows b - 1) * copyDs b + copyLen b) ≤ k.scratch)
    (hc : capCheck (cap 1) 0 ((copyRows b - 1) * copySs b + copyLen b) pLOAD = .ok va)
    (ha : fld b 384 32 % 8 = 0) (hb : fld b 384 32 + 8 ≤ k.scratch) :
    x.planCopy s off b cap = .ok
      { engine := .copy, arrive := some (fld b 384 32),
        body := .move (copyRows b) (copyLen b) (.mem va) (.scr (fld b 0 32)) (copySs b) (copyDs b)
          ((cap 1).has pLOADCAP) true true } := by
  have he := extent_of_rows (copyDs b) hr hl
  have hf := extent_of_rows (copySs b) hr hl
  rw [← he] at hs
  rw [← hf] at hc
  have hne : extent (copyRows b) (copyLen b) (copySs b) ≠ 0 := by omega
  simp only [Iss.planCopy, h1, h2, ha, blockScr_of_inside hx hk hs, blockCap_of_passed hne hc,
    blockArrive_of_inside hx hk ha hb, if_neg hl]
  rfl

/-! A command in its engine (R134). -/

/-- A command with the number, timeline, body, engine and issuing path of its issue, of which nothing has run. -/
def Cmd.Entered (c : Cmd) (x : Iss) (tl n : Nat) (p : Plan) : Prop :=
  c.seq = n ∧ c.tl = tl ∧ c.body = p.body ∧ c.engine = p.engine ∧ c.unit = x.u ∧ c.ctx = x.g.ctx ∧ c.finished = false ∧ c.did = []

section
variable (x : Iss) (s : State) (pl : Place) (n : Nat) (p : Plan)

/-- The issue of a command writes ISSUED and makes the command; of gangs it changes arrival objects only. -/
theorem enter_eq :
    let t := (s.touch x.ag true pl).wn (pl.keys.headD 0 + 8) 8 n
    ∃ c : Cmd, c.Entered x (pl.keys.headD 0) n p
      ∧ x.enter s pl n p = { t.tick with cmds := put t.cmds s.ticket c, gangs := (x.enter s pl n p).gangs } := by
  unfold Iss.enter
  cases p.arrive with
  | none => exact ⟨_, ⟨rfl, rfl, rfl, rfl, rfl, rfl, rfl, rfl⟩, rfl⟩
  | some off => exact ⟨_, ⟨rfl, rfl, rfl, rfl, rfl, rfl, rfl, rfl⟩, modGang_frame ..⟩

theorem enter_units : (x.enter s pl n p).units = s.units := by
  obtain ⟨c, -, e⟩ := enter_eq x s pl n p
  rw [e]
  show ((s.touch x.ag true pl).wn (pl.keys.headD 0 + 8) 8 n).units = s.units
  rw [State.wn, wkeys_frame]
  exact (noted_touchAll s x.ag true [pl]).units

theorem enter_cmds : ∃ c, find (x.enter s pl n p).cmds s.ticket = some c ∧ c.Entered x (pl.keys.headD 0) n p := by
  obtain ⟨c, hc, e⟩ := enter_eq x s pl n p
  rw [e]
  exact ⟨c, find_put_self .., hc⟩

theorem tlIssued_enter (hn : n < 2 ^ 64) : (x.enter s pl n p).tlIssued (pl.keys.headD 0) = n := by
  have hrb : (x.enter s pl n p).rb = ((s.touch x.ag true pl).wn (pl.keys.headD 0 + 8) 8 n).rb := by
    obtain ⟨c, -, e⟩ := enter_eq x s pl n p
    rw [e]
    rfl
  rw [State.tlIssued, State.rn, hrb, ← State.rn]
  exact rn_wn _ _ 8 n hn

end

/-- Settles O42: the forms by `command_of_checked`, COPY's block by its checks in turn, and what has entered by `enter_eq`. -/
theorem commandsIssue : Obligations.CommandsIssue := by
  unfold Obligations.CommandsIssue
  refine ⟨fun d a q fn i size pair plan hi s s1 x va p at_ hr hb hc hp ht hg hl hroom => ?_, ?_, ?_⟩
  · have hexec : ∀ s, exec i s = issue (Instr.sig i) s (fun x s => x.command s d a q size pair (plan x)) := by
      simp only [List.mem_cons, Prod.mk.injEq, List.not_mem_nil, or_false] at hi
      rcases hi with ⟨rfl, rfl, rfl, rfl⟩ | ⟨rfl, rfl, rfl, rfl⟩ | ⟨rfl, rfl, rfl, rfl⟩ | ⟨rfl, rfl, rfl, rfl⟩
        | ⟨rfl, rfl, rfl, rfl⟩ | ⟨rfl, rfl, rfl, rfl⟩ | ⟨rfl, rfl, rfl, rfl⟩ | ⟨rfl, rfl, rfl, rfl⟩
        | ⟨rfl, rfl, rfl, rfl⟩ | ⟨rfl, rfl, rfl, rfl⟩ | ⟨rfl, rfl, rfl, rfl⟩ | ⟨rfl, rfl, rfl, rfl⟩
        | ⟨rfl, rfl, rfl, rfl⟩ <;> exact fun _ => rfl
    intro n
    rw [exec_runs hexec hr, command_of_checked pair hb hc hp ht hg hl hroom, finish]
  · intro x s k gid off b va cap hx hk h1 h2 hl hrows hs hc ha hb
    rw [planCopy_of_checked off hx hk h1 h2 hl hrows hs hc ha hb]
    exact ⟨rfl, rfl, rfl⟩
  · intro x s pl n p hn t
    exact ⟨enter_units x s pl n p, enter_cmds x s pl n p, tlIssued_enter x s pl n p hn⟩

end Sys2Proof.Machine
end

section
/-! Fields of a word (R168, R170). -/
namespace Sys2Proof.Machine

/-- A field of `m + n` bits is the field of its `m` high bits followed by the field of its `n` low bits. -/
theorem extract_add {k : Nat} (w : BitVec k) (s m n : Nat) :
    w.extractLsb' s (m + n) = w.extractLsb' (s + n) m ++ w.extractLsb' s n :=
  (BitVec.extractLsb'_append_extractLsb'_eq_extractLsb' rfl).symm

theorem append_eq_append_iff {m n : Nat} {x x' : BitVec m} {y y' : BitVec n} : x ++ y = x' ++ y' ↔ x = x' ∧ y = y' := by
  refine ⟨fun h => ⟨?_, ?_⟩, fun ⟨hx, hy⟩ => by rw [hx, hy]⟩
  · rw [← BitVec.extractLsb'_append_eq_left (a := x) (b := y), h, BitVec.extractLsb'_append_eq_left]
  · rw [← BitVec.extractLsb'_append_eq_right (a := x) (b := y), h, BitVec.extractLsb'_append_eq_right]

theorem extract_eq_append_iff {k l m n : Nat} (w : BitVec k) (s : Nat) (x : BitVec m) (y : BitVec n) (hl : l = m + n) :
    (w.extractLsb' s l).toNat = (x ++ y).toNat ↔
      (w.extractLsb' (s + n) m).toNat = x.toNat ∧ w.extractLsb' s n = y := by
  subst hl
  rw [BitVec.toNat_inj, BitVec.toNat_inj, extract_add, append_eq_append_iff]

theorem extract_eq_iff {k m n : Nat} (w : BitVec k) (s : Nat) (c : BitVec (m + n)) :
    w.extractLsb' s (m + n) = c ↔ w.extractLsb' (s + n) m = c.extractLsb' n m ∧ w.extractLsb' s n = c.extractLsb' 0 n := by
  conv_lhs => rw [extract_add, ← BitVec.extractLsb'_append_extractLsb' (x := c)]
  exact append_eq_append_iff

/-- The same with the codes as numbers, as the decoder reads them. -/
theorem extract_eq_iff_toNat {k m n : Nat} (w : BitVec k) (s : Nat) (c : BitVec (m + n)) :
    w.extractLsb' s (m + n) = c ↔
      (w.extractLsb' (s + n) m).toNat = (c.extractLsb' n m).toNat
        ∧ (w.extractLsb' s n).toNat = (c.extractLsb' 0 n).toNat := by
  rw [extract_eq_iff, BitVec.toNat_inj, BitVec.toNat_inj]

/-- What the leading bits of a word say: its major, its function code and the reserved field that follows it in the formats of
R170, one clause for each number of leading bits that an instruction fixes. -/
theorem leading_bits (w : Word) :
    (∀ c, w.extractLsb' 24 8 = c ↔ (w.extractLsb' 26 6).toNat = (c.extractLsb' 2 6).toNat
        ∧ (w.extractLsb' 24 2).toNat = (c.extractLsb' 0 2).toNat)
    ∧ (∀ c, w.extractLsb' 23 9 = c ↔ (w.extractLsb' 26 6).toNat = (c.extractLsb' 3 6).toNat
        ∧ (w.extractLsb' 23 3).toNat = (c.extractLsb' 0 3).toNat)
    ∧ (∀ c, w.extractLsb' 21 11 = c ↔ (w.extractLsb' 26 6).toNat = (c.extractLsb' 5 6).toNat
        ∧ (w.extractLsb' 21 5).toNat = (c.extractLsb' 0 5).toNat)
    ∧ (∀ c, w.extractLsb' 22 10 = c ↔ w.extractLsb' 23 9 = c.extractLsb' 1 9 ∧ w.extractLsb' 22 1 = c.extractLsb' 0 1)
    ∧ (∀ c, w.extractLsb' 20 12 = c ↔ w.extractLsb' 23 9 = c.extractLsb' 3 9 ∧ w.extractLsb' 20 3 = c.extractLsb' 0 3)
    ∧ (∀ c, w.extractLsb' 16 16 = c ↔ w.extractLsb' 23 9 = c.extractLsb' 7 9 ∧ w.extractLsb' 16 7 = c.extractLsb' 0 7)
    ∧ (∀ c, w.extractLsb' 9 23 = c ↔ w.extractLsb' 23 9 = c.extractLsb' 14 9 ∧ w.extractLsb' 9 14 = c.extractLsb' 0 14)
    ∧ (∀ c, w.extractLsb' 19 13 = c ↔ w.extractLsb' 21 11 = c.extractLsb' 2 11 ∧ w.extractLsb' 19 2 = c.extractLsb' 0 2)
    ∧ (∀ c, w.extractLsb' 18 14 = c ↔ w.extractLsb' 21 11 = c.extractLsb' 3 11 ∧ w.extractLsb' 18 3 = c.extractLsb' 0 3)
    ∧ (∀ c, w.extractLsb' 17 15 = c ↔ w.extractLsb' 21 11 = c.extractLsb' 4 11 ∧ w.extractLsb' 17 4 = c.extractLsb' 0 4)
    ∧ (∀ c, w.extractLsb' 14 18 = c ↔ w.extractLsb' 21 11 = c.extractLsb' 7 11 ∧ w.extractLsb' 14 7 = c.extractLsb' 0 7)
    ∧ (∀ c, w.extractLsb' 7 25 = c ↔ w.extractLsb' 21 11 = c.extractLsb' 14 11 ∧ w.extractLsb' 7 14 = c.extractLsb' 0 14)
    ∧ (∀ c, w.extractLsb' 4 28 = c ↔ w.extractLsb' 21 11 = c.extractLsb' 17 11 ∧ w.extractLsb' 4 17 = c.extractLsb' 0 17)
    ∧ (∀ c, w.extractLsb' 2 30 = c ↔ w.extractLsb' 21 11 = c.extractLsb' 19 11 ∧ w.extractLsb' 2 19 = c.extractLsb' 0 19)
    ∧ (∀ c, w.extractLsb' 0 32 = c ↔ w.extractLsb' 21 11 = c.extractLsb' 21 11 ∧ w.extractLsb' 0 21 = c.extractLsb' 0 21) :=
  ⟨extract_eq_iff_toNat (m := 6) (n := 2) w 24, extract_eq_iff_toNat (m := 6) (n := 3) w 23,
    extract_eq_iff_toNat (m := 6) (n := 5) w 21, extract_eq_iff (m := 9) (n := 1) w 22, extract_eq_iff (m := 9) (n := 3) w 20,
    extract_eq_iff (m := 9) (n := 7) w 16, extract_eq_iff (m := 9) (n := 14) w 9, extract_eq_iff (m := 11) (n := 2) w 19,
    extract_eq_iff (m := 11) (n := 3) w 18, extract_eq_iff (m := 11) (n := 4) w 17, extract_eq_iff (m := 11) (n := 7) w 14,
    extract_eq_iff (m := 11) (n := 14) w 7, extract_eq_iff (m := 11) (n := 17) w 4, extract_eq_iff (m := 11) (n := 19) w 2,
    extract_eq_iff (m := 11) (n := 21) w 0⟩

theorem encode_eq_iff_fields {i : Instr} {w x : Word} (h : encode i = some x) :
    encode i = some w ↔ (w.extractLsb' 0 32).toNat = x.toNat := by
  rw [h, Option.some.injEq, BitVec.extractLsb'_eq_self, BitVec.toNat_inj, eq_comm]

theorem decodeRaw_of_fields {x : Word} {i : Instr}
    (h : ∀ w : Word, (w.extractLsb' 0 32).toNat = x.toNat → decodeRaw w = .ok i) : decodeRaw x = .ok i :=
  h x (by rw [BitVec.extractLsb'_eq_self])

theorem toNat_extract (w : Word) (s m : Nat) : (w.extractLsb' s m).toNat = w.toNat / 2 ^ s % 2 ^ m := by
  rw [BitVec.extractLsb'_toNat, Nat.shiftRight_eq_div_pow]

/-- SEL and CHAIN have a 2-bit function code 0, and 3 bits of operand where the other forms of their majors have a code. -/
theorem fn2_of_fn5_lt {w : Word} (h : (w.extractLsb' 21 5).toNat < 8) : (w.extractLsb' 24 2).toNat = 0 := by
  rw [toNat_extract] at h ⊢
  omega

theorem fn5_lt_of_fn2 {w : Word} (h : (w.extractLsb' 24 2).toNat = 0) : (w.extractLsb' 21 5).toNat < 8 := by
  rw [toNat_extract] at h ⊢
  omega

/-- PYIELD alone has a 3-bit function code and no operand. -/
theorem low23_eq_zero_iff {w : Word} : w.extractLsb' 0 23 = 0#23 ∧ (w.extractLsb' 23 3).toNat = 2 ↔
    (w.extractLsb' 21 5).toNat = 8 ∧ w.extractLsb' 0 21 = 0#21 := by
  simp only [← BitVec.toNat_inj, toNat_extract, BitVec.toNat_ofNat]
  omega

/-- The decoder of each major (R174). -/
noncomputable def decoders : List (Nat × (Word → Except DecodeError Instr)) :=
  [(1, decodeIalu), (2, decodeImul), (3, decodeIcmp), (4, decodeBits), (5, decodePred), (6, decodePk16), (7, decodeIalui),
    (8, decodeFp32), (9, decodeFma), (10, decodeFp16), (11, decodeBf16), (12, decodeFmisc), (13, decodeSfu), (14, decodeCvt),
    (15, decodeQuant), (16, decodeXlane), (17, decodeReduce), (18, decodeFp64), (19, decodeFma64), (20, decodeChain),
    (24, decodeLd), (25, decodeSt), (26, decodeScr), (27, decodeCapmem), (28, decodeAtom), (29, decodeTxn), (30, decodeSync),
    (31, decodeEngine), (32, decodeMma), (33, decodeCrib), (34, decodeDrain), (35, decodeLoft), (36, decodeRegrow),
    (40, decodeCap), (41, decodeSeal), (42, decodeIpc), (43, decodeKcall), (48, decodeBr), (49, decodePath), (50, decodeXfer),
    (51, decodeSpecial), (56, decodeSys), (57, decodeXlt), (58, decodeCtx), (59, decodePolicy), (63, decodeHint)]

theorem decodeRaw_of_lookup {w : Word} {M : Nat} {dec : Word → Except DecodeError Instr}
    (hM : (w.extractLsb' 26 6).toNat = M) (hd : decoders.lookup M = some dec) : decodeRaw w = dec w := by
  unfold decodeRaw
  rw [hM]
  split
  case h_47 =>
    have hn : decoders.lookup M = none := List.lookup_eq_none_iff.2 (by simp_all [decoders])
    rw [hn] at hd
    cases hd
  all_goals
    cases hd
    rfl

/-- A word that decodes is the word of its instruction, major by major and arm by arm. The word of an arm's instruction is cut
into fields from the last to the first, while its width is still the sum of theirs. -/
theorem encode_of_decodeRaw {w : Word} {i : Instr} (h : decodeRaw w = .ok i) : encode i = some w := by
  unfold decodeRaw at h
  split at h
  all_goals
    simp only [decodeIalu, decodeImul, decodeIcmp, decodeBits, decodePred, decodePk16, decodeIalui, decodeFp32,
      decodeFma, decodeFp16, decodeBf16, decodeFmisc, decodeSfu, decodeCvt, decodeQuant, decodeXlane, decodeReduce,
      decodeFp64, decodeFma64, decodeChain, decodeLd, decodeSt, decodeScr, decodeCapmem, decodeAtom, decodeTxn,
      decodeSync, decodeEngine, decodeMma, decodeCrib, decodeDrain, decodeLoft, decodeRegrow, decodeCap, decodeSeal,
      decodeIpc, decodeKcall, decodeBr, decodePath, decodeXfer, decodeSpecial, decodeSys, decodeXlt, decodeCtx,
      decodePolicy, decodeHint, reduceCtorEq] at h
    repeat' split at h
  all_goals cases h
  all_goals
    rw [encode_eq_iff_fields rfl]
    simp only [↓extract_eq_append_iff, BitVec.toNat_inj]
    simp only [Nat.reduceAdd, leading_bits, BitVec.reduceExtractLsb', BitVec.reduceToNat, true_and, and_self,
      fn2_of_fn5_lt, Nat.reduceLT, *]
  -- PYIELD, whose arm tests 23 bits at once
  exact low23_eq_zero_iff.1 ⟨‹_›, ‹_›⟩

/-! Arms that read a field in two ways, or test a field that their words cut otherwise. -/

theorem decodePred_of_lt {w : Word} (h : (w.extractLsb' 21 5).toNat < 8) : decodePred w
    = .ok (.sel (w.extractLsb' 21 3) (w.extractLsb' 14 7) (w.extractLsb' 7 7) (w.extractLsb' 0 7)) := by
  unfold decodePred
  generalize (w.extractLsb' 21 5).toNat = n at h
  interval_cases n <;> rfl

theorem decodeChain_of_lt {w : Word} (h : (w.extractLsb' 21 5).toNat < 8) (h0 : w.extractLsb' 4 3 = 0#3) : decodeChain w
    = .ok (.chain (w.extractLsb' 21 3) (w.extractLsb' 14 7) (w.extractLsb' 7 7) (w.extractLsb' 0 4)) := by
  unfold decodeChain
  generalize (w.extractLsb' 21 5).toNat = n at h
  interval_cases n <;> exact if_pos h0

/-- WAITA.GLOBAL is not WAITA: the destination field is not 0. -/
theorem dst_ne_zero_of_high {w : Word} (h : w.extractLsb' 18 3 = 1#3) : w.extractLsb' 14 7 ≠ 0#7 := fun e =>
  absurd (h.symm.trans ((extract_eq_iff (m := 3) (n := 4) w 14 0#7).1 e).1) (by decide)

/-- TLBINVA of all is not TLBINVA: the fields above the last are not 0. -/
theorem high_of_low21 {w : Word} (h : w.extractLsb' 0 21 = 16384#21) : w.extractLsb' 7 14 = 128#14 :=
  ((extract_eq_iff (m := 14) (n := 7) w 0 16384#21).1 h).1

/-- CMOV from a lane is neither CMOV nor CMOV to lanes: bits 6:4 are 2. -/
theorem low14_ne_of_low7 {w : Word} (h : w.extractLsb' 0 7 = 32#7) {c : BitVec 10} (hc : c.extractLsb' 0 3 ≠ 2#3) :
    w.extractLsb' 4 10 ≠ c := fun e =>
  hc (((extract_eq_iff (m := 7) (n := 3) w 4 c).1 e).2.symm.trans ((extract_eq_iff (m := 3) (n := 4) w 0 32#7).1 h).1)

/-- The word of an instruction decodes to it: its fields are its codes and operands, its major names the decoder, and its
function code the arm. -/
theorem decodeRaw_of_encode {w : Word} {i : Instr} (h : encode i = some w) : decodeRaw w = .ok i := by
  cases i <;> cases h
  all_goals
    refine decodeRaw_of_fields fun w h => ?_
    simp only [↓extract_eq_append_iff, BitVec.toNat_inj] at h
    simp only [Nat.reduceAdd, leading_bits, BitVec.reduceExtractLsb', BitVec.reduceToNat, and_assoc] at h
    obtain ⟨hM, h⟩ := h
    rw [decodeRaw_of_lookup hM rfl]
  case sel =>
    obtain ⟨hF, rfl, rfl, rfl, rfl⟩ := h
    exact decodePred_of_lt (fn5_lt_of_fn2 hF)
  case chain =>
    obtain ⟨hF, rfl, rfl, rfl, h0, rfl⟩ := h
    exact decodeChain_of_lt (fn5_lt_of_fn2 hF) h0
  case pyield =>
    obtain ⟨h0, hF⟩ := low23_eq_zero_iff.2 h
    simp only [decodePath, hF, h0, reduceIte]
  case waitaGlobal =>
    have h7 := dst_ne_zero_of_high h.2.1
    simp only [decodeSync, h, h7, reduceIte]
  case tlbinvaAll =>
    simp only [decodeXlt, h, high_of_low21 h.2, BitVec.reduceEq, reduceIte]
  case cmovFromLane =>
    obtain ⟨hF, h18, hd, ha, h0⟩ := h
    have hcmov := low14_ne_of_low7 h0 (c := 0#10) (by decide)
    have hlanes := low14_ne_of_low7 h0 (c := 1#10) (by decide)
    simp only [decodeCap, hF, h18, hd, ha, h0, hcmov, hlanes, false_and, and_self, reduceIte]
  all_goals
    simp only [decodeIalu, decodeImul, decodeIcmp, decodeBits, decodePred, decodePk16, decodeIalui, decodeFp32,
      decodeFma, decodeFp16, decodeBf16, decodeFmisc, decodeSfu, decodeCvt, decodeQuant, decodeXlane, decodeReduce,
      decodeFp64, decodeFma64, decodeLd, decodeSt, decodeScr, decodeCapmem, decodeAtom, decodeTxn, decodeSync,
      decodeEngine, decodeMma, decodeCrib, decodeDrain, decodeLoft, decodeRegrow, decodeCap, decodeSeal, decodeIpc,
      decodeKcall, decodeBr, decodePath, decodeXfer, decodeSpecial, decodeSys, decodeXlt, decodeCtx, decodePolicy,
      decodeHint, h, reduceIte, BitVec.reduceEq, and_self, false_and]

theorem decode_eq_ok_iff {w : Word} {i : Instr} : decode w = .ok i ↔ encode i = some w ∧ i.wellFormed = true := by
  have hraw (j : Instr) : decodeRaw w = .ok j ↔ encode j = some w := ⟨encode_of_decodeRaw, decodeRaw_of_encode⟩
  rw [← hraw, decode]
  cases decodeRaw w with
  | error e => exact ⟨nofun, fun h => nomatch h.1⟩
  | ok j =>
    rw [Except.ok.injEq]
    dsimp only
    split
    · next hj => exact ⟨fun h => by cases h; exact ⟨rfl, hj⟩, fun h => by rw [h.1]⟩
    · next hj => exact ⟨nofun, fun ⟨h, hi⟩ => absurd (h ▸ hi) hj⟩

/-- Settles O3: a decoder gives an instruction exactly for that instruction's word, by `encode_of_decodeRaw` and
`decodeRaw_of_encode`. -/
theorem decodeEncode : Obligations.DecodeEncode := by
  unfold Obligations.DecodeEncode
  exact ⟨fun i w hi hw => decode_eq_ok_iff.2 ⟨hw, hi⟩, fun w i h => decode_eq_ok_iff.1 h⟩

/-- Settles O2: seven words are those of well-formed instructions; the last has a function code that major 1 does not list. -/
theorem decodeWords : Obligations.DecodeWords := by
  unfold Obligations.DecodeWords
  refine ⟨?_, ?_, ?_, ?_, ?_, ?_, ?_, rfl⟩
  all_goals exact decode_eq_ok_iff.2 ⟨rfl, rfl⟩

end Sys2Proof.Machine
end

section
/-! XRET and BRK (R180, R184). -/
namespace Sys2Proof.Machine

theorem xret_in_handler {x : Iss} (s : State) (skip : Bool) (hh : x.p.hnd = true) (hc : isControl x.u = false) :
    x.xret s skip = .goto s (x.setPath (fun p => { p with hnd := false }))
      (if skip then x.g.x.pc + 4 else x.g.x.pc - BitVec.ofNat 64 (4 * (x.g.x.hints.toNat % 8))) := by
  unfold Iss.xret
  rw [hh, hc]
  rfl

theorem xret_outside_handler {x : Iss} (s : State) (skip : Bool) (hh : x.p.hnd = false) : x.xret s skip = .trap 0 := by
  unfold Iss.xret
  rw [hh]
  rfl

/-- Settles O23: XRET by whether its path is in the handler, and BRK by its meaning. -/
theorem handlerReturn : Obligations.HandlerReturn := by
  unfold Obligations.HandlerReturn
  refine ⟨?_, ?_, ?_, fun code => ?_⟩
  · exact transfersWhen_of (body := fun x s => x.xret s true) (fun _ => rfl) fun s x ⟨hh, hc⟩ =>
      xret_in_handler s true hh hc
  · exact transfersWhen_of (body := fun x s => x.xret s false) (fun _ => rfl) fun s x ⟨hh, hc⟩ =>
      xret_in_handler s false hh hc
  · intro i hi
    simp only [List.mem_cons, List.not_mem_nil, or_false] at hi
    rcases hi with rfl | rfl
    · exact trapsWhen_of (body := fun x s => x.xret s true) (fun _ => rfl) fun s x => xret_outside_handler s true
    · exact trapsWhen_of (body := fun x s => x.xret s false) (fun _ => rfl) fun s x => xret_outside_handler s false
  · exact trapsWhen_of (body := fun _ _ => .trap 4) (fun _ => rfl) fun _ _ _ => rfl

end Sys2Proof.Machine
end

section
/-! Every step has a next state (R169, R473). -/
namespace Sys2Proof.Machine

/-- The outcome is a next state. -/
def Out.Answers (o : Out) : Prop := ∃ t, o = .next t

theorem answers_next (t : State) : Out.Answers (.next t) := ⟨t, rfl⟩

theorem issue_answers {i : Sig} {s : State} (body : Iss → State → Res) (h : s.issuer i.w ≠ none) :
    Out.Answers (issue i s body) := by
  unfold issue
  split
  · next hn => exact absurd hn h
  · exact answers_next _

/-- An instruction with a word is issued, by the checks of its signature. -/
theorem exec_eq_issue {i : Instr} (h : isEvent i = false) : ∃ body, ∀ s, exec i s = issue (Instr.sig i) s body := by
  obtain ⟨w, hw⟩ := Option.isSome_iff_exists.1 (Option.isNone_eq_false_iff.1 h)
  cases i <;> cases hw
  all_goals exact ⟨_, fun _ => rfl⟩

theorem exec_answers_of_issuer {i : Instr} {s : State} (hi : isEvent i = false) (h : s.issuer (wordOf i) ≠ none) :
    Out.Answers (exec i s) := by
  obtain ⟨body, hb⟩ := exec_eq_issue hi
  rw [hb]
  exact issue_answers body h

/-- An event happens or changes nothing, and so has a next state, if it does not stand for a word that a path issues. -/
theorem event_answers {i : Instr} (s : State) (hi : isEvent i = true) (hw : ∀ w, i ≠ .illegalEncoding w)
    (hf : i ≠ .instructionFetchFault) : Out.Answers (exec i s) := by
  have hn : encode i = none := Option.isNone_iff_eq_none.1 hi
  cases i
  case illegalEncoding w => exact absurd rfl (hw w)
  case instructionFetchFault => exact absurd rfl hf
  all_goals cases hn
  all_goals exact answers_next _

theorem isEvent_of_decode {w : Word} {i : Instr} (h : decode w = .ok i) : isEvent i = false := by
  rw [isEvent, (decode_eq_ok_iff.1 h).1]
  rfl

theorem ownEvent_spec {i : Instr} (h : ownEvent i = true) :
    isEvent i = true ∧ (∀ w, i ≠ .illegalEncoding w) ∧ i ≠ .instructionFetchFault := by
  refine ⟨?_, ?_, ?_⟩
  · cases i <;> cases h
    all_goals rfl
  · rintro w rfl
    cases h
  · rintro rfl
    cases h

theorem issuer_ne_none {s : State} {u : Nat} {b : Bool} {g : Grp} {p : Path} (w : Word) (hc : s.cur = (u, b))
    (hg : find s.units u = some g) (hi : s.idle u g = false) (hp : g.slot b = some p) : s.issuer w ≠ none := by
  intro hn
  have := issuer_of_slot w hc hg hi hp
  rw [hn] at this
  cases this

theorem begin_issuer_ne_none {s : State} {u : Nat} {b : Bool} {g : Grp} {p : Path} (w : Word)
    (hg : find s.units u = some g) (hi : s.idle u g = false) (hp : g.slot b = some p) :
    (s.begin_ u g b p).issuer w ≠ none := by
  have hb := begun_begin b p hg
  obtain ⟨n, k, hgrp⟩ := hb.group
  refine issuer_ne_none w rfl hgrp ?_ hp
  unfold State.idle State.vacated at hi ⊢
  rw [hb.marks]
  exact hi

/-! The turns of a unit. -/

section
variable {s : State} {u : Nat} {b : Bool} {g : Grp} {p : Path} (hg : find s.units u = some g) (hi : s.idle u g = false)
  (hp : g.slot b = some p)
include hg hi hp

theorem issueWord_answers : Out.Answers (issueWord (s.begin_ u g b p) u g p) := by
  unfold issueWord
  split
  · obtain ⟨x, hx⟩ := Option.ne_none_iff_exists'.1 (begin_issuer_ne_none 0 hg hi hp)
    simp only [exec, execInstructionFetchFault, hx]
    exact answers_next _
  next w pl _ =>
  split
  · exact answers_next _
  next t ht =>
  have hiss (v : Word) : t.issuer v ≠ none := fun hn => by
    obtain ⟨-, -, -, -, -, -, h⟩ := fetched_leaves hg hi hp ht
    have := h v
    rw [hn] at this
    cases this
  split
  · exact issue_answers (i := sigIllegal w) (fun _ _ => .trap 0) (hiss w)
  · next i hd => exact exec_answers_of_issuer (isEvent_of_decode hd) (hiss _)

theorem goOnWord_answers (w : Word) : Out.Answers (goOnWord { s with cur := (u, b) } w) := by
  unfold goOnWord
  split
  · exact answers_next _
  · next i hd => exact exec_answers_of_issuer (isEvent_of_decode hd) (issuer_ne_none (wordOf i) rfl hg hi hp)

end

theorem issueTurn_answers (s : State) (u : Nat) (b0 : Bool) : Out.Answers (issueTurn s u b0) := by
  unfold issueTurn
  split
  · exact answers_next _
  next g hg =>
  split
  · exact answers_next _
  next hi =>
  have hi : s.idle u g = false := Bool.not_eq_true _ ▸ hi
  split
  · next pt hpt =>
    obtain ⟨p, hp, -⟩ := Option.bind_eq_some_iff.1 hpt
    exact goOnWord_answers hg hi hp pt.w
  split
  · exact event_answers s rfl nofun nofun
  split
  · exact answers_next _
  · next b p hc => exact issueWord_answers hg hi (choose_slot hc)

theorem turn_answers (s : State) (t : Turn) : Out.Answers (turn s t) := by
  unfold turn
  split
  · split
    · exact issueTurn_answers ..
    · exact answers_next _
  · split
    · exact issueTurn_answers ..
    · exact answers_next _
  · exact answers_next _
  · split
    · next i h =>
      obtain ⟨hi, hw, hf⟩ := ownEvent_spec (Bool.and_eq_true_iff.1 h).1
      exact event_answers s hi hw hf
    · exact answers_next _
  · exact answers_next _

theorem step_answers (s : State) : Out.Answers (step s) := by
  have hs {o : Out} (h : Out.Answers o) : Out.Answers (synced s o) := by
    obtain ⟨t, rfl⟩ := h
    exact answers_next _
  unfold step
  split
  · exact hs (turn_answers ..)
  · exact hs (turn_answers ..)

/-- Settles O5: an issue answers where a path has the turn, and a turn's state names a path that may issue. -/
theorem everyStepAnswers : Obligations.EveryStepAnswers := by
  unfold Obligations.EveryStepAnswers
  exact ⟨fun i s => exec_answers_of_issuer, fun i s => event_answers s, step_answers⟩

end Sys2Proof.Machine
end

section
/-! Words of R and I format (R170, R174), and instructions whose operands are illegal (R169, R481). -/
namespace Sys2Proof.Machine

/-- The instructions of a table have the words of their function codes. -/
theorem encode_of_table {n : Nat} {l : List (Instr × BitVec n)} {f : BitVec n → Word}
    (h : l.map (fun e => encode e.1) = l.map (fun e => some (f e.2))) (i : Instr) (fn : BitVec n) (hm : (i, fn) ∈ l) :
    encode i = some (f fn) :=
  List.map_inj_left.mp h (i, fn) hm

theorem major_rWord (op : BitVec 6) (fn : BitVec 5) (d a b : Reg) : major (rWord op fn d a b) = op.toNat := by
  simp only [major, fld, rWord, toNat_append_add, Nat.shiftRight_eq_div_pow]
  omega

theorem major_iWord (op : BitVec 6) (fn : BitVec 3) (d a : Reg) (imm : BitVec 9) :
    major (iWord op fn d a imm) = op.toNat := by
  simp only [major, fld, iWord, toNat_append_add, Nat.shiftRight_eq_div_pow]
  omega

/-- A word of an unprivileged major that is not legal traps with cause ILLEGAL. -/
theorem exec_of_not_legal {i : Instr} {w : Word} {s : State} {x : Iss} (hw : encode i = some w)
    (hp : privileged (major w) = false) (h : s.issuer (wordOf i) = some x) (hl : legal s x (Instr.sig i) = false) :
    exec i s = .next (s.trap x 0) := by
  obtain ⟨body, hb⟩ := exec_eq_issue (i := i) (by rw [isEvent, hw]; rfl)
  have hx : x.w = w := (issuer_w h).trans (by rw [wordOf, hw]; rfl)
  rw [hb]
  exact issue_refused body h (refuse_illegal (.inl (hx ▸ hp)) hl)

theorem legal_of_not_wellFormed (s : State) (x : Iss) {i : Instr} (h : i.wellFormed = false) :
    legal s x (Instr.sig i) = false := by
  simp [legal, Instr.sig, h]

theorem illegalAlways_of {i : Instr} {op : BitVec 6} {fn : BitVec 5} {d a b : Reg}
    (hw : encode i = some (rWord op fn d a b)) (hp : privileged op.toNat = false) (hf : i.wellFormed = false) :
    IllegalAlways i :=
  fun s x h => exec_of_not_legal hw (by rw [major_rWord, hp]) h (legal_of_not_wellFormed s x hf)

end Sys2Proof.Machine
end

section
/-! The shapes of integer results: what an instruction sets, from the function that its meaning applies (R173). -/
namespace Sys2Proof.Machine

section
variable {i : Instr} {d a b : Reg}

theorem setsUn_of {f f' : Word → Word} (h : ∀ s, exec i s = issueG (Instr.sig i) s (fun x => x.un d a f))
    (hf : ∀ v, f v = f' v) : SetsUn i d a f' :=
  sets_of (fun _ _ => hf _) h

theorem setsBin_of {f f' : Word → Word → Word} (h : ∀ s, exec i s = issueG (Instr.sig i) s (fun x => x.bin d a b f))
    (hf : ∀ v w, f v w = f' v w) : SetsBin i d a b f' :=
  sets_of (fun _ _ => hf _ _) h

theorem setsTri_of {f f' : Word → Word → Word → Word}
    (h : ∀ s, exec i s = issueG (Instr.sig i) s (fun x => x.tri d a b f)) (hf : ∀ v w z, f v w z = f' v w z) :
    SetsTri i d a b f' :=
  sets_of (fun _ _ => hf _ _ _) h

theorem setsImm_of {imm : BitVec 9} {f f' : Word → Word → Word}
    (h : ∀ s, exec i s = issueG (Instr.sig i) s (fun x => x.immOp d a imm f)) (hf : ∀ v n, f v n = f' v n) :
    SetsImm i d a imm f' :=
  sets_of (fun _ _ => hf _ _) h

theorem setsBinF_of {f f' : Word → Word → Word × Nat}
    (h : ∀ s, exec i s = issueG (Instr.sig i) s (fun x => x.binF d a b f)) (hf : ∀ v w, f v w = f' v w) :
    SetsBinF i d a b f' :=
  setsFlags_of (fun _ _ => hf _ _) h

theorem setsTriF_of {f f' : Word → Word → Word → Word × Nat}
    (h : ∀ s, exec i s = issueG (Instr.sig i) s (fun x => x.triF d a b f)) (hf : ∀ v w z, f v w z = f' v w z) :
    SetsTriF i d a b f' :=
  setsFlags_of (fun _ _ => hf _ _ _) h

/-- A pair from two pairs. -/
theorem setsPair_of_binW {f f' : DWord → DWord → DWord}
    (h : ∀ s, exec i s = issueG (Instr.sig i) s (fun x => x.binW d a b f)) (hf : ∀ v w, f v w = f' v w) :
    SetsPair i d (fun x l => f' (x.g.rd2 a l) (x.g.rd2 b l)) :=
  setsPair_of (fun _ _ => hf _ _) h

end

end Sys2Proof.Machine
end

section
/-! Integer words: the model's operations by their values (R5, R9, R193). -/
namespace Sys2Proof.Machine

theorem word_eq_ofInt (z : Int) : word z = BitVec.ofInt 32 z := by
  refine BitVec.eq_of_toNat_eq ?_
  simp only [word, wrap, BitVec.toNat_ofNat, BitVec.toNat_ofInt]
  exact Nat.mod_eq_of_lt (by omega)

/-- Saturation to `w` signed bits is a clamp, and raises SATI where it clamps (R9). -/
theorem satI_eq_clamp (w : Nat) (z : Int) : satI z (-(2 ^ (w - 1))) (2 ^ (w - 1) - 1) = clamp w z := by
  have hp : (0 : Int) < 2 ^ (w - 1) := by positivity
  unfold satI clamp
  generalize (2 : Int) ^ (w - 1) = m at hp
  by_cases hl : z < -m
  · simp only [if_pos hl, if_pos (Or.inl hl : z < -m ∨ m - 1 < z), Prod.mk.injEq, and_true]
    omega
  · by_cases hh : m - 1 < z
    · simp only [if_neg hl, if_pos hh, if_pos (Or.inr hh : z < -m ∨ m - 1 < z), Prod.mk.injEq, and_true]
      omega
    · simp only [if_neg hl, if_neg hh, if_neg (not_or.mpr ⟨hl, hh⟩), Prod.mk.injEq, and_true]
      omega

theorem sat32_eq_clamp (z : Int) : sat32 z = (BitVec.ofInt 32 (clamp 32 z).1, (clamp 32 z).2) := by
  simp only [sat32, word_eq_ofInt, ← satI_eq_clamp]

theorem sat16_eq_clamp (z : Int) : sat16 z = clamp 16 z := satI_eq_clamp 16 z

theorem add_eq_ofNat {n : Nat} (a b : BitVec n) : a + b = BitVec.ofNat n (a.toNat + b.toNat) := by
  simp [BitVec.ofNat_add]

theorem sub_eq_ofInt {n : Nat} (a b : BitVec n) : a - b = BitVec.ofInt n ((a.toNat : Int) - b.toNat) := by
  simp only [Int.sub_eq_add_neg, BitVec.ofInt_add, BitVec.ofInt_neg, BitVec.ofInt_natCast, BitVec.ofNat_toNat,
    BitVec.setWidth_eq, BitVec.sub_eq_add_neg]

/-- A shift to the left multiplies. -/
theorem shiftLeft_eq_ofNat {n : Nat} (a : BitVec n) (k : Nat) : a <<< k = BitVec.ofNat n (a.toNat * 2 ^ k) := by
  refine BitVec.eq_of_toNat_eq ?_
  rw [BitVec.toNat_shiftLeft, BitVec.toNat_ofNat, Nat.shiftLeft_eq]

/-- A shift to the right divides. -/
theorem ushiftRight_eq_ofNat {n : Nat} (a : BitVec n) (k : Nat) : a >>> k = BitVec.ofNat n (a.toNat / 2 ^ k) := by
  rw [← Nat.shiftRight_eq_div_pow, ← BitVec.toNat_ushiftRight, BitVec.ofNat_toNat, BitVec.setWidth_eq]

/-- A shift to the right that keeps the sign divides the signed value, rounding down. -/
theorem sshiftRight_eq_ofInt {n : Nat} (a : BitVec n) (k : Nat) :
    a.sshiftRight k = BitVec.ofInt n (a.toInt / 2 ^ k) := by
  rw [BitVec.sshiftRight, Int.shiftRight_eq_div_pow, Nat.cast_pow]
  rfl

theorem shlW32_eq (a : Word) (k : Nat) : shlW32 a k = if k < 32 then BitVec.ofNat 32 (a.toNat * 2 ^ k) else 0 := by
  rw [shlW32, shiftLeft_eq_ofNat]

theorem shrW32_eq (a : Word) (k : Nat) : shrW32 a k = if k < 32 then BitVec.ofNat 32 (a.toNat / 2 ^ k) else 0 := by
  rw [shrW32, ushiftRight_eq_ofNat]

theorem sarW32_eq (a : Word) (k : Nat) : sarW32 a k
    = if k < 32 then BitVec.ofInt 32 (a.toInt / 2 ^ k) else if a.toInt < 0 then 0xFFFF_FFFF else 0 := by
  rw [sarW32, sshiftRight_eq_ofInt, BitVec.msb_eq_toInt]
  simp only [decide_eq_true_eq]
  rfl

theorem shlPair_eq (a : DWord) (k : Nat) :
    (if k < 64 then a <<< k else 0) = if k < 64 then BitVec.ofNat 64 (a.toNat * 2 ^ k) else 0 := by
  rw [shiftLeft_eq_ofNat]

theorem shrPair_eq (a : DWord) (k : Nat) :
    (if k < 64 then a >>> k else 0) = if k < 64 then BitVec.ofNat 64 (a.toNat / 2 ^ k) else 0 := by
  rw [ushiftRight_eq_ofNat]

theorem minS_eq (a b : Word) : (if a.slt b then a else b) = BitVec.ofInt 32 (min a.toInt b.toInt) := by
  simp only [BitVec.slt_iff_toInt_lt]
  split
  · rw [min_eq_left (by omega), BitVec.ofInt_toInt]
  · rw [min_eq_right (by omega), BitVec.ofInt_toInt]

theorem maxS_eq (a b : Word) : (if a.slt b then b else a) = BitVec.ofInt 32 (max a.toInt b.toInt) := by
  simp only [BitVec.slt_iff_toInt_lt]
  split
  · rw [max_eq_right (by omega), BitVec.ofInt_toInt]
  · rw [max_eq_left (by omega), BitVec.ofInt_toInt]

theorem minN_eq (a b : Word) : (if a < b then a else b) = BitVec.ofNat 32 (min a.toNat b.toNat) := by
  simp only [BitVec.lt_def]
  split
  · rw [min_eq_left (by omega), BitVec.ofNat_toNat, BitVec.setWidth_eq]
  · rw [min_eq_right (by omega), BitVec.ofNat_toNat, BitVec.setWidth_eq]

theorem maxN_eq (a b : Word) : (if a < b then b else a) = BitVec.ofNat 32 (max a.toNat b.toNat) := by
  simp only [BitVec.lt_def]
  split
  · rw [max_eq_right (by omega), BitVec.ofNat_toNat, BitVec.setWidth_eq]
  · rw [max_eq_left (by omega), BitVec.ofNat_toNat, BitVec.setWidth_eq]

/-- An IMM hint gives the high bits of the immediate (R171). -/
theorem immOf_imm (h : BitVec 23) (imm : BitVec 9) : immOf [wordOf (.imm h)] imm = (h ++ imm : BitVec 32) := by
  have hw : wordOf (.imm h) = (504#9 ++ h : BitVec 32) := rfl
  have hh := h.isLt
  have hk : hintKind (504#9 ++ h : BitVec 32) = 0 := by
    simp only [hintKind, fld, toNat_append_add, Nat.shiftRight_eq_div_pow, BitVec.toNat_ofNat]
    omega
  have hp : hintPayload (504#9 ++ h : BitVec 32) = h.toNat := by
    simp only [hintPayload, fld, toNat_append_add, Nat.shiftRight_eq_div_pow, BitVec.toNat_ofNat]
    omega
  have hv : hint? [wordOf (.imm h)] 0 = some h.toNat := by simp [hint?, hw, hk, hp]
  rw [immOf, hv]
  refine BitVec.eq_of_toNat_eq ?_
  rw [toNat_append_add, BitVec.toNat_ofNat]
  omega

/-- A shift by an immediate of 32 or more is illegal (R194). -/
theorem exec_of_wide_shift {i : Instr} {fn : BitVec 3} {d a : Reg} {imm : BitVec 9}
    (hw : encode i = some (iWord 0x07#6 fn d a imm)) (hs : Instr.shiftImm i = some imm) (s : State) (x : Iss)
    (h : s.issuer (wordOf i) = some x) (hi : 32 ≤ (immOf x.p.hints imm).toNat) : exec i s = .next (s.trap x 0) := by
  refine exec_of_not_legal hw (by rw [major_iWord]; rfl) h ?_
  have hi : ¬(immOf x.p.hints imm).toNat < 32 := by omega
  simp [legal, Instr.sig, hs, hi]

/-- Settles O7: each form by the value of the operation that its meaning applies. -/
theorem integerResults : Obligations.IntegerResults := by
  unfold Obligations.IntegerResults
  refine ⟨fun d a b => ⟨encode_of_table (by simp only [List.map]; rfl), rfl,
      ?_, ?_, ?_, ?_, ?_, ?_, ?_, ?_, ?_, ?_, ?_, ?_, ?_, ?_, ?_, ?_, ?_, ?_, ?_, ?_, ?_, ?_⟩,
    fun d a imm => ⟨encode_of_table (by simp only [List.map]; rfl), rfl, ⟨rfl, fun h => immOf_imm h imm⟩,
      ?_, ?_, ?_, ?_, ?_, ?_, ?_, ?_, ?_⟩⟩
  · exact setsPair_of_binW (fun _ => rfl) add_eq_ofNat
  · exact setsPair_of_binW (fun _ => rfl) sub_eq_ofInt
  · exact setsPair_of (fun _ _ => shlPair_eq _ _) fun _ => rfl
  · exact setsPair_of (fun _ _ => shrPair_eq _ _) fun _ => rfl
  · exact setsBin_of (fun _ => rfl) add_eq_ofNat
  · exact setsBin_of (fun _ => rfl) sub_eq_ofInt
  · exact setsBin_of (fun _ => rfl) minS_eq
  · exact setsBin_of (fun _ => rfl) minN_eq
  · exact setsBin_of (fun _ => rfl) maxS_eq
  · exact setsBin_of (fun _ => rfl) maxN_eq
  · exact setsBin_of (fun _ => rfl) fun _ _ => rfl
  · exact setsBin_of (fun _ => rfl) fun _ _ => rfl
  · exact setsBin_of (fun _ => rfl) fun _ _ => rfl
  · exact setsBin_of (fun _ => rfl) fun _ _ => rfl
  · exact setsBin_of (fun _ => rfl) fun v n => shlW32_eq v n.toNat
  · exact setsBin_of (fun _ => rfl) fun v n => shrW32_eq v n.toNat
  · exact setsBin_of (fun _ => rfl) fun v n => sarW32_eq v n.toNat
  · exact setsBin_of (fun _ => rfl) fun _ _ => rfl
  · exact setsBin_of (fun _ => rfl) fun _ _ => rfl
  · exact setsUn_of (fun _ => rfl) fun _ => rfl
  · exact setsBinF_of (fun _ => rfl) fun _ _ => sat32_eq_clamp _
  · exact setsBinF_of (fun _ => rfl) fun _ _ => sat32_eq_clamp _
  · intro i hi
    simp only [List.mem_cons, List.not_mem_nil, or_false] at hi
    rcases hi with rfl | rfl | rfl
    · exact exec_of_wide_shift (fn := 4#3) (d := d) (a := a) rfl rfl
    · exact exec_of_wide_shift (fn := 5#3) (d := d) (a := a) rfl rfl
    · exact exec_of_wide_shift (fn := 6#3) (d := d) (a := a) rfl rfl
  · exact setsImm_of (fun _ => rfl) add_eq_ofNat
  · exact setsImm_of (fun _ => rfl) fun _ _ => rfl
  · exact setsImm_of (fun _ => rfl) fun _ _ => rfl
  · exact setsImm_of (fun _ => rfl) fun _ _ => rfl
  · exact setsImm_of (fun _ => rfl) fun v n => shlW32_eq v n.toNat
  · exact setsImm_of (fun _ => rfl) fun v n => shrW32_eq v n.toNat
  · exact setsImm_of (fun _ => rfl) fun v n => sarW32_eq v n.toNat
  · exact sets_of (fun _ _ => rfl) fun _ => rfl

end Sys2Proof.Machine
end

section
/-! Multiplication and division (R195). -/
namespace Sys2Proof.Machine

theorem mul_eq_ofNat {n : Nat} (a b : BitVec n) : a * b = BitVec.ofNat n (a.toNat * b.toNat) := by
  simp only [BitVec.ofNat_mul, BitVec.ofNat_toNat, BitVec.setWidth_eq]

theorem mad_eq_ofNat (a b d : Word) : a * b + d = BitVec.ofNat 32 (a.toNat * b.toNat + d.toNat) := by
  simp only [BitVec.ofNat_add, BitVec.ofNat_mul, BitVec.ofNat_toNat, BitVec.setWidth_eq]

theorem word_floorDiv_two_pow (z : Int) (k : Nat) : word (floorDiv z (2 ^ k)) = BitVec.ofInt 32 (z / 2 ^ k) := by
  rw [word_eq_ofInt, floorDiv, Int.fdiv_eq_ediv_of_nonneg _ (by positivity)]

theorem divSW_eq (a b : Word) : divSW a b = if b = 0 then 0xFFFF_FFFF
    else if a = 0x8000_0000 ∧ b = 0xFFFF_FFFF then 0x8000_0000 else BitVec.ofInt 32 (a.toInt.tdiv b.toInt) := by
  rw [divSW, word_eq_ofInt]
  rfl

/-- The remainder is what the rounded quotient leaves. -/
theorem remSW_eq (a b : Word) : remSW a b = if b = 0 then a else if a = 0x8000_0000 ∧ b = 0xFFFF_FFFF then 0
    else BitVec.ofInt 32 (a.toInt - b.toInt * a.toInt.tdiv b.toInt) := by
  rw [remSW, word_eq_ofInt, Int.tmod_def]
  rfl

theorem divNW_eq (a b : Word) :
    divNW a b = if b = 0 then 0xFFFF_FFFF else BitVec.ofNat 32 (a.toNat / b.toNat) := by
  rw [← BitVec.toNat_udiv, BitVec.ofNat_toNat, BitVec.setWidth_eq]
  rfl

theorem remNW_eq (a b : Word) : remNW a b = if b = 0 then a else BitVec.ofNat 32 (a.toNat % b.toNat) := by
  rw [← BitVec.toNat_umod, BitVec.ofNat_toNat, BitVec.setWidth_eq]
  rfl

/-- Settles O8: each form by the value of the operation that its meaning applies. -/
theorem multiplyAndDivide : Obligations.MultiplyAndDivide := by
  unfold Obligations.MultiplyAndDivide
  refine fun d a b => ⟨encode_of_table (by simp only [List.map]; rfl), ?_, ?_, ?_, ?_, ?_, ?_, ?_, ?_, ?_⟩
  · exact setsPair_of_binW (fun _ => rfl) mul_eq_ofNat
  · exact setsBin_of (fun _ => rfl) mul_eq_ofNat
  · exact setsBin_of (fun _ => rfl) fun v w => word_floorDiv_two_pow (v.toInt * w.toInt) 32
  · exact setsBin_of (fun _ => rfl) fun _ _ => rfl
  · exact setsTri_of (fun _ => rfl) mad_eq_ofNat
  · exact setsBin_of (fun _ => rfl) divSW_eq
  · exact setsBin_of (fun _ => rfl) divNW_eq
  · exact setsBin_of (fun _ => rfl) remSW_eq
  · exact setsBin_of (fun _ => rfl) remNW_eq

end Sys2Proof.Machine
end

section
/-! Bit operations (R197). -/
namespace Sys2Proof.Machine

theorem popcount_eq_countP (a : Word) :
    popcount 32 a.toNat = (List.range 32).countP (fun i => a.getLsbD i) := by
  rw [popcount, List.countP_eq_length_filter]
  simp only [bit_eq_testBit]
  rfl

/-- The leading zeros stand above the highest one. -/
theorem clzW_eq (a : Word) :
    clzW a = BitVec.ofNat 32 (((List.range 32).find? (fun i => a.getLsbD (31 - i))).getD 32) := by
  rw [clzW]
  split
  · next h => subst h; decide
  · next h =>
    have h0 : a.toNat ≠ 0 := fun e => h (BitVec.eq_of_toNat_eq e)
    have hl : a.toNat.log2 < 32 := (Nat.log2_lt h0).mpr a.isLt
    have hf : (List.range 32).find? (fun i => a.getLsbD (31 - i)) = some (31 - a.toNat.log2) := by
      rw [List.find?_range_eq_some]
      refine ⟨?_, List.mem_range.mpr (by omega), fun j hj => ?_⟩
      · rw [show 31 - (31 - a.toNat.log2) = a.toNat.log2 by omega]
        exact Nat.testBit_log2 h0
      · have hlt : a.toNat < 2 ^ (31 - j) :=
          Nat.lt_log2_self.trans_le (Nat.pow_le_pow_right (by decide) (by omega))
        simp [BitVec.getLsbD, Nat.testBit_lt_two_pow hlt]
    rw [hf, Option.getD_some]

/-- The number of `n` bits, the first one highest. -/
def revBits (f : Nat → Bool) : Nat → Nat
  | 0 => 0
  | n + 1 => Nat.bit (f n) (revBits f n)

theorem testBit_revBits (f : Nat → Bool) (n j : Nat) :
    (revBits f n).testBit j = (decide (j < n) && f (n - 1 - j)) := by
  induction n generalizing j with
  | zero => simp [revBits]
  | succ n ih =>
    cases j with
    | zero => simp [revBits]
    | succ j =>
      rw [revBits, Nat.testBit_bit_succ, ih]
      simp only [Nat.add_lt_add_iff_right]
      congr 2
      omega

/-- The sum that BREV forms, after `n` of its bits. -/
theorem foldl_brev (f : Nat → Bool) {n : Nat} (hn : n ≤ 32) :
    (List.range n).foldl (fun s i => s + (if f i then 2 ^ (31 - i) else 0)) 0 = 2 ^ (32 - n) * revBits f n := by
  induction n with
  | zero => rfl
  | succ n ih =>
    have hp : 2 ^ (32 - n) = 2 * 2 ^ (31 - n) := by rw [← Nat.pow_succ']; congr 1; omega
    have hs : 32 - (n + 1) = 31 - n := by omega
    rw [List.range_succ, List.foldl_append, ih (by omega), hp, hs, revBits, Nat.bit_val]
    cases h : f n <;> simp [h] <;> ring

theorem brevW_eq_reverse (a : Word) : brevW a = a.reverse := by
  refine BitVec.eq_of_getLsbD_eq fun j hj => ?_
  rw [brevW, foldl_brev _ le_rfl, BitVec.getLsbD_ofNat, Nat.sub_self, Nat.pow_zero, Nat.one_mul, testBit_revBits,
    BitVec.getLsbD_reverse, BitVec.getMsbD_eq_getLsbD]
  simp [hj]

/-! Fields: `pos` and the length that stays in the word. -/

theorem bfPos_eq (b : Word) : bfPos b = b.toNat % 32 := by
  simp [bfPos, fld]

theorem bfLen_eq (b : Word) : bfLen b = min (b.toNat / 2 ^ 8 % 64) (32 - b.toNat % 32) := by
  simp [bfLen, bfPos_eq, fld, Nat.shiftRight_eq_div_pow]

theorem bfeNW_eq (a b : Word) : bfeNW a b = BitVec.ofNat 32 (a.toNat / 2 ^ bfPos b % 2 ^ bfLen b) := by
  rw [bfeNW, fld, Nat.shiftRight_eq_div_pow]

theorem bfeSW_eq (a b : Word) :
    bfeSW a b = if bfLen b = 0 then 0 else ((a >>> bfPos b).setWidth (bfLen b)).signExtend 32 := by
  rw [bfeSW]
  split
  · rfl
  · next h =>
    have e : BitVec.ofNat (bfLen b) (fld a.toNat (bfPos b) (bfLen b)) = (a >>> bfPos b).setWidth (bfLen b) := by
      refine BitVec.eq_of_toNat_eq ?_
      simp [fld]
    rw [word_sint _ _ (by omega), e]

/-- A number put between the bits below `p` and those from `p + w` on. -/
theorem testBit_between (d a p w j : Nat) :
    (d % 2 ^ p + a % 2 ^ w * 2 ^ p + d / 2 ^ (p + w) * 2 ^ (p + w)).testBit j
      = if p ≤ j ∧ j < p + w then a.testBit (j - p) else d.testBit j := by
  have e : d % 2 ^ p + a % 2 ^ w * 2 ^ p + d / 2 ^ (p + w) * 2 ^ (p + w)
      = 2 ^ p * (2 ^ w * (d / 2 ^ (p + w)) + a % 2 ^ w) + d % 2 ^ p := by
    rw [Nat.pow_add]; ring
  rw [e, Nat.testBit_two_pow_mul_add _ (Nat.mod_lt _ (Nat.two_pow_pos p)),
    Nat.testBit_two_pow_mul_add _ (Nat.mod_lt _ (Nat.two_pow_pos w))]
  simp only [Nat.testBit_mod_two_pow, Nat.testBit_div_two_pow]
  by_cases h1 : j < p
  · have hn : ¬p ≤ j := by omega
    simp [h1, hn]
  · by_cases h2 : j - p < w
    · have hy : p ≤ j ∧ j < p + w := by omega
      simp [h1, h2, hy]
    · have hn : ¬(p ≤ j ∧ j < p + w) := by omega
      have hj : j - p - w + (p + w) = j := by omega
      simp [h1, h2, hn, hj]

theorem getLsbD_fieldMask {p w j : Nat} (hj : j < 32) :
    (BitVec.ofNat 32 (2 ^ w - 1) <<< p).getLsbD j = decide (p ≤ j ∧ j < p + w) := by
  rw [BitVec.getLsbD_shiftLeft, BitVec.getLsbD_ofNat, Nat.testBit_two_pow_sub_one, Bool.eq_iff_iff]
  simp only [Bool.and_eq_true, Bool.not_eq_true', decide_eq_true_eq, decide_eq_false_iff_not]
  omega

/-- BFI keeps the destination's bits outside the field. -/
theorem bfiW_eq (a b d : Word) : bfiW a b d = BitVec.ofNat 32 (d.toNat % 2 ^ bfPos b
    + a.toNat % 2 ^ bfLen b * 2 ^ bfPos b + d.toNat / 2 ^ (bfPos b + bfLen b) * 2 ^ (bfPos b + bfLen b)) := by
  refine BitVec.eq_of_getLsbD_eq fun j hj => ?_
  rw [BitVec.getLsbD_ofNat, testBit_between, bfiW, BitVec.getLsbD_or, BitVec.getLsbD_and, BitVec.getLsbD_and,
    BitVec.getLsbD_not, getLsbD_fieldMask hj, BitVec.getLsbD_shiftLeft]
  by_cases h : bfPos b ≤ j ∧ j < bfPos b + bfLen b
  · simp [h, hj, BitVec.getLsbD]
  · simp [h, hj, BitVec.getLsbD]

/-- Four bytes, the lowest first. -/
theorem ofNat_bytes (p q r s : Byte) : BitVec.ofNat 32 (p.toNat + 2 ^ 8 * q.toNat + 2 ^ 16 * r.toNat + 2 ^ 24 * s.toNat)
    = (s ++ r ++ q ++ p : BitVec 32) := by
  have := p.isLt
  have := q.isLt
  have := r.isLt
  have := s.isLt
  refine BitVec.eq_of_toNat_eq ?_
  simp only [toNat_append_add, BitVec.toNat_ofNat]
  omega

/-- The byte that selector `i` of `b` picks (R197). -/
def permbPick (a b d : Word) (i : Nat) : Byte :=
  let k := (b.extractLsb' (4 * i) 4).toNat
  if k < 4 then a.extractLsb' (8 * k) 8 else if k < 8 then d.extractLsb' (8 * (k - 4)) 8 else 0

theorem permbW_eq (a b d : Word) :
    permbW a b d = (permbPick a b d 3 ++ permbPick a b d 2 ++ permbPick a b d 1 ++ permbPick a b d 0 : BitVec 32) := by
  rw [← ofNat_bytes]
  have h (i : Nat) : (permbPick a b d i).toNat =
      (let k := fld b.toNat (4 * i) 4
       if k < 4 then fld a.toNat (8 * k) 8 else if k < 8 then fld d.toNat (8 * (k - 4)) 8 else 0) := by
    simp only [permbPick, BitVec.extractLsb'_toNat, apply_ite BitVec.toNat]
    rfl
  simp only [h]
  rfl

/-- Settles O9: each form by the value of the operation that its meaning applies. -/
theorem bitOperations : Obligations.BitOperations := by
  unfold Obligations.BitOperations
  refine fun d a b => ⟨encode_of_table (by simp only [List.map]; rfl), encode_of_table (by simp only [List.map]; rfl),
    ?_, ?_, ?_, ?_, ?_, ?_, ?_, ?_⟩
  · exact setsUn_of (fun _ => rfl) fun v => congrArg (BitVec.ofNat 32) (popcount_eq_countP v)
  · exact setsUn_of (fun _ => rfl) clzW_eq
  · exact setsUn_of (fun _ => rfl) fun _ => rfl
  · exact setsUn_of (fun _ => rfl) brevW_eq_reverse
  · exact setsBin_of (fun _ => rfl) fun v w => by simp only [bfeNW_eq, bfPos_eq, bfLen_eq]
  · exact setsBin_of (fun _ => rfl) fun v w => by rw [bfeSW_eq, bfLen_eq, bfPos_eq]
  · exact setsTri_of (fun _ => rfl) fun v w z => by simp only [bfiW_eq, bfPos_eq, bfLen_eq]
  · exact setsTri_of (fun _ => rfl) permbW_eq

end Sys2Proof.Machine
end

section
/-! Compares, selects and predicate logic (R196, R198). -/
namespace Sys2Proof.Machine

theorem getLsbD_maskWhere {w l : Nat} (f : Nat → Bool) (hw : l < w) (hl : l < 64) :
    (maskWhere w f).getLsbD l = f l := by
  rw [maskWhere, getLsbD_maskOf hl]
  simp [hw]

/-- A predicate number in a register's field (R172): the upper bits are zeros. -/
theorem rWord_pred (op : BitVec 6) (fn : BitVec 5) (p : BitVec 3) (a b : Reg) :
    rWord op fn (0#4 ++ p) a b = (op ++ fn ++ 0#4 ++ p ++ a ++ b : BitVec 32) := by
  rw [rWord, BitVec.append_assoc']
  rfl

/-- Predicate numbers in all three register fields, as the logical forms have them (R198). -/
theorem rWord_preds (op : BitVec 6) (fn : BitVec 5) (p q r : BitVec 3) : rWord op fn (0#4 ++ p) (0#4 ++ q) (0#4 ++ r)
    = (op ++ fn ++ 0#4 ++ p ++ 0#4 ++ q ++ 0#4 ++ r : BitVec 32) := by
  rw [rWord_pred, BitVec.append_assoc', BitVec.append_assoc']
  rfl

theorem setsPred_of_pw {i : Instr} {k : Nat} {f : Iss → Nat → Bool} {new : Iss → DWord}
    (h : ∀ s, exec i s = issueG (Instr.sig i) s (fun x => x.g.pw k x.act (new x)))
    (hf : ∀ x l, l ∈ x.lanes → (new x).getLsbD l = f x l) : SetsPred i k f (fun _ => 0) :=
  setsPred_of hf fun s => by rw [h, issueG_raise]

theorem compares_of {i : Instr} {p : BitVec 3} {a b : Reg} {f f' : Word → Word → Bool}
    (h : ∀ s, exec i s = issueG (Instr.sig i) s (fun x => x.cmp p a b f)) (hf : ∀ v w, f v w = f' v w) :
    Compares i p a b f' :=
  setsPred_of_pw h fun x l hl => by
    rw [getLsbD_maskWhere _ (mem_lanes.mp hl).1 (lanesOf_lt _ _ l hl), hf]

theorem getLsbD_andn (m n : DWord) {l : Nat} (hl : l < 64) :
    (m &&& ~~~n).getLsbD l = (m.getLsbD l && !n.getLsbD l) := by
  rw [BitVec.getLsbD_and, BitVec.getLsbD_not, decide_eq_true hl, Bool.true_and]

theorem bne_eq_decide_ne (v w : Word) : (v != w) = decide (v ≠ w) := by
  rw [bne, beq_eq_decide, decide_not]

theorem not_slt_eq_decide_le (v w : Word) : (!(w.slt v)) = decide (v.toInt ≤ w.toInt) := by
  rw [BitVec.slt, ← decide_not]
  exact decide_eq_decide.mpr not_lt

theorem encode_predLogic (d a b : BitVec 3) (i : Instr) (fn : BitVec 5) : (i, fn) ∈ [(Instr.pand d a b, 0x08#5),
    (.por d a b, 0x09#5), (.pxor d a b, 0x0A#5), (.pandn d a b, 0x0B#5)] →
    encode i = some (rWord 0x05#6 fn (0#4 ++ d) (0#4 ++ a) (0#4 ++ b)) := by
  revert i fn
  refine encode_of_table ?_
  simp only [List.map, rWord_preds]
  rfl

theorem encode_compare (p : BitVec 3) (a b : Reg) (i : Instr) (fn : BitVec 5) : (i, fn) ∈ [(Instr.eq p a b, 0x00#5),
    (.ne p a b, 0x01#5), (.ltS p a b, 0x02#5), (.leS p a b, 0x03#5), (.ltN p a b, 0x04#5), (.leN p a b, 0x05#5),
    (.tst p a b, 0x06#5), (.tstz p a b, 0x07#5)] → encode i = some (rWord 0x03#6 fn (0#4 ++ p) a b) := by
  revert i fn
  refine encode_of_table ?_
  simp only [List.map, rWord_pred]
  rfl

theorem encode_sel (k : BitVec 3) (d a b : Reg) : encode (.sel k d a b) = some (rWord 0x05#6 (0#2 ++ k) d a b) := by
  rw [rWord, BitVec.append_assoc']
  rfl

theorem encode_p2s (d : Reg) (k : BitVec 3) : encode (.p2s d k) = some (rWord 0x05#6 0x0C#5 d (0#4 ++ k) 0#7) := by
  rw [rWord, BitVec.append_assoc']
  rfl

theorem encode_s2p (k : BitVec 3) (a : Reg) : encode (.s2p k a) = some (rWord 0x05#6 0x0D#5 (0#4 ++ k) a 0#7) := by
  rw [rWord_pred]
  rfl

/-- The pair of P2S and S2P is an even s register (R198), in the words of the encoding's check. -/
theorem isS_and_even_eq_false {r : Reg} (h : ¬(r.isS = true ∧ r.toNat % 2 = 0)) : (r.isS && r.even) = false := by
  simpa [Reg.even] using h

theorem not_wellFormed_s2p {k : BitVec 3} {a : Reg} (h : ¬(a.isS = true ∧ a.toNat % 2 = 0)) :
    (Instr.s2p k a).wellFormed = false :=
  (Bool.and_assoc ..).trans (by rw [isS_and_even_eq_false h, Bool.and_false])

theorem isV_eq_false_of_isS {r : Reg} (h : r.isS = true) : r.isV = false := by
  simpa [Reg.isS, Reg.isV] using h

/-- The instructions of a table are illegal when none of them is well formed (R169). -/
theorem illegalAlways_of_table {op : BitVec 6} {d a b : Reg} {l : List (Instr × BitVec 5)}
    (hp : privileged op.toNat = false) (hw : ∀ i fn, (i, fn) ∈ l → encode i = some (rWord op fn d a b))
    (hf : l.all (fun e => !(Instr.wellFormed e.1)) = true) : ∀ i ∈ l.map Prod.fst, IllegalAlways i := by
  intro i hi
  obtain ⟨⟨j, fn⟩, hm, rfl⟩ := List.mem_map.mp hi
  exact illegalAlways_of (hw j fn hm) hp (by simpa using List.all_eq_true.mp hf _ hm)

/-- Settles O10: a predicate's lanes by the mask that its meaning writes, illegal operands by their well-formedness. -/
theorem predicateOperations : Obligations.PredicateOperations := by
  unfold Obligations.PredicateOperations
  refine ⟨⟨fun k d a b => ⟨encode_sel .., fun h => ?_, encode_p2s .., fun h => ?_, encode_s2p .., fun h => ?_,
        ?_, ?_, ?_⟩,
      fun d a b => ⟨encode_predLogic d a b, illegalAlways_of_table rfl (encode_predLogic 7#3 a b) rfl, ?_, ?_, ?_, ?_⟩,
      fun d a => ?_⟩,
    fun p a b => ⟨encode_compare p a b, illegalAlways_of_table rfl (encode_compare 7#3 a b) rfl,
      ?_, ?_, ?_, ?_, ?_, ?_, ?_, ?_⟩⟩
  · exact illegalAlways_of (encode_sel ..) rfl (isV_eq_false_of_isS h)
  · exact illegalAlways_of (encode_p2s ..) rfl (isS_and_even_eq_false h)
  · exact illegalAlways_of (encode_s2p ..) rfl (not_wellFormed_s2p h)
  · exact illegalAlways_of (encode_s2p ..) rfl rfl
  · exact setsPair_of (fun _ _ => rfl) fun _ => rfl
  · exact sets_of (fun _ _ => rfl) fun _ => rfl
  · exact setsPred_of_pw (fun _ => rfl) fun _ _ _ => BitVec.getLsbD_and
  · exact setsPred_of_pw (fun _ => rfl) fun _ _ _ => BitVec.getLsbD_or
  · exact setsPred_of_pw (fun _ => rfl) fun _ _ _ => BitVec.getLsbD_xor
  · exact setsPred_of_pw (fun _ => rfl) fun _ l hl => getLsbD_andn _ _ (lanesOf_lt _ _ l hl)
  · exact setsPred_of_pw (fun _ => rfl) fun _ _ _ => rfl
  · exact compares_of (fun _ => rfl) fun _ _ => rfl
  · exact compares_of (fun _ => rfl) bne_eq_decide_ne
  · exact compares_of (fun _ => rfl) fun _ _ => rfl
  · exact compares_of (fun _ => rfl) not_slt_eq_decide_le
  · exact compares_of (fun _ => rfl) fun _ _ => rfl
  · exact compares_of (fun _ => rfl) fun _ _ => rfl
  · exact compares_of (fun _ => rfl) fun v w => bne_eq_decide_ne (v &&& w) 0
  · exact compares_of (fun _ => rfl) fun _ _ => rfl

end Sys2Proof.Machine
end

section
/-! Packed 16-bit operations (R95, R199). -/
namespace Sys2Proof.Machine

theorem sint_eq_toInt (n v : Nat) (hn : 0 < n) : sint n v = (BitVec.ofNat n v).toInt := by
  obtain ⟨m, rfl⟩ : ∃ m, n = m + 1 := ⟨n - 1, by omega⟩
  rw [sint, BitVec.toInt_eq_toNat_cond, BitVec.toNat_ofNat, Nat.add_sub_cancel]
  exact if_congr (by omega) rfl rfl

theorem el16_eq_half (a : Word) (j : Nat) : el16 a j = half a j := by
  rw [el16, half, sint_eq_toInt 16 _ (by decide), ofNat_fld]

/-- Two elements in a word: the element of the lower half stands last. -/
theorem pk16_eq_append (p q : Int) : pk16 p q = (BitVec.ofInt 16 q ++ BitVec.ofInt 16 p : BitVec 32) := by
  refine BitVec.eq_of_toNat_eq ?_
  simp only [pk16, wrap, toNat_append_add, BitVec.toNat_ofNat, BitVec.toNat_ofInt]
  omega

theorem each16_eq (f : Int → Int → Int) (a b : Word) : each16 f a b
    = twoHalves (clamp 16 (f (half a 0) (half b 0))) (clamp 16 (f (half a 1) (half b 1))) := by
  simp only [each16, twoHalves, sat16_eq_clamp, el16_eq_half, pk16_eq_append]

theorem dmacSum_eq (d : Int) (a b : Word) : dmacSum d a b = d + half a 0 * half b 0 + half a 1 * half b 1 := by
  simp only [dmacSum, el16_eq_half]

/-- The rounding shift, saturated to 16 bits. -/
theorem shrr_eq (a b : Word) : (let r := sat16 (rnaDiv a.toInt (fld b.toNat 0 5)); (word r.1, r.2))
    = (BitVec.ofInt 32 (clamp 16 (rnaDiv a.toInt (b.toNat % 32))).1, (clamp 16 (rnaDiv a.toInt (b.toNat % 32))).2) := by
  have hb : fld b.toNat 0 5 = b.toNat % 32 := bfPos_eq b
  simp only [hb, sat16_eq_clamp, word_eq_ofInt]

theorem pack2_eq (a b : Word) :
    (let p := sat16 a.toInt; let q := sat16 b.toInt; (pk16 p.1 q.1, p.2 ||| q.2))
      = twoHalves (clamp 16 a.toInt) (clamp 16 b.toInt) := by
  simp only [twoHalves, sat16_eq_clamp, pk16_eq_append]

/-- Settles O11: each form by its elements, each of them clamped. -/
theorem packedIntegers : Obligations.PackedIntegers := by
  unfold Obligations.PackedIntegers
  refine fun d a b => ⟨encode_of_table (by simp only [List.map]; rfl), rfl, ?_, ?_, ?_, ?_, ?_, ?_, ?_, ?_⟩
  · exact setsTriF_of (fun _ => rfl) fun v w z => by simp only [sat32_eq_clamp, dmacSum_eq]
  · exact setsTri_of (fun _ => rfl) fun v w z => by simp only [word_eq_ofInt, dmacSum_eq]
  · exact setsBinF_of (fun _ => rfl) (each16_eq _)
  · exact setsBinF_of (fun _ => rfl) (each16_eq _)
  · exact setsBinF_of (fun _ => rfl) (each16_eq _)
  · exact setsBinF_of (fun _ => rfl) shrr_eq
  · exact setsBinF_of (fun _ => rfl) pack2_eq
  · refine setsRun_of (by decide) (fun _ => lanesOf_lt _ _) (fun x l j => ?_) (fun _ => rfl) (fun s => ?_)
      (f := fun x l j => word (el16 (x.g.rd a l) j)) (fl := fun _ => 0)
    · rw [word_eq_ofInt, el16_eq_half]
    · simp only [raise_zero]
      rfl

end Sys2Proof.Machine
end

section
/-! Branches (R42, R200, R201). -/
namespace Sys2Proof.Machine

theorem uniBranch_taken {x : Iss} (s : State) (o : BitVec 20) {c : Bool} (h : c = true) :
    x.uniBranch s o c = .goto s x.g (x.target o) := by
  simp [Iss.uniBranch, h]

theorem uniBranch_not_taken {x : Iss} (s : State) (o : BitVec 20) {c : Bool} (h : c = false) :
    x.uniBranch s o c = .retire s x.g := by
  simp [Iss.uniBranch, h]

/-- A uniform branch goes to its target in the states that its test takes. -/
theorem transfersWhen_taken {i : Instr} {o : BitVec 20} {c : Iss → Bool} {h : State → Iss → Prop}
    (he : ∀ s, exec i s = issue (Instr.sig i) s (fun x s => x.uniBranch s o (c x))) (hc : ∀ s x, h s x → c x = true) :
    TransfersWhen i h (fun _ x => x.g) (fun _ x => x.target o) :=
  transfersWhen_of he fun s x hh => uniBranch_taken s o (hc s x hh)

/-- A uniform branch that is not taken goes on at the next word. -/
theorem transfersWhen_not_taken {i : Instr} {o : BitVec 20} {c : Iss → Bool} {h : State → Iss → Prop}
    (he : ∀ s, exec i s = issue (Instr.sig i) s (fun x s => x.uniBranch s o (c x))) (hc : ∀ s x, h s x → c x = false) :
    TransfersWhen i h (fun _ x => x.g) (fun _ x => x.p.pc + 4) :=
  fun s x hr hh => by rw [exec_runs he hr, uniBranch_not_taken s o (hc s x hh), finish]

theorem splitTo_of_no_split {x : Iss} {s : State} {g : Grp} {taken target fpc : DWord}
    (e : g.split (s.genOf g) x.b taken target fpc = none) :
    x.splitTo s g taken target fpc = .fault (x.failPlain pathOvf x.low) := by
  simp only [Iss.splitTo, e]

/-- Settles O19: a uniform branch by its test, a divergent one by the split of its path. -/
theorem branches : Obligations.Branches := by
  unfold Obligations.Branches
  refine ⟨fun o => ⟨?_, ?_, ?_, ?_, ?_, ?_, ?_, ?_⟩, fun k o g => ⟨?_, ?_, ?_⟩⟩
  · exact transfersWhen_of (fun _ => rfl) fun _ _ _ => rfl
  · exact transfersWhen_taken (fun _ => rfl) fun _ _ => beq_iff_eq.mpr
  · exact transfersWhen_not_taken (fun _ => rfl) fun _ _ => beq_eq_false_iff_ne.mpr
  · exact transfersWhen_taken (fun _ => rfl) fun _ _ => bne_iff_ne.mpr
  · exact transfersWhen_not_taken (fun _ => rfl) fun _ _ => bne_eq_false_iff_eq.mpr
  · exact transfersWhen_taken (fun _ => rfl) fun _ _ => beq_iff_eq.mpr
  · exact transfersWhen_not_taken (fun _ => rfl) fun _ _ => beq_eq_false_iff_ne.mpr
  · exact transfersWhen_of (fun _ => rfl) fun _ _ _ => rfl
  · exact endsWhen_of (fun _ => rfl) fun _ _ => splitTo_of_split
  · exact endsWhen_of (fun _ => rfl) fun _ _ => splitTo_of_split
  · exact faultsWhen_of (fun _ => rfl) fun _ _ => splitTo_of_no_split

end Sys2Proof.Machine
end

section
/-! Float minimum, maximum, sign, class and compares (R223 to R225). -/
namespace Sys2Proof.Machine

/-! Sign and class (R224). -/

theorem fabs_eq (w : Word) : w &&& 0x7FFF_FFFF#32 = BitVec.ofNat 32 (w.toNat % 2 ^ 31) := by
  refine BitVec.eq_of_toNat_eq ?_
  have hw := w.isLt
  rw [BitVec.toNat_and, BitVec.toNat_ofNat, BitVec.toNat_ofNat, Nat.mod_eq_of_lt (by omega : w.toNat % 2 ^ 31 < 2 ^ 32)]
  exact Nat.and_two_pow_sub_one_eq_mod w.toNat 31

theorem fneg_eq (w : Word) : w ^^^ 0x8000_0000#32 = BitVec.ofNat 32 (w.toNat + 2 ^ 31) := by
  refine BitVec.eq_of_getLsbD_eq fun i hi => ?_
  have hm : (0x8000_0000#32).getLsbD i = decide (31 = i) := Nat.testBit_two_pow (n := 31)
  rw [BitVec.getLsbD_xor, hm, BitVec.getLsbD_ofNat, Nat.add_comm]
  rcases Nat.lt_or_eq_of_le (Nat.le_of_lt_succ hi) with hlt | rfl
  · rw [Nat.testBit_two_pow_add_gt hlt, decide_eq_false (Nat.ne_of_gt hlt), Bool.xor_false, decide_eq_true hi, Bool.true_and]
    rfl
  · rw [Nat.testBit_two_pow_add_eq, decide_eq_true rfl, Bool.xor_true, decide_eq_true hi, Bool.true_and]
    rfl

theorem fclassW_eq (w : Word) : fclassW w = (let e := (w.extractLsb' 23 8).toNat
    let m := (w.extractLsb' 0 23).toNat
    if e = 255 ∧ m = 0 then (if w.msb then 1 else 0x80)
    else if e = 255 then (if w.getLsbD 22 then 0x200 else 0x100)
    else if e = 0 ∧ m = 0 then (if w.msb then 0x08 else 0x10)
    else if e = 0 then (if w.msb then 0x04 else 0x20)
    else if w.msb then 0x02 else 0x40) := by
  have hs : bit w.toNat 31 = w.msb := (bit_eq_testBit _ _).trans (BitVec.msb_eq_getLsbD_last w).symm
  have hq : bit w.toNat 22 = w.getLsbD 22 := bit_eq_testBit _ _
  have he : (w.extractLsb' 23 8).toNat = fld w.toNat 23 8 := BitVec.extractLsb'_toNat ..
  have hm : (w.extractLsb' 0 23).toNat = fld w.toNat 0 23 := BitVec.extractLsb'_toNat ..
  simp only [fclassW, hs, hq, he, hm]
  generalize fld w.toNat 23 8 = e
  generalize fld w.toNat 0 23 = m
  by_cases h255 : e = 255
  · subst h255
    by_cases h0 : m = 0
    · cases w.msb <;> simp [h0]
    · cases w.getLsbD 22 <;> simp [h0]
  · by_cases h0 : e = 0
    · by_cases hm0 : m = 0
      · cases w.msb <;> simp [h0, hm0]
      · cases w.msb <;> simp [h0, hm0]
    · cases w.msb <;> simp [h0, h255]

/-! The order of values (R223, R225). -/

theorem lt_fin_iff_scaled_min (x y : Bool) (m n : Nat) (d e : Int) : (FV.fin x m d).lt (.fin y n e) = true
    ↔ scaled x m d (-min d e) < scaled y n e (-min d e) := decide_eq_true_iff

/-- Finite values compare as integers over any power of two that leaves integers. -/
theorem lt_fin_iff {x y : Bool} {m n : Nat} {d e k : Int} (hd : 0 ≤ d + k) (he : 0 ≤ e + k) :
    (FV.fin x m d).lt (.fin y n e) = true ↔ scaled x m d k < scaled y n e k := by
  rw [lt_fin_iff_scaled_min, scaled_eq_mul (k := k) x m (min_le_left d e) (by omega),
    scaled_eq_mul (k := k) y n (min_le_right d e) (by omega), mul_lt_mul_iff_left₀ (by positivity)]

theorem FV.lt_eq_false_of_gt {u v : FV} (h : u.lt v = true) : v.lt u = false := by
  rw [← Bool.not_eq_true]
  intro h'
  cases u with
  | nan s => cases h
  | inf x =>
    cases v with
    | nan s => cases h'
    | inf y => cases x <;> cases y <;> simp [FV.lt] at h h'
    | fin y n e => cases x <;> simp [FV.lt] at h h'
  | fin x m d =>
    cases v with
    | nan s => cases h'
    | inf y => cases y <;> simp [FV.lt] at h h'
    | fin y n e =>
      have hd : 0 ≤ d + -min d e := by omega
      have he : 0 ≤ e + -min d e := by omega
      exact lt_asymm ((lt_fin_iff hd he).mp h) ((lt_fin_iff he hd).mp h')

theorem FV.lt_eq_false_of_isZero {u v : FV} (hu : u.isZero = true) (hv : v.isZero = true) : u.lt v = false := by
  obtain ⟨x, d, rfl⟩ := isZero_iff.mp hu
  obtain ⟨y, e, rfl⟩ := isZero_iff.mp hv
  simp [FV.lt]

theorem FV.eq_iff (u v : FV) :
    u.eq v = true ↔ u.isNan = false ∧ v.isNan = false ∧ u.lt v = false ∧ v.lt u = false := by
  simp [FV.eq, and_assoc]

/-- `u` stands before `v` in the order of R223: below it, or −0 before +0. -/
def FV.Before (u v : FV) : Prop :=
  u.lt v = true ∨ (u.isZero = true ∧ v.isZero = true ∧ u.sign = true ∧ v.sign = false)

theorem FV.Before.asymm {u v : FV} (h : u.Before v) : ¬v.Before u := by
  rintro (h' | ⟨hv, hu, hs, -⟩)
  · rcases h with h | ⟨hu, hv, -⟩
    · exact Bool.false_ne_true ((FV.lt_eq_false_of_gt h).symm.trans h')
    · exact Bool.false_ne_true ((FV.lt_eq_false_of_isZero hv hu).symm.trans h')
  · rcases h with h | ⟨-, -, -, hs'⟩
    · exact Bool.false_ne_true ((FV.lt_eq_false_of_isZero hu hv).symm.trans h)
    · exact Bool.false_ne_true (hs'.symm.trans hs)

theorem FV.before_iff {u v : FV} :
    u.Before v ↔ (u.lt v || (u.isZero && v.isZero && u.sign && !v.sign)) = true := by
  simp [FV.Before, and_assoc]

/-! Minimum and maximum (R223). -/

/-- A code as an operand keeps it: DAZ leaves the sign of a subnormal (R106). -/
def FF.kept (f : FF) (daz : Bool) (c : Nat) : Nat :=
  if daz = true ∧ c / 2 ^ f.mbits % 2 ^ f.ebits = 0 then c / 2 ^ (f.width - 1) % 2 * 2 ^ (f.width - 1) else c % 2 ^ f.width

theorem fld_eq_div_mod (c lo w : Nat) : fld c lo w = c / 2 ^ lo % 2 ^ w := by
  rw [fld, Nat.shiftRight_eq_div_pow]

theorem bit_ite_eq (c k P : Nat) : (if bit c k then P else 0) = c / 2 ^ k % 2 * P := by
  rw [bit, fld_eq_div_mod, Nat.pow_one]
  rcases Nat.mod_two_eq_zero_or_one (c / 2 ^ k) with h | h <;> simp [h]

/-- A code of a format by its three fields (R91). -/
theorem mod_two_pow_width (f : FF) (c : Nat) : c % 2 ^ f.width = c % 2 ^ f.mbits + c / 2 ^ f.mbits % 2 ^ f.ebits * 2 ^ f.mbits
    + c / 2 ^ (f.width - 1) % 2 * 2 ^ (f.width - 1) := by
  have hw : f.width = f.mbits + f.ebits + 1 := by rw [FF.width]; omega
  rw [hw, Nat.add_sub_cancel, Nat.pow_succ, Nat.mod_mul, Nat.pow_add, Nat.mod_mul]
  ring

theorem decode_of_wide {f : FF} (hf : f.wide = true) (c : Nat) : f.decode c
    = if fld c f.mbits f.ebits = 2 ^ f.ebits - 1 then
        (if fld c 0 f.mbits = 0 then .inf (bit c (f.width - 1)) else .nan (!(bit c (f.mbits - 1))))
      else if fld c f.mbits f.ebits = 0 then .fin (bit c (f.width - 1)) (fld c 0 f.mbits) (1 - f.bias - f.mbits)
      else .fin (bit c (f.width - 1)) (fld c 0 f.mbits + 2 ^ f.mbits) ((fld c f.mbits f.ebits : Int) - f.bias - f.mbits) := by
  cases f with
  | fp32 | fp16 | bf16 => rfl
  | e5m2 | e4m3 | e2m1 => cases hf

/-- A code that decodes to a zero has only its sign. -/
theorem decode_isZero {f : FF} (hf : f.wide = true) {c : Nat} (h : (f.decode c).isZero = true) :
    (if (f.decode c).sign then 2 ^ (f.width - 1) else 0) = c % 2 ^ f.width := by
  rw [decode_of_wide hf] at h ⊢
  split at h
  · split at h <;> cases h
  · next hmax =>
    rw [if_neg hmax]
    split at h
    · next he =>
      obtain ⟨n, e, hz⟩ := isZero_iff.mp h
      have hm : fld c 0 f.mbits = 0 := by
        injection hz
      rw [if_pos he, mod_two_pow_width]
      rw [fld_eq_div_mod, pow_zero, Nat.div_one] at hm
      rw [fld_eq_div_mod] at he
      rw [hm, he, Nat.zero_mul, Nat.zero_add]
      exact bit_ite_eq ..
    · obtain ⟨n, e, hz⟩ := isZero_iff.mp h
      injection hz with _ hm
      exact absurd hm (Nat.ne_of_gt (Nat.lt_add_left _ (Nat.two_pow_pos _)))

/-- A zero operand's sign alone, any other operand's code. -/
theorem kept_eq {f : FF} (hf : f.wide = true) (daz : Bool) (c : Nat) : (if (f.operand daz c).isZero then
    (if (f.operand daz c).sign then 2 ^ (f.width - 1) else 0) else c % 2 ^ f.width) = f.kept daz c := by
  have hd : (daz && f.wide && fld c f.mbits f.ebits == 0) = true ↔ daz = true ∧ c / 2 ^ f.mbits % 2 ^ f.ebits = 0 := by
    rw [hf, fld_eq_div_mod, Bool.and_true, Bool.and_eq_true, beq_iff_eq]
  unfold FF.operand FF.kept
  by_cases h : daz = true ∧ c / 2 ^ f.mbits % 2 ^ f.ebits = 0
  · rw [if_pos (hd.mpr h), if_pos h]
    exact (if_pos rfl).trans (bit_ite_eq ..)
  · rw [if_neg (mt hd.mp h), if_neg h]
    split
    · next hz => exact decode_isZero hf hz
    · rfl

/-- Which operand a minimum or a maximum delivers, and its flags. -/
theorem minmaxF_eq {f : FF} (hf : f.wide = true) (daz isMax nanWins : Bool) (p q : Nat) :
    minmaxF f daz isMax nanWins p q = (let a := f.operand daz p
      let b := f.operand daz q
      (if a.isNan || b.isNan then
        if nanWins || (a.isNan && b.isNan) then f.nanCode else if a.isNan then f.kept daz q else f.kept daz p
      else if (a.lt b || (a.isZero && b.isZero && a.sign && !b.sign)) != isMax then f.kept daz p else f.kept daz q,
        nanFlags a b)) := by
  simp only [minmaxF, kept_eq hf]
  generalize f.operand daz p = a
  generalize f.operand daz q = b
  by_cases hn : (a.isNan || b.isNan) = true
  · rw [if_pos hn, if_pos hn]
    simp only [apply_ite (·, nanFlags a b)]
  · rw [if_neg hn, if_neg hn]

section
variable {f : FF} {daz isMax nanWins : Bool} {p q : Nat}

theorem minmaxF_eq_nanCode (hf : f.wide = true) (h : (f.operand daz p).isNan = true ∧ (f.operand daz q).isNan = true
    ∨ ((f.operand daz p).isNan = true ∨ (f.operand daz q).isNan = true) ∧ nanWins = true) :
    (minmaxF f daz isMax nanWins p q).1 = f.nanCode := by
  rw [minmaxF_eq hf]
  rcases h with ⟨ha, hb⟩ | ⟨ha | hb, hw⟩
  · simp [ha, hb]
  · simp [ha, hw]
  · simp [hb, hw]

/-- A single NaN gives way (R223). -/
theorem minmaxF_of_left_nan (hf : f.wide = true)
    (ha : (f.operand daz p).isNan = true) (hb : (f.operand daz q).isNan = false) :
    (minmaxF f daz isMax false p q).1 = f.kept daz q := by
  simp [minmaxF_eq hf, ha, hb]

theorem minmaxF_of_right_nan (hf : f.wide = true)
    (ha : (f.operand daz p).isNan = false) (hb : (f.operand daz q).isNan = true) :
    (minmaxF f daz isMax false p q).1 = f.kept daz p := by
  simp [minmaxF_eq hf, ha, hb]

/-- Without a NaN, the operand that stands first is the minimum and the other one the maximum (R223). -/
theorem minmaxF_of_numbers (hf : f.wide = true) (ha : (f.operand daz p).isNan = false) (hb : (f.operand daz q).isNan = false)
    {less : Bool} (h : (f.operand daz p).Before (f.operand daz q) ↔ less = true) :
    (minmaxF f daz isMax nanWins p q).1 = if less != isMax then f.kept daz p else f.kept daz q := by
  rw [minmaxF_eq hf, ← Bool.eq_iff_iff.mpr (FV.before_iff.symm.trans h)]
  simp [ha, hb]

theorem minmaxF_of_before (hf : f.wide = true) (ha : (f.operand daz p).isNan = false) (hb : (f.operand daz q).isNan = false)
    (h : (f.operand daz p).Before (f.operand daz q)) :
    (minmaxF f daz isMax nanWins p q).1 = if isMax then f.kept daz q else f.kept daz p := by
  rw [minmaxF_of_numbers hf ha hb (iff_of_true h rfl)]
  cases isMax <;> rfl

theorem minmaxF_of_not_before (hf : f.wide = true) (ha : (f.operand daz p).isNan = false)
    (hb : (f.operand daz q).isNan = false) (h : ¬(f.operand daz p).Before (f.operand daz q)) :
    (minmaxF f daz isMax nanWins p q).1 = if isMax then f.kept daz p else f.kept daz q := by
  rw [minmaxF_of_numbers hf ha hb (iff_of_false h Bool.false_ne_true)]
  cases isMax <;> rfl

/-- The minimum or maximum of two numbers is one of them. -/
theorem minmaxF_eq_or_eq (hf : f.wide = true) (ha : (f.operand daz p).isNan = false) (hb : (f.operand daz q).isNan = false) :
    (minmaxF f daz isMax nanWins p q).1 = f.kept daz p ∨ (minmaxF f daz isMax nanWins p q).1 = f.kept daz q := by
  rw [minmaxF_of_numbers hf ha hb FV.before_iff]
  exact ite_eq_or_eq ..

end

/-! Float compares (R225). -/

theorem floatCompares_of {i : Instr} {p : BitVec 3} {a b : Reg} {quiet : Bool} {f : FV → FV → Bool}
    (h : ∀ s, exec i s = issueG (Instr.sig i) s (fun x => x.fcmp p a b quiet f)) : FloatCompares i p a b quiet f :=
  setsPred_of (fun _ l hl => getLsbD_maskWhere _ (mem_lanes.mp hl).1 (lanesOf_lt _ _ l hl)) h

theorem setsHalves_of {i : Instr} {t : FF} {d a b : Reg} {isMax : Bool}
    (h : ∀ s, exec i s = issueG (Instr.sig i) s (fun x => x.mm2 t d a b isMax)) :
    SetsFlags i d (fun x l =>
      let r (j : Nat) : Nat × Nat := minmaxF t x.g.daz isMax false ((x.g.rd a l).extractLsb' (16 * j) 16).toNat
        ((x.g.rd b l).extractLsb' (16 * j) 16).toNat
      (BitVec.ofNat 32 ((r 0).1 + 2 ^ 16 * (r 1).1), (r 0).2 ||| (r 1).2)) := by
  refine setsFlags_of (fun x l => ?_) h
  simp only [toNat_element]
  rfl

/-- Settles O13: each form by its meaning, minimum and maximum by the order `FV.Before`. -/
theorem floatSelects : Obligations.FloatSelects := by
  unfold Obligations.FloatSelects
  refine ⟨fun d a b => ⟨fun i isMax nanWins hi => ?_, fun i t isMax hi => ?_, ?_, ?_, ?_⟩,
    fun p a b => ⟨?_, ?_, ?_, ?_, ?_⟩, fun f hf daz isMax nanWins p q => ?_,
    fun x y m n d e k => ⟨rfl, rfl, rfl, lt_fin_iff, FV.eq_iff⟩⟩
  · simp only [List.mem_cons, Prod.mk.injEq, List.not_mem_nil, or_false] at hi
    rcases hi with ⟨rfl, rfl, rfl⟩ | ⟨rfl, rfl, rfl⟩ | ⟨rfl, rfl, rfl⟩ | ⟨rfl, rfl, rfl⟩ <;>
      exact setsFlags_of (fun _ _ => rfl) fun _ => rfl
  · simp only [List.mem_cons, Prod.mk.injEq, List.not_mem_nil, or_false] at hi
    rcases hi with ⟨rfl, rfl, rfl⟩ | ⟨rfl, rfl, rfl⟩ | ⟨rfl, rfl, rfl⟩ | ⟨rfl, rfl, rfl⟩ <;>
      exact setsHalves_of fun _ => rfl
  · exact setsUn_of (fun _ => rfl) fabs_eq
  · exact setsUn_of (fun _ => rfl) fneg_eq
  · exact setsUn_of (fun _ => rfl) fclassW_eq
  · exact floatCompares_of fun _ => rfl
  · exact floatCompares_of fun _ => rfl
  · exact floatCompares_of fun _ => rfl
  · exact floatCompares_of fun _ => rfl
  · exact floatCompares_of fun _ => rfl
  · have hw : f.wide = true := by
      simp only [List.mem_cons, List.not_mem_nil, or_false] at hf
      rcases hf with rfl | rfl | rfl <;> rfl
    intro a b kept before r
    exact ⟨congrArg Prod.snd (minmaxF_eq hw ..), minmaxF_eq_nanCode hw,
      fun hn ha hb => by subst hn; exact minmaxF_of_left_nan hw ha hb,
      fun hn ha hb => by subst hn; exact minmaxF_of_right_nan hw ha hb,
      fun ha hb => ⟨minmaxF_eq_or_eq hw ha hb, minmaxF_of_before hw ha hb,
        fun h => minmaxF_of_not_before hw ha hb (FV.Before.asymm h)⟩⟩

end Sys2Proof.Machine
end

section
/-! What rounding delivers for exact magnitudes, and how near it comes to the others (R103, R106). -/
namespace Sys2Proof.Machine

section
variable {f : FF} {rm : RM} {satf ftz neg : Bool} {x d c : Nat} {r : Nat × Nat}

/-- A magnitude that has a code rounds to that code. -/
theorem RoundsTo.code_of_exact (h : RoundsTo f rm satf ftz neg (f.mag c * d) d r) (hc : c ≤ f.maxCode) :
    (IsTiny f rm neg (f.mag c * d) d → ftz = true → f.wide = true →
      r = (if neg then 2 ^ (f.width - 1) else 0, fUNF + fINX))
    ∧ (¬(IsTiny f rm neg (f.mag c * d) d ∧ ftz = true ∧ f.wide = true) →
      r = ((if neg then 2 ^ (f.width - 1) else 0) + c, 0)) := by
  obtain ⟨c', up, hl, hh, hup, hdir, -, hflush, hkept⟩ := h
  have hd : 0 < d := Nat.pos_of_ne_zero (by rintro rfl; exact absurd hh (by simp))
  have h1 : c' ≤ c := (mag_strictMono f).le_iff_le.mp (Nat.le_of_mul_le_mul_right hl hd)
  have h2 : c < c' + 1 := (mag_strictMono f).lt_iff_lt.mp (Nat.lt_of_mul_lt_mul_right hh)
  obtain rfl : c' = c := by omega
  have h0 : up = 0 := by
    have : up ≠ 1 := fun h => (hdir.mp h).1 rfl
    omega
  rw [h0, Nat.add_zero] at hflush hkept
  exact ⟨hflush hc, fun hn => Prod.ext (hkept hc hn).1 ((hkept hc hn).2.1 rfl)⟩

theorem two_pow_le_mag (hc : 2 ^ f.mbits ≤ c) : 2 ^ f.mbits ≤ f.mag c := by
  rw [FF.mag, if_neg (Nat.not_lt.mpr hc)]
  exact (Nat.le_add_right _ _).trans (Nat.le_mul_of_pos_right _ (Nat.two_pow_pos _))

theorem RoundsTo.eq_of_normal (h : RoundsTo f rm satf ftz neg (f.mag c * d) d r) (hd : 0 < d) (hc : c ≤ f.maxCode)
    (hn : 2 ^ f.mbits ≤ c) : r = ((if neg then 2 ^ (f.width - 1) else 0) + c, 0) := by
  refine (h.code_of_exact hc).2 fun ht => ?_
  refine not_isTiny_of_le hd ?_ ht.1
  rw [Nat.mul_comm d]
  exact Nat.mul_le_mul_right d (two_pow_le_mag hn)

theorem RoundsTo.eq_of_subnormal (h : RoundsTo f rm satf ftz neg (f.mag c * d) d r) (hc : c < 2 ^ f.mbits)
    (hm : 2 ^ f.mbits ≤ f.maxCode) (hw : f.wide = true) : r = if ftz = true then
      (if neg then 2 ^ (f.width - 1) else 0, fUNF + fINX) else ((if neg then 2 ^ (f.width - 1) else 0) + c, 0) := by
  obtain ⟨h1, h2⟩ := h.code_of_exact (Nat.le_of_lt (hc.trans_le hm))
  split
  · next hf =>
    refine h1 (.inl ?_) hf hw
    rw [FF.mag, if_pos hc, ← Nat.mul_assoc, Nat.pow_succ]
    exact Nat.mul_le_mul_right d (by omega)
  · next hf => exact h2 fun h => hf h.2.1

/-- The code of a power of two (R91). -/
theorem mag_two_pow (f : FF) (j : Nat) : f.mag ((j + 1) * 2 ^ f.mbits) = 2 ^ (f.mbits + j) := by
  rw [Nat.add_one_mul, mag_of_parts f (Nat.pow_le_pow_right (by decide) (Nat.le_succ _)) (.inr le_rfl), Nat.pow_add]

end

/-- A power of two of FP32's normal range is exact. -/
theorem roundFV_two_pow (ftz n : Bool) (t : Nat) {e : Int} (h1 : -126 ≤ t + e) (h2 : t + e ≤ 127) :
    roundFV .fp32 .rne false ftz (.fin n (2 ^ t) e) = ((if n then 2 ^ 31 else 0) + (127 + (t + e)).toNat * 2 ^ 23, 0) := by
  obtain ⟨j, hj⟩ := Int.eq_ofNat_of_zero_le (show 0 ≤ t + e + 126 by omega)
  have hcode : (127 + (t + e)).toNat = j + 1 := by omega
  have hu : FF.fp32.unit = -149 := rfl
  have h := rounds_roundFin .fp32 .rne false ftz n e (Nat.two_pow_pos t).ne'
  have hx : 2 ^ t * 2 ^ (e - FF.fp32.unit).toNat = FF.fp32.mag ((j + 1) * 2 ^ 23) * 2 ^ (FF.fp32.unit - e).toNat := by
    rw [show FF.fp32.mag ((j + 1) * 2 ^ 23) = _ from mag_two_pow .fp32 j, ← Nat.pow_add, ← Nat.pow_add, hu]
    congr 1
    simp only [FF.mbits]
    omega
  rw [Rounds, hx] at h
  rw [roundFV_fin _ _ _ _ _ _ (Nat.two_pow_pos t).ne', hcode]
  refine h.eq_of_normal (Nat.two_pow_pos _) ?_ ?_
  · simp only [FF.maxCode]
    omega
  · simp only [FF.mbits]
    omega

/-- A power of two below it is exact too, but under FTZ (R106). -/
theorem roundFV_two_pow_subnormal (ftz n : Bool) {j : Nat} (hj : j < 23) :
    roundFV .fp32 .rne false ftz (.fin n 1 (j - 149))
      = if ftz then (if n then 2 ^ 31 else 0, fUNF + fINX) else ((if n then 2 ^ 31 else 0) + 2 ^ j, 0) := by
  have hu : FF.fp32.unit = -149 := rfl
  have hlt : 2 ^ j < 2 ^ FF.fp32.mbits := Nat.pow_lt_pow_right (by decide) hj
  have h := rounds_roundFin .fp32 .rne false ftz n ((j : Int) - 149) Nat.one_ne_zero
  have e1 : ((j : Int) - 149 - FF.fp32.unit).toNat = j := by omega
  have e2 : (FF.fp32.unit - ((j : Int) - 149)).toNat = 0 := by omega
  have hm : FF.fp32.mag (2 ^ j) = 2 ^ j := if_pos hlt
  rw [Rounds, e1, e2, Nat.one_mul, pow_zero, ← Nat.mul_one (2 ^ j), ← hm] at h
  rw [roundFV_fin _ _ _ _ _ _ Nat.one_ne_zero]
  exact h.eq_of_subnormal hlt (by decide) rfl

/-- A significand that rounding carries to the next exponent stands there (R91). -/
theorem normal_parts {q : Nat} (j : Nat) (hl : 2 ^ 23 ≤ q) (hh : q ≤ 2 ^ 24) : ∃ q' j',
    j * 2 ^ 23 + q = j' * 2 ^ 23 + q' ∧ 2 ^ 23 ≤ q' ∧ q' < 2 ^ 24 ∧ q' * 2 ^ j' = q * 2 ^ j ∧ j ≤ j' := by
  rcases Nat.eq_or_lt_of_le hh with rfl | hlt
  · exact ⟨2 ^ 23, j + 1, by omega, by decide, by decide, by rw [Nat.pow_succ]; ring, Nat.le_succ j⟩
  · exact ⟨q, j, rfl, hl, hlt, rfl, le_rfl⟩

theorem decode_normal {q j : Nat} (hl : 2 ^ 23 ≤ q) (hh : q < 2 ^ 24) (hj : j < 254) :
    FF.fp32.decode (j * 2 ^ 23 + q) = .fin false q (j - 149) := by
  have h := decode_signed .fp32 false (c := j * 2 ^ 23 + q) (by simp only [FF.maxCode]; omega)
  have hd : (j * 2 ^ 23 + q) / 2 ^ 23 = j + 1 := by omega
  have hm : (j * 2 ^ 23 + q) % 2 ^ 23 + 2 ^ 23 = q := by omega
  simp only [FF.mbits, hd, hm] at h
  simp only [Bool.false_eq_true, if_false, Nat.zero_add, Nat.succ_ne_zero] at h
  rw [h]
  congr 1
  have hb : FF.fp32.bias = 127 := rfl
  omega

theorem parts_le_maxCode {q j : Nat} (hj : j ≤ 230) (hq : q ≤ 2 ^ 24) : j * 2 ^ 23 + q ≤ FF.fp32.maxCode := by
  simp only [FF.maxCode]
  omega

section
variable {ftz : Bool} {x d : Nat} {r : Nat × Nat}

/-- A value of FP32's normal range lies between two neighbouring significands, and rounds to one of them. -/
theorem RoundsTo.between (h : RoundsTo .fp32 .rne false ftz false x d r) (hd : 0 < d) (hl : d * 2 ^ 23 ≤ x)
    (hh : x ≤ 2 ^ 253 * d) : ∃ q j up : Nat, 2 ^ 23 ≤ q ∧ q + up ≤ 2 ^ 24 ∧ j ≤ 230
      ∧ r.1 = j * 2 ^ 23 + (q + up) ∧ up ≤ 1
      ∧ q * 2 ^ j * d ≤ x ∧ x < q * 2 ^ j * d + 2 ^ j * d
      ∧ (up = 1 ↔ q * 2 ^ j * d ≠ x ∧ GoesUp .rne false ((j * 2 ^ 23 + q) % 2 == 1) (q * 2 ^ j * d) x
        (q * 2 ^ j * d + 2 ^ j * d))
      ∧ (q * 2 ^ j * d ≠ x → r.2 = fINX) := by
  obtain ⟨c, up, hcl, hch, hup, hdir, -, -, hkept⟩ := h
  obtain ⟨j, q, rfl, hq, hjq⟩ := parts_of_code .fp32 c
  have hnotTiny : ¬IsTiny .fp32 .rne false x d := not_isTiny_of_le hd hl
  have hc0 : FF.fp32.mag (j * 2 ^ 23 + q) = q * 2 ^ j := mag_of_parts .fp32 (Nat.le_of_lt hq) hjq
  have hc1 : FF.fp32.mag (j * 2 ^ 23 + q + 1) = (q + 1) * 2 ^ j := by
    rw [Nat.add_assoc]
    exact mag_of_parts .fp32 hq (hjq.imp_right (Nat.le_succ_of_le ·))
  simp only [FF.mbits] at hq hjq hcl hch hdir hkept
  rw [hc1, hc0, Nat.add_one_mul, Nat.add_mul] at hdir
  rw [hc1, Nat.add_one_mul, Nat.add_mul] at hch
  rw [hc0] at hcl hkept
  have hq23 : 2 ^ 23 ≤ q := by
    rcases hjq with rfl | hq23
    · rw [pow_zero, Nat.mul_one, Nat.one_mul, ← Nat.add_one_mul] at hch
      exact Nat.lt_succ_iff.mp (Nat.lt_of_mul_lt_mul_right ((Nat.mul_comm d _ ▸ hl).trans_lt hch))
    · exact hq23
  have hj : j ≤ 230 := by
    have h1 : 2 ^ (23 + j) ≤ 2 ^ 253 := by
      rw [Nat.pow_add]
      exact (Nat.mul_le_mul_right _ hq23).trans (Nat.le_of_mul_le_mul_right (hcl.trans hh) hd)
    have := (Nat.pow_le_pow_iff_right (by decide : 1 < 2)).mp h1
    omega
  have hqup : q + up ≤ 2 ^ 24 := by omega
  obtain ⟨hcode, -, hinx, -⟩ := hkept (Nat.add_assoc .. ▸ parts_le_maxCode hj hqup) fun ht => hnotTiny ht.1
  simp only [Bool.false_eq_true, if_false, Nat.zero_add, Nat.add_assoc] at hcode
  exact ⟨q, j, up, hq23, hqup, hj, hcode, hup, hcl, hch, hdir, fun hne => hinx hne hnotTiny⟩

/-- A value of FP32's normal range rounds to a code whose value is within half its last place, and raises INX alone unless it
is exact. -/
theorem RoundsTo.nearest (h : RoundsTo .fp32 .rne false ftz false x d r) (hd : 0 < d) (hl : d * 2 ^ 23 ≤ x)
    (hh : x ≤ 2 ^ 253 * d) : ∃ q j : Nat, FF.fp32.decode r.1 = .fin false q (j - 149)
      ∧ 2 ^ 23 ≤ q ∧ q < 2 ^ 24 ∧ (2 * q - 1) * 2 ^ j * d ≤ 2 * x ∧ 2 * x ≤ (2 * q + 1) * 2 ^ j * d
      ∧ (q * 2 ^ j * d ≠ x → r.2 = fINX) := by
  obtain ⟨q, j, up, hq23, hqup, hj, hcode, hup, hcl, hch, hdir, hinx⟩ := h.between hd hl hh
  obtain ⟨q', j', hpq, hl', hh', hval, hjj⟩ := normal_parts j (Nat.le_add_right_of_le hq23) hqup
  rw [hpq] at hcode
  have hstep : 2 ^ j * d ≤ 2 ^ j' * d := Nat.mul_le_mul_right d (Nat.pow_le_pow_right (by decide) hjj)
  have hval' : q' * 2 ^ j' * d = q * 2 ^ j * d + up * (2 ^ j * d) := by rw [hval]; ring
  have e1 : (2 * q' - 1) * 2 ^ j' * d = 2 * (q' * 2 ^ j' * d) - 2 ^ j' * d := by
    rw [Nat.sub_mul, Nat.sub_mul, Nat.one_mul, Nat.mul_assoc 2, Nat.mul_assoc 2]
  have e2 : (2 * q' + 1) * 2 ^ j' * d = 2 * (q' * 2 ^ j' * d) + 2 ^ j' * d := by ring
  refine ⟨q', j', by rw [hcode]; exact decode_normal hl' hh' (by omega), hl', hh', ?_⟩
  rw [e1, e2, hval']
  generalize q * 2 ^ j * d = P at *
  generalize 2 ^ j * d = U at *
  obtain rfl | rfl : up = 0 ∨ up = 1 := by omega
  · have hle : 2 * x ≤ 2 * P + U := by
      by_contra hgt
      exact absurd (hdir.mpr ⟨by omega, .inl (by omega)⟩) (by decide)
    exact ⟨by omega, by omega, fun hne => hinx (by omega)⟩
  · obtain ⟨hne, hgoes⟩ := hdir.mp rfl
    have hge : 2 * P + U ≤ 2 * x := by
      rcases hgoes with h | ⟨h, -⟩ <;> omega
    exact ⟨by omega, by omega, fun _ => hinx hne⟩

end

end Sys2Proof.Machine
end

section
/-! Reciprocal square roots: the remainder of the root as a sticky bit (R227). -/
namespace Sys2Proof.Machine

theorem isqrtAux_eq_sqrt (n : Nat) {k r : Nat} (hl : r * r ≤ n) (hh : n < (r + 2 ^ k) * (r + 2 ^ k)) :
    isqrtAux n k r = Nat.sqrt n := by
  induction k generalizing r with
  | zero => exact Nat.eq_sqrt.mpr ⟨hl, hh⟩
  | succ k ih =>
    rw [Nat.pow_succ, Nat.mul_two, ← Nat.add_assoc] at hh
    rw [isqrtAux]
    split
    · next h => exact ih h hh
    · next h => exact ih hl (Nat.not_le.mp h)

theorem isqrt_eq_sqrt (n : Nat) : isqrt n = Nat.sqrt n := by
  refine isqrtAux_eq_sqrt n (Nat.zero_le _) ?_
  rw [Nat.zero_add, ← Nat.pow_add]
  exact Nat.lt_log2_self.trans_le (Nat.pow_le_pow_right (by decide) (by omega))

/-- The square root of N/b with one more bit, which tells whether a remainder was left. -/
def stickyRoot (N b : Nat) : Nat :=
  2 * isqrt (N / b) + if isqrt (N / b) * isqrt (N / b) * b = N then 0 else 1

section
variable {N b : Nat}

theorem le_isqrt_iff (hb : 0 < b) (t : Nat) : t ≤ isqrt (N / b) ↔ t * t * b ≤ N := by
  rw [isqrt_eq_sqrt, Nat.le_sqrt, Nat.le_div_iff_mul_le hb]

theorem two_mul_le_stickyRoot (hb : 0 < b) (t : Nat) : 2 * t ≤ stickyRoot N b ↔ t * t * b ≤ N := by
  rw [← le_isqrt_iff hb, stickyRoot]
  split <;> omega

theorem two_mul_lt_stickyRoot (hb : 0 < b) (t : Nat) : 2 * t < stickyRoot N b ↔ t * t * b < N := by
  have hle := le_isqrt_iff (N := N) hb t
  rcases Nat.lt_trichotomy t (isqrt (N / b)) with hlt | rfl | hgt
  · have h1 : (t + 1) * (t + 1) * b ≤ N := (le_isqrt_iff hb _).mp hlt
    have h2 : t * t * b < (t + 1) * (t + 1) * b :=
      Nat.mul_lt_mul_of_pos_right (Nat.mul_self_lt_mul_self (Nat.lt_succ_self t)) hb
    exact iff_of_true (by rw [stickyRoot]; omega) (h2.trans_le h1)
  · rw [stickyRoot]
    split <;> omega
  · exact iff_of_false (by rw [stickyRoot]; split <;> omega) (by omega)

theorem stickyRoot_le_two_mul (hb : 0 < b) (t : Nat) : stickyRoot N b ≤ 2 * t ↔ N ≤ t * t * b := by
  rw [← Nat.not_lt, two_mul_lt_stickyRoot hb, Nat.not_lt]

theorem stickyRoot_eq_two_mul (hb : 0 < b) (t : Nat) : stickyRoot N b = 2 * t ↔ t * t * b = N := by
  rw [Nat.le_antisymm_iff, Nat.le_antisymm_iff, stickyRoot_le_two_mul hb, two_mul_le_stickyRoot hb, and_comm]

end

/-- RSQ of m × 2^e over an even exponent. -/
theorem rsqF_fin (ftz : Bool) {m : Nat} (e : Int) (hm : m ≠ 0) : ∃ (t : Nat) (h : Int), t ≤ 1 ∧ e = 2 * h + t
    ∧ rsqF ftz (.fin false m e)
      = roundFV .fp32 .rne false ftz (.fin false (stickyRoot (2 ^ 160) (m * 2 ^ t)) (-h - 81)) := by
  by_cases he : e % 2 = 0
  · refine ⟨0, e / 2, by decide, by omega, (if_neg hm).trans ?_⟩
    simp only [he, if_true, pow_zero, Nat.mul_one]
    rfl
  · refine ⟨1, (e - 1) / 2, le_rfl, by omega, (if_neg hm).trans ?_⟩
    simp only [he, if_false, pow_one, Nat.mul_comm m]
    rfl

/-- RSQ of a power of four is exact. -/
theorem rsqF_two_pow (ftz : Bool) {k : Nat} {e : Int} (hk : k < 24) (h1 : -149 ≤ e) (h2 : e ≤ 104)
    (hke : ((k : Int) + e) % 2 = 0) :
    rsqF ftz (.fin false (2 ^ k) e) = ((127 - ((k : Int) + e) / 2).toNat * 2 ^ 23, 0) := by
  obtain ⟨t, h, ht, rfl, hr⟩ := rsqF_fin ftz e (Nat.two_pow_pos k).ne'
  obtain ⟨i, hi⟩ : ∃ i, k + t = 2 * i := ⟨(k + t) / 2, by omega⟩
  have hs : stickyRoot (2 ^ 160) (2 ^ k * 2 ^ t) = 2 ^ (81 - i) := by
    have h81 : 2 ^ (81 - i) = 2 * 2 ^ (80 - i) := by rw [← Nat.pow_succ']; congr 1; omega
    rw [h81, stickyRoot_eq_two_mul (Nat.mul_pos (Nat.two_pow_pos k) (Nat.two_pow_pos t))]
    simp only [← Nat.pow_add]
    congr 1
    omega
  rw [hr, hs, roundFV_two_pow ftz false (81 - i) (by omega) (by omega)]
  simp only [Bool.false_eq_true, if_false, Nat.zero_add]
  congr 3
  omega

/-- RSQ of an even power of two, by its code. -/
theorem rsqF_odd_code (ftz : Bool) {k : Nat} (hk : k ≤ 126) :
    rsqF ftz (FF.fp32.decode ((1 + 2 * k) * 2 ^ 23)) = ((190 - k) * 2 ^ 23, 0) := by
  have hc : (1 + 2 * k) * 2 ^ 23 = 2 * k * 2 ^ 23 + 2 ^ 23 := by ring
  have he : (127 - (((23 : Nat) : Int) + ((2 * k : Nat) - 149)) / 2).toNat = 190 - k := by omega
  rw [hc, decode_normal (by decide) (by decide) (by omega), rsqF_two_pow ftz (by decide) (by omega) (by omega) (by omega), he]

/-- Where a square times m × 2^t is an even power of two, m is a power of two, of the parity of t. -/
theorem two_pow_of_sq_mul {a m t n : Nat} (h : a * a * (m * 2 ^ t) = 2 ^ (2 * n)) : ∃ k, m = 2 ^ k ∧ (k + t) % 2 = 0 := by
  have hdvd {c : Nat} (hc : c ∣ 2 ^ (2 * n)) : ∃ i, c = 2 ^ i := by
    obtain ⟨i, -, hi⟩ := (Nat.dvd_prime_pow Nat.prime_two).mp hc
    exact ⟨i, hi⟩
  obtain ⟨i, rfl⟩ := hdvd (h ▸ ⟨a * (m * 2 ^ t), by ring⟩ : a ∣ _)
  obtain ⟨k, rfl⟩ := hdvd (h ▸ ⟨2 ^ i * 2 ^ i * 2 ^ t, by ring⟩ : m ∣ _)
  refine ⟨k, rfl, ?_⟩
  simp only [← Nat.pow_add] at h
  have := Nat.pow_right_injective (le_refl 2) h
  omega

/-- An odd multiple of 2^(w − 149), of 69 bits or more, rounds to the nearest significand and is inexact. -/
theorem roundFV_of_odd (ftz : Bool) {S w : Nat} (hl : 2 ^ 68 ≤ S) (hh : S ≤ 2 ^ 81) (hw : w ≤ 172)
    (hodd : ∀ a, S ≠ 2 * a) : ∃ q y : Nat,
      FF.fp32.decode (roundFV .fp32 .rne false ftz (.fin false S (w - 149))).1 = .fin false q ((w + 2 + y : Nat) - 149)
      ∧ 2 ^ 23 ≤ q ∧ 2 * ((2 * q - 1) * 2 ^ y) ≤ S ∧ S ≤ 2 * ((2 * q + 1) * 2 ^ y)
      ∧ (roundFV .fp32 .rne false ftz (.fin false S (w - 149))).2 = fINX := by
  have hS : S ≠ 0 := (Nat.lt_of_lt_of_le (Nat.two_pow_pos 68) hl).ne'
  have hu : FF.fp32.unit = -149 := rfl
  have e1 : ((w : Int) - 149 - FF.fp32.unit).toNat = w := by omega
  have e2 : (FF.fp32.unit - ((w : Int) - 149)).toNat = 0 := by omega
  have h := rounds_roundFin .fp32 .rne false ftz false ((w : Int) - 149) hS
  rw [Rounds, e1, e2, pow_zero] at h
  rw [roundFV_fin _ _ _ _ _ _ hS]
  have hx : 1 * 2 ^ 23 ≤ S * 2 ^ w :=
    Nat.mul_comm 1 _ ▸ Nat.mul_le_mul (le_trans (by decide) hl) (Nat.two_pow_pos w)
  have hx' : S * 2 ^ w ≤ 2 ^ 253 * 1 := by
    refine (Nat.mul_le_mul hh (Nat.pow_le_pow_right (by decide) hw)).trans ?_
    rw [← Nat.pow_add, Nat.mul_one]
  obtain ⟨q, j, hdec, hq, hq24, hlo, hhi, hinx⟩ := h.nearest Nat.one_pos hx hx'
  rw [Nat.mul_one] at hlo hhi hinx
  have hj : w + 2 ≤ j := by
    have hc : 2 ^ (69 + w) < 2 ^ (25 + j) :=
      calc 2 ^ (69 + w) = 2 * (2 ^ 68 * 2 ^ w) := by rw [Nat.pow_add]; ring
        _ ≤ 2 * (S * 2 ^ w) := Nat.mul_le_mul_left 2 (Nat.mul_le_mul_right _ hl)
        _ ≤ (2 * q + 1) * 2 ^ j := hhi
        _ < 2 ^ 25 * 2 ^ j := Nat.mul_lt_mul_of_pos_right (by omega) (Nat.two_pow_pos j)
        _ = 2 ^ (25 + j) := (Nat.pow_add ..).symm
    have := (Nat.pow_lt_pow_iff_right (by decide : 1 < 2)).mp hc
    omega
  obtain ⟨y, rfl⟩ := Nat.exists_eq_add_of_le hj
  have hcut (c : Nat) : c * 2 ^ (w + 2 + y) = 2 * (c * 2 ^ y) * (2 * 2 ^ w) := by rw [Nat.pow_add, Nat.pow_add]; ring
  have hS2 : 2 * (S * 2 ^ w) = S * (2 * 2 ^ w) := by ring
  rw [hcut, hS2] at hlo hhi
  refine ⟨q, y, hdec, hq, Nat.le_of_mul_le_mul_right hlo (by positivity), Nat.le_of_mul_le_mul_right hhi (by positivity),
    hinx fun he => ?_⟩
  have he' : S * 2 ^ w = q * 2 ^ (y + 2) * 2 ^ w := by rw [← he, Nat.pow_add, Nat.pow_add, Nat.pow_add]; ring
  refine hodd (q * 2 ^ (y + 1)) ?_
  rw [Nat.eq_of_mul_eq_mul_right (Nat.two_pow_pos w) he', Nat.pow_succ]
  ring

/-- RSQ of another value is within half its last place of 1 ÷ √a, and inexact. -/
theorem rsqF_inexact (ftz : Bool) {m : Nat} {e : Int} (h0 : 0 < m) (hm : m < 2 ^ 24) (h1 : -149 ≤ e) (h2 : e ≤ 104)
    (hne : ∀ k : Nat, m = 2 ^ k → ((k : Int) + e) % 2 ≠ 0) : (rsqF ftz (.fin false m e)).2 = fINX
      ∧ ∃ (q : Nat) (x : Int), FF.fp32.decode (rsqF ftz (.fin false m e)).1 = .fin false q x ∧ 2 ^ 23 ≤ q
        ∧ ∀ k : Nat, 0 ≤ e + 2 * x - 2 + 2 * k →
          (2 * q - 1) ^ 2 * m * 2 ^ (e + 2 * x - 2 + 2 * k).toNat ≤ 2 ^ (2 * k)
          ∧ 2 ^ (2 * k) ≤ (2 * q + 1) ^ 2 * m * 2 ^ (e + 2 * x - 2 + 2 * k).toNat := by
  obtain ⟨t, h, ht, rfl, hr⟩ := rsqF_fin ftz e h0.ne'
  have hb : 0 < m * 2 ^ t := Nat.mul_pos h0 (Nat.two_pow_pos t)
  have hb26 : m * 2 ^ t ≤ 2 ^ 24 * 2 ^ 2 :=
    Nat.mul_le_mul (Nat.le_of_lt hm) (Nat.pow_le_pow_right (by decide) (ht.trans (by decide)))
  have hlo : 2 * 2 ^ 67 ≤ stickyRoot (2 ^ 160) (m * 2 ^ t) :=
    (two_mul_le_stickyRoot hb _).mpr (Nat.mul_le_mul_left _ hb26)
  have hhi : stickyRoot (2 ^ 160) (m * 2 ^ t) ≤ 2 * 2 ^ 80 :=
    (stickyRoot_le_two_mul hb _).mpr (Nat.le_mul_of_pos_right _ hb)
  have hodd (a : Nat) : stickyRoot (2 ^ 160) (m * 2 ^ t) ≠ 2 * a := fun hs => by
    obtain ⟨k, hk, hkt⟩ := two_pow_of_sq_mul (n := 80) ((stickyRoot_eq_two_mul hb a).mp hs)
    exact hne k hk (by omega)
  obtain ⟨w, hw⟩ := Int.eq_ofNat_of_zero_le (show 0 ≤ 68 - h by omega)
  have hexp : -h - 81 = (w : Int) - 149 := by omega
  obtain ⟨q, y, hdec, hq, hql, hqh, hinx⟩ := roundFV_of_odd ftz (w := w) hlo hhi (by omega) hodd
  rw [hr, hexp]
  refine ⟨hinx, q, _, hdec, hq, fun k hk => ?_⟩
  have hsq (c : Nat) : c * 2 ^ y * (c * 2 ^ y) * (m * 2 ^ t) = c ^ 2 * m * 2 ^ (2 * y + t) := by
    rw [Nat.pow_add, Nat.two_mul y, Nat.pow_add]
    ring
  rw [two_mul_le_stickyRoot hb, hsq, ← Nat.one_mul (2 ^ 160)] at hql
  rw [stickyRoot_le_two_mul hb, hsq, ← Nat.one_mul (2 ^ 160)] at hqh
  rw [← Nat.one_mul (2 ^ (2 * k))]
  exact ⟨(mul_two_pow_le_iff (by omega)).mp hql, (mul_two_pow_le_iff (by omega)).mp hqh⟩

end Sys2Proof.Machine
end

section
/-! Special functions: exact cases, ends of the range and flags (R226, R227). -/
namespace Sys2Proof.Machine

/-- The flags of an inexact result (R226). -/
theorem sfuInexact_flags (ftz neg : Bool) (code : Nat) : (sfuInexact ftz neg code).2 ∈ [fINX, fUNF + fINX] := by
  by_cases h : code < 0x00800000 <;> simp [sfuInexact, h]

theorem le_ilog2_add_iff {m : Nat} (hm : m ≠ 0) (k j : Nat) :
    (k : Int) ≤ (ilog2 m : Int) + -(j : Int) ↔ 2 ^ k * 2 ^ j ≤ m := by
  rw [← Nat.pow_add, ← Nat.le_log2 hm, ilog2]
  omega

/-! EXP2. -/

section
variable {n : Bool} {m j : Nat}

/-- EXP2's test for the ends of its range, of m ÷ 2^j. -/
theorem exp2F_range_iff (hm : m ≠ 0) :
    (decide (8 ≤ (ilog2 m : Int) + -(j : Int)) || (!n && decide (7 ≤ (ilog2 m : Int) + -(j : Int)))) = true
      ↔ (if n then 256 else 128) * 2 ^ j ≤ m := by
  have h8 : 8 ≤ (ilog2 m : Int) + -(j : Int) ↔ 256 * 2 ^ j ≤ m := le_ilog2_add_iff hm 8 j
  have h7 : 7 ≤ (ilog2 m : Int) + -(j : Int) ↔ 128 * 2 ^ j ≤ m := le_ilog2_add_iff hm 7 j
  rw [Bool.or_eq_true, Bool.and_eq_true, decide_eq_true_iff, decide_eq_true_iff, h8, h7]
  cases n
  · simp only [Bool.not_false, true_and, Bool.false_eq_true, if_false]
    omega
  · simp

/-- EXP2 of m ÷ 2^j from 128 on, or from 256 on below zero, leaves the range. -/
theorem exp2F_of_large (ftz : Bool) (h : (if n then 256 else 128) * 2 ^ j ≤ m) :
    exp2F ftz (.fin n m (-j)) = if n then (0, fUNF + fINX) else (0x7F800000, fOVF + fINX) := by
  have hm : m ≠ 0 := by
    rintro rfl
    cases n <;> simp at h
  refine (if_neg hm).trans ((if_pos ((exp2F_range_iff hm).mpr h)).trans ?_)
  cases n
  · rfl
  · cases ftz <;> rfl

/-- The integer part of m ÷ 2^j as EXP2 reads it, and whether there is no more. -/
theorem integer_part (m j : Nat) : (decide (0 ≤ -(j : Int)) || m % 2 ^ (-(-(j : Int))).toNat == 0) = (m % 2 ^ j == 0)
    ∧ (if 0 ≤ -(j : Int) then (m : Int) * 2 ^ (-(j : Int)).toNat else ((m >>> (-(-(j : Int))).toNat : Nat) : Int))
      = (m / 2 ^ j : Nat) := by
  rw [Int.neg_neg, Int.toNat_natCast, Nat.shiftRight_eq_div_pow]
  cases j with
  | zero => simp [Nat.mod_one]
  | succ j =>
    have hj : ¬0 ≤ -((j + 1 : Nat) : Int) := by omega
    rw [if_neg hj, decide_eq_false hj]
    exact ⟨rfl, rfl⟩

/-- EXP2 of m ÷ 2^j in between. -/
theorem exp2F_of_small (ftz : Bool) (hm : m ≠ 0) (h : m < (if n then 256 else 128) * 2 ^ j) :
    exp2F ftz (.fin n m (-j)) = (let i : Int := if n then -((m / 2 ^ j : Nat) : Int) else (m / 2 ^ j : Nat)
      if m % 2 ^ j = 0 ∧ -149 ≤ i then sfuExact ftz false 1 i
      else if n = true ∧ 150 * 2 ^ 23 ≤ scaleTo 23 m (-j) then sfuInexact ftz false 0
      else sfuInexact ftz false (ziv (exp2At n m (-j)) (precs 240))) := by
  obtain ⟨h1, h2⟩ := integer_part m j
  refine (if_neg hm).trans ((if_neg (mt (exp2F_range_iff hm).mp (Nat.not_le.mpr h))).trans ?_)
  dsimp only
  rw [h1, h2]
  simp only [Bool.and_eq_true, beq_iff_eq, decide_eq_true_iff]

/-- EXP2 of an integer of the range (R227). -/
theorem exp2F_of_int (ftz : Bool) {k : Nat} (hk : 1 ≤ k) (hn : k ≤ if n then 149 else 127) :
    exp2F ftz (.fin n (k * 2 ^ j) (-j)) = roundFV .fp32 .rne false ftz (.fin false 1 (if n then -(k : Int) else k)) := by
  have hp := Nat.two_pow_pos j
  have hlt : k < if n then 256 else 128 := hn.trans_lt (by cases n <;> decide)
  rw [exp2F_of_small ftz (Nat.mul_pos hk hp).ne' (Nat.mul_lt_mul_of_pos_right hlt hp), Nat.mul_div_cancel _ hp,
    Nat.mul_mod_left]
  refine if_pos ⟨rfl, ?_⟩
  cases n
  · exact le_trans (by decide) (Int.natCast_nonneg k)
  · exact Int.neg_le_neg (Int.ofNat_le.mpr hn)

theorem exp2F_of_pos_int (ftz : Bool) {k : Nat} (hk : 1 ≤ k) (hk' : k ≤ 127) :
    exp2F ftz (.fin false (k * 2 ^ j) (-j)) = ((127 + k) * 2 ^ 23, 0) := by
  have h := roundFV_two_pow ftz false 0 (e := k) (by omega) (by omega)
  have hc : (127 + (((0 : Nat) : Int) + k)).toNat = 127 + k := by omega
  rw [hc] at h
  rw [exp2F_of_int (n := false) ftz hk hk']
  simpa using h

theorem exp2F_of_neg_int (ftz : Bool) {k : Nat} (hk : 1 ≤ k) (hk' : k ≤ 126) :
    exp2F ftz (.fin true (k * 2 ^ j) (-j)) = ((127 - k) * 2 ^ 23, 0) := by
  have h := roundFV_two_pow ftz false 0 (e := -k) (by omega) (by omega)
  have hc : (127 + (((0 : Nat) : Int) + -k)).toNat = 127 - k := by omega
  rw [hc] at h
  rw [exp2F_of_int (n := true) ftz hk (hk'.trans (by decide))]
  simpa using h

theorem exp2F_of_neg_int_subnormal (ftz : Bool) {k : Nat} (hk : 127 ≤ k) (hk' : k ≤ 149) :
    exp2F ftz (.fin true (k * 2 ^ j) (-j)) = if ftz then (0, fUNF + fINX) else (2 ^ (149 - k), 0) := by
  have h := roundFV_two_pow_subnormal ftz false (j := 149 - k) (by omega)
  have he : ((149 - k : Nat) : Int) - 149 = -k := by omega
  rw [he] at h
  rw [exp2F_of_int (n := true) ftz (by omega) hk']
  simpa using h

/-- EXP2 of a value that is no integer is inexact (R226). -/
theorem exp2F_of_fraction (ftz : Bool) (hm : m % 2 ^ j ≠ 0) (hn : n = true ∨ m < 128 * 2 ^ j) :
    (exp2F ftz (.fin n m (-j))).2 ∈ [fINX, fUNF + fINX] := by
  rcases Nat.lt_or_ge m ((if n then 256 else 128) * 2 ^ j) with h | h
  · rw [exp2F_of_small ftz (fun h0 => hm (by rw [h0, Nat.zero_mod])) h]
    dsimp only
    rw [if_neg fun h => hm h.1]
    split
    · exact sfuInexact_flags ..
    · exact sfuInexact_flags ..
  · obtain rfl : n = true := by
      cases n
      · exact absurd (hn.resolve_left nofun) (Nat.not_lt.mpr h)
      · rfl
    rw [exp2F_of_large ftz h]
    simp

theorem le_scaleTo {p c : Nat} (h : c * 2 ^ j ≤ m) : c * 2 ^ p ≤ scaleTo p m (-j) := by
  rw [scaleTo]
  split
  · have hp : p = j + (-(j : Int) + p).toNat := by omega
    calc c * 2 ^ p = c * 2 ^ j * 2 ^ (-(j : Int) + p).toNat := by rw [Nat.mul_assoc, ← Nat.pow_add, ← hp]
      _ ≤ m * 2 ^ (-(j : Int) + p).toNat := Nat.mul_le_mul_right _ h
  · have hj : p + (-(-(j : Int) + p)).toNat = j := by omega
    rw [Nat.shiftRight_eq_div_pow, Nat.le_div_iff_mul_le (Nat.two_pow_pos _), Nat.mul_assoc, ← Nat.pow_add, hj]
    exact h

/-- EXP2 of −150 or less is half the least subnormal or less, and goes to 0 (R227). -/
theorem exp2F_of_le_neg_150 (ftz : Bool) (h : 150 * 2 ^ j ≤ m) : exp2F ftz (.fin true m (-j)) = (0, fUNF + fINX) := by
  rcases Nat.lt_or_ge m (256 * 2 ^ j) with hlt | hge
  · have hp := Nat.two_pow_pos j
    have hdiv : 150 ≤ m / 2 ^ j := (Nat.le_div_iff_mul_le hp).mpr h
    have hi : ¬(m % 2 ^ j = 0 ∧ -149 ≤ -((m / 2 ^ j : Nat) : Int)) := by omega
    rw [exp2F_of_small (n := true) ftz (by omega) hlt]
    refine (if_neg hi).trans ((if_pos ⟨rfl, le_scaleTo h⟩).trans ?_)
    cases ftz <;> rfl
  · exact exp2F_of_large (n := true) ftz hge

end

/-! SINPI and COSPI: a position in halves, of which four make a turn. -/

theorem position_mod {h r : Nat} (q : Nat) (hr : r < h) : (q * h + r) % (4 * h) = q % 4 * h + r := by
  have e : q * h + r = (q % 4 * h + r) + 4 * h * (q / 4) := by
    conv_lhs => rw [← Nat.mod_add_div q 4]
    ring
  have hq : (q % 4 + 1) * h ≤ 4 * h := Nat.mul_le_mul_right h (Nat.mod_lt q (by decide))
  rw [e, Nat.add_mul_mod_self_left, Nat.mod_eq_of_lt]
  rw [Nat.add_one_mul] at hq
  omega

theorem position_next {h r : Nat} (q : Nat) (hr : r < h) :
    ((q * h + r) % (4 * h) + h) % (4 * h) = (q + 1) % 4 * h + r := by
  rw [Nat.mod_add_mod, ← position_mod (q + 1) hr]
  congr 1
  ring

section
variable {isCos : Bool} {m j q r : Nat}

theorem scaleTo_guard (m j : Nat) : scaleTo (j + 8) m (-(j : Int)) = m * 2 ^ 8 := by
  have h : -(j : Int) + (j + 8 : Nat) = 8 := by omega
  rw [scaleTo, h]
  rfl

/-- The sine and the cosine of m ÷ 2^j, at q halves and a rest r: COSPI is a half ahead. -/
theorem sincosPi_eq (ftz n : Bool) (ht : m * 2 ^ 8 = q * 2 ^ (j + 7) + r) (hr : r < 2 ^ (j + 7)) :
    ∃ code, sincosPi ftz isCos n m (-j) = (let qd := (q + isCos.toNat) % 4
      let neg := if isCos then decide (2 ≤ qd) else decide (2 ≤ qd) != n
      if r = 0 then
        if qd % 2 = 0 then (if isCos then 0 else if n then 2 ^ 31 else 0, 0)
        else ((if neg then 2 ^ 31 else 0) + 0x3F800000, 0)
      else sfuInexact ftz neg code) := by
  have hp : (max 0 (-(-(j : Int)))).toNat + 8 = j + 7 + 1 := by omega
  have hturn : 2 ^ (j + 7 + 1 + 1) = 4 * 2 ^ (j + 7) := by rw [Nat.pow_succ, Nat.pow_succ]; ring
  have hpos : (if isCos = true then (mod2 (j + 7 + 1) m (-j) + 2 ^ (j + 7)) % 2 ^ (j + 7 + 1 + 1)
      else mod2 (j + 7 + 1) m (-j)) = (q + isCos.toNat) % 4 * 2 ^ (j + 7) + r := by
    rw [mod2, scaleTo_guard, ht, hturn]
    cases isCos
    · exact position_mod q hr
    · exact position_next q hr
  have hdiv : ((q + isCos.toNat) % 4 * 2 ^ (j + 7) + r) / 2 ^ (j + 7) = (q + isCos.toNat) % 4 := by
    rw [Nat.mul_comm, Nat.mul_add_div (Nat.two_pow_pos _), Nat.div_eq_of_lt hr, Nat.add_zero]
  have hmod : ((q + isCos.toNat) % 4 * 2 ^ (j + 7) + r) % 2 ^ (j + 7) = r := by
    rw [Nat.mul_comm, Nat.mul_add_mod, Nat.mod_eq_of_lt hr]
  unfold sincosPi
  simp only [hp, Nat.add_sub_cancel, hpos, hdiv, hmod]
  exact ⟨_, rfl⟩

/-- At a whole number of halves the sine and the cosine are exact. -/
theorem sincosPi_of_halves (ftz n : Bool) (h : m * 2 = q * 2 ^ j) : sincosPi ftz isCos n m (-j)
    = (let qd := (q + isCos.toNat) % 4
      let neg := if isCos then decide (2 ≤ qd) else decide (2 ≤ qd) != n
      if qd % 2 = 0 then (if isCos then 0 else if n then 2 ^ 31 else 0, 0)
      else ((if neg then 2 ^ 31 else 0) + 0x3F800000, 0)) := by
  have ht : m * 2 ^ 8 = q * 2 ^ (j + 7) + 0 := by
    rw [Nat.add_zero, Nat.pow_add, ← Nat.mul_assoc, ← h]
    ring
  obtain ⟨code, hc⟩ := sincosPi_eq (isCos := isCos) ftz n ht (Nat.two_pow_pos _)
  exact hc

/-- Elsewhere they are inexact (R226). -/
theorem sincosPi_flags (ftz n : Bool) (h : m % 2 ^ j ≠ 0) :
    (sincosPi ftz isCos n m (-((j + 1 : Nat) : Int))).2 ∈ [fINX, fUNF + fINX] := by
  have ht : m * 2 ^ 8 = m / 2 ^ j * 2 ^ (j + 1 + 7) + m % 2 ^ j * 2 ^ 8 := by
    conv_lhs => rw [← Nat.div_add_mod' m (2 ^ j)]
    ring
  have hr : m % 2 ^ j * 2 ^ 8 < 2 ^ (j + 1 + 7) := by
    rw [Nat.add_assoc, Nat.pow_add]
    exact Nat.mul_lt_mul_of_pos_right (Nat.mod_lt m (Nat.two_pow_pos j)) (by decide)
  obtain ⟨code, hc⟩ := sincosPi_eq (isCos := isCos) ftz n ht hr
  rw [hc]
  dsimp only
  rw [if_neg (Nat.mul_ne_zero h (by decide))]
  exact sfuInexact_flags ..

end

/-- An integer and a half as a whole number of halves. -/
theorem odd_halves_mod (k : Nat) : (2 * k + 1) % 4 = if k % 2 = 1 then 3 else 1 := by
  split <;> omega

section
variable (ftz n : Bool) {k : Nat} (j : Nat)

theorem sinpiF_of_int (hk : 1 ≤ k) : sinpiF ftz (.fin n (k * 2 ^ j) (-j)) = (if n then 2 ^ 31 else 0, 0) := by
  refine (if_neg (Nat.mul_pos hk (Nat.two_pow_pos j)).ne').trans ?_
  rw [sincosPi_of_halves (q := 2 * k) ftz n (by ring)]
  exact if_pos (by simp only [Bool.toNat_false]; omega)

theorem cospiF_of_int (hk : 1 ≤ k) : cospiF ftz (.fin n (k * 2 ^ j) (-j))
    = ((if k % 2 = 1 then 2 ^ 31 else 0) + 0x3F800000, 0) := by
  refine (if_neg (Nat.mul_pos hk (Nat.two_pow_pos j)).ne').trans ?_
  rw [sincosPi_of_halves (q := 2 * k) ftz n (by ring)]
  simp only [Bool.toNat_true, odd_halves_mod]
  by_cases h : k % 2 = 1 <;> simp [h]

theorem sinpiF_of_half (k : Nat) : sinpiF ftz (.fin n ((2 * k + 1) * 2 ^ j) (-((j + 1 : Nat) : Int)))
    = ((if (k % 2 == 1) != n then 2 ^ 31 else 0) + 0x3F800000, 0) := by
  refine (if_neg (Nat.mul_pos (Nat.succ_pos _) (Nat.two_pow_pos j)).ne').trans ?_
  rw [sincosPi_of_halves (q := 2 * k + 1) ftz n (by ring)]
  simp only [Bool.toNat_false, Nat.add_zero, odd_halves_mod]
  by_cases h : k % 2 = 1
  · simp [h]
  · cases n <;> simp [h]

theorem cospiF_of_half (k : Nat) : cospiF ftz (.fin n ((2 * k + 1) * 2 ^ j) (-((j + 1 : Nat) : Int))) = (0, 0) := by
  refine (if_neg (Nat.mul_pos (Nat.succ_pos _) (Nat.two_pow_pos j)).ne').trans ?_
  rw [sincosPi_of_halves (q := 2 * k + 1) ftz n (by ring)]
  exact if_pos (by simp only [Bool.toNat_true]; omega)

end

theorem sinpiF_flags (ftz n : Bool) {m j : Nat} (h : m % 2 ^ j ≠ 0) :
    (sinpiF ftz (.fin n m (-((j + 1 : Nat) : Int)))).2 ∈ [fINX, fUNF + fINX] := by
  have hm : m ≠ 0 := fun h0 => h (by rw [h0, Nat.zero_mod])
  simp only [sinpiF, if_neg hm]
  exact sincosPi_flags ftz n h

theorem cospiF_flags (ftz n : Bool) {m j : Nat} (h : m % 2 ^ j ≠ 0) :
    (cospiF ftz (.fin n m (-((j + 1 : Nat) : Int)))).2 ∈ [fINX, fUNF + fINX] := by
  have hm : m ≠ 0 := fun h0 => h (by rw [h0, Nat.zero_mod])
  simp only [cospiF, if_neg hm]
  exact sincosPi_flags ftz n h

/-! TANH, SIGM and LOG2. -/

section
variable (ftz n : Bool) {m : Nat} (e : Int)

theorem tanhF_flags (hm : m ≠ 0) : (tanhF ftz (.fin n m e)).2 ∈ [fINX, fUNF + fINX] := by
  simp only [tanhF, if_neg hm]
  split
  · exact sfuInexact_flags ..
  · split
    · exact sfuInexact_flags ..
    · exact sfuInexact_flags ..

/-- TANH saturates (R227). -/
theorem tanhF_of_large {k : Nat} (j : Nat) (hk : 16 ≤ k) :
    tanhF ftz (.fin n (k * 2 ^ j) (-j)) = ((if n then 2 ^ 31 else 0) + 0x3F800000, fINX) := by
  have hm : k * 2 ^ j ≠ 0 := (Nat.mul_pos (by omega) (Nat.two_pow_pos j)).ne'
  have h4 : 4 ≤ (ilog2 (k * 2 ^ j) : Int) + -(j : Int) := (le_ilog2_add_iff hm 4 j).mpr (Nat.mul_le_mul_right _ hk)
  exact (if_neg hm).trans (if_pos h4)

theorem sigmF_flags (hm : m ≠ 0) : (sigmF ftz (.fin n m e)).2 ∈ [fINX, fUNF + fINX] := by
  simp only [sigmF, if_neg hm]
  split
  · exact sfuInexact_flags ..
  · split
    · exact sfuInexact_flags ..
    · exact sfuInexact_flags ..

theorem log2F_flags (hm : m ≠ 0) (h : ∀ k, m ≠ 2 ^ k) : (log2F ftz (.fin false m e)).2 ∈ [fINX, fUNF + fINX] := by
  simp only [log2F, if_neg hm, if_neg (h _)]
  exact sfuInexact_flags ..

theorem log2F_two_pow (k : Nat) : log2F ftz (.fin false (2 ^ k) e)
    = rounded .fp32 .rne ftz (.fin (decide ((k : Int) + e < 0)) ((k : Int) + e).natAbs 0, 0) := by
  have hl : ilog2 (2 ^ k) = k := Nat.log2_two_pow
  rw [rounded_exact]
  simp only [log2F, if_neg (Nat.two_pow_pos k).ne', hl]
  rfl

end

/-- A NaN gives the default NaN, with INV where it is signalling (R226). -/
theorem sfu_of_nan (rm : RM) (ftz n : Bool) : ∀ f ∈ [rcpF rm ftz, sqrtF rm ftz, rsqF ftz, exp2F ftz, log2F ftz,
    sinpiF ftz, cospiF ftz, tanhF ftz, sigmF ftz], f (.nan n) = (0x7FC00000, if n then fINV else 0) := by
  simp only [List.mem_cons, List.not_mem_nil, or_false]
  rintro f (rfl | rfl | h)
  · cases n <;> simp [rcpF, rounded, roundFV_nan, divX, nanFlags, FV.isSig, FF.nanCode]
  · cases n <;> simp [sqrtF, rounded, roundFV_nan, sqrtX, FF.nanCode]
  · rcases h with rfl | rfl | rfl | rfl | rfl | rfl | rfl <;> rfl

theorem setsSfu_of {i : Instr} {d a : Reg} {f : Iss → FV → Nat × Nat}
    (h : ∀ s, exec i s = issueG (Instr.sig i) s (fun x => x.sfu d a (f x))) : SetsSfu i d a f :=
  setsFlags_of (fun _ _ => rfl) h

/-- RCP and SQRT of zeros and infinities (R227). -/
theorem rcpF_sqrtF_special (rm : RM) (ftz n : Bool) (e : Int) :
    let sgn : Nat := if n then 2 ^ 31 else 0
    let nan : Nat × Nat := (0x7FC00000, fINV)
    rcpF rm ftz (.fin n 0 e) = (sgn + 0x7F800000, fDZ) ∧ rcpF rm ftz (.inf n) = (sgn, 0)
    ∧ sqrtF rm ftz (.fin n 0 e) = (sgn, 0) ∧ sqrtF rm ftz (.inf n) = (if n then nan else (0x7F800000, 0)) := by
  cases n <;> simp [rcpF, sqrtF, rounded, divX, sqrtX, roundFV, FF.width, FF.ebits, FF.mbits,
    FF.maxCode, FF.nanCode]

theorem sqrtF_negative (rm : RM) (ftz : Bool) {m : Nat} (e : Int) (hm : m ≠ 0) :
    sqrtF rm ftz (.fin true m e) = (0x7FC00000, fINV) := by
  simp [sqrtF, rounded, sqrtX, hm, roundFV_nan, FF.nanCode]

/-- Settles O14: each form by its meaning, RSQ by `rsqF_inexact`, the others by their exact cases, the ends of their range and
the flags of an inexact result. -/
theorem specialFunctions : Obligations.SpecialFunctions := by
  unfold Obligations.SpecialFunctions
  refine ⟨fun d a => ⟨setsSfu_of fun _ => rfl, setsSfu_of fun _ => rfl, setsSfu_of fun _ => rfl, setsSfu_of fun _ => rfl,
      setsSfu_of fun _ => rfl, setsSfu_of fun _ => rfl, setsSfu_of fun _ => rfl, setsSfu_of fun _ => rfl,
      setsSfu_of fun _ => rfl⟩,
    fun rm ftz n e => ?_, fun ftz n k j => ?_, fun ftz k hk => rsqF_odd_code ftz hk,
    fun ftz m e h0 hm h1 h2 => ⟨fun k hk he => ?_, rsqF_inexact ftz h0 hm h1 h2⟩⟩
  · intro sgn nan
    obtain ⟨hr0, hri, hs0, hsi⟩ := rcpF_sqrtF_special rm ftz n e
    refine ⟨sfu_of_nan rm ftz n, hr0, hri, fun _ => rfl, hs0, hsi, rfl, rfl, rfl, rfl, rfl, rfl, rfl, rfl, rfl, rfl,
      rfl, rfl, rfl, rfl, fun m hm => ⟨sqrtF_negative rm ftz e hm, (if_neg hm).trans (if_pos rfl),
        (if_neg hm).trans (if_pos rfl), tanhF_flags ftz n e hm, sigmF_flags ftz n e hm, log2F_flags ftz e hm⟩⟩
  · intro sgn v w i
    refine ⟨fun h1 h2 hn => ?_, fun h1 h2 hn => ?_, fun h1 h2 hn => ?_, fun h1 hn => ?_, fun h1 hn => ?_,
      fun _ => log2F_two_pow ftz (-j) k, sinpiF_of_int ftz n j, sinpiF_of_half ftz n j k, cospiF_of_int ftz n j,
      cospiF_of_half ftz n j k, tanhF_of_large ftz n j, fun m hm => ⟨sinpiF_flags ftz n hm, cospiF_flags ftz n hm⟩,
      fun m hm hn => exp2F_of_fraction ftz hm hn, fun m hm => exp2F_of_large (n := false) ftz hm,
      fun m hm => exp2F_of_le_neg_150 ftz hm⟩
    · subst hn
      exact exp2F_of_pos_int ftz h1 h2
    · subst hn
      exact exp2F_of_neg_int ftz h1 h2
    · subst hn
      exact exp2F_of_neg_int_subnormal ftz h1 h2
    · subst hn
      exact exp2F_of_large (n := false) ftz (Nat.mul_le_mul_right _ h1)
    · subst hn
      exact exp2F_of_le_neg_150 ftz (Nat.mul_le_mul_right _ h1)
  · subst hk
    exact rsqF_two_pow ftz ((Nat.pow_lt_pow_iff_right (by decide)).mp hm) h1 h2 he

end Sys2Proof.Machine
end

section
/-! Crib reservations, masks and the sieve's registers (R284 to R290, R312, R313). -/
namespace Sys2Proof.Machine

theorem resValid_eq_getLsbD (r : BitVec 128) : resValid r = r.getLsbD 86 := bit_eq_testBit ..

/-- A gang with a reservation record set. -/
def Gang.setRes (k : Gang) (n : Nat) (r : BitVec 128) : Gang := { k with res := store 0 k.res n r }

section
variable {s : State} {x : Iss} {gid : Nat} {k : Gang} (hx : x.g.gang = some gid) (hk : find s.gangs gid = some k)
include hx hk

/-- A change of the issuing gang. -/
theorem modGang_gangNo (f : Gang → Gang) : s.modGang x.gangNo f = { s with gangs := put s.gangs gid (f k) } := by
  simp only [Iss.gangNo, hx, Option.getD_some, State.modGang, hk]

/-- CRES makes an accepted record VALID (R287). -/
theorem cres_of_resOk (c : BitVec 5) {a : Reg} (h : resOk (x.g.rd4 a 0) k.cribLen = true) :
    x.cres s c a
      = .retire { s with gangs := put s.gangs gid (k.setRes c.toNat (x.g.rd4 a 0 ||| (1#128 <<< 86))) } x.g := by
  simp only [Iss.cres, hx, Option.bind_some, hk, h, if_true, modGang_gangNo hx hk, Gang.setRes]

/-- CREL makes a record not VALID (R287). -/
theorem crel_eq (c : BitVec 5) : x.crel s c
    = { s with gangs := put s.gangs gid (k.setRes c.toNat (look 0 k.res c.toNat &&& ~~~(1#128 <<< 86))) } :=
  modGang_gangNo hx hk _

theorem czero_of_invalid {c : BitVec 5} (h : (look 0 k.res c.toNat).getLsbD 86 = false) :
    x.czero s c = .fault (x.failPlain ⟨0x04, 0x41, c.toNat⟩ x.low) := by
  have hv : resValid (k.resOf c.toNat) = false := (resValid_eq_getLsbD _).trans h
  simp only [Iss.czero, hx, Option.bind_some, hk, Option.map_some, hv, Bool.not_false, if_true]

/-- CZERO of a VALID reservation is a matrix operation of its own (R289). -/
theorem czero_of_valid {c : BitVec 5} (h : (look 0 k.res c.toNat).getLsbD 86 = true) :
    ∃ o : MOp, o.czero = true ∧ o.unit = x.u ∧ o.cres = look 0 k.res c.toNat ∧ o.cbase = k.cribBase
      ∧ x.czero s c = .retire (s.joinSet o) x.g := by
  have hv : resValid (k.resOf c.toNat) = true := (resValid_eq_getLsbD _).trans h
  simp only [Iss.czero, hx, Option.bind_some, hk, Option.map_some, hv, Bool.not_true, Bool.false_eq_true, if_false]
  refine ⟨_, ?_, ?_, ?_, ?_, rfl⟩ <;> rfl

end

/-- Settles O44: CRES, CREL and CZERO by the gang's record, the registers by their words. -/
theorem reservationsAndMasks : Obligations.ReservationsAndMasks := by
  unfold Obligations.ReservationsAndMasks
  refine ⟨fun c a gid k => ⟨?_, ?_, ?_, fun s x hr hx hk hv => ?_⟩, fun a => ⟨?_, ?_, fun d => ?_, fun q => ?_⟩, ?_⟩
  · exact retiresWhen_of (fun _ => rfl) fun s x ⟨hx, hk, h⟩ => cres_of_resOk hx hk c h
  · exact retiresWhen_of (fun _ => rfl) fun s x ⟨hx, hk⟩ => congrArg (Res.retire · x.g) (crel_eq hx hk c)
  · exact faultsWhen_of (fun _ => rfl) fun s x ⟨hx, hk, h⟩ => czero_of_invalid hx hk h
  · obtain ⟨o, hz, hu, hc, hb, he⟩ := czero_of_valid hx hk hv
    refine ⟨o, hz, hu, hc, hb, ?_⟩
    rw [exec_runs (body := fun x s => x.czero s c) (fun _ => rfl) hr, he, finish]
  · exact retiresWith_of fun _ => rfl
  · exact retiresWith_of fun _ => rfl
  · exact sets_of (fun _ _ => rfl) fun _ => rfl
  · exact retiresWith_of fun _ => rfl
  · exact retiresWith_of fun _ => rfl

end Sys2Proof.Machine
end

section
/-! Loft handles (R291 to R294). -/
namespace Sys2Proof.Machine

/-- A handle is named by the six low bits of a register (R291). -/
theorem handleOf_eq (x : Iss) (b : Reg) (l : Nat) : x.handleOf b l = (x.g.rd b l).toNat % 64 := rfl

section
variable {s : State} {x : Iss} {a b : Reg} {n : Nat} {h : Handle} (hn : x.handleOf a 0 = n)
  (hh : s.handle (unitCore x.u) n = h)
include hn hh

theorem held_of_other (ho : h.holder = none ∨ h.holder ≠ x.g.ctx) (k : Nat → Handle → Res) :
    x.held s a k = .fault (x.failPlain ⟨0x04, 0x40, n⟩ x.low) := by
  simp only [Iss.held, hn, hh, Option.isNone_iff_eq_none, if_pos ho, Iss.handleBad]

section
variable (hc : x.g.ctx ≠ none) (ho : h.holder = x.g.ctx)
include hc ho

theorem held_of_own (k : Nat → Handle → Res) :
    x.held s a k = if s.handleErr (unitCore x.u) n then .fault (x.failPlain ⟨0x18, 3, n⟩ x.low) else k n h := by
  have hno : ¬(h.holder.isNone = true ∨ h.holder ≠ x.g.ctx) := by simp [ho, hc]
  simp only [Iss.held, hn, hh, if_neg hno]

theorem held_of_error (he : s.handleErr (unitCore x.u) n = true) (k : Nat → Handle → Res) :
    x.held s a k = .fault (x.failPlain ⟨0x18, 3, n⟩ x.low) :=
  (held_of_own hn hh hc ho k).trans (if_pos he)

variable (he : s.handleErr (unitCore x.u) n = false)
include he

theorem held_of_mine (k : Nat → Handle → Res) : x.held s a k = k n h :=
  (held_of_own hn hh hc ho k).trans (if_neg (by simp [he]))

theorem lhrel_frees (h3 : hState h ≠ 3) (h1 : hState h ≠ 1) (hb : s.loftBusy (unitCore x.u) n = false) :
    x.lhrel s a = .retire (s.setHandle (unitCore x.u) n { h.setState 0 with holder := none }) x.g := by
  have hw : ¬(hState h = 1 ∨ s.loftBusy (unitCore x.u) n = true) := by simp [h1, hb]
  rw [Iss.lhrel, held_of_mine hn hh hc ho he, if_neg h3, if_neg hw]

theorem lhpin_pins (h2 : 2 ≤ hState h) : x.lhpin s a = .retire (s.setHandle (unitCore x.u) n (h.setState 3)) x.g := by
  rw [Iss.lhpin, held_of_mine hn hh hc ho he]
  match hs : hState h, h2 with
  | _ + 2, _ => rfl

theorem lhunpin_eq : x.lhunpin s a
    = .retire (if hState h = 3 then s.setHandle (unitCore x.u) n (h.setState 2) else s) x.g :=
  held_of_mine hn hh hc ho he _

theorem lhget_copies (hf : x.scrFault s 16 true (x.three b) = none) :
    x.lhget s a b = .retire
      (let c (i : Nat) (t : Bool) : Cap := s.swept x.g.vd ⟨h.bits.extractLsb' (128 * i) 128, t⟩
        let at_ (i : Nat) : Nat := (x.g.rd b 0).toNat + 16 * i
        (((x.scrNote s 16 true (x.three b)).scrCapW x.gangNo (at_ 0) (c 0 false)).scrCapW x.gangNo (at_ 1)
          (c 1 h.backTag)).scrCapW x.gangNo (at_ 2) (c 2 h.ctrTag)) (x.scrG x.g) := by
  simp only [Iss.lhget, held_of_mine hn hh hc ho he, hf]

end

/-- The record that LHSET reads from scratch (R293, R294). -/
def Iss.loftRecord (x : Iss) (s : State) (b : Reg) : Handle :=
  let cs := (x.three b).map (fun c => s.swept x.g.vd (s.scrCap x.gangNo c.off.toNat))
  ⟨BitVec.ofNat 384 (cs.foldr (fun c n => c.bits.toNat + 2 ^ 128 * n) 0), (cs.getD 2 Cap.null).tag,
    (cs.getD 1 Cap.null).tag, x.g.ctx⟩

/-- LHSET sets a free handle, or one of its own context, that is neither PINNED nor in use (R294). -/
theorem lhset_sets (ho : h.holder = none ∨ h.holder = x.g.ctx) (h3 : hState h ≠ 3) (h1 : hState h ≠ 1)
    (hb : s.loftBusy (unitCore x.u) n = false) (hf : x.scrFault s 16 false (x.three b) = none)
    (hok : handleOk (x.loftRecord s b) = true) :
    x.lhset s a b = .retire ((x.scrNote s 16 false (x.three b)).setHandle (unitCore x.u) n ((x.loftRecord s b).setState 0))
      (x.scrG x.g) := by
  have hno : ¬(h.holder.isSome = true ∧ h.holder ≠ x.g.ctx) := by
    rcases ho with ho | ho <;> simp [ho]
  have hw : ¬(hState h = 1 ∨ s.loftBusy (unitCore x.u) n = true) := by simp [h1, hb]
  have hbad : ¬((!handleOk (x.loftRecord s b)) = true) := by simp [hok]
  simp only [Iss.lhset, hn, hh, if_neg hno, if_neg h3, hf]
  exact (if_neg hbad).trans (if_neg hw)

end

theorem exec_of_held {i : Instr} {a b : Reg} (hi : i ∈ [Instr.lhsetRel a, .lhpin a, .lhunpin a, .lhget a b]) :
    ∃ k : Iss → State → Nat → Handle → Res, ∀ s, exec i s = issue (Instr.sig i) s (fun x s => x.held s a (k x s)) := by
  simp only [List.mem_cons, List.not_mem_nil, or_false] at hi
  rcases hi with rfl | rfl | rfl | rfl <;> exact ⟨_, fun _ => rfl⟩

/-- Settles O45: LHSET by its checks in turn, the others by whose the handle is and its STATE. -/
theorem loftHandles : Obligations.LoftHandles := by
  unfold Obligations.LoftHandles
  refine fun a b => ⟨fun r => ?_, ?_, ?_, ?_, ?_, fun i hi => ?_, ?_⟩
  · refine retiresWhen_of (fun _ => rfl) fun s x ⟨ho, h3, h1, hb, hf, hr, hok⟩ => ?_
    subst hr
    exact lhset_sets (handleOf_eq x a 0) rfl ho h3 h1 hb hf hok
  · exact retiresWhen_of (fun _ => rfl) fun s x ⟨⟨⟨hc, ho⟩, he⟩, h3, h1, hb⟩ =>
      lhrel_frees (handleOf_eq x a 0) rfl hc ho he h3 h1 hb
  · exact retiresWhen_of (fun _ => rfl) fun s x ⟨⟨⟨hc, ho⟩, he⟩, h2⟩ =>
      lhpin_pins (handleOf_eq x a 0) rfl hc ho he h2
  · exact retiresWhen_of (fun _ => rfl) fun s x ⟨⟨⟨hc, ho⟩, he⟩, h3⟩ =>
      (lhunpin_eq (handleOf_eq x a 0) rfl hc ho he).trans (congrArg (Res.retire · x.g) (if_pos h3))
  · exact retiresWhen_of (fun _ => rfl) fun s x ⟨⟨⟨hc, ho⟩, he⟩, h3⟩ =>
      (lhunpin_eq (handleOf_eq x a 0) rfl hc ho he).trans (congrArg (Res.retire · x.g) (if_neg h3))
  · obtain ⟨k, he⟩ := exec_of_held hi
    exact ⟨faultsWhen_of he fun s x ho => held_of_other (handleOf_eq x a 0) rfl ho _,
      faultsWhen_of he fun s x ⟨⟨hc, ho⟩, herr⟩ => held_of_error (handleOf_eq x a 0) rfl hc ho herr _⟩
  · exact retiresWhen_of (fun _ => rfl) fun s x ⟨⟨⟨hc, ho⟩, he⟩, hf⟩ =>
      lhget_copies (handleOf_eq x a 0) rfl hc ho he hf

end Sys2Proof.Machine
end

section
/-! The MMA family: operations formed, and the sets that they join (R299 to R305). -/
namespace Sys2Proof.Machine

/-- The operations that could be formed and have room join their sets, and the instruction retires (R300, R304). -/
theorem mma_of_formed {s : State} {x : Iss} {gid : Nat} {k : Gang} {c a : BitVec 5} {z t rz forced expert : Bool}
    {h : Nat → Nat} {ms : List MOp} (hx : x.g.gang = some gid) (hk : find s.gangs gid = some k)
    (hf : x.formAll s gid k c.toNat a.toNat z t rz forced expert h
      ((List.range (x.g.width / 8)).filter (fun o => x.liveRows o != 0)) = .ok ms)
    (hroom : s.octets (unitCore x.u) + ms.length ≤ 256) :
    ∃ g, x.mma s c a z t rz forced expert h = .retire (ms.foldl State.joinSet s) g
      ∧ g = { x.g with fbBatch := g.fbBatch } := by
  simp only [Iss.mma, hx, Option.bind_some, hk, Option.map_some, hf, if_neg (not_lt.mpr hroom)]
  exact ⟨_, rfl, rfl⟩

/-- An operation of an open set that another may join it with (R305). -/
def MOp.Alike (o p : MOp) : Prop :=
  p.stopped = false ∧ p.czero = false ∧ p.handle = o.handle ∧ p.hrec.bits = o.hrec.bits
    ∧ p.ctx = o.ctx ∧ p.streamed = o.streamed ∧ p.s = o.s ∧ p.k = o.k ∧ resFormat p.ares = resFormat o.ares
    ∧ resBlk p.ares = resBlk o.ares ∧ p.t = o.t ∧ p.rz = o.rz
    ∧ ¬(p.unit = o.unit ∧ p.gang = o.gang ∧ p.cnum = o.cnum ∧ p.octet = o.octet)

/-- A set that an operation may join (R305; notes/assumptions/31.md). -/
def State.OpenTo (s : State) (o : MOp) (n : Nat) (st : MSet) : Prop :=
  st.core = o.core ∧ st.closed = none ∧ s.now < st.openedAt + 8
    ∧ (s.setOps n).length < 16 ∧ o.czero = false ∧ (∀ p ∈ s.setOps n, o.Alike p.2)
    ∧ ∀ p ∈ s.ops, p.2.done = true ∨ ¬(p.2.unit = o.unit ∧ p.2.gang = o.gang ∧ p.2.cnum = o.cnum) ∨ p.2.set ≤ n

/-- The test of `State.joinSet`. -/
def State.openTo (s : State) (o : MOp) (e : Nat × MSet) : Bool :=
  e.2.core == o.core && e.2.closed.isNone && decide (s.now < e.2.openedAt + 8)
    && (s.setOps e.1).all (fun p => !p.2.stopped)
    && s.ops.all (fun p => p.2.done || !(ordered p.2 o) || decide (p.2.set ≤ e.1))
    && decide ((s.setOps e.1).length < 16) && !o.czero && (s.setOps e.1).all (fun p => fuses p.2 o)

theorem alike_iff {o p : MOp} (ho : o.czero = false) : o.Alike p ↔ p.stopped = false ∧ fuses p o = true := by
  simp only [MOp.Alike, fuses, ho, Bool.and_eq_true, Bool.not_eq_true', Bool.not_false, beq_iff_eq, Bool.and_eq_false_iff,
    beq_eq_false_iff_ne]
  tauto

theorem ordered_eq_true {a b : MOp} : ordered a b = true ↔ a.unit = b.unit ∧ a.gang = b.gang ∧ a.cnum = b.cnum := by
  simp only [ordered, Bool.and_eq_true, beq_iff_eq, and_assoc]

theorem openTo_iff {s : State} {o : MOp} {e : Nat × MSet} : s.openTo o e = true ↔ s.OpenTo o e.1 e.2 := by
  cases ho : o.czero with
  | true => simp [State.openTo, State.OpenTo, ho]
  | false =>
    have hall : (∀ p ∈ s.setOps e.1, o.Alike p.2)
        ↔ (∀ p ∈ s.setOps e.1, p.2.stopped = false) ∧ ∀ p ∈ s.setOps e.1, fuses p.2 o = true := by
      simp only [alike_iff ho, forall_and]
    simp only [State.openTo, State.OpenTo, hall, ho, Bool.and_eq_true, beq_iff_eq, Option.isNone_iff_eq_none,
      decide_eq_true_eq, List.all_eq_true, Bool.not_eq_true', Bool.or_eq_true, ← Bool.not_eq_true, ordered_eq_true,
      or_assoc]
    tauto

theorem joinSet_of_open {s : State} {o : MOp} {e : Nat × MSet} (h : s.sets.find? (s.openTo o) = some e) :
    s.joinSet o = { s.tick with ops := put s.ops s.ticket { o with set := e.1 } } := by
  unfold State.openTo at h
  simp only [State.joinSet, h]

theorem joinSet_of_none_open {s : State} {o : MOp} (h : s.sets.find? (s.openTo o) = none) :
    s.joinSet o = { s.tick with
      ops := put s.ops s.ticket { o with set := s.ticket }
      sets := put s.sets s.ticket
        { core := o.core, openedAt := s.now, closed := if o.czero then some s.ticket else none } } := by
  unfold State.openTo at h
  simp only [State.joinSet, h]

/-- Settles O43: the forms by `mma_of_formed`, the sets by whether one is open to the operation. -/
theorem matrixIssue : Obligations.MatrixIssue := by
  unfold Obligations.MatrixIssue
  refine ⟨fun c a b zr i z t forced expert h hi s x gid k ms hr hx hk hf hroom => ?_, fun s o => ?_⟩
  · have hexec : ∀ s, exec i s
        = issue (Instr.sig i) s (fun x s => x.mma s c a z t (zr == 1#1) forced expert (h x)) := by
      simp only [List.mem_cons, Prod.mk.injEq, List.not_mem_nil, or_false] at hi
      rcases hi with ⟨rfl, rfl, rfl, rfl, rfl, rfl⟩ | ⟨rfl, rfl, rfl, rfl, rfl, rfl⟩ | ⟨rfl, rfl, rfl, rfl, rfl, rfl⟩
        | ⟨rfl, rfl, rfl, rfl, rfl, rfl⟩ | ⟨rfl, rfl, rfl, rfl, rfl, rfl⟩ <;> exact fun _ => rfl
    obtain ⟨g, hm, hg⟩ := mma_of_formed hx hk hf hroom
    exact ⟨g, by rw [exec_runs hexec hr, hm, finish], hg⟩
  · intro t alike open_
    cases hf : s.sets.find? (s.openTo o) with
    | some e =>
      have ht : t = _ := joinSet_of_open hf
      refine ⟨e.1, by rw [ht]; rfl, .inl ⟨by rw [ht]; rfl, e.2, List.mem_of_find?_eq_some hf, ?_⟩⟩
      exact openTo_iff.mp (List.find?_some hf)
    | none =>
      have ht : t = _ := joinSet_of_none_open hf
      refine ⟨s.ticket, by rw [ht]; rfl, .inr ⟨rfl, fun e he ho => ?_, by rw [ht]⟩⟩
      exact List.find?_eq_none.mp hf e he (openTo_iff.mpr ho)

end Sys2Proof.Machine
end

section
/-! What a pass adds to an element of C (R117 to R119). -/
namespace Sys2Proof.Machine

/-! Exact sums of products. -/

theorem exactSum_of_nan {ps : List FV} (h : ∃ p ∈ ps, p.isNan = true) : exactSum ps = .nan false :=
  if_pos (List.any_eq_true.mpr h)

theorem any_beq_inf {ps : List FV} {x : Bool} : ps.any (fun p => p == .inf x) = true ↔ .inf x ∈ ps := by
  simp

theorem any_beq_inf_eq_false {ps : List FV} {x : Bool} (h : .inf x ∉ ps) : ps.any (fun p => p == .inf x) = false :=
  Bool.eq_false_iff.mpr fun hx => h (any_beq_inf.mp hx)

section
variable {ps : List FV} (hn : ∀ p ∈ ps, p.isNan = false)
include hn

theorem any_isNan_eq_false : ps.any FV.isNan = false :=
  List.any_eq_false.mpr fun p hp => by simp [hn p hp]

theorem exactSum_of_both_infs (h0 : .inf false ∈ ps) (h1 : .inf true ∈ ps) : exactSum ps = .nan false := by
  simp only [exactSum, any_isNan_eq_false hn, any_beq_inf.mpr h0, any_beq_inf.mpr h1, Bool.and_self, Bool.false_eq_true,
    if_false, if_true]

theorem exactSum_of_inf {x : Bool} (hx : .inf x ∈ ps) (hy : .inf (!x) ∉ ps) : exactSum ps = .inf x := by
  cases x with
  | false =>
    simp only [exactSum, any_isNan_eq_false hn, any_beq_inf.mpr hx, any_beq_inf_eq_false (x := true) hy, Bool.and_false,
      Bool.false_eq_true, if_false, if_true]
  | true =>
    simp only [exactSum, any_isNan_eq_false hn, any_beq_inf.mpr hx, any_beq_inf_eq_false (x := false) hy, Bool.false_and,
      Bool.false_eq_true, if_false, if_true]

end

/-- The lower of an exponent and that of a finite value. -/
def FV.minExp (e : Int) : FV → Int
  | .fin _ _ x => min e x
  | _ => e

/-- The exponent that an exact sum is taken over. -/
def lowExp (ps : List FV) : Int := ps.foldl FV.minExp 0

/-- A finite value over 2^-k, 0 for another. -/
def FV.over (k : Int) : FV → Int
  | .fin n m e => scaled n m e k
  | _ => 0

theorem le_foldl_minExp {c : Int} (ps : List FV) (a : Int) :
    c ≤ ps.foldl FV.minExp a ↔ c ≤ a ∧ ∀ n m e, .fin n m e ∈ ps → c ≤ e := by
  induction ps generalizing a with
  | nil => simp
  | cons p ps ih =>
    rw [List.foldl_cons, ih]
    cases p with
    | nan g => simp [FV.minExp]
    | inf x => simp [FV.minExp]
    | fin n m e =>
      simp only [FV.minExp, le_min_iff, List.mem_cons, FV.fin.injEq]
      constructor
      · rintro ⟨⟨ha, he⟩, h⟩
        refine ⟨ha, fun n' m' e' hm => ?_⟩
        rcases hm with ⟨-, -, rfl⟩ | hm
        · exact he
        · exact h n' m' e' hm
      · rintro ⟨ha, h⟩
        exact ⟨⟨ha, h n m e (.inl ⟨rfl, rfl, rfl⟩)⟩, fun n' m' e' hm => h n' m' e' (.inr hm)⟩

/-- The sum's exponent is the least of 0 and those of its terms. -/
theorem le_lowExp_iff {ps : List FV} {c : Int} : c ≤ lowExp ps ↔ c ≤ 0 ∧ ∀ n m e, .fin n m e ∈ ps → c ≤ e :=
  le_foldl_minExp ps 0

/-- One term added to a sum over 2^low. -/
def FV.addTo (low a : Int) : FV → Int
  | .fin n m x => let v : Int := (m * 2 ^ (x - low).toNat : Nat)
                  if n then a - v else a + v
  | _ => a

theorem addTo_eq (low a : Int) (p : FV) : p.addTo low a = a + p.over (-low) := by
  cases p with
  | nan g => exact (Int.add_zero a).symm
  | inf x => exact (Int.add_zero a).symm
  | fin n m e => cases n <;> simp [FV.addTo, FV.over, scaled, Int.sub_eq_add_neg]

theorem foldl_addTo (low : Int) (ps : List FV) (a : Int) :
    ps.foldl (FV.addTo low) a = a + (ps.map (FV.over (-low))).sum := by
  induction ps generalizing a with
  | nil => simp
  | cons p ps ih => rw [List.foldl_cons, ih, addTo_eq, List.map_cons, List.sum_cons, Int.add_assoc]

/-- The exact sum of finite values: their integers over its exponent. -/
theorem exactSum_of_fin {ps : List FV} (h : ∀ p ∈ ps, ∃ n m e, p = .fin n m e) :
    exactSum ps = (let z := (ps.map (FV.over (-lowExp ps))).sum
      if z = 0 then .fin (ps.all FV.sign) 0 0 else .fin (decide (z < 0)) z.natAbs (lowExp ps)) := by
  have hn : ∀ p ∈ ps, p.isNan = false := fun p hp => by
    obtain ⟨n, m, e, rfl⟩ := h p hp
    rfl
  have hi (x : Bool) : ps.any (fun p => p == .inf x) = false := any_beq_inf_eq_false fun hx => by
    obtain ⟨n, m, e, he⟩ := h _ hx
    cases he
  have hsum := (foldl_addTo (lowExp ps) ps 0).trans (Int.zero_add _)
  rw [← hsum]
  simp only [exactSum, any_isNan_eq_false hn, hi, Bool.and_self, Bool.false_eq_true, if_false]
  rfl

/-- A sum of values over a finer power of two. -/
theorem sum_over_eq_mul {ps : List FV} {k : Int} (hk : 0 ≤ lowExp ps + k) :
    (ps.map (FV.over k)).sum = (ps.map (FV.over (-lowExp ps))).sum * 2 ^ (lowExp ps + k).toNat := by
  rw [← List.sum_map_mul_right]
  refine congrArg List.sum (List.map_congr_left fun p hp => ?_)
  cases p with
  | nan g => exact (Int.zero_mul _).symm
  | inf x => exact (Int.zero_mul _).symm
  | fin n m e => exact scaled_eq_mul n m ((le_lowExp_iff.mp le_rfl).2 n m e hp) hk

theorem exactSum_exact {ps : List FV} (h : ∀ p ∈ ps, ∃ n m e, p = .fin n m e) :
    ∃ n m e, exactSum ps = .fin n m e ∧ (m = 0 → n = ps.all FV.sign)
      ∧ ∀ k : Int, 0 ≤ e + k → (∀ n' m' e', .fin n' m' e' ∈ ps → 0 ≤ e' + k) →
        scaled n m e k = (ps.map (FV.over k)).sum := by
  have hs := exactSum_of_fin h
  by_cases hz : (ps.map (FV.over (-lowExp ps))).sum = 0
  · refine ⟨_, _, _, hs.trans (if_pos hz), fun _ => rfl, fun k hk hp => ?_⟩
    have hlow : -k ≤ lowExp ps := le_lowExp_iff.mpr ⟨by omega, fun n m e he => by have := hp n m e he; omega⟩
    rw [sum_over_eq_mul (by omega), hz, scaled_zero, Int.zero_mul]
  · refine ⟨_, _, _, hs.trans (if_neg hz), fun hm => absurd (Int.natAbs_eq_zero.mp hm) hz, fun k hk _ => ?_⟩
    rw [sum_over_eq_mul hk, scaled_of_natAbs]

/-! Leaves and chunks. -/

section
variable (f : Nat × Nat) (rz : Bool) {sa sb : Nat} (a b : List Nat)

theorem leaf_of_nan_scale (h : sa = 255 ∨ sb = 255) : leaf f rz sa sb a b = 0x7FC00000 := if_pos h

/-- The products of a leaf. -/
def leafProducts : List FV := (a.zip b).map (fun p => (mulX (matElem f.1 p.1) (matElem f.2 p.2)).1)

variable (ha : sa ≠ 255) (hb : sb ≠ 255)
include ha hb

theorem leaf_of_fin {g : Bool} {m : Nat} {e : Int} (h : exactSum (leafProducts f a b) = .fin g m e) :
    leaf f rz sa sb a b
      = (roundFV .fp32 (if rz then .rz else .rne) false false (.fin g m (e + sa + sb - 254))).1 := by
  rw [leafProducts] at h
  simp only [leaf, ha, hb, or_self, if_false, h]

theorem leaf_of_not_fin (h : ∀ g m e, exactSum (leafProducts f a b) ≠ .fin g m e) :
    leaf f rz sa sb a b
      = (roundFV .fp32 (if rz then .rz else .rne) false false (exactSum (leafProducts f a b))).1 := by
  have hl : ¬(sa = 255 ∨ sb = 255) := not_or.mpr ⟨ha, hb⟩
  rw [leafProducts] at *
  cases hs : exactSum ((a.zip b).map (fun p => (mulX (matElem f.1 p.1) (matElem f.2 p.2)).1)) with
  | nan g => simp only [leaf, if_neg hl, hs]
  | inf x => simp only [leaf, if_neg hl, hs]
  | fin g m e => exact absurd hs (h g m e)

end

theorem chunkTree_singleton (c : Nat) : chunkTree [c] = c :=
  congrArg Prod.fst (treeRoot_add (n := 0) (l := [some c]) rfl 6)

/-- The tree of a chunk joins the trees of its halves (R117). -/
theorem chunkTree_append {l r : List Nat} {k : Nat} (hk : k ≤ 5) (hl : l.length = 2 ^ k) (hr : r.length = 2 ^ k) :
    chunkTree (l ++ r) = bankAdd .fp32 (chunkTree l) (chunkTree r) := by
  have hsome {m : List Nat} (hm : m.length = 2 ^ k) : ¬(m.map some).all Option.isNone = true := by
    obtain ⟨c, m, rfl⟩ := List.exists_cons_of_length_pos (hm ▸ Nat.two_pow_pos k)
    simp
  have hroot {m : List Nat} {j : Nat} (hj : j ≤ 6) (hm : m.length = 2 ^ j) :
      chunkTree m = (treeRoot (fun a b => (bankAdd .fp32 a b, 0)) j (m.map some)).1 := by
    obtain ⟨i, hi⟩ := Nat.exists_eq_add_of_le hj
    rw [chunkTree, hi, treeRoot_add (by rw [List.length_map, hm])]
  have hlr : (l ++ r).length = 2 ^ (k + 1) := by rw [List.length_append, hl, hr, Nat.pow_succ, Nat.mul_two]
  rw [hroot (by omega) hlr, hroot (by omega) hl, hroot (by omega) hr, List.map_append,
    treeRoot_append (by rw [List.length_map, hl]) (by rw [List.length_map, hr]), if_neg (hsome hr), if_neg (hsome hl)]

theorem foldl_sint8 (ps : List (Nat × Nat)) (t : Int) : ps.foldl (fun (t : Int) p => t + sint 8 p.1 * sint 8 p.2) t
    = t + (ps.map (fun p => sint 8 p.1 * sint 8 p.2)).sum := by
  induction ps generalizing t with
  | nil => simp
  | cons p ps ih => rw [List.foldl_cons, ih, List.map_cons, List.sum_cons, Int.add_assoc]

/-- An I8 sum wraps (R119). -/
theorem accumulate_of_int8 {f : Nat × Nat} (hf : f.1 = 6) (blk rz first : Bool) (xa xb a b : List Nat) (c : Nat) :
    (accumulate f blk rz first xa xb a b c : Int)
      = ((if first then 0 else (c : Int)) + ((a.zip b).map (fun p => sint 8 p.1 * sint 8 p.2)).sum) % 2 ^ 32 := by
  simp only [accumulate, if_pos hf, foldl_sint8, Int.zero_add, wrap]
  rw [Int.toNat_of_nonneg (Int.emod_nonneg _ (by decide))]
  cases first with
  | true => exact congrArg (· % (2 ^ 32 : Int)) (Int.zero_add _).symm
  | false => rfl

end Sys2Proof.Machine
end

section
/-! Matrix sets, passes, results, batches and regrow requests (R305, R306, R308, R324, R326). -/
namespace Sys2Proof.Machine

section
variable {s : State} {n : Nat} {st : MSet} (hs : find s.sets n = some st) (hc : st.closed = none)
include hs hc

theorem closeSet_of_due (h : 16 ≤ (s.setOps n).length ∨ st.openedAt + 8 ≤ s.now) :
    s.closeSet n = { s.tick with sets := put s.sets n { st with closed := some s.ticket } } := by
  simp only [State.closeSet, hs, hc, Option.isNone_none, Bool.true_and, Bool.or_eq_true, decide_eq_true_eq, if_pos h]

theorem closeSet_of_young (hl : (s.setOps n).length < 16) (ht : s.now < st.openedAt + 8) : s.closeSet n = s := by
  have h : ¬(16 ≤ (s.setOps n).length ∨ st.openedAt + 8 ≤ s.now) := by omega
  simp only [State.closeSet, hs, hc, Option.isNone_none, Bool.true_and, Bool.or_eq_true, decide_eq_true_eq, if_neg h]

end

/-- Operations that count no experts add nothing (R302). -/
theorem passAdds_of_no_counter {os : List (Nat × MOp)} (h : ∀ e ∈ os, e.2.ctr = none) (s : State) : passAdds os s = .ok s := by
  induction os with
  | nil => rfl
  | cons e os ih =>
    obtain ⟨he, h⟩ := List.forall_mem_cons.mp h
    simp only [passAdds, he, ih h]

/-- The columns of B that a pass over a chunk reads from the loft; CZERO reads none. -/
def State.passColumns (s : State) (o : MOp) (c : Nat) : List (Nat × List Nat × List Nat) :=
  if o.czero then [] else (List.range (hN o.hrec)).map (fun m => (m, s.bLoft o m c))

/-- A pass of a set that is not streamed, in which nothing fails: each operation's result is put on the way (R306). -/
theorem pass_of_set {s : State} {core n id : Nat} {st : MSet} {o : MOp} {r : List (Nat × MOp)}
    (hs : s.nextSet core = some (n, st)) (ho : s.setOps n = (id, o) :: r)
    (hstop : ∀ e ∈ s.setOps n, e.2.stopped = false) (hctr : ∀ e ∈ s.setOps n, e.2.ctr = none)
    (herr : ∀ e ∈ s.setOps n, s.passErr e.2 (o.s + st.passes) = none) (hstr : o.czero = true ∨ o.streamed = false) :
    s.pass core =
      let last := st.passes + 1 == o.k
      let t := (s.setOps n).foldl
        (fun t e => t.passOne e.1 e.2 (o.s + st.passes) (s.passColumns o (o.s + st.passes)) last) s
      { t with sets := if last then del t.sets n else put t.sets n { st with passes := st.passes + 1 } } := by
  have hany : (s.setOps n).any (fun e => e.2.stopped) = false := List.any_eq_false.mpr fun e he => by simp [hstop e he]
  have hfind : (s.setOps n).findSome? (fun e => (s.passErr e.2 (o.s + st.passes)).map (fun f => (e.2, f))) = none :=
    List.findSome?_eq_none_iff.mpr fun e he => by simp [herr e he]
  have hadds : (if (st.passes + 1 == o.k) = true then passAdds (s.setOps n) s else .ok s) = .ok s := by
    rw [passAdds_of_no_counter hctr, ite_self]
  rw [ho] at hany hfind hadds
  cases hz : o.czero with
  | true =>
    simp only [State.pass, State.passColumns, hs, ho, hany, hfind, hadds, hz, Bool.false_eq_true, if_false, if_true]
  | false =>
    have hloft : o.streamed = false := hstr.resolve_left (by simp [hz])
    simp only [State.pass, State.passColumns, hs, ho, hany, hfind, hadds, hz, hloft, Bool.false_eq_true, if_false]

theorem resultWrite_of_first {s : State} {core : Nat} {r : MRes}
    (h : s.results.find? (fun r => r.core == core) = some r) :
    s.resultWrite core =
      let t := r.cells.foldl (fun (t : State) e => t.cribW core e.1 (leBytes e.2.toNat 4))
        ({ s with results := s.results.erase r } : State)
      if r.last then { t with ops := del t.ops r.op } else t := by
  simp only [State.resultWrite, h]

/-- A batch ends that no operation of its group holds back (R308). -/
theorem batchEnd_of_ended {s : State} {u n b : Nat} {g : Grp} {r : List Nat} (hg : find s.units u = some g)
    (hc : g.closed = b :: r) (hx : g.ctx = some n)
    (h : ∀ e ∈ s.ops, e.2.unit = u → some e.2.gang = g.gang → 32768 ≤ (b + 65536 - e.2.batch) % 65536) :
    s.batchEnd u = (s.putU u { g with
      closed := r, fallback := g.fallback + look 0 g.fbBatch b, fbBatch := del g.fbBatch b }).modCtx n
        (fun k => { k with deadlock := 0 }) := by
  have hany : s.ops.any (fun e => e.2.unit == u && some e.2.gang == g.gang
      && decide ((b + 65536 - e.2.batch) % 65536 < 32768)) = false := by
    refine List.any_eq_false.mpr fun e he => ?_
    simp only [Bool.and_eq_true, beq_iff_eq, decide_eq_true_eq, not_and, not_lt, and_imp]
    exact h e he
  simp only [State.batchEnd, hg, hc, hany, hx, Option.getD_some, Bool.false_eq_true, if_false]

section
variable {s : State} {d : Nat} {r : Regrow} {e : Tile} (hr : find s.regrows d = some r) (ht : s.tileOf d = some e)
  (hf : r.failed = none) (hx : s.ctxRuns r.ctx = true) (hc : r.checked = true) (hl : r.launched = false)
include hr ht hf hx hc hl

theorem regrowServe_of_checked : s.regrowServe d = s.regrowSource d r := by
  simp only [State.regrowServe, hr, ht, hf, hx, hc, hl, Option.isSome_none, Bool.not_true, Bool.not_false, Bool.or_self,
    Bool.false_eq_true, if_false, if_true]

/-- The launch starts once every source has been seen to (R324). -/
theorem regrowServe_launches (hp : r.pins.length ≤ r.pos) : s.regrowServe d = { s with regrows := put s.regrows d { r with
    launched := true, toGo := List.range (r.dims.1 * r.dims.2.1 * r.dims.2.2), left := r.dims.1 * r.dims.2.1 * r.dims.2.2 } } := by
  rw [regrowServe_of_checked hr ht hf hx hc hl]
  simp only [State.regrowSource, List.getElem?_eq_none hp]

/-- The request goes on to its next source when this one is neither DROPPED nor being regrown (R324). -/
theorem regrowServe_of_source {p : Nat} (hp : r.pins[r.pos]? = some p) (h1 : tileState s p ≠ 1) (h2 : tileState s p ≠ 2) :
    s.regrowServe d = { s with regrows := put s.regrows d { r with pos := r.pos + 1, waits := false } } := by
  rw [regrowServe_of_checked hr ht hf hx hc hl]
  simp only [State.regrowSource, hp]

end

/-- The tile of a launch that is over is VALID, and its sources are let go (R326). -/
theorem regrowComplete_of_over {s : State} {d : Nat} {r : Regrow} (hr : find s.regrows d = some r)
    (ho : s.regrowOver d r = true) :
    s.regrowComplete d =
      let t := r.pins.foldl (fun (t : State) p => t.setPins p (· - 1))
        ((s.setTileVersion d (tileVersion s d + 2)).setTileState d 0)
      ({ t with regrows := del t.regrows d } : State).modCtx r.ctx (fun k => { k with deadlock := 0 }) := by
  simp only [State.regrowComplete, hr, ho, Bool.not_true, Bool.false_eq_true, if_false]

/-- Settles O54: one lemma for each event, exact sums by the least exponent of their terms, the tree by `treeRoot_append`. -/
theorem matrixEvents : Obligations.MatrixEvents := by
  unfold Obligations.MatrixEvents
  refine ⟨fun n st => ⟨?_, ?_⟩, fun core n id st o r => ?_, fun core r => ?_, fun u n b g r => ?_,
    fun ps => ⟨fun h => ?_, fun x hn => exactSum_of_inf hn, fun h => exactSum_exact h⟩,
    fun f blk rz first sa sb xa xb a b l r c => ⟨fun h => ?_, fun ha hb => ⟨fun g m e h => ?_, fun h => ?_⟩, fun hf => ?_,
      fun hf => ?_, ?_, fun k hk hl hr => ?_⟩,
    fun d r e => ⟨?_, fun p => ?_, ?_⟩⟩
  · rintro s ⟨hs, hc, h⟩
    exact congrArg Host.Outcome.next (closeSet_of_due hs hc h)
  · rintro s ⟨hs, hc, hl, ht⟩
    exact congrArg Host.Outcome.next (closeSet_of_young hs hc hl ht)
  · intro b last
    rintro s ⟨hs, ho, hall, hstr⟩
    obtain ⟨hstop, hrest⟩ := forall₂_and.mp hall
    obtain ⟨hctr, herr⟩ := forall₂_and.mp hrest
    exact congrArg Host.Outcome.next (pass_of_set hs ho hstop hctr herr hstr)
  · exact fun s h => congrArg Host.Outcome.next (resultWrite_of_first h)
  · rintro s ⟨hg, hc, hx, h⟩
    exact congrArg Host.Outcome.next (batchEnd_of_ended hg hc hx h)
  · by_cases hn : ∃ p ∈ ps, p.isNan = true
    · exact exactSum_of_nan hn
    · obtain ⟨h0, h1⟩ := h.resolve_left hn
      exact exactSum_of_both_infs (fun p hp => Bool.eq_false_iff.mpr fun hp' => hn ⟨p, hp, hp'⟩) h0 h1
  · exact leaf_of_nan_scale f rz a b h
  · exact leaf_of_fin f rz a b ha hb h
  · exact leaf_of_not_fin f rz a b ha hb h
  · exact if_neg hf
  · exact accumulate_of_int8 hf blk rz first xa xb a b c
  · exact chunkTree_singleton c
  · exact chunkTree_append hk hl hr
  · rintro s ⟨hr, ht, hf, hx, hc, hl, hp⟩
    exact congrArg Host.Outcome.next (regrowServe_launches hr ht hf hx hc hl hp)
  · rintro s ⟨hr, ht, hf, hx, hc, hl, hp, h1, h2⟩
    exact congrArg Host.Outcome.next (regrowServe_of_source hr ht hf hx hc hl hp h1 h2)
  · rintro s ⟨hr, ho⟩
    exact congrArg Host.Outcome.next (regrowComplete_of_over hr ho)

end Sys2Proof.Machine
end

section
/-! Registration, recipes, pins, probes and drops of tiles (R330 to R334). -/
namespace Sys2Proof.Machine

/-- Dooming the OPEN lanes changes only transactions. -/
theorem saw_frame (x : Iss) (pl : Place) : (x.saw pl).g = { x.g with txn := (x.saw pl).g.txn } :=
  remote_frame x false [⟨x.low, pl⟩]

@[simp] theorem saw_ag (x : Iss) (pl : Place) : (x.saw pl).ag = x.ag :=
  (congrArg (unitAg x.u x.b) (saw_frame x pl)).trans rfl

@[simp] theorem saw_qr (x : Iss) (pl : Place) (n : Nat) : (x.saw pl).g.qr n = x.g.qr n :=
  (congrArg (Grp.qr · n) (saw_frame x pl)).trans rfl

@[simp] theorem saw_vd (x : Iss) (pl : Place) : (x.saw pl).g.vd = x.g.vd :=
  congrArg Ag.vd (saw_ag x pl)

@[simp] theorem saw_aspace (x : Iss) (pl : Place) : (x.saw pl).g.aspace = x.g.aspace :=
  congrArg Ag.aspace (saw_ag x pl)

@[simp] theorem saw_ctx (x : Iss) (pl : Place) : (x.saw pl).g.ctx = x.g.ctx :=
  congrArg Ag.ctx (saw_ag x pl)

/-- The tile that TDESC registers for a path (R316). -/
def Iss.newTile (x : Iss) (key va pa len die slice : Nat) : Tile :=
  { aspace := x.g.aspace, desc := key, descVa := va, lo := pa, len := len, die := die, slice := slice, vd := x.g.vd,
    ctx := x.g.ctx }

/-- An operand that passes its checks is read, and the instruction goes on (R330). -/
theorem operand_of_at {x : Iss} {s : State} {q : BitVec 4} {n perm va : Nat} {write : Bool} {pl : Place}
    (h : OperandAt x s q n perm write va pl) (k : Iss → State → Nat → Place → Res) :
    x.operand s q n perm write k = k (x.saw pl) (s.touch x.ag write pl) va pl := by
  obtain ⟨hcap, halign, hloc, hgate⟩ := h
  have haligned : ¬va % n ≠ 0 := not_not_intro halign
  simp only [Iss.operand, Iss.qs, hcap, if_neg haligned, hloc, hgate, Iss.saw]

section
variable {s t : State} {x : Iss} {pl : Place} {q : BitVec 4} {va key perm : Nat} {write : Bool} (d : Reg)

/-- A form of R333 on a descriptor that passes its checks acts on the tile and the record of its key. -/
theorem tileForm_of_at (h : OperandAt x s q 64 perm write va pl)
    (k : Iss → State → Nat → Option Tile → Option Nat → Res) :
    x.tileForm s q perm write k
      = k (x.saw pl) (s.touch x.ag write pl) (pl.keys.headD 0) ((s.touch x.ag write pl).tileOf (pl.keys.headD 0))
          (((s.touch x.ag write pl).tileOf (pl.keys.headD 0)).bind (s.touch x.ag write pl).recAt) :=
  operand_of_at h _

/-- TPROBE writes the probe word of its descriptor (R333). -/
theorem tprobe_of_at (h : OperandAt x s q 64 pLOAD false va pl) (ht : s.touch x.ag false pl = t)
    (hk : pl.keys.headD 0 = key) :
    x.tprobe s d q = .retire t ((x.saw pl).toS d (t.probeWord key (t.tileOf key) ((t.tileOf key).bind t.recAt))) := by
  rw [Iss.tprobe, tileForm_of_at h, ht, hk]

theorem tileForm_of_tile {e : Tile} (h : OperandAt x s q 64 perm write va pl) (ht : s.touch x.ag write pl = t)
    (hk : pl.keys.headD 0 = key) (he : t.tileOf key = some e)
    (k : Iss → State → Nat → Option Tile → Option Nat → Res) :
    x.tileForm s q perm write k = k (x.saw pl) t key (some e) (t.recAt e) := by
  rw [tileForm_of_at h, ht, hk, he, Option.bind_some]

section
variable (h : OperandAt x s q 64 (pLOAD ||| pSTORE ||| pLOADCAP) true va pl) (ht : s.touch x.ag true pl = t)
  (hk : pl.keys.headD 0 = key) (hok : (t.descAt key).ok = true)
include h ht hk hok

/-- TDESC makes a PLAIN tile VALID at VERSION 0 (R331). -/
theorem tdesc_of_plain (hno : t.tileOf key = none) (hcls : (t.descAt key).cls = 0) :
    x.tdesc s d q = (x.saw pl).status d ((t.setTileVersion key 0).setTileState key 0) 0 := by
  simp only [Iss.tdesc, operand_of_at h, ht, hk, hok, hno, hcls, Bool.not_true, Bool.false_eq_true,
    Option.isSome_none, if_true, if_false]

/-- TDESC registers a REGROW tile whose storage is one of R315 and whose slice has room (R316, R331). -/
theorem tdesc_of_regrow {pa die slice : Nat} (hno : t.tileOf key = none) (hcls : (t.descAt key).cls ≠ 0)
    (hst : t.storageOf x.ag (t.descAt key) = some (pa, die, slice))
    (hroom : t.sliceFull die slice x.g.vd (t.descAt key).extent = false) :
    let e := x.newTile key va pa (t.descAt key).extent die slice
    x.tdesc s d q = (x.saw pl).status d
      ((({ t with tiles := t.tiles ++ [e] }.clearTile e).blankDesc key).setTileVersion key 0) 0 := by
  simp only [Iss.tdesc, operand_of_at h, ht, hk, hok, hno, if_neg hcls, saw_ag, saw_vd, saw_aspace, saw_ctx, hst, hroom,
    Iss.newTile, Bool.not_true, Bool.false_eq_true, Option.isSome_none, if_false]

/-- TDESC.REL ends the registration of a tile neither held nor REGROWING (R331). -/
theorem tdescRel_of_free {e : Tile} (he : t.tileOf key = some e) (hheld : t.tileHeld e = false)
    (hst : tileState t key ≠ 2) :
    x.tdescRel s d q = (x.saw pl).status d
      ({ t.clearTile e with tiles := (t.clearTile e).tiles.filter (fun y => y.desc != key) }.blankDesc key) 0 := by
  simp only [Iss.tdescRel, operand_of_at h, ht, hk, hok, he, hheld, beq_eq_false_iff_ne.mpr hst, Bool.not_true,
    Bool.or_false, Bool.false_eq_true, if_false]

end

/-- RECIPE of a record whose sources are usable and whose depth is at most 4 (R332). -/
theorem recipe_of_usable {a : BitVec 4} {rva rec n : Nat} {rpl : Place} {u : State}
    (h : OperandAt x s a 64 (pLOAD ||| pSTORE ||| pLOADCAP ||| pSTORECAP) true va pl)
    (hr : OperandAt (x.saw pl) (s.touch x.ag true pl) q 128 (pLOAD ||| pSTORE ||| pLOADCAP) true rva rpl)
    (hu : (s.touch x.ag true pl).touch (x.saw pl).ag true rpl = u)
    (hk : pl.keys.headD 0 = key) (hrec : rpl.keys.headD 0 = rec) (hform : recFormOk (u.recBits rec) = true)
    (hout : ((u.recCaps x.g.vd rec).getD 1 Cap.null).cursor = (x.g.qr a.toNat).cursor) (htile : u.tileOf key ≠ none)
    (hcls : (u.descAt key).cls = 1) (hnull : u.recipeOf key = none)
    (hdepth : u.recipeDepth (x.saw pl).ag (sourcesOf (u.recCaps x.g.vd rec)) = some n) (hn : n ≤ 4) :
    let c := u.swept x.g.vd (x.g.qr q.toNat)
    x.recipe s d a q = ((x.saw pl).saw rpl).status d
      ((u.recSet rec n).capPut (key + 48) ⟨c.bits, c.tag && pl.tagcap⟩) 0 := by
  have hbad : ¬((!recFormOk (u.recBits rec)) = true
      ∨ ((u.recCaps x.g.vd rec).getD 1 Cap.null).cursor ≠ (x.g.qr a.toNat).cursor) :=
    not_or.mpr ⟨by simp only [hform, Bool.not_true, Bool.false_eq_true, not_false_eq_true], not_not_intro hout⟩
  have hwrong : ¬((u.tileOf key).isNone = true ∨ (u.descAt key).cls ≠ 1 ∨ (u.recipeOf key).isSome = true) := by
    simp [htile, hcls, hnull]
  rw [saw_ag] at hu hdepth
  simp only [Iss.recipe, operand_of_at h, operand_of_at hr, Iss.qs, saw_ag, saw_vd, saw_qr, hu, hk, hrec, if_neg hbad,
    if_neg hwrong, hdepth, if_neg (not_lt.mpr hn)]

section
variable (h : OperandAt x s q 64 (pLOAD ||| pSTORE) true va pl) (ht : s.touch x.ag true pl = t)
  (hk : pl.keys.headD 0 = key) {e : Tile} (he : t.tileOf key = some e)
include h ht hk he

/-- TPIN counts one more pin of a REGROW tile with a recipe (R333). -/
theorem tpin_of_recipe {r : Nat} (hcls : (t.descAt key).cls = 1) (hr : t.recAt e = some r)
    (hn : recPins t r ≠ 65535) :
    x.tpin s d q = (x.saw pl).status d (t.rawW (r + 120) 2 (recPins t r + 1)) 0 := by
  have hregrow : ¬(t.descAt key).cls ≠ 1 := not_not_intro hcls
  simp only [Iss.tpin, tileForm_of_tile h ht hk he, hr, if_neg hregrow, if_neg hn]

/-- TUNPIN takes one of the pins away (R333). -/
theorem tunpin_of_pinned {r : Nat} (hr : t.recAt e = some r) (hn : recPins t r ≠ 0) :
    x.tunpin s d q = (x.saw pl).status d (t.rawW (r + 120) 2 (recPins t r - 1)) 0 := by
  simp only [Iss.tunpin, tileForm_of_tile h ht hk he, hr, if_neg hn]

/-- TDROP drops a VALID tile that is not held (R318, R333). -/
theorem tdrop_of_valid (hst : tileState t key = 0) (hheld : t.tileHeld e = false) :
    x.tdrop s d q = (x.saw pl).status d (t.dropTile e) 0 := by
  simp only [Iss.tdrop, tileForm_of_tile h ht hk he, hst, hheld, Bool.not_false, and_self, zero_ne_one,
    if_true, if_false]

/-- TDROP of a tile that is DROPPED has no effect (R333). -/
theorem tdrop_of_dropped (hst : tileState t key = 1) : x.tdrop s d q = (x.saw pl).status d t 0 := by
  simp only [Iss.tdrop, tileForm_of_tile h ht hk he, hst, if_true]

end

end

section
variable {s : State} {x : Iss}

/-- REGROWN marks the gang of a regrow launch (R334). -/
theorem regrown_of_launch {n : Nat} {k : Gang} (hg : x.g.gang = some n) (hk : find s.gangs n = some k)
    (hr : k.regrow ≠ none) :
    x.regrown s = .retire { s with gangs := put s.gangs n { k with regrown := true } } x.g := by
  have hin : ¬k.regrow.isNone = true := fun hn => hr (Option.isNone_iff_eq_none.mp hn)
  simp only [Iss.regrown, hg, Option.bind_some, hk, Option.map_some, if_neg hin]

theorem regrown_of_no_gang (hg : x.g.gang = none) : x.regrown s = .trap 0 := by
  simp only [Iss.regrown, hg, Option.bind_none]

end

/-- Settles O46: each form by the case of its lemma, after `operand_of_at` has read its operands. -/
theorem tileForms : Obligations.TileForms := by
  unfold Obligations.TileForms
  refine ⟨fun d q => ⟨fun va pl => ?_, fun va pl pa die slice => ?_, fun va pl e => ?_,
    fun a va rva n pl rpl => ?_, fun e r va pl => ?_, fun e r va pl => ?_, fun e va pl => ?_, fun e va pl => ?_,
    fun va pl => ?_⟩, fun n k => ?_, ?_⟩
  · exact retiresWhen_of (fun _ => rfl) fun s x ⟨h, hok, hno, hcls⟩ => tdesc_of_plain d h rfl rfl hok hno hcls
  · exact retiresWhen_of (fun _ => rfl) fun s x ⟨h, hok, hno, hcls, hst, hroom⟩ =>
      tdesc_of_regrow d h rfl rfl hok hno hcls hst hroom
  · exact retiresWhen_of (fun _ => rfl) fun s x ⟨h, hok, he, hheld, hst⟩ =>
      tdescRel_of_free d h rfl rfl hok he hheld hst
  · exact retiresWhen_of (fun _ => rfl) fun s x ⟨h, hr, hform, hout, htile, hcls, hnull, hdepth, hn⟩ =>
      recipe_of_usable d h hr rfl rfl rfl hform hout htile hcls hnull hdepth hn
  · exact retiresWhen_of (fun _ => rfl) fun s x ⟨h, hcls, he, hr, hn⟩ => tpin_of_recipe d h rfl rfl he hcls hr hn
  · exact retiresWhen_of (fun _ => rfl) fun s x ⟨h, he, hr, hn⟩ => tunpin_of_pinned d h rfl rfl he hr hn
  · exact retiresWhen_of (fun _ => rfl) fun s x ⟨h, he, hst, hheld⟩ => tdrop_of_valid d h rfl rfl he hst hheld
  · exact retiresWhen_of (fun _ => rfl) fun s x ⟨h, he, hst⟩ => tdrop_of_dropped d h rfl rfl he hst
  · exact retiresWhen_of (fun _ => rfl) fun s x h => tprobe_of_at d h rfl rfl
  · exact retiresWhen_of (fun _ => rfl) fun s x ⟨hg, hk, hr⟩ => regrown_of_launch hg hk hr
  · exact trapsWhen_of (fun _ => rfl) fun s x hg => regrown_of_no_gang hg

end Sys2Proof.Machine
end

section
/-! Traps of control-core threads (R450, R483). -/
namespace Sys2Proof.Machine

/-- A source that fires changes no more than the word of a line and the count of free values. -/
theorem fire_frame (s : State) (n : Nat) : s.fire n = { s with mem := (s.fire n).mem, free := (s.fire n).free } := by
  unfold State.fire State.noteOr State.draw
  split
  · rfl
  · rw [rawW_frame]

@[simp] theorem fire_units (s : State) (n : Nat) : (s.fire n).units = s.units := by
  rw [fire_frame]

/-- The issuing group with the registers of a trap (R181 to R183). -/
def Iss.trapped (x : Iss) (c : Nat) : Grp := { x.g with x := trapRegs x.w x.p.hints x.p.pc c }

section
variable {s : State} {x : Iss} {g0 : Grp} (c : Nat) (hu : find s.units x.u = some g0) (hc : isControl x.u = true)
include hu hc

theorem trap_reenters (hl : x.g.level = .user) : s.trap x c = s.putU x.u ((x.trapped c).reenter x.p.pc 1) := by
  unfold State.trap
  rw [hu]
  refine (if_pos hc).trans ?_
  split
  · next h => cases hl.symm.trans h
  · rfl

theorem trap_in_kernel (hl : x.g.level = .kernel) : s.trap x c = s.kernelEntry x (x.trapped c) := by
  unfold State.trap
  rw [hu]
  refine (if_pos hc).trans ?_
  split
  · rfl
  · next h => cases hl.symm.trans h

end

/-- The K bank goes on after its ERET, with the cause in the register that ERET named; the U bank keeps its registers. -/
theorem reenter_of_bank {g : Grp} {k : Bank} {p : Path} {r : Nat} (upc : DWord) (cause : Nat) (hb : g.bank = some k)
    (hp : g.slotA = some p) (hr : g.eretRd = some r) : g.reenter upc cause =
      Grp.wrS { g.useBank k upc with
        level := .kernel, ctx := none, aspace := .boot, vd := fld (g.ownR 0x0002).toNat 0 7, stopped := false, eretRd := none
        slotA := some { p.go k.pc with hnd := k.hnd } } r (BitVec.ofNat 32 cause) := by
  simp only [Grp.reenter, hb, hp, hr, Option.getD_some]

theorem kernelEntry_handles {x : Iss} {g : Grp} (s : State) (hv : g.ownR 0x0603 ≠ 0) (hh : x.p.hnd = false) :
    s.kernelEntry x g = s.putU x.u { g with slotA := some { x.p.go (g.ownR 0x0603) with hnd := true } } := by
  refine if_neg ?_
  rintro (h | h)
  · exact hv h
  · exact ne_true_of_eq_false hh h

theorem kernelEntry_stops {x : Iss} {g : Grp} (s : State) (h : g.ownR 0x0603 = 0 ∨ x.p.hnd = true) :
    s.kernelEntry x g = (s.putU x.u { g with dead := true }).fire (800 + (x.u - 81920)) := if_pos h

/-- Settles O26: at level U by `reenter_of_bank`, at level K by the two cases of the K handler. -/
theorem threadTraps : Obligations.ThreadTraps := by
  unfold Obligations.ThreadTraps
  refine ⟨fun s x g0 k p r c hu hc hl hb hp hr => ?_, fun s x g0 c hu hc hl => ⟨fun hv hh => ?_, fun h => ?_⟩⟩
  · rw [trap_reenters c hu hc hl, reenter_of_bank (g := x.trapped c) _ _ hb hp hr, putU_units, find_put_self]
    exact ⟨_, _, rfl, rfl, rfl, rfl, rfl, look_store_self 0 k.s r (BitVec.ofNat 32 1),
      fun n hn => look_store_ne 0 k.s r n (BitVec.ofNat 32 1) hn, rfl, rfl, rfl, rfl, rfl, rfl⟩
  · rw [trap_in_kernel c hu hc hl, kernelEntry_handles (g := x.trapped c) s hv hh, putU_units, find_put_self]
    exact ⟨_, rfl, rfl, rfl, rfl⟩
  · rw [trap_in_kernel c hu hc hl, kernelEntry_stops (g := x.trapped c) s h, fire_units, putU_units, find_put_self]
    exact ⟨_, rfl, rfl⟩

end Sys2Proof.Machine
end

section
/-! System registers and TLB invalidation (R350 to R353, R422, R423). -/
namespace Sys2Proof.Machine

/-! SYSRD and SYSWR. -/

section
variable {x : Iss} {a : Reg} {r die : Nat} (s : State) (d : Reg) (hr : x.sysRef (x.g.rd a 0).toNat = some (r, die))
  (hb : 0x0670 ≤ r → r ≤ 0x06FF → bankReg r = true)
include hr hb

theorem sysrd_of_register : x.sysrd s d a = .retire s (x.toPair d (x.sysRead s r die).toNat) := by
  have hn : ¬(0x0670 ≤ r ∧ r ≤ 0x06FF ∧ bankReg r = false) := fun ⟨h1, h2, h3⟩ => by simp [hb h1 h2] at h3
  simp only [Iss.sysrd, hr, if_neg hn]

/-- The chain of a write's checks (R352, R353). -/
theorem syswr_of_register (b : Reg) : x.syswr s d a b =
    if x.sysDeny s r die (x.g.rd2 b 0).toNat then .retire s (x.toS d 1)
    else if sysReadOnly r then .retire s (x.toS d 3)
    else if sysReserved r (x.g.rd2 b 0).toNat then .retire s (x.toS d 2)
    else if r = 0x0105 ∧ s.gleanFull x.tsel = true then .wait s .other
    else .retire (x.sysApply s r die (x.g.rd2 b 0)).1 (({ x with g := (x.sysApply s r die (x.g.rd2 b 0)).2 } : Iss).toS d 0) := by
  have hn : ¬(0x0670 ≤ r ∧ r ≤ 0x06FF ∧ bankReg r = false) := fun ⟨h1, h2, h3⟩ => by simp [hb h1 h2] at h3
  simp only [Iss.syswr, hr, if_neg hn]

end

theorem sysrd_of_no_register {x : Iss} {a : Reg} (s : State) (d : Reg) (h : x.sysRef (x.g.rd a 0).toNat = none) :
    x.sysrd s d a = .trap 0 := by
  simp only [Iss.sysrd, h]

theorem syswr_of_no_register {x : Iss} {a : Reg} (s : State) (d b : Reg) (h : x.sysRef (x.g.rd a 0).toNat = none) :
    x.syswr s d a b = .trap 0 := by
  simp only [Iss.syswr, h]

/-- A write of a register leaves width and predicates, so the lanes that execute stay. -/
theorem lanes_sysApply (x : Iss) (s : State) (r die : Nat) (v : DWord) :
    ({ x with g := (x.sysApply s r die v).2 } : Iss).lanes = x.lanes := by
  unfold Iss.sysApply
  dsimp only
  repeat' split
  all_goals rfl

/-- The registers of R385 and R404 that hold what is written, and do nothing more. -/
theorem sysApply_stored {r : Nat} (hr : r ∈ [0x0500, 0x0501, 0x0011, 0x0010]) (x : Iss) (s : State) (die : Nat) (v : DWord) :
    x.sysApply s r die v = (s.sysW r die 0 0 v, x.g) := by
  simp only [List.mem_cons, List.not_mem_nil, or_false] at hr
  rcases hr with rfl | rfl | rfl | rfl <;> rfl

theorem sysR_sysW_other (s : State) {num die vd sub num' die' vd' sub' : Nat} (v : DWord)
    (h : sysKey num' die' vd' sub' ≠ sysKey num die vd sub) :
    (s.sysW num die vd sub v).sysR num' die' vd' sub' = s.sysR num' die' vd' sub' := by
  unfold State.sysR State.sysW store
  dsimp only
  split
  · exact look_del_ne _ _ h
  · exact look_put_ne _ _ _ _ _ h

/-! TLB invalidation. -/

section
variable {x : Iss} (s : State) (covers : Nat × Nat × Nat → Bool)

theorem invalidate_of_holders (hw : ∀ cs ts, x.p.wait ≠ some (.performed cs ts)) : x.invalidate s covers =
    if (s.holders x.owns covers).1.isEmpty && (s.holders x.owns covers).2.isEmpty then
      .retire (s.tlbRemove (x.tlbPart s) covers) x.g
    else .wait (s.tlbRemove (x.tlbPart s) covers) (.performed (s.holders x.owns covers).1 (s.holders x.owns covers).2) := by
  unfold Iss.invalidate
  split
  · next cs ts h => exact absurd h (hw cs ts)
  · rfl

theorem invalidate_unheld (hw : ∀ cs ts, x.p.wait ≠ some (.performed cs ts)) (hh : s.holders x.owns covers = ([], [])) :
    x.invalidate s covers = .retire (s.tlbRemove (x.tlbPart s) covers) x.g := by
  rw [invalidate_of_holders s covers hw, hh]
  rfl

theorem invalidate_held (hw : ∀ cs ts, x.p.wait ≠ some (.performed cs ts)) (hh : s.holders x.owns covers ≠ ([], [])) :
    x.invalidate s covers = .wait (s.tlbRemove (x.tlbPart s) covers)
      (.performed (s.holders x.owns covers).1 (s.holders x.owns covers).2) := by
  rw [invalidate_of_holders s covers hw, if_neg]
  simpa [Prod.ext_iff] using hh

theorem invalidate_performed {cs : List Nat} {ts : List (Nat × Nat)} (hw : x.p.wait = some (.performed cs ts))
    (hp : s.performed cs ts = true) : x.invalidate s covers = .retire s x.g := by
  simp only [Iss.invalidate, hw, hp, if_true]

end

/-- The three forms of TLB invalidation, by the translations that each covers. -/
theorem exec_of_invalidation {a b : Reg} {i : Instr} {covers : Iss → Nat × Nat × Nat → Bool} (hi : (i, covers) ∈ [
      (Instr.tlbinv a b, fun x e => e.1 == (x.g.rd b 0).toNat % 2 ^ 16 && e.2.2 == (x.g.rd2 a 0).toNat / 2 ^ lvlShift e.2.1),
      (.tlbinva b, fun x e => e.1 == (x.g.rd b 0).toNat % 2 ^ 16), (.tlbinvaAll, fun _ _ => true)]) :
    ∀ s, exec i s = issue (Instr.sig i) s (fun x s => x.invalidate s (covers x)) := by
  simp only [List.mem_cons, Prod.mk.injEq, List.not_mem_nil, or_false] at hi
  rcases hi with ⟨rfl, rfl⟩ | ⟨rfl, rfl⟩ | ⟨rfl, rfl⟩ <;> exact fun _ => rfl

/-- Settles O49: a write by the chain of `syswr_of_register`, an invalidation by what holds accesses. -/
theorem systemRegisters : Obligations.SystemRegisters := by
  unfold Obligations.SystemRegisters
  refine ⟨⟨fun d a r die => ⟨?_, fun b => ⟨?_, ?_, ?_, ?_⟩⟩, fun d a b i hi => ?_, fun x s die v r hr => ?_⟩,
    fun a b i covers hi => ⟨?_, ?_, fun cs ts => ?_⟩, ?_⟩
  · exact retiresWhen_of (fun _ => rfl) fun s x ⟨hr, hb⟩ => sysrd_of_register s d hr hb
  · exact retiresWhen_of (fun _ => rfl) fun s x ⟨⟨hr, hb⟩, hd⟩ => (syswr_of_register s d hr hb b).trans (if_pos hd)
  · refine retiresWhen_of (fun _ => rfl) fun s x ⟨⟨hr, hb⟩, hd, ho⟩ => ?_
    rw [syswr_of_register s d hr hb, if_neg (ne_true_of_eq_false hd), if_pos ho]
  · refine retiresWhen_of (fun _ => rfl) fun s x ⟨⟨hr, hb⟩, hd, ho, hv⟩ => ?_
    rw [syswr_of_register s d hr hb, if_neg (ne_true_of_eq_false hd), if_neg (ne_true_of_eq_false ho), if_pos hv]
  · refine retiresWhen_of (fun _ => rfl) fun s x ⟨⟨hr, hb⟩, hd, ho, hv, hg⟩ => ?_
    rw [syswr_of_register s d hr hb, if_neg (ne_true_of_eq_false hd), if_neg (ne_true_of_eq_false ho),
      if_neg (ne_true_of_eq_false hv), if_neg fun h => hg h.1, Iss.toS, lanes_sysApply]
    rfl
  · simp only [List.mem_cons, List.not_mem_nil, or_false] at hi
    rcases hi with rfl | rfl
    · exact trapsWhen_of (fun _ => rfl) fun s x h => sysrd_of_no_register s d h
    · exact trapsWhen_of (fun _ => rfl) fun s x h => syswr_of_no_register s d b h
  · rw [sysApply_stored hr]
    exact ⟨rfl, sysR_sysW_self .., rfl, fun r' die' vd i h => sysR_sysW_other s v h⟩
  · exact retiresWhen_of (exec_of_invalidation hi) fun s x ⟨hw, hh⟩ => invalidate_unheld s (covers x) hw hh
  · exact waitsWhen_of (exec_of_invalidation hi) fun s x ⟨hw, hh⟩ => invalidate_held s (covers x) hw hh
  · exact retiresWhen_of (exec_of_invalidation hi) fun s x ⟨hw, hp⟩ => invalidate_performed s (covers x) hw hp
  · exact retiresWith_of fun _ => rfl

end Sys2Proof.Machine
end

section
/-! The POLICY instructions and the swap of winnow programs (R391, R392). -/
namespace Sys2Proof.Machine

/-- PLOAD of a program that is well formed, with no swap under way. -/
theorem pload_of_program {s : State} {x : Iss} {a : Reg} {q : BitVec 4} {va0 va h n : Nat} {ph pl : Place} {k : Part}
    (d : Reg) (hp : x.part s = some (x.g.rd a 0).toNat) (hk : find s.parts (x.g.rd a 0).toNat = some k) (hs : k.swap = [])
    (hc0 : capCheck (x.g.qr q.toNat) 0 16 pLOAD = .ok va0) (hl0 : locate s x.ag { r := true } va0 16 = .ok ph)
    (hg0 : x.gate s false [⟨x.low, ph⟩] = none) (hh : s.rkeys ph.keys = h) (h0 : 0 < h) (h1 : h ≤ 512)
    (hc : capCheck (x.g.qr q.toNat) 0 (16 + 2 * h) pLOAD = .ok va)
    (hl : locate s x.ag { r := true } va (16 + 2 * h) = .ok pl) (hg : x.gate s false [⟨x.low, pl⟩] = none)
    (hn : s.rkeys pl.keys = n) (hw : wReject ((List.range h).map (fun i => fld n (128 + 16 * i) 16)) = none) :
    x.pload s d a q = .retire ((s.touch x.ag false pl).modPart (x.g.rd a 0).toNat (fun k => { k with
      shadow := some (((List.range h).map (fun i => fld n (128 + 16 * i) 16)).map (BitVec.ofNat 16)) })) (x.toS d 0) := by
  have hh' : ¬(h = 0 ∨ 512 < h) := by omega
  have hp' : ¬(x.part s ≠ some (x.g.rd a 0).toNat) := fun e => e hp
  simp only [Iss.pload, Iss.qs, State.part?, if_neg hp', hk, hs, hc0, hl0, hg0, hh, if_neg hh', hc, hl, hg, hn, hw,
    List.isEmpty_nil, Bool.not_true, Bool.false_eq_true, if_false]

theorem pload_elsewhere {s : State} {x : Iss} {a : Reg} (d : Reg) (q : BitVec 4) (h : x.part s ≠ some (x.g.rd a 0).toNat) :
    x.pload s d a q = .retire s (x.toS d 1) := if_pos h

section
variable {s : State} {x : Iss} {a : Reg} {k : Part} (d : Reg) (hp : x.part s = some (x.g.rd a 0).toNat)
  (hk : find s.parts (x.g.rd a 0).toNat = some k)
include hp hk

theorem pstat_of_part (b : Reg) : x.pstat s d a b = .retire s (x.toPair d (match b.toNat with
    | 0 => k.version
    | 1 => k.decisions
    | 2 => k.overruns
    | 3 => k.invalids
    | _ => if k.shadow.isSome then 1 else 0)) := by
  simp only [Iss.pstat, State.part?, hp, hk, if_true] <;> rfl

/-- A PSWAP whose own swap is not under way (R392). -/
theorem pswap_of_part (hs : k.swap.any (fun e => e.1 == x.caller) = false) :
    x.pswap s d a = match k.answers.find? (fun e => e.1 == x.caller) with
      | some e => .retire (s.modPart (x.g.rd a 0).toNat (fun k => { k with answers := k.answers.erase e })) (x.toS d e.2)
      | none => if k.shadow.isNone then .retire s (x.toS d 5)
        else .wait (s.modPart (x.g.rd a 0).toNat (fun k => { k with swap := k.swap ++ [(x.caller, d.toNat - 96)] })) .other := by
  have hp' : ¬(x.part s ≠ some (x.g.rd a 0).toNat) := fun e => e hp
  simp only [Iss.pswap, State.part?, if_neg hp', hk, hs, Bool.false_eq_true, if_false] <;> rfl

theorem pswap_waits (hs : k.swap.any (fun e => e.1 == x.caller) = false) (hn : k.shadow ≠ none)
    (ha : k.answers.find? (fun e => e.1 == x.caller) = none) : x.pswap s d a =
      .wait (s.modPart (x.g.rd a 0).toNat (fun k => { k with swap := k.swap ++ [(x.caller, d.toNat - 96)] })) .other := by
  rw [pswap_of_part d hp hk hs, ha]
  exact if_neg fun h => hn (Option.isNone_iff_eq_none.mp h)

theorem pswap_of_no_shadow (hs : k.swap.any (fun e => e.1 == x.caller) = false) (hn : k.shadow = none)
    (ha : k.answers.find? (fun e => e.1 == x.caller) = none) : x.pswap s d a = .retire s (x.toS d 5) := by
  rw [pswap_of_part d hp hk hs, ha]
  exact if_pos (Option.isNone_iff_eq_none.mpr hn)

theorem pswap_answered {e : Caller × Nat} (hs : k.swap.any (fun e => e.1 == x.caller) = false)
    (ha : k.answers.find? (fun e => e.1 == x.caller) = some e) : x.pswap s d a =
      .retire (s.modPart (x.g.rd a 0).toNat (fun k => { k with answers := k.answers.erase e })) (x.toS d e.2) := by
  rw [pswap_of_part d hp hk hs, ha]

end

/-! Answers to an instruction that waits for the hardware. -/

/-- A group whose path in a slot is the one that a caller names, and waits. -/
def Grp.Awaits (g : Grp) (c : Caller) (b : Bool) : Prop :=
  g.gang = c.gang ∧ ∃ y, g.slot b = some y ∧ y.mask.getLsbD c.lane = true ∧ y.wait = some .other

theorem awaits_iff (g : Grp) (c : Caller) (b : Bool) : (g.gang == c.gang
    && (g.slot b).any (fun p => p.mask.getLsbD c.lane && p.wait == some .other)) = true ↔ g.Awaits c b := by
  simp [Grp.Awaits, Option.any_eq_true]

section
variable {s : State} {c : Caller} {g : Grp} (hu : find s.units c.unit = some g) (rd st : Nat)
include hu

theorem answerCaller_of_awaiting {b : Bool} (hh : g.Awaits c b) (hf : b = true → ¬g.Awaits c false) :
    s.answerCaller c rd st = some (s.complete c.unit b (fun g => g.wrS rd (BitVec.ofNat 32 st))) := by
  unfold State.answerCaller
  rw [hu]
  cases b with
  | false => exact if_pos ((awaits_iff ..).mpr hh)
  | true => exact (if_neg fun h => hf rfl ((awaits_iff ..).mp h)).trans (if_pos ((awaits_iff ..).mpr hh))

theorem answerCaller_of_absent (hf : ¬g.Awaits c false) (ht : ¬g.Awaits c true) : s.answerCaller c rd st = none := by
  unfold State.answerCaller
  rw [hu]
  exact (if_neg fun h => hf ((awaits_iff ..).mp h)).trans (if_neg fun h => ht ((awaits_iff ..).mp h))

end

/-! The swap at a decision boundary. -/

/-- The state with the record of a partition replaced. -/
def State.withPart (s : State) (p : Nat) (k : Part) : State := { s with parts := put s.parts p k }

theorem modPart_of_part {s : State} {p : Nat} {k : Part} (f : Part → Part) (h : find s.parts p = some k) :
    s.modPart p f = s.withPart p (f k) := by
  simp only [State.modPart, h, State.withPart]

/-- A partition's slots after a swap, with the PSWAPs left (R392). -/
def Part.swapped (k : Part) (r : List (Caller × Nat)) : Part :=
  { k with active := k.shadow, shadow := k.active, version := (k.version + 1) % 2 ^ 64, swap := r }

/-- A swap with a shadow answers its PSWAP with 0, now or when it executes again. -/
theorem slotSwap_of_shadow {s : State} {p rd : Nat} {k : Part} {w : Caller} {r : List (Caller × Nat)}
    (hk : find s.parts p = some k) (hs : k.swap = (w, rd) :: r) (hn : k.shadow ≠ none) :
    s.slotSwap p = ((s.withPart p (k.swapped r)).answerCaller w rd 0).getD
      ((s.withPart p (k.swapped r)).modPart p (fun k => { k with answers := k.answers ++ [(w, 0)] })) := by
  have hn' : k.shadow.isSome = true := Option.isSome_iff_ne_none.mpr hn
  simp only [State.slotSwap, State.part?, hk, hs, hn', if_true, modPart_of_part _ hk]
  rfl

/-- A path that blocks where no record is acceptable stays in its slot (R44). -/
theorem giveWay_of_no_pick {g : Grp} {gen : Nat} (b : Bool) (h : g.pick gen = none) : g.giveWay gen b = g := by
  have hy : ∀ b, g.yieldBlocked gen b = g := fun b => by
    unfold Grp.yieldBlocked Grp.swap
    rw [h]
    cases hs : g.slot b <;> simp [Grp.swapWith, hs]
  rw [Grp.giveWay, hy, hy]

theorem block_of_no_pick {s : State} {u : Nat} {g : Grp} {b : Bool} {p : Path} (w : Wait) (hu : find s.units u = some g)
    (hp : g.slot b = some p) (hk : g.pick (s.genOf g) = none) :
    s.block u b w = s.putU u (g.setSlot b (some { p with wait := some w })) := by
  have hk' : (g.setSlot b (some { p with wait := some w })).pick (s.genOf g) = none := by
    rw [setSlot_eq]
    exact hk
  have hg : s.genOf (g.setSlot b (some { p with wait := some w })) = s.genOf g := by
    rw [setSlot_eq]
    rfl
  simp only [State.block, hu, hp, Option.map_some]
  rw [hg, giveWay_of_no_pick b hk']

theorem counted_gang (g : Grp) (b : Bool) : (g.counted b).gang = g.gang := by
  simp only [Grp.counted, setSlot_eq]

theorem ceded_gang (g : Grp) (now : Nat) (b : Bool) (p : Path) (w : Word) : (g.ceded now b p w).gang = g.gang := by
  unfold Grp.ceded
  split <;> rfl

/-- The issuing path stands in its slot of its unit's group, whose gang it keeps. -/
theorem issuer_slot {s : State} {w : Word} {x : Iss} {g : Grp} (h : s.issuer w = some x) (hu : find s.units x.u = some g) :
    g.slot x.b = some x.p ∧ x.g.gang = g.gang := by
  unfold State.issuer at h
  split at h
  · cases h
  · next g0 hg0 =>
    split at h
    · cases h
    · split at h
      · cases h
      · next p hp =>
        cases h
        cases hg0.symm.trans hu
        refine ⟨hp, ?_⟩
        show Grp.gang (if p.part.isSome then g else _) = g.gang
        split
        · rfl
        · rw [ceded_gang, counted_gang]

/-- A PSWAP with a shadow, no swap under way and no answer waits, its path kept in its slot. -/
theorem pswap_blocks {s : State} {x : Iss} {d a : Reg} {k : Part} {g : Grp} (hr : Runs (.pswap d a) s x)
    (hp : x.part s = some (x.g.rd a 0).toNat) (hk : find s.parts (x.g.rd a 0).toNat = some k) (hn : k.shadow ≠ none)
    (hs : k.swap = []) (hf : k.answers.find? (fun e => e.1 == x.caller) = none) (hu : find s.units x.u = some g)
    (hg : g.pick (s.genOf g) = none) : exec (.pswap d a) s =
      .next ((s.withPart (x.g.rd a 0).toNat { k with swap := [(x.caller, d.toNat - 96)] }).putU x.u
        (g.setSlot x.b (some { x.p with wait := some .other }))) := by
  have hany : k.swap.any (fun e => e.1 == x.caller) = false := by rw [hs]; rfl
  rw [exec_runs (i := .pswap d a) (body := fun x s => x.pswap s d a) (fun _ => rfl) hr, pswap_waits d hp hk hany hn hf,
    finish, modPart_of_part _ hk, hs]
  exact congrArg _ (block_of_no_pick (s := s.withPart ..) .other hu (issuer_slot hr.1 hu).1 hg)

theorem setSlot_awaits {g : Grp} {p : Path} {c : Caller} (b : Bool) (hg : g.gang = c.gang)
    (hl : p.mask.getLsbD c.lane = true) : (g.setSlot b (some { p with wait := some .other })).Awaits c b :=
  ⟨by rw [setSlot_eq]; exact hg, _, setSlot_slot .., hl, rfl⟩

theorem not_awaits_of_empty {g : Grp} {c : Caller} {b : Bool} (h : g.slot b = none) : ¬g.Awaits c b := by
  rintro ⟨-, y, hy, -⟩
  cases h.symm.trans hy

/-- The decision boundary after `pswap_blocks`: the swap, and the answer to the path that waits. -/
theorem slotSwap_answers {s : State} {n rd : Nat} {k : Part} {c : Caller} {b : Bool} {g : Grp} {p : Path}
    (hn : k.shadow ≠ none) (hgang : g.gang = c.gang) (hl : p.mask.getLsbD c.lane = true) (ho : g.slot (!b) = none) :
    (((s.withPart n { k with swap := [(c, rd)] }).putU c.unit
        (g.setSlot b (some { p with wait := some .other })))).slotSwap n =
      (((s.withPart n { k with swap := [(c, rd)] }).putU c.unit
        (g.setSlot b (some { p with wait := some .other }))).withPart n (k.swapped [])).complete c.unit b
          (fun g => g.wrS rd 0#32) := by
  rw [slotSwap_of_shadow (k := { k with swap := [(c, rd)] }) (find_put_self ..) rfl hn,
    answerCaller_of_awaiting (b := b) (find_put_self ..) _ _ (setSlot_awaits b hgang hl) fun hb => not_awaits_of_empty ?_]
  · rfl
  · subst hb
    exact (setSlot_slot_other g true _).trans ho

/-- Settles O51: PSWAP and the decision boundary after it are `pswap_blocks` and `slotSwap_answers`. -/
theorem policyCalls : Obligations.PolicyCalls := by
  unfold Obligations.PolicyCalls
  refine ⟨fun d a q va0 va h n ph pl k => ⟨?_, ?_⟩, fun d a k => ⟨?_, ⟨?_, ?_, fun e => ?_⟩, fun b => ?_⟩,
    fun s p k w rd r g hk hs hn hu => ⟨fun b hh hf => ?_, fun hf ht => ?_⟩⟩
  · exact retiresWhen_of (fun _ => rfl) fun s x ⟨hp, hk, hs, hc0, hl0, hg0, hh, h0, h1, hc, hl, hg, hn, hw⟩ =>
      pload_of_program d hp hk hs hc0 hl0 hg0 hh h0 h1 hc hl hg hn hw
  · exact retiresWhen_of (fun _ => rfl) fun s x h => pload_elsewhere d q h
  · intro s x n g hr hp ha hk hn hs hf hu ho hg hl
    subst ha
    refine ⟨_, pswap_blocks hr hp hk hn hs hf hu hg, congrArg Host.Outcome.next ?_⟩
    refine (slotSwap_answers (c := x.caller) hn (issuer_slot hr.1 hu).2.symm hl ho).trans ?_
    rw [Part.swapped, ← hs]
    rfl
  · exact waitsWhen_of (fun _ => rfl) fun s x ⟨⟨hp, hk, hs⟩, hn, ha⟩ => pswap_waits d hp hk hs hn ha
  · exact retiresWhen_of (fun _ => rfl) fun s x ⟨⟨hp, hk, hs⟩, hn, ha⟩ => pswap_of_no_shadow d hp hk hs hn ha
  · exact retiresWhen_of (fun _ => rfl) fun s x ⟨⟨hp, hk, hs⟩, ha⟩ => pswap_answered d hp hk hs ha
  · exact retiresWhen_of (fun _ => rfl) fun s x ⟨hp, hk⟩ => pstat_of_part d hp hk b
  · refine congrArg Host.Outcome.next ((slotSwap_of_shadow hk hs hn).trans ?_)
    rw [answerCaller_of_awaiting (s := s.withPart p (k.swapped r)) hu rd 0 hh hf]
    rfl
  · refine congrArg Host.Outcome.next ((slotSwap_of_shadow hk hs hn).trans ?_)
    rw [answerCaller_of_absent (s := s.withPart p (k.swapped r)) hu rd 0 hf ht]
    rfl

end Sys2Proof.Machine
end

section
/-! Buckets, arbitration rounds and revocation epochs (R383, R398 to R400, R431, R433, R434). -/
namespace Sys2Proof.Machine

/-! Buckets. -/

theorem lend_frame (s : State) (kind inst vd n : Nat) :
    s.lend kind inst vd n = { s with pool := (s.lend kind inst vd n).pool } := by
  unfold State.lend
  split <;> rfl

theorem poolOf_lend {s : State} {vd p : Nat} (kind inst n : Nat) (hp : s.partOfVd vd = some p) :
    (s.lend kind inst vd n).poolOf kind inst p = min (s.poolCap kind inst p) (s.poolOf kind inst p + n) := by
  simp only [State.lend, hp]
  exact look_store_self ..

theorem settleLevel_frame (s : State) (kind inst vd n : Nat) : s.settleLevel kind inst vd n =
    { s with
      level := (s.setLevel kind inst vd (min (1024 * cfgDepth (s.bucketCfg kind inst vd)) n)).level
      pool := (s.settleLevel kind inst vd n).pool } := lend_frame ..

/-! Rounds of an arbiter other than ISSUE. -/

theorem oldestReq_mem {rs : List Req} {r : Req} (h : oldestReq rs = some r) : r ∈ rs := by
  induction rs with
  | nil => simp [oldestReq] at h
  | cons a rs ih =>
    rw [oldestReq] at h
    split at h
    · simp_all
    · next x hx =>
      split at h
      · exact List.mem_cons_of_mem _ (ih (hx.trans h))
      · simp_all

/-- The request that a round serves, by the first class that has one. -/
def State.roundPick (s : State) (kind inst c : Nat) : Option Req :=
  oldestReq (((s.waiting kind inst).filter s.acceptable).filter (fun r => s.classOf (s.waiting kind inst) r == c))

theorem round_eq (s : State) (kind inst : Nat) : s.round kind inst =
    match (s.roundPick kind inst 0).orElse (fun _ => (s.roundPick kind inst 1).orElse (fun _ => s.roundPick kind inst 2)) with
    | none => s
    | some r => ({ s.charge (s.classOf (s.waiting kind inst) r) r with reqs := s.reqs.erase r } : State).serveReq r := rfl

theorem roundPick_below {s : State} {kind inst cls c : Nat} (hc : c < cls)
    (h : ∀ q ∈ (s.waiting kind inst).filter s.acceptable, cls ≤ s.classOf (s.waiting kind inst) q) :
    s.roundPick kind inst c = none := by
  rw [State.roundPick, List.filter_eq_nil_iff.mpr]
  · rfl
  · intro q hq
    have := h q hq
    simp only [beq_iff_eq]
    omega

theorem round_serves {s : State} {kind inst cls : Nat} {r : Req} (hc : cls ≤ 2)
    (h : ∀ q ∈ (s.waiting kind inst).filter s.acceptable, cls ≤ s.classOf (s.waiting kind inst) q)
    (hr : s.roundPick kind inst cls = some r) :
    s.round kind inst = ({ s.charge cls r with reqs := s.reqs.erase r } : State).serveReq r := by
  have hcls : s.classOf (s.waiting kind inst) r = cls := by
    simpa using (List.mem_filter.mp (oldestReq_mem hr)).2
  have hp : (s.roundPick kind inst 0).orElse (fun _ => (s.roundPick kind inst 1).orElse
      (fun _ => s.roundPick kind inst 2)) = some r := by
    match cls, hc with
    | 0, _ => rw [hr]; rfl
    | 1, _ => rw [roundPick_below (by decide) h, hr]; rfl
    | 2, _ => rw [roundPick_below (by decide) h, roundPick_below (by decide) h, hr]; rfl
  rw [round_eq, hp, ← hcls]

theorem round_of_none {s : State} {kind inst : Nat} (h : (s.waiting kind inst).filter s.acceptable = []) :
    s.round kind inst = s := by
  have hp (c : Nat) : s.roundPick kind inst c = none := by
    rw [State.roundPick, h]
    rfl
  rw [round_eq, hp, hp, hp]
  rfl

/-! The ISSUE arbiter (R383). -/

theorem rankBefore_asymm {a b : Nat × Nat × Nat × Nat} (h : rankBefore a b = true) : rankBefore b a = false := by
  simp only [rankBefore, Bool.or_eq_true, Bool.and_eq_true, decide_eq_true_eq] at h
  simp only [rankBefore, Bool.or_eq_false_iff, Bool.and_eq_false_iff, decide_eq_false_iff_not]
  omega

/-- A fold that keeps the better of two elements finds the one that stands before every other. -/
theorem foldl_best {α : Type} {before : α → α → Bool} {f : Option α → α → Option α} {a : α}
    (hn : ∀ e, f none e = some e) (hs : ∀ x e, f (some x) e = if before e x then some e else some x)
    (hb : ∀ x y, before x y = true → before y x = false) (l : List α) {m : Option α}
    (hl : ∀ e ∈ l, e = a ∨ before a e = true) (hm : ∀ x, m = some x → x = a ∨ before a x = true)
    (ha : a ∈ l ∨ m = some a) : l.foldl f m = some a := by
  induction l generalizing m with
  | nil => simpa using ha
  | cons e l ih =>
    obtain ⟨he, hl⟩ := List.forall_mem_cons.mp hl
    refine ih hl ?_ ?_
    · intro y hy
      cases m with
      | none => exact Option.some.inj ((hn e).symm.trans hy) ▸ he
      | some x =>
        rw [hs] at hy
        split at hy
        · exact Option.some.inj hy ▸ he
        · exact Option.some.inj hy ▸ hm x rfl
    · rcases ha with ha | rfl
      · rcases List.mem_cons.mp ha with rfl | ha
        · right
          cases m with
          | none => exact hn a
          | some x =>
            rw [hs]
            rcases hm x rfl with rfl | hx
            · exact ite_self _
            · exact if_pos hx
        · exact .inl ha
      · right
        rw [hs]
        rcases he with rfl | he
        · exact ite_self _
        · exact if_neg (ne_true_of_eq_false (hb _ _ he))

/-- The group that stands before every other contender. -/
def State.issuePick (s : State) (core : Nat) : Option (Nat × Grp) :=
  (s.contenders core).foldl (fun m e => match m with
    | none => some e
    | some x => if rankBefore (s.issueRank e.1 e.2) (s.issueRank x.1 x.2) then some e else some x) none

theorem issueRound_eq (s : State) (core : Nat) : s.issueRound core = match s.issuePick core with
    | none => s
    | some (u, g) => { s with agenda := .issue u ((s.issuable u g).getD false) :: s.agenda } := rfl

theorem issueRound_picks {s : State} {core u : Nat} {g : Grp} {b : Bool} (hm : (u, g) ∈ s.contenders core)
    (hi : s.issuable u g = some b) (h : ∀ e ∈ s.contenders core, e = (u, g)
      ∨ rankBefore (s.issueRank u g) (s.issueRank e.1 e.2) = true) :
    s.issueRound core = { s with agenda := .issue u b :: s.agenda } := by
  have hf : s.issuePick core = some (u, g) :=
    foldl_best (before := fun e x => rankBefore (s.issueRank e.1 e.2) (s.issueRank x.1 x.2)) (fun _ => rfl)
      (fun _ _ => rfl) (fun _ _ => rankBefore_asymm) _ h (fun _ h => nomatch h) (.inl hm)
  rw [issueRound_eq, hf]
  simp only [hi, Option.getD_some]

/-! Epochs (R431, R433) and the gleaner (R434). -/

theorem beginEpoch_due {s : State} {vd p : Nat} (hp : s.partOfVd vd = some p)
    (h : (look {} s.epochs vd : Epochs).begun < (look {} s.epochs vd : Epochs).last)
    (hc : (look {} s.epochs vd : Epochs).complete = (look {} s.epochs vd : Epochs).begun) :
    s.beginEpoch vd =
      let e : Epochs := look {} s.epochs vd
      (s.toExamine p).foldl (fun (t : State) k => t.request 5 0 vd 1 (.examine vd (e.begun + 1) k))
        { s with epochs := put s.epochs vd { e with begun := e.begun + 1, residents := s.gangsIn p } } := by
  simp only [State.beginEpoch, hp, h, hc, and_self, if_true]

/-- A complete epoch that no reset waits for. -/
theorem endEpoch_due {s : State} {vd : Nat} {e : Epochs} (he : look {} s.epochs vd = e) (h : e.complete < e.begun)
    (hr : e.reset ≠ some e.begun) (hq : ∀ r ∈ s.reqs, ∀ k, r.what ≠ .examine vd e.begun k) :
    s.endEpoch vd = (({ s with
      epochs := put s.epochs vd { e with complete := e.begun }
      saved := s.saved.map (fun (x : Nat × Saved) => (x.1, s.sweepSaved x.2.vd x.2))
      ctxs := s.ctxs.map (fun (x : Nat × Ctx) => (x.1, { x.2 with
        threads := x.2.threads.map (fun (y : Nat × Grp) => (y.1, s.sweepGrp y.2)) }))
    } : State).retireObjs vd e.begun |>.raiseAt 0x0102 vd e.begun) := by
  have hl : s.reqs.any (fun r => match r.what with
      | .examine v n _ => v == vd && n == e.begun
      | _ => false) = false := by
    rw [List.any_eq_false]
    intro r hmem
    split
    · next v n k hw =>
      intro hvn
      simp only [Bool.and_eq_true, beq_iff_eq] at hvn
      obtain ⟨rfl, rfl⟩ := hvn
      exact hq r hmem k hw
    · simp
  unfold State.endEpoch
  dsimp only
  rw [he]
  refine (if_pos ⟨h, hl⟩).trans ((if_neg hr).trans ?_)
  rw [if_neg hr]

theorem releaseMarks_due {s : State} {vd : Nat} (h : ∀ g ∈ (look {} s.epochs vd : Epochs).residents, s.stays g = false) :
    s.releaseMarks vd = { s with rmarks := s.rmarks.filter (fun m =>
      m.vd != vd || decide ((look {} s.epochs vd : Epochs).complete < m.epoch)) } := by
  refine if_pos ?_
  rw [List.all_eq_true]
  intro g hg
  rw [h g hg]
  rfl

/-- The only gleaner request, of which no line is left. -/
theorem gleanDone_last {s : State} {g : Glean} (hg : s.gleans = [g]) (hr : s.reqs = []) :
    s.gleanDone g.vd = ({ s with gleans := [] } : State).raiseAt 0x0103 g.vd (s.sysR 0x0105 0 g.vd 0).toNat := by
  simp [State.gleanDone, hg, hr]

theorem resetErased_of_no_wipe {s : State} {vd : Nat} (hv : (s.vd? vd).resetting = true)
    (he : (look {} s.epochs vd : Epochs).reset = none) (hr : ∀ r ∈ s.reqs, ∀ k, r.what ≠ .wipe vd k) :
    s.resetErased vd = true := by
  have hw : s.wiping vd = false := by
    unfold State.wiping
    rw [List.any_eq_false]
    intro r hmem
    split
    · next v k hk =>
      intro hvd
      rw [beq_iff_eq] at hvd
      exact hr r hmem k (hvd ▸ hk)
    · simp
  rw [State.resetErased, hv, he, hw]
  rfl

theorem look_of_find {α : Type} {d v : α} {m : List (Nat × α)} {k : Nat} (h : find m k = some v) : look d m k = v := by
  induction m with
  | nil => simp [find] at h
  | cons e m ih =>
    rw [find] at h
    rw [look]
    split at h
    · next hk => rw [if_pos hk]; exact Option.some.inj h
    · next hk => rw [if_neg hk]; exact ih h

theorem find_resetFinish {s : State} {vd : Nat} {v : Vd} (h : find s.vds vd = some v) (hc : v.caller = none) :
    find (s.resetFinish vd).vds vd = some { v with
      live := false, resetting := false, frames := v.frames.map (fun f => (f.1, f.2.1, f.2.2.1, f.2.2.2 + 1))
      gens := v.gens ++ v.frames.map (fun f => (f.1, f.2.1, f.2.2.2 + 1)) } := by
  have hv : s.vd? vd = v := look_of_find h
  simp only [State.resetFinish, hv, hc, Option.bind_none, find_put_self, List.map_map]
  rfl

/-- Settles O57: one lemma for each event, the ISSUE arbiter's by `foldl_best`. -/
theorem shareEvents : Obligations.ShareEvents := by
  unfold Obligations.ShareEvents
  refine ⟨fun kind inst s => ⟨fun _ _ => rfl, fun vd n _ => ⟨?_, ?_, ?_, ?_, fun p hp => ?_⟩⟩,
    fun kind inst cls r hk => ⟨?_, ?_⟩, fun core u g b => ?_,
    fun vd p => ⟨?_, ?_, ?_, fun g => ⟨?_, ?_⟩⟩, fun s vd v h hc => find_resetFinish h hc⟩
  · rw [settleLevel_frame]
    exact look_store_self ..
  · rw [settleLevel_frame]
  · rw [settleLevel_frame]
  · rw [settleLevel_frame]
  · exact poolOf_lend kind inst _ (s := s.setLevel kind inst vd _) hp
  · exact fun s ⟨hq, hc, hr⟩ => congrArg Host.Outcome.next ((if_neg hk).trans (round_serves hc hq hr))
  · exact fun s h => congrArg Host.Outcome.next ((if_neg hk).trans (round_of_none h))
  · exact fun s ⟨hm, hi, h⟩ => congrArg Host.Outcome.next (issueRound_picks hm hi h)
  · exact fun s ⟨hp, h, hc⟩ => congrArg Host.Outcome.next (beginEpoch_due hp h hc)
  · exact fun s ⟨h, hr, hq⟩ => congrArg Host.Outcome.next (endEpoch_due rfl h hr hq)
  · exact fun s h => congrArg Host.Outcome.next (releaseMarks_due h)
  · rintro s ⟨hg, rfl, hr, hv⟩
    exact congrArg Host.Outcome.next ((if_neg (by simp [State.resetErased, hv])).trans (gleanDone_last hg hr))
  · exact fun s ⟨hv, he, hr⟩ => congrArg Host.Outcome.next (if_pos (resetErased_of_no_wipe hv he hr))

end Sys2Proof.Machine
end

section
/-! Calls of the security core and the page endpoint (R426, R455, R456, R459, R463, R465). -/
namespace Sys2Proof.Machine

/-- A call that waits at an endpoint and is of its kind is served. -/
theorem serveAt_of_asked {s : State} {ep : Nat} {c : SecCall} {mine : Nat → Bool} (f : SecCall → State)
    (h : Asked s ep c) (hm : mine (c.m 0) = true) : s.serveAt ep mine f = f c := by
  obtain ⟨hh, p, e, info, hs, hu, hb, hw, hg, hws, hcs⟩ := h
  obtain ⟨u, b, g, ticket, rd, badge, words, caps⟩ := c
  dsimp only at hu hb hw hg hws hcs
  subst hu hb hws hcs
  simp only [State.serveAt, hh, hs, hw, hg, Bool.false_eq_true, if_false, if_true]
  exact if_pos hm

/-! The operations of the security core (R456). -/

/-- Its calls but VFRESET: event, operation, whether a VD's own kernel may make it, and what it does. -/
def secCalls : List (Instr × Nat × Bool × (State → SecCall → Option (State × List Cap) × Nat)) :=
  [(.partdef, 1, false, State.partdef), (.vdcreate, 2, false, State.vdcreateCall), (.claim, 3, false, State.claimCall),
    (.measure, 4, true, State.measureCall), (.extend, 5, true, State.extendCall), (.exportVd, 7, false, State.exportCall),
    (.importVd, 8, false, State.importCall), (.erase, 9, false, State.eraseCall), (.abandon, 10, false, State.abandonCall),
    (.admitVd, 11, false, State.admitCall)]

section
variable {i : Instr} {op : Nat} {own : Bool} {f : State → SecCall → Option (State × List Cap) × Nat}
  (hi : (i, op, own, f) ∈ secCalls)
include hi

/-- Each is one call of `State.secCall`; PARTDEF answers also the calls that name no operation. -/
theorem exec_of_secCalls : ∃ mine : Nat → Bool, mine op = true ∧ ∀ s, ∃ f' : SecCall → Option (State × List Cap) × Nat,
    exec i s = .next (s.secCall mine own f') ∧ ∀ c, c.m 0 = op → f' c = f s c := by
  simp only [secCalls, List.mem_cons, Prod.mk.injEq, List.not_mem_nil, or_false] at hi
  rcases hi with ⟨rfl, rfl, rfl, rfl⟩ | ⟨rfl, rfl, rfl, rfl⟩ | ⟨rfl, rfl, rfl, rfl⟩ | ⟨rfl, rfl, rfl, rfl⟩
    | ⟨rfl, rfl, rfl, rfl⟩ | ⟨rfl, rfl, rfl, rfl⟩ | ⟨rfl, rfl, rfl, rfl⟩ | ⟨rfl, rfl, rfl, rfl⟩ | ⟨rfl, rfl, rfl, rfl⟩
    | ⟨rfl, rfl, rfl, rfl⟩
  · exact ⟨_, rfl, fun s => ⟨_, rfl, fun c hc => if_pos hc⟩⟩
  all_goals exact ⟨_, rfl, fun s => ⟨_, rfl, fun c _ => rfl⟩⟩

theorem vdcreate_of_op (h : op = 2) : i = .vdcreate ∧ own = false ∧ f = State.vdcreateCall := by
  subst h
  simpa [secCalls] using hi

theorem claim_of_op (h : op = 3) : i = .claim ∧ own = false ∧ f = State.claimCall := by
  subst h
  simpa [secCalls] using hi

end

section
variable {s : State} {c : SecCall} {mine : Nat → Bool} {own : Bool} (f : SecCall → Option (State × List Cap) × Nat)
  (h : Asked s secEp c) (hm : mine (c.m 0) = true)
include h hm

theorem secCall_denied (hb : c.badge ≠ 0) (ho : own = false ∨ c.m 1 + 1 ≠ c.badge) :
    s.secCall mine own f = s.secReply c 1 [] := by
  refine (serveAt_of_asked _ h hm).trans (if_pos ⟨hb, ?_⟩)
  rcases ho with rfl | ho
  · rfl
  · simp [ho]

theorem secCall_allowed (hb : c.badge = 0 ∨ (own = true ∧ c.m 1 + 1 = c.badge)) : s.secCall mine own f =
    match s.gleanStart c with
    | some t => t
    | none => match f c with
      | (some t, st) => t.1.secReply c st t.2
      | (none, st) => s.secReply c st [] := by
  refine (serveAt_of_asked _ h hm).trans (if_neg ?_)
  rintro ⟨hn, ho⟩
  rcases hb with hb | ⟨rfl, hb⟩
  · exact hn hb
  · simp [hb] at ho

end

/-- Only an accepted VDCREATE or CLAIM asks for frames, those of its own VD. -/
theorem claimAsked_some {s : State} {c : SecCall} {e : Nat × Nat × Nat} (h : s.claimAsked c = some e) :
    e.1 = c.m 1 ∧ ((c.m 0 = 3 ∧ (s.claimCall c).1.isSome = true) ∨ (c.m 0 = 2 ∧ (s.vdcreateCall c).1.isSome = true)) := by
  unfold State.claimAsked at h
  split at h
  · next hc => cases h; exact ⟨rfl, .inl hc.2⟩
  · split at h
    · next hc => cases h; exact ⟨rfl, .inr hc.2⟩
    · cases h

theorem gleanStart_of_claimed {s : State} {c : SecCall} (h : c.m 0 = 2 ∨ c.m 0 = 3 → (s.vd? (c.m 1)).claim = some c.ticket) :
    s.gleanStart c = none := by
  unfold State.gleanStart
  split
  · rfl
  · next vd lo n ha =>
    obtain ⟨rfl, hop⟩ := claimAsked_some ha
    exact if_pos (h (hop.symm.imp And.left And.left))

theorem gleanStart_of_unasked {s : State} {c : SecCall} (h : s.claimAsked c = none) : s.gleanStart c = none := by
  simp only [State.gleanStart, h]

theorem gleanStart_begins {s : State} {c : SecCall} {lo n : Nat} (ha : s.claimAsked c = some (c.m 1, lo, n))
    (hc : (s.vd? (c.m 1)).claim ≠ some c.ticket) : s.gleanStart c = some (State.wipeFrames
      { s with vds := put s.vds (c.m 1) { s.vd? (c.m 1) with claim := some c.ticket } } (c.m 1) lo n) := by
  simp only [State.gleanStart, ha, if_neg hc]

/-- The answer of a call whose frames, if it takes any, have been erased. -/
theorem secCall_done {s t : State} {c : SecCall} {mine : Nat → Bool} {own : Bool} {caps : List Cap} {st : Nat}
    {f : SecCall → Option (State × List Cap) × Nat} (h : Asked s secEp c) (hm : mine (c.m 0) = true)
    (hb : c.badge = 0 ∨ (own = true ∧ c.m 1 + 1 = c.badge)) (hf : f c = (some (t, caps), st))
    (hc : c.m 0 = 2 ∨ c.m 0 = 3 → (s.vd? (c.m 1)).claim = some c.ticket) :
    s.secCall mine own f = t.secReply c st caps := by
  rw [secCall_allowed f h hm hb, gleanStart_of_claimed hc, hf]

section
variable {i : Instr} {op : Nat} {own : Bool} {f : State → SecCall → Option (State × List Cap) × Nat} {s : State} {c : SecCall}
  (hi : (i, op, own, f) ∈ secCalls) (h : Asked s secEp c) (hop : c.m 0 = op)
include hi h hop

theorem exec_denied (hb : c.badge ≠ 0) (ho : own = false ∨ c.m 1 + 1 ≠ c.badge) : exec i s = .next (s.secReply c 1 []) := by
  obtain ⟨mine, hm, he⟩ := exec_of_secCalls hi
  obtain ⟨f', he, -⟩ := he s
  rw [he, secCall_denied f' h (hop ▸ hm) hb ho]

variable (hb : c.badge = 0 ∨ (own = true ∧ c.m 1 + 1 = c.badge))
include hb

/-- A call that may be made and whose frames, if it takes any, have been erased is answered by its operation. -/
theorem exec_answers (hg : s.gleanStart c = none) : exec i s = .next (match f s c with
    | (some t, st) => t.1.secReply c st t.2
    | (none, st) => s.secReply c st []) := by
  obtain ⟨mine, hm, he⟩ := exec_of_secCalls hi
  obtain ⟨f', he, hf'⟩ := he s
  rw [he, secCall_allowed f' h (hop ▸ hm) hb, hg, hf' c hop]

theorem exec_done {t : State} {caps : List Cap} {st : Nat} (hf : f s c = (some (t, caps), st))
    (hc : op = 2 ∨ op = 3 → (s.vd? (c.m 1)).claim = some c.ticket) : exec i s = .next (t.secReply c st caps) := by
  rw [exec_answers hi h hop hb (gleanStart_of_claimed (hop ▸ hc)), hf]

/-- VDCREATE and CLAIM begin with the erasure of the frames that they take. -/
theorem exec_erases {t : State} {caps : List Cap} {st lo n : Nat} (hf : f s c = (some (t, caps), st))
    (hc : (s.vd? (c.m 1)).claim ≠ some c.ticket)
    (hr : (op = 2 ∧ lo = c.m 4 ∧ n = c.m 5) ∨ (op = 3 ∧ lo = c.m 2 ∧ n = c.m 3)) :
    exec i s = .next (State.wipeFrames
      { s with vds := put s.vds (c.m 1) { s.vd? (c.m 1) with claim := some c.ticket } } (c.m 1) lo n) := by
  obtain ⟨mine, hm, he⟩ := exec_of_secCalls hi
  obtain ⟨f', he, -⟩ := he s
  have ha : s.claimAsked c = some (c.m 1, lo, n) := by
    rcases hr with ⟨rfl, rfl, rfl⟩ | ⟨rfl, rfl, rfl⟩
    · obtain ⟨-, rfl, rfl⟩ := vdcreate_of_op hi rfl
      have hb : c.badge = 0 := hb.resolve_right fun h => nomatch h.1
      simp [State.claimAsked, hop, hb, hf]
    · obtain ⟨-, rfl, rfl⟩ := claim_of_op hi rfl
      have hb : c.badge = 0 := hb.resolve_right fun h => nomatch h.1
      simp [State.claimAsked, hop, hb, hf]
  rw [he, secCall_allowed f' h (hop ▸ hm) hb, gleanStart_begins ha hc]

/-- A refused operation asks for no frames. -/
theorem exec_fails {st : Nat} (hf : f s c = (none, st)) : exec i s = .next (s.secReply c st []) := by
  have ha : s.claimAsked c = none := by
    rw [Option.eq_none_iff_forall_ne_some]
    intro e he
    rcases (claimAsked_some he).2 with ⟨h3, hs⟩ | ⟨h2, hs⟩
    · obtain ⟨-, -, rfl⟩ := claim_of_op hi (hop.symm.trans h3)
      simp [hf] at hs
    · obtain ⟨-, -, rfl⟩ := vdcreate_of_op hi (hop.symm.trans h2)
      simp [hf] at hs
  rw [exec_answers hi h hop hb (gleanStart_of_unasked ha), hf]

end

/-! VF reset (R465). -/

theorem exec_vfreset_of_asked {s : State} {c : SecCall} (h : Asked s secEp c) (hop : c.m 0 = 6) :
    exec .vfreset s = .next (if c.badge = 0 then s.vfresetCall c else s.secReply c 1 []) :=
  congrArg Host.Outcome.next (serveAt_of_asked (fun c => if c.badge = 0 then s.vfresetCall c else s.secReply c 1 []) h
    (beq_iff_eq.mpr hop))

theorem vfresetCall_refused {s : State} {c : SecCall} (h : s.resetStatus (c.m 1) ≠ 0) :
    s.vfresetCall c = s.secReply c (s.resetStatus (c.m 1)) [] := by
  unfold State.vfresetCall
  dsimp only
  split
  · next h0 => exact absurd h0 h
  · rfl

theorem vfresetCall_begins {s : State} {c : SecCall} (h : s.resetStatus (c.m 1) = 0) : s.vfresetCall c =
    let r := s.newReply (.path c.u c.b) none
    (r.1.putU c.u (c.g.setSlot c.b ((c.g.slot c.b).map (fun p =>
      { p with wait := some (.calling r.2 c.rd) })))).resetBegin (c.m 1) (some r.2) := by
  simp only [State.vfresetCall, h]

/-! The page endpoint (R426). -/

section
variable {s : State} {c : SecCall} {mine : Nat → Bool} (set : Bool) (h : Asked s pageEp c) (hm : mine (c.m 0) = true)
include h hm

theorem servePage_denied (hd : c.badge = 0 ∨ c.words.length ≠ 8 ∨ c.caps.length ≠ 1) :
    s.servePage mine set = s.secReply c 1 [] :=
  (serveAt_of_asked _ h hm).trans (if_pos (hd.imp_right .inr))

theorem servePage_carried_out (hb : c.badge ≠ 0) (hs : set = true → c.m 0 = 1) (hw : c.words.length = 8)
    (hc : c.caps.length = 1) (hh : s.pageHeld c = false) :
    s.servePage mine set = (s.pageCall c set).1.secReply c (s.pageCall c set).2 [] := by
  refine (serveAt_of_asked _ h hm).trans ((if_neg ?_).trans (if_neg (ne_true_of_eq_false hh)))
  rintro (h | ⟨h, h'⟩ | h | h)
  · exact hb h
  · exact h' (hs h)
  · exact h hw
  · exact h hc

end

/-! Measurements and frames (R456, R458, R459). -/

@[simp] theorem vd?_put (s : State) (vd : Nat) (v : Vd) : State.vd? { s with vds := put s.vds vd v } vd = v := look_put_self ..

theorem extendCall_meas {s : State} {c : SecCall} (hv : c.m 1 ≤ 127) (hl : (s.vd? (c.m 1)).live = true) :
    (s.extendCall c).1.map (fun r => (r.1.vd? (c.m 1)).meas) = some (sha384 (leBytes (s.vd? (c.m 1)).meas.toNat 48
      ++ (List.range 6).flatMap (fun i => leBytes (c.m (2 + i)) 4))) := by
  unfold State.extendCall
  simp only [if_neg (Nat.not_lt.mpr hv), hl, Bool.not_true, Bool.false_eq_true, if_false, secOk, Option.map_some,
    vd?_put]

theorem le_foldl_of_le {α : Type} {f : Nat → α → Nat} (hf : ∀ k a, k ≤ f k a) (l : List α) {b k : Nat} (h : b ≤ k) :
    b ≤ l.foldl f k := by
  induction l generalizing k with
  | nil => exact h
  | cons a l ih => exact ih (h.trans (hf k a))

theorem le_foldl_of_mem {α : Type} {f : Nat → α → Nat} (hf : ∀ k a, k ≤ f k a) {l : List α} {a : α} (ha : a ∈ l) {b : Nat}
    (hb : ∀ k, b ≤ f k a) (k : Nat) : b ≤ l.foldl f k := by
  induction l generalizing k with
  | nil => simp at ha
  | cons x l ih =>
    rcases List.mem_cons.mp ha with rfl | ha
    · exact le_foldl_of_le hf l (hb k)
    · exact ih ha (f k x)

/-- A new key generation is above every one that a run of frames meeting the range has had. -/
theorem lt_nextGenOf {s : State} {lo n : Nat} {e : Nat × Vd} (he : e ∈ s.vds) {f : Nat × Nat × Nat} (hf : f ∈ e.2.gens)
    (h1 : f.1 < lo + n) (h2 : lo < f.1 + f.2.1) : f.2.2 < s.nextGenOf lo n := by
  have hin (k : Nat) (f : Nat × Nat × Nat) :
      k ≤ if f.1 < lo + n ∧ lo < f.1 + f.2.1 then max k (f.2.2 + 1) else k := by
    split
    · exact Nat.le_max_left ..
    · exact Nat.le_refl k
  refine le_foldl_of_mem (fun k e => le_foldl_of_le hin e.2.gens (Nat.le_refl k)) he (fun k => ?_) 1
  refine le_foldl_of_mem hin hf (fun k => ?_) k
  rw [if_pos ⟨h1, h2⟩]
  exact Nat.le_max_right ..

theorem claimFrames_assigns (s : State) (vd lo n : Nat) (prot : Bool) :
    (lo, n, prot, s.nextGenOf lo n) ∈ ((s.claimFrames vd lo n prot).vd? vd).frames
      ∧ (lo, n, s.nextGenOf lo n) ∈ ((s.claimFrames vd lo n prot).vd? vd).gens := by
  simp [State.claimFrames, State.vd?]

/-! The gleaner's erasure. -/

theorem look_filter_key_out {α : Type} (d : α) (p : Nat → Bool) (m : List (Nat × α)) {k : Nat} (h : p k = false) :
    look d (m.filter (fun e => p e.1)) k = d := by
  induction m with
  | nil => rfl
  | cons e m ih =>
    rw [List.filter_cons]
    split
    · next he =>
      rw [look, if_neg (fun hk => by simp [hk, h] at he), ih]
    · exact ih

theorem rb_zeroRange (s : State) (lo n k : Nat) : (s.zeroRange lo n).rb k = if lo ≤ k ∧ k < lo + n then 0 else s.rb k := by
  have h : (!(decide (lo ≤ k) && decide (k < lo + n))) = !decide (lo ≤ k ∧ k < lo + n) := by rw [Bool.decide_and]
  split
  · next hk => exact look_filter_key_out 0 (fun j => !(decide (lo ≤ j) && decide (j < lo + n))) s.mem (by rw [h]; simp [hk])
  · next hk => exact look_filter_key 0 (fun j => !(decide (lo ≤ j) && decide (j < lo + n))) s.mem (by rw [h]; simp [hk])

theorem serveReq_wipe {s : State} {r : Req} {vd line : Nat} (h : r.what = .wipe vd line) :
    s.serveReq r = s.erasePa (128 * line) 128 := by
  simp only [State.serveReq, h]

/-- The erasure of one line: its bytes and tags, and nothing else (R456). -/
theorem wipe_clears_line {s : State} {r : Req} {vd line : Nat} (h : r.what = .wipe vd line) :
    (∀ k, 128 * line ≤ k → k < 128 * (line + 1) → (s.serveReq r).rb k = 0)
    ∧ (∀ k, k < 128 * line ∨ 128 * (line + 1) ≤ k → k < tileKey 0 → (s.serveReq r).rb k = s.rb k)
    ∧ (s.serveReq r).units = s.units ∧ (s.serveReq r).vds = s.vds := by
  rw [serveReq_wipe h]
  refine ⟨fun k h1 h2 => ?_, fun k h1 h2 => ?_, rfl, rfl⟩
  · rw [State.erasePa, rb_zeroRange, rb_zeroRange, if_pos (c := 128 * line ≤ k ∧ k < 128 * line + 128) (by omega), ite_self]
  · rw [State.erasePa, rb_zeroRange, rb_zeroRange, if_neg (by unfold tileKey at *; omega), if_neg (by omega)]

/-! The handover between two modules (R463). -/

theorem releaseAsked_first {s : State} {vd : Nat} {v : Vd} (dest : Nat) (hv : find s.vds vd = some v) (hl : v.live = true)
    (hh : v.hstate = 1) (hr : v.released = none) :
    s.releaseAsked vd dest = { s with vds := put s.vds vd { v with released := some (dest, false) } } := by
  have e : s.vd? vd = v := look_of_find hv
  simp [State.releaseAsked, e, hl, hh, hr]

theorem confirmed_erased {s : State} {vd : Nat} {v : Vd} (hv : find s.vds vd = some v) (hr : v.released ≠ none)
    (hh : v.hstate = 2) : s.confirmed vd = { s with vds := put s.vds vd { v with
      live := false, hstate := 0, retries := 0, blob := none, released := none } } := by
  have e : s.vd? vd = v := look_of_find hv
  simp [State.confirmed, e, hh, Option.isSome_iff_ne_none, hr]

/-- Settles O58: the calls by the lemmas of `secCalls`, of VFRESET and of the page endpoint. -/
theorem securityEvents : Obligations.SecurityEvents := by
  unfold Obligations.SecurityEvents
  refine ⟨fun i op own f hi s c h hop => ⟨fun hb st => ⟨fun t caps hf hc => ?_, fun t caps lo n hf hc hr => ?_, fun hf => ?_⟩,
      fun hb ho => ?_⟩,
    fun s c h hop => ⟨fun hb hr => ?_, fun hb hr => ?_, fun hb => ?_⟩, fun vd => ⟨?_, ?_⟩,
    fun s c h hd => ⟨fun hm => ?_, fun hm => ?_⟩, fun s c h hb hw hc hh => ⟨fun hm => ?_, fun hm => ?_⟩,
    fun s c hv hl => extendCall_meas hv hl,
    fun s vd lo n prot => ⟨rfl, s.nextGenOf lo n, (claimFrames_assigns s vd lo n prot).1, (claimFrames_assigns s vd lo n prot).2,
      fun e he f hf h1 h2 => lt_nextGenOf he hf h1 h2⟩,
    fun s r vd line hr => wipe_clears_line hr, fun vd dest v => ⟨?_, ?_⟩⟩
  · exact exec_done hi h hop hb hf hc
  · exact exec_erases hi h hop hb hf hc hr
  · exact exec_fails hi h hop hb hf
  · exact exec_denied hi h hop hb ho
  · rw [exec_vfreset_of_asked h hop, if_pos hb, vfresetCall_refused hr]
  · rw [exec_vfreset_of_asked h hop, if_pos hb, vfresetCall_begins hr]
  · rw [exec_vfreset_of_asked h hop, if_neg hb]
  · exact fun s h => congrArg Host.Outcome.next (if_pos h)
  · exact fun s h => congrArg Host.Outcome.next (if_neg h)
  · exact congrArg Host.Outcome.next (servePage_denied true h (bne_iff_ne.mpr hm) hd)
  · exact congrArg Host.Outcome.next (servePage_denied false h (beq_iff_eq.mpr hm) hd)
  · exact congrArg Host.Outcome.next
      (servePage_carried_out true h (bne_iff_ne.mpr (hm ▸ by decide)) hb (fun _ => hm) hw hc hh)
  · exact congrArg Host.Outcome.next
      (servePage_carried_out false h (beq_iff_eq.mpr hm) hb (fun h => nomatch h) hw hc hh)
  · exact fun s ⟨hv, hl, hh, hr⟩ => congrArg Host.Outcome.next (releaseAsked_first dest hv hl hh hr)
  · exact fun s ⟨hv, hr, hh⟩ => congrArg Host.Outcome.next (confirmed_erased hv hr hh)

end Sys2Proof.Machine
end

section
/-! Control registers with effects, alarms, tests, updates, wear and power (R407, R410, R434, R472 to R480). -/
namespace Sys2Proof.Machine

/-! Writes that happen within a SYSWR. -/

theorem exec_glreqWrite_accepted {s : State} {vd v : Nat} (hr : sysReserved 0x0105 v = false)
    (hg : s.glRange vd v = true) (hf : s.gleanFull vd = false) : exec (.glreqWrite vd v) s = .next (s.queueGlean vd v) :=
  congrArg Host.Outcome.next (if_neg (by simp [hr, hg, hf]))

theorem exec_bcfgWrite_accepted {s : State} {die kind vd v : Nat} (hr : sysReserved 0x0201 v = false)
    (hp : s.partOfVd vd ≠ none) (hb : s.bcfgBad die kind vd v = false) :
    exec (.bcfgWrite die kind vd v) s = .next (s.bcfgSet die kind vd v) :=
  congrArg Host.Outcome.next (if_neg (by simp [hr, hp, hb]))

theorem exec_svclendWrite_accepted {s : State} {die v : Nat} (hr : sysReserved 0x0210 v = false)
    (hl : s.lendOk die v = true) : exec (.svclendWrite die v) s = .next (s.lendSet die v) :=
  congrArg Host.Outcome.next (if_neg (by simp [hr, hl]))

/-! Events that a check may refuse, which then change nothing. -/

theorem next_getD_of_some {o : Option State} {t : State} (s : State) (h : o = some t) :
    (.next (o.getD s) : Out) = .next t := by
  rw [h, Option.getD_some]

theorem next_getD_of_none {o : Option State} (s : State) (h : o = none) : (.next (o.getD s) : Out) = .next s := by
  rw [h, Option.getD_none]

/-! Repair (R478). -/

theorem retireRow_spare {s : State} {die : Nat} (ch row : Nat) (h : s.spareHbm die ≠ 0) :
    s.retireRow die ch row = some { s with retired := s.retired ++ [(die, ch, some row)] } := if_neg h

theorem retireRow_no_spare {s : State} {die : Nat} (ch row : Nat) (h : s.spareHbm die = 0) :
    s.retireRow die ch row = none := if_pos h

theorem retireChannel_free {s : State} {die ch : Nat} (h : s.claimedIn (channelLo die ch) (channelLo die (ch + 1)) = false)
    (hn : (die, ch, none) ∉ s.retired) :
    s.retireChannel die ch = some { s with retired := s.retired ++ [(die, ch, none)] } := by
  simp [State.retireChannel, h, hn]

theorem retireChannel_claimed {s : State} {die ch : Nat}
    (h : s.claimedIn (channelLo die ch) (channelLo die (ch + 1)) = true) : s.retireChannel die ch = none := if_pos h

theorem loftW_frame (core slice : Nat) (bs : List Byte) (s : State) (a : Nat) :
    s.loftW core slice a bs = { s with loft := (s.loftW core slice a bs).loft } := by
  induction bs generalizing s a with
  | nil => rfl
  | cons b bs ih =>
    rw [State.loftW]
    exact ih _ _

theorem remapLoft_free {s : State} {core : Nat}
    (hh : s.handles.all (fun e => e.1 / 64 != core || e.2.holder.isNone) = true) (hs : 0 < s.spareLoft (core / 64)) :
    s.remapLoft core = State.loftW
      { s with free := s.free + 1 + 131072, remaps := s.remaps ++ [(core, s.freeVal % 128)] }
      core (s.freeVal % 128) 0 (s.draw.freeBytes 131072) :=
  if_pos (by rw [hh, decide_eq_true hs]; rfl)

/-- A remap gives its slice free contents, and changes no memory, unit or Crib. -/
theorem remapLoft_frame {s : State} {core : Nat}
    (hh : s.handles.all (fun e => e.1 / 64 != core || e.2.holder.isNone) = true) (hs : 0 < s.spareLoft (core / 64)) :
    (s.remapLoft core).remaps = s.remaps ++ [(core, s.freeVal % 128)] ∧ (s.remapLoft core).mem = s.mem
      ∧ (s.remapLoft core).units = s.units ∧ (s.remapLoft core).crib = s.crib := by
  rw [remapLoft_free hh hs, loftW_frame]
  exact ⟨rfl, rfl, rfl, rfl⟩

/-! Dies and their links (R474, R475). -/

theorem dieOffline_free {s : State} {die : Nat} (h : s.partOfDie die = none) :
    s.dieOffline die = some (s.setDie die 1).relink := if_neg (by rw [h]; decide)

theorem dieOffline_owned {s : State} {die : Nat} (h : s.partOfDie die ≠ none) : s.dieOffline die = none :=
  if_pos (Option.isSome_iff_ne_none.mpr h)

theorem exec_dieTestComplete_of_test {s : State} {die : Nat} (h : fld (s.sysR 0x0700 die 0 0).toNat 0 2 = 2) :
    exec (.dieTestComplete die) s
      = .next (((s.draw.clearDie die).setDie die (if s.freeVal % 2 = 0 then 0 else 1)).relink) :=
  congrArg Host.Outcome.next (if_pos h)

theorem openBits_lt (s : State) (d : Nat) : s.openBits d < 32 := by
  have h (p : Prop) [Decidable p] (n : Nat) : (if p then n else 0) ≤ n := by
    split <;> omega
  unfold State.openBits
  dsimp only
  exact Nat.lt_of_le_of_lt
    (Nat.add_le_add (Nat.add_le_add (Nat.add_le_add (Nat.add_le_add (h _ _) (h _ _)) (h _ _)) (h _ _)) (h _ _)) (by decide)

theorem openBits_of_down {s : State} {d : Nat} (h : s.dieUp d = false) : s.openBits d = 0 := by
  simp [State.openBits, h]

/-- The OPEN bits of a die's links register (R454). -/
def State.linkBits (s : State) (die : Nat) : Nat := (s.sysR 0x0401 die 0 0).toNat % 32

theorem linkBits_setLinks (s : State) (d die bits : Nat) :
    (s.setLinks d bits).linkBits die = if die = d then bits % 32 else s.linkBits die := by
  unfold State.linkBits State.setLinks
  split
  · next h =>
    subst h
    rw [sysR_sysW_self, BitVec.toNat_ofNat]
    omega
  · next h =>
    rw [sysR_sysW_other]
    unfold sysKey
    omega

theorem linkBits_foldl_setLinks (f : Nat → Nat) (l : List Nat) (s : State) (die : Nat) :
    (l.foldl (fun (u : State) d => u.setLinks d (f d)) s).linkBits die = if die ∈ l then f die % 32 else s.linkBits die := by
  induction l generalizing s with
  | nil => rfl
  | cons d l ih =>
    rw [List.foldl_cons, ih, linkBits_setLinks]
    by_cases hl : die ∈ l
    · simp [hl]
    · by_cases hd : die = d
      · simp [hd]
      · simp [hl, hd]

theorem linkBits_relink (s : State) {die : Nat} (h : die < 20) : s.relink.linkBits die = s.openBits die := by
  rw [State.relink, linkBits_foldl_setLinks, if_pos (List.mem_range.mpr h), Nat.mod_eq_of_lt (openBits_lt s die)]

/-! Alarms (R476). -/

theorem alarm_lt (s : State) (die : Nat) : s.alarm die < 16 := fld_lt ..

/-- An alarm raised is in ALARM; what of it is new fires a source, which changes neither it nor the conditions. -/
theorem raiseAlarm_frame (s : State) (die bits : Nat) :
    (s.raiseAlarm die bits).sys = (s.sysW 0x0704 die 0 0 (BitVec.ofNat 64 (s.alarm die ||| bits % 16))).sys
      ∧ (s.raiseAlarm die bits).conds = s.conds := by
  unfold State.raiseAlarm
  dsimp only
  split
  · exact ⟨rfl, rfl⟩
  · rw [fire_frame]
    exact ⟨rfl, rfl⟩

theorem sysR_raiseAlarm (s : State) (die bits : Nat) :
    ((s.raiseAlarm die bits).sysR 0x0704 die 0 0).toNat = s.alarm die ||| bits % 16 := by
  have hlt : s.alarm die ||| bits % 16 < 2 ^ 4 := Nat.or_lt_two_pow (alarm_lt s die) (Nat.mod_lt _ (by decide))
  rw [State.sysR, (raiseAlarm_frame s die bits).1, ← State.sysR, sysR_sysW_self, BitVec.toNat_ofNat, Nat.mod_eq_of_lt]
  omega

theorem sysR_clearAlarm (s : State) (die bits : Nat) :
    ((s.clearAlarm die bits).sysR 0x0704 die 0 0).toNat = s.alarm die &&& (15 - bits % 16) := by
  have hlt : s.alarm die &&& (15 - bits % 16) ≤ s.alarm die := Nat.and_le_left
  have := alarm_lt s die
  refine (congrArg BitVec.toNat (sysR_sysW_self ..)).trans ?_
  rw [BitVec.toNat_ofNat, Nat.mod_eq_of_lt]
  omega

/-! Update of the firmware (R480). -/

theorem fwGo_starts {s : State} (h : s.fwState = 0 ∨ s.fwState = 3) : s.fwGo = s.setFw 1 := if_neg (by omega)

theorem fwGo_ignored {s : State} (h : s.fwState = 1 ∨ s.fwState = 2) : s.fwGo = s := if_pos h

theorem fwStep_swaps {s : State} (h : s.fwState = 2) (hv : ∀ e ∈ s.vds, e.2.caller = none ∧ e.2.claim = none)
    (hb : s.ctlBoundary = true) : s.fwStep = ({ s with measFw := s.fwNext } : State).setFw 0 := by
  have hany : s.vds.any (fun e => e.2.caller.isSome || e.2.claim.isSome) = false := by
    rw [List.any_eq_false]
    intro e he
    obtain ⟨hc, hm⟩ := hv e he
    simp [hc, hm]
  simp only [State.fwStep, h, hany, hb, Bool.not_true, Bool.or_false, Bool.false_eq_true, if_false]

theorem fwStep_verifies {s : State} (h : s.fwState = 1) : s.fwStep = if Config.fwSigned s.fwImage then
    ({ s with fwNext := Config.fwDigest s.fwImage } : State).setFw 2 else s.setFw 3 := by
  simp only [State.fwStep, h]

/-! Power (R473, R480). -/

theorem foldl_keeps {α β γ : Type} {f : α → β → α} {p : α → γ} (h : ∀ a b, p (f a b) = p a) (l : List β) (a : α) :
    p (l.foldl f a) = p a := by
  induction l generalizing a with
  | nil => rfl
  | cons b l ih => rw [List.foldl_cons, ih, h]

/-- At power-on the units are those of the reset, whatever the boot test gives, and memory is as it was. -/
theorem bringUp_dark {s : State} (h : s.powered = false) :
    s.bringUp.powered = true ∧ s.bringUp.units = bootCores ∧ s.bringUp.mem = s.mem := by
  have hu : s.bringUp = _ := if_neg (ne_true_of_eq_false h)
  have hp : (s.bringUp.powered, s.bringUp.units, s.bringUp.mem) = (true, bootCores, s.mem) := by
    rw [hu]
    refine foldl_keeps (p := fun t : State => (t.powered, t.units, t.mem)) (fun t d => ?_) _ _
    split <;> rfl
  obtain ⟨hp, hm⟩ := Prod.mk.inj hp
  exact ⟨hp, Prod.mk.inj hm⟩

/-- The tiers above HBM and what stands for them stay, and no byte of HBM does. -/
theorem rb_dark (s : State) {k : Nat} (h : k < 2 ^ 52) : s.dark.rb k = 0 :=
  look_filter_key_out 0 (fun j => (decide (tierLo ≤ j) && decide (j < 2 ^ 56)) || decide (2 ^ 60 ≤ j)) s.mem (by
    have ht : tierLo = 2 ^ 52 := rfl
    simp only [ht, Bool.or_eq_false_iff, Bool.and_eq_false_iff, decide_eq_false_iff_not]
    omega)

/-- Settles O59: one lemma for each write and event. -/
theorem moduleEvents : Obligations.ModuleEvents := by
  unfold Obligations.ModuleEvents
  refine ⟨fun vd v s ⟨hr, hg, hf⟩ => exec_glreqWrite_accepted hr hg hf,
    fun die kind vd v s ⟨hr, hp, hb⟩ => exec_bcfgWrite_accepted hr hp hb,
    fun die v s ⟨hr, hl⟩ => exec_svclendWrite_accepted hr hl,
    fun die ch row => ⟨?_, ?_, ?_, ?_⟩, fun die => ⟨?_, ?_, fun _ _ => rfl, fun s h => ?_, fun s h => ?_⟩,
    fun die bits hd s => ?_, ⟨?_, ?_, ?_, ?_, ?_⟩, fun s die hd => ?_, fun s core hh hs => ?_, ?_, fun s h => ?_,
    fun s => ?_, fun m s _ => rfl⟩
  · exact fun s h => next_getD_of_some s (retireRow_spare ch row h)
  · exact fun s h => next_getD_of_none s (retireRow_no_spare ch row h)
  · exact fun s ⟨h, hn⟩ => next_getD_of_some s (retireChannel_free h hn)
  · exact fun s h => next_getD_of_none s (retireChannel_claimed h)
  · exact fun s h => next_getD_of_some s (dieOffline_free h)
  · exact fun s h => next_getD_of_none s (dieOffline_owned h)
  · refine ⟨_, ?_, exec_dieTestComplete_of_test h⟩
    split
    · exact .inl rfl
    · exact .inr rfl
  · exact ⟨linkBits_relink s h, openBits_of_down⟩
  · refine ⟨_, congrArg Host.Outcome.next (if_pos hd), sysR_raiseAlarm .., ?_, ⟨_, rfl, sysR_clearAlarm .., rfl⟩, rfl⟩
    rw [(raiseAlarm_frame ..).2]
    exact look_store_self ..
  · exact fun s h => congrArg Host.Outcome.next (fwGo_starts h)
  · exact fun s h => congrArg Host.Outcome.next (fwGo_ignored h)
  · exact fun s ⟨h, hv, hb⟩ => congrArg Host.Outcome.next (fwStep_swaps h hv hb)
  · exact fun s ⟨h, hs⟩ => congrArg Host.Outcome.next ((fwStep_verifies h).trans (if_pos hs))
  · exact fun s ⟨h, hs⟩ => congrArg Host.Outcome.next ((fwStep_verifies h).trans (if_neg (ne_true_of_eq_false hs)))
  · exact ⟨_, _, Config.freeLife s.free % 2 ^ 32, congrArg Host.Outcome.next (if_pos hd), rfl, Nat.mod_lt _ (by decide), rfl⟩
  · exact ⟨_, s.freeVal % 128, rfl, Nat.mod_lt _ (by decide), remapLoft_frame hh hs⟩
  · exact fun s h => congrArg Host.Outcome.next (if_pos h)
  · exact ⟨_, rfl, bringUp_dark h⟩
  · exact ⟨_, rfl, rfl, rfl, rfl, rfl, rfl, rfl, fun k hk => rb_dark s hk, fun die => rfl⟩

end Sys2Proof.Machine
end

section
/-! The CTX instructions (R445 to R450). -/
namespace Sys2Proof.Machine

section
variable {s : State} {x : Iss} {q : BitVec 4} {base : Nat} {o : Obj} {n : Nat} {k : Ctx}
  (hq : objCheck (x.qs q) 6 pSPAWN = .ok base) (ho : x.rootArg s base = .ok o)
include hq ho

/-! HALTCTX. -/

section
variable (d : Reg) (save : Bool) (hn : (s.openCtx o.vd o.va).2 = n) (hk : find (s.openCtx o.vd o.va).1.ctxs n = some k)
include hn hk

theorem haltctx_answered {a : Caller × Nat} (ha : k.answers.find? (fun e => e.1 == x.caller) = some a) :
    x.haltctx s d q save
      = .retire (s.modCtx n (fun k => { k with answers := k.answers.erase a })) (x.toS d a.2) := by
  simp only [Iss.haltctx, hq, ho, hn, hk, ha]

variable (ha : k.answers.find? (fun e => e.1 == x.caller) = none)
include ha

theorem haltctx_of_saved (hs : k.state = .saved) : x.haltctx s d q save = .retire s (x.toS d 3) := by
  simp only [Iss.haltctx, hq, ho, hn, hk, ha, hs]

theorem haltctx_of_halted (hs : k.state = .halted) : x.haltctx s d q false = .retire s (x.toS d 0) := by
  simp only [Iss.haltctx, hq, ho, hn, hk, ha, hs, Bool.not_false, if_true]

theorem haltctxSave_of_halted (hs : k.state = .halted) : x.haltctx s d q true =
    .retire ((s.openCtx o.vd o.va).1.saveCtx n).1 (x.toS d (if ((s.openCtx o.vd o.va).1.saveCtx n).2 then 0 else 5)) := by
  simp only [Iss.haltctx, hq, ho, hn, hk, ha, hs, Bool.not_true, Bool.false_eq_true, if_false]

/-- A context that runs, halts or was killed: its caller waits until it has halted. -/
theorem haltctx_of_unhalted (hs : k.state = .running ∨ k.state = .halting ∨ k.state = .dead) : x.haltctx s d q save =
    if k.callers.any (fun e => e.1 == x.caller) then .wait s .other
    else .done (((((s.openCtx o.vd o.va).1.putU x.u x.g).block x.u x.b .other).modCtx n (fun k => { k with
      state := .halting, byCall := k.byCall || k.state == .running
      callers := k.callers ++ [(x.caller, d.toNat - 96, save)] })).finishHalt n) := by
  rcases hs with hs | hs | hs <;> simp only [Iss.haltctx, hq, ho, hn, hk, ha, hs] <;> rfl

end

/-! RESUMECTX, STOPRD and QDRAIN of a context that is known. -/

variable (hc : s.ctxNo o.vd o.va = some n) (hk : find s.ctxs n = some k)
include hc hk

section
variable (d a : Reg)

theorem resumectx_of_unhalted (h1 : k.state ≠ .halted) (h2 : k.state ≠ .saved) :
    x.resumectx s d a q = .retire s (x.toS d 3) := by
  simp only [Iss.resumectx, hq, ho, hc, hk, Option.bind_some, Option.map_some]
  exact if_pos (.inl ⟨h1, h2⟩)

variable (hh : (s.vd? o.vd).hstate = 0)
include hh

theorem resumectx_kills (hv : (x.g.rd a 0).toNat = 0) (hs : k.state = .halted ∨ k.state = .saved) :
    x.resumectx s d a q = .retire ((s.putU x.u x.g).killCtx n)
      (((find ((s.putU x.u x.g).killCtx n).units x.u).getD x.g).wrS (d.toNat - 96) 0#32) := by
  simp only [Iss.resumectx, hq, ho, hc, hk, Option.bind_some, Option.map_some, hv]
  rw [if_neg (by rcases hs with hs | hs <;> simp [hs, hh, bit, fld]), if_neg (by decide), if_pos (by decide)]
  rfl

theorem resumectx_runs (hv : (x.g.rd a 0).toNat = 1) (hs : k.state = .halted) :
    x.resumectx s d a q = .retire ((s.putU x.u x.g).runOn n)
      (((find ((s.putU x.u x.g).runOn n).units x.u).getD x.g).wrS (d.toNat - 96) 0#32) := by
  simp only [Iss.resumectx, hq, ho, hc, hk, Option.bind_some, Option.map_some, hv]
  rw [if_neg (by simp [hs, hh, bit, fld]), if_neg (by decide), if_neg (by decide), if_pos hs]
  rfl

theorem resumectx_moves {row col : Nat} {t : State} (hr : row < 256) (hl : col < 256)
    (hv : (x.g.rd a 0).toNat = 5 + row * 256 + col * 65536) (hs : k.state = .saved)
    (ht : (s.putU x.u x.g).restoreCtx n row col = some t) : x.resumectx s d a q =
      .retire t (((find t.units x.u).getD x.g).wrS (d.toNat - 96) 0#32) := by
  have hm : bit (x.g.rd a 0).toNat 2 = true := by
    rw [bit, beq_iff_eq, fld]
    omega
  have hf : ¬(fld (x.g.rd a 0).toNat 24 8 ≠ 0 ∨ fld (x.g.rd a 0).toNat 3 5 ≠ 0 ∨ 2 ≤ fld (x.g.rd a 0).toNat 0 2) := by
    unfold fld
    omega
  have h0 : fld (x.g.rd a 0).toNat 0 2 ≠ 0 := by
    unfold fld
    omega
  have h1 : fld (x.g.rd a 0).toNat 8 8 = row := by
    unfold fld
    omega
  have h2 : fld (x.g.rd a 0).toNat 16 8 = col := by
    unfold fld
    omega
  simp only [Iss.resumectx, hq, ho, hc, hk, Option.bind_some, Option.map_some]
  rw [if_neg (by simp [hs, hh]), if_neg hf, if_neg h0, if_neg (by simp [hs]), if_pos hm, h1, h2, ht]
  rfl

theorem resumectx_unplaced (hv : (x.g.rd a 0).toNat = 1) (hs : k.state = .saved)
    (ht : (s.putU x.u x.g).restoreCtx n (s.origin n).1 (s.origin n).2 = none) :
    x.resumectx s d a q = .retire s (x.toS d 4) := by
  simp only [Iss.resumectx, hq, ho, hc, hk, Option.bind_some, Option.map_some, hv]
  rw [if_neg (by simp [hs, hh, bit, fld]), if_neg (by decide), if_neg (by decide), if_neg (by simp [hs]), if_neg (by decide), ht]

end

theorem stoprd_of_no_image (d : BitVec 4) (h : (k.state ≠ .halted ∧ k.state ≠ .saved) ∨ k.image = none) :
    x.stoprd s d q = .retire s (x.toQ d Cap.null) := by
  have hi : (if k.state = .halted ∨ k.state = .saved then k.image.map (fun i => (n, i)) else none) = none := by
    split
    · next hs =>
      rw [h.resolve_left fun ⟨h1, h2⟩ => hs.elim h1 h2]
      rfl
    · rfl
  simp only [Iss.stoprd, hq, ho, hc, hk, Option.bind_some, hi]

theorem stoprd_of_image (d : BitVec 4) {a len : Nat} (hs : k.state = .halted ∨ k.state = .saved)
    (hi : k.image = some (a, len)) : x.stoprd s d q =
      .retire (s.showImage n (mkCap (imageBase + a) len pLOAD)) (x.toQ d (mkCap (imageBase + a) len pLOAD)) := by
  simp only [Iss.stoprd, hq, ho, hc, hk, Option.bind_some, if_pos hs, hi, Option.map_some]

section
variable (d : Reg)

theorem qdrain_of_unsaved (hs : k.state ≠ .saved) : x.qdrain s d q = .retire s (x.toS d 3) := by
  simp only [Iss.qdrain, hq, ho, hc, hk, Option.bind_some, Option.map_some]
  exact if_pos hs

/-- QDRAIN of a saved context waits while a read of its gangs is in flight (R445). -/
theorem qdrain_of_saved (hs : k.state = .saved) : x.qdrain s d q =
    if s.flight.any (fun e => ((find s.saved e.2.1).map (fun v => v.ctx)) == some n) then .wait s .other
    else .retire (((s.quarantine.filter (fun e => e.2.any (fun y => y.1 == n))).map (·.1)).foldl
      (fun (t : State) c => (t.drainQuarantine n c).gained c) s) (x.toS d 0) := by
  simp only [Iss.qdrain, hq, ho, hc, hk, Option.bind_some, Option.map_some]
  exact if_neg (not_not.mpr hs)

end

end

/-! What QDRAIN does to a core's buffer. -/

theorem find_map_vals {α : Type} (f : Nat → α → α) (m : List (Nat × α)) (k : Nat) :
    find (m.map (fun e => (e.1, f e.1 e.2))) k = (find m k).map (f k) := by
  induction m with
  | nil => rfl
  | cons e m ih =>
    rw [List.map_cons, find, find]
    split
    · next h => rw [← h]; rfl
    · exact ih

theorem find_saved_drainQuarantine {s : State} {gid : Nat} {v : Saved} (n c : Nat) (h : find s.saved gid = some v) :
    find (s.drainQuarantine n c).saved gid = some { v with
      quar := v.quar ++ ((look [] s.quarantine c).filter (fun y => y.1 == n && y.2.1 == gid)).map (fun y => y.2.2) } := by
  refine (find_map_vals (fun g (v : Saved) => { v with
    quar := v.quar ++ ((look [] s.quarantine c).filter (fun y => y.1 == n && y.2.1 == g)).map (fun y => y.2.2) }) _ _).trans ?_
  rw [h]
  rfl

/-! ERET. -/

theorem eret_of_untagged {s : State} {x : Iss} {q : BitVec 4} (d a : Reg) (hu : isControl x.u = true)
    (hc : (x.qs q).tag = false) : x.eret s d a q = .retire s (x.toS d 4) := by
  simp only [Iss.eret, hu, hc, Bool.not_true, Bool.false_eq_true, if_false, Bool.not_false, true_or, if_true]

theorem eret_off_control {s : State} {x : Iss} (d a : Reg) (q : BitVec 4) (hu : isControl x.u = false) :
    x.eret s d a q = .trap 0 := if_pos (by rw [hu]; rfl)

/-- The thread goes on at level U, in its U bank and in the context of its VD's root region. -/
theorem eret_enters {s : State} {x : Iss} {q : BitVec 4} {k : Bank} {va : Nat} (d a : Reg) (hu : isControl x.u = true)
    (ht : (x.qs q).tag = true) (ho : (x.qs q).otype = 0) (hp : (x.qs q).has pEXEC = true) (hb : x.g.bank = some k)
    (hr : s.rootVa x.g.vd = some va) : x.eret s d a q =
      .done ((s.openCtx x.g.vd va).1.putU x.u { x.g.useBank k (x.p.pc + 4) with
        level := .user, ctx := some (s.openCtx x.g.vd va).2, pcc := x.qs q, pccAt := none
        stopped := !(s.openCtx x.g.vd va).1.ctxRuns (s.openCtx x.g.vd va).2, eretRd := some (d.toNat - 96)
        slotA := some { pc := x.g.rd2 a 0, mask := 1 } }) := by
  unfold Iss.eret
  rw [if_neg (by simp [hu])]
  dsimp only
  rw [if_neg (by simp [ht, ho, hp]), hb, hr]
  rfl

/-- Settles O50: for each instruction one lemma for each state that the context named is in. -/
theorem contextCalls : Obligations.ContextCalls := by
  unfold Obligations.ContextCalls
  refine ⟨fun q base o n k => ⟨fun d i save hi => ?_, fun d => ⟨?_, ?_⟩, fun d a => ⟨?_, ?_, fun row col t hr hl => ?_, ?_, ?_⟩,
    fun d => ⟨?_, fun a len => ?_⟩, fun d => ⟨?_, ?_, ?_⟩, fun s c gid v => ⟨rfl, fun m => look_store .., fun h => ?_⟩⟩,
    fun d a q k => ⟨fun va => ?_, ?_, ?_⟩⟩
  · have he : ∀ s, exec i s = issue (Instr.sig i) s (fun x s => x.haltctx s d q save) := by
      rcases List.mem_pair.mp hi with h | h <;> cases h <;> exact fun _ => rfl
    refine ⟨?_, ?_, ?_, fun a => ?_⟩
    · exact endsWhen_of he fun s x ⟨⟨hq, ho⟩, ⟨hn, hk⟩, ha, hs, hw⟩ =>
        (haltctx_of_unhalted hq ho d save hn hk ha hs).trans (if_neg (ne_true_of_eq_false hw))
    · exact waitsWhen_of he fun s x ⟨⟨hq, ho⟩, ⟨hn, hk⟩, ha, hs, hw⟩ =>
        (haltctx_of_unhalted hq ho d save hn hk ha hs).trans (if_pos hw)
    · exact retiresWhen_of he fun s x ⟨⟨hq, ho⟩, ⟨hn, hk⟩, ha, hs⟩ => haltctx_of_saved hq ho d save hn hk ha hs
    · exact retiresWhen_of he fun s x ⟨⟨hq, ho⟩, ⟨hn, hk⟩, ha⟩ => haltctx_answered hq ho d save hn hk ha
  · exact retiresWhen_of (fun _ => rfl) fun s x ⟨⟨hq, ho⟩, ⟨hn, hk⟩, ha, hs⟩ => haltctx_of_halted hq ho d hn hk ha hs
  · exact retiresWhen_of (fun _ => rfl) fun s x ⟨⟨hq, ho⟩, ⟨hn, hk⟩, ha, hs⟩ => haltctxSave_of_halted hq ho d hn hk ha hs
  · exact retiresWhen_of (fun _ => rfl) fun s x ⟨⟨hq, ho⟩, ⟨⟨hc, hk⟩, hh⟩, hv, hs⟩ => resumectx_kills hq ho hc hk d a hh hv hs
  · exact retiresWhen_of (fun _ => rfl) fun s x ⟨⟨hq, ho⟩, ⟨⟨hc, hk⟩, hh⟩, hv, hs⟩ => resumectx_runs hq ho hc hk d a hh hv hs
  · exact retiresWhen_of (fun _ => rfl) fun s x ⟨⟨hq, ho⟩, ⟨⟨hc, hk⟩, hh⟩, hv, hs, ht⟩ =>
      resumectx_moves hq ho hc hk d a hh hr hl hv hs ht
  · exact retiresWhen_of (fun _ => rfl) fun s x ⟨⟨hq, ho⟩, ⟨⟨hc, hk⟩, hh⟩, hv, hs, ht⟩ =>
      resumectx_unplaced hq ho hc hk d a hh hv hs ht
  · exact retiresWhen_of (fun _ => rfl) fun s x ⟨⟨hq, ho⟩, ⟨hc, hk⟩, h1, h2⟩ => resumectx_of_unhalted hq ho hc hk d a h1 h2
  · exact retiresWhen_of (fun _ => rfl) fun s x ⟨⟨hq, ho⟩, ⟨hc, hk⟩, h⟩ => stoprd_of_no_image hq ho hc hk d h
  · exact retiresWhen_of (fun _ => rfl) fun s x ⟨⟨hq, ho⟩, ⟨hc, hk⟩, hs, hi⟩ => stoprd_of_image hq ho hc hk d hs hi
  · exact retiresWhen_of (fun _ => rfl) fun s x ⟨⟨hq, ho⟩, ⟨hc, hk⟩, hs, hl⟩ =>
      (qdrain_of_saved hq ho hc hk d hs).trans (if_neg (ne_true_of_eq_false hl))
  · exact waitsWhen_of (fun _ => rfl) fun s x ⟨⟨hq, ho⟩, ⟨hc, hk⟩, hs, hl⟩ =>
      (qdrain_of_saved hq ho hc hk d hs).trans (if_pos hl)
  · exact retiresWhen_of (fun _ => rfl) fun s x ⟨⟨hq, ho⟩, ⟨hc, hk⟩, hs⟩ => qdrain_of_unsaved hq ho hc hk d hs
  · exact find_saved_drainQuarantine n c h
  · exact endsWhen_of (fun _ => rfl) fun s x ⟨hu, ht, ho, hp, hb, hr⟩ => eret_enters d a hu ht ho hp hb hr
  · exact retiresWhen_of (fun _ => rfl) fun s x ⟨hu, hc⟩ => eret_of_untagged d a hu hc
  · exact trapsWhen_of (fun _ => rfl) fun s x hu => eret_off_control d a q hu

end Sys2Proof.Machine
end
